-- ==== Sys2Proof/Word.lean ====
section
/-! DEFINITION. The words of the Olnath OX16 and the finite sets its rules number: functions, requesters, ports, lane pairs, lines,
rings, circuits, key slots, stacks and fault sources (R4, R9, R24, R95, R101, R195, R319, R382). -/

namespace Sys2Proof

/-- A register word (R29). -/
abbrev Word := BitVec 32
/-- One byte. -/
abbrev Byte := BitVec 8
/-- A 64-bit value: a register pair (R37), a fabric time (R9), a global address (R263). -/
abbrev DWord := BitVec 64
/-- A 64 B structure, little-endian (R5, R71): byte b is bits [8b+7:8b]. A command entry, a key blob. -/
abbrev Block64 := BitVec 512

/-- A function: 0 is PF0, n = 1 to 64 is VFn (R61). -/
abbrev Fn := Fin 65
/-- A requester (R39): 0 to 64 are the functions, 65 is the debug aperture. -/
abbrev Req := Fin 66
/-- A fibre port P0 to P15 (R95). -/
abbrev Port := Fin 16
/-- A lane pair LP0 to LP3 (00_scope). -/
abbrev PairIx := Fin 4
/-- A training unit of a port: 0 to 3 a lane pair, 4 is the spare line (PORT_TRAINk, R189). -/
abbrev UnitIx := Fin 5
/-- A line: 0 to 7 are the data wavelengths, 8 is the spare (R95). -/
abbrev LineIx := Fin 9
/-- A ring index (R101). -/
abbrev RingIx := Fin 2336
/-- A circuit of the circuit table (R195). -/
abbrev CircIx := Fin 1024
/-- A key slot (R319). -/
abbrev KeyIx := Fin 1024
/-- An HBM3E stack (R256). -/
abbrev StackIx := Fin 2
/-- A fault source (R382). -/
abbrev SrcIx := Fin 128
/-- A PF0 page number (R24). -/
abbrev PageIx := Fin 256
/-- A calibration channel p × 9 + k (R138). -/
abbrev ChanIx := Fin 144

/-- The field of a wide little-endian word that starts at bit lo and is w bits wide, as a number. -/
def fieldOf {n : Nat} (x : BitVec n) (lo w : Nat) : Nat := (x >>> lo).toNat % 2 ^ w

/-- The field of a structure that starts at byte b, bit lo of that byte, w bits wide (R5). -/
def byteField {n : Nat} (x : BitVec n) (b lo w : Nat) : Nat := fieldOf x (8 * b + lo) w

/-- A number as a signed value of w bits (two's complement, R112). -/
def toSigned (w v : Nat) : Int := if v % 2 ^ w < 2 ^ (w - 1) then (v % 2 ^ w : Nat) else ((v % 2 ^ w : Nat) : Int) - (2 ^ w : Nat)

/-- A signed value as the w bits that hold it. -/
def ofSigned (w : Nat) (i : Int) : Nat := (i % (2 ^ w : Nat)).toNat

/-- Bit i of a number. -/
def bitOf (v i : Nat) : Bool := v.testBit i

/-- A truth value as the bit that holds it. -/
def b2n (b : Bool) : Nat := if b then 1 else 0

end Sys2Proof
end

