-- ==== Sys2Proof/Syntax.lean ====
section
/-! DEFINITION. The commands the block takes: one constructor of Instr for each row of spec/opcode_table.json, with the row's operands.
What the environment measures or answers (an optical power, the levels of a received codeword, what a host read returns) is an operand. -/

namespace Sys2Proof

/-- The queue configuration registers of R90. -/
inductive QReg where
  | cmdBase | cmdSize | cplBase | cplSize
  deriving DecidableEq, Repr

/-- What HIF_LINK_STAT and HIF_UCIE_STAT report of a link that has come up (R55, R58, R94). -/
structure LinkParams where
  speed : BitVec 3
  width : BitVec 5
  flit : Bool
  reversed : Bool
  modules : BitVec 2
  rate : BitVec 2
  repaired : BitVec 6
  deriving DecidableEq, Repr

/-- A register access as it arrives (R29, R30): byte offset in the requester's BAR0, size in bytes, byte enables, data. -/
structure Access where
  addr : BitVec 20
  size : Nat
  enables : BitVec 8
  data : DWord
  deriving DecidableEq, Repr

/-- The taps whose integrating amplifiers are read (R110): a laser input's total, one of a laser input's lines through the monitor of a port's
modulator ring (R99), a port's egress and ingress taps, a data lane's drop ring, a ring's own monitor. -/
inductive Tap where
  | liTotal (i : Fin 2)
  | liLine (p : Port) (k : LineIx)
  | tx (p : Port)
  | rx (p : Port)
  | lane (p : Port) (k : LineIx)
  | ring (r : RingIx)
  deriving DecidableEq, Repr

/-- One monitor result of a 2 µs slot (R110): power in 0.1 dB before the limits of R112, and whether the amplifier exceeded its range
(R111). -/
structure MonSample where
  tap : Tap
  deci : Int
  overRange : Bool
  deriving DecidableEq, Repr

/-- The report of a heater current monitor (R413). -/
inductive HtrReport where
  | sound | short | openHeater
  deriving DecidableEq, Repr

/-- What one loop update brings for one ring (R126, R132, R133, R135, R413): the detuning estimate, what the controller with its fixed gains adds to
the heater code (R132 gives neither the line shape nor the gains), the ring's monitor code of the slot, whether that slot was over range, and the
heater report. -/
structure RingUpdate where
  ring : RingIx
  detune : Int
  ctl : Int
  mon : BitVec 10
  overRange : Bool
  htr : HtrReport
  deriving DecidableEq, Repr

/-- The items of a calibration channel (R138). -/
structure CalItems where
  th0 : Int
  th1 : Int
  th2 : Int
  cdrPh : Int
  pre : Int
  main : Int
  post : Int
  modBias : Int
  dropOfs : Int
  deriving DecidableEq, Repr

/-- What JNL finds in the part's Basic Flash Parameter Table (R240): density and page size as powers of two, whether it erases 64 KiB blocks, a fast read with
four data lines (quadAddr: 1-4-4 and not 1-1-4) and its dummy cycles, the quad-enable method, erase suspend, and the times in ns. -/
structure Sfdp where
  sizeLog2 : Nat
  pageLog2 : BitVec 4
  erase64k : Bool := true
  quadAddr : Bool := false
  dummy : Nat := 8
  quadEnable : BitVec 3 := 0
  eraseSuspend : Bool
  tProgram : Nat := 0
  tErase : Nat := 0
  tSuspend : Nat := 0
  deriving DecidableEq, Repr

/-- The header of a memory message (R280), requests and responses. -/
structure MemMsg where
  part : BitVec 7
  aop : BitVec 2
  a64 : Bool
  tag : BitVec 13
  len : BitVec 13
  offset : BitVec 35
  srcNode : BitVec 14
  rcode : Byte
  reqCseq : Word
  deriving DecidableEq, Repr

/-- The header of a collective message (R291). -/
structure CollMsg where
  coll : Word
  tag : BitVec 16
  fmt : BitVec 4
  wide : Bool
  poison : Bool
  part : BitVec 7
  elemOfs : Nat
  data : List Byte
  deriving DecidableEq, Repr

/-- A step-list entry (R288), 32 B little-endian. -/
abbrev StepEntry := BitVec 256

/-- How a memory word reads (R258, R259). -/
inductive EccResult where
  | clean | corrected | onDie | uncorrectable
  deriving DecidableEq, Repr

/-- The three demand classes of a stack (R262). -/
inductive MemClass where
  | host | remote | rdx
  deriving DecidableEq, Repr

/-- What a stack access does: 64 B are read, or the listed bytes are written (none leaves a byte as it is). -/
inductive MemOp where
  | read
  | write (bytes : List (Option Byte))
  deriving DecidableEq, Repr

/-- An onset as FCU detects it (R360): the source, whether it is a wire-fault onset, the scope (kind 0 none, 1 port, 2 partition, 3 stack; value), the
source's detail, and whether injection made it (R377). -/
structure Onset where
  src : SrcIx
  wire : Bool
  kind : Fin 4
  scope : Nat
  code : BitVec 16
  inj : Bool
  deriving DecidableEq, Repr

/-- What a source's pair (e, ē) shows at successive samples (R359, R360), with what an onset among them records: scope, detail, injection. -/
structure PairTrace where
  src : SrcIx
  samples : List (BitVec 2)
  kind : Fin 4
  scope : Nat
  code : BitVec 16
  inj : Bool
  deriving DecidableEq, Repr

/-- What QUE's or a block's host-memory read returned (R471, R320, R212): the bytes as 64 B blocks, or an error. -/
inductive HostData where
  | data (blocks : List Block64)
  | error
  deriving DecidableEq, Repr

/-- The voltages an external conversion measured between an input's pins (R405 to R407), in units of VREFX × 2^-40. -/
structure ExtConv where
  vac : Int
  vbc : Int
  vab : Int
  deriving DecidableEq, Repr

/-- Which wire of an external input is open (R410). -/
inductive OpenWire where
  | loopWire | senseWire
  deriving DecidableEq, Repr

/-- A host access to a function's configuration space or to its BAR4: the writes R471 names, and beside them (the table has no row of their own
for these, log entry 87) the power state (R55, R57), the payload and read request sizes (R55), the words of BAR4's MSI-X table and PBA (R61), and a
sideband register access with an ASID (R60). -/
inductive VecWrite where
  | busMaster (on : Bool)
  | msixEnable (on : Bool)
  | funcMask (on : Bool)
  | vecMask (vec : Fin 64) (on : Bool)
  | powerState (d3 : Bool)
  | maxPayload (code : BitVec 3)
  | maxReadRequest (code : BitVec 3)
  | bar4Write (off : BitVec 13) (v : Word)
  | bar4Read (off : BitVec 13)
  | sideband (asid : BitVec 7)
  deriving DecidableEq, Repr

/-- What a PMBus transaction ends with (R342): done, or three NACKs or PEC errors. -/
inductive PmbEnd where
  | done | failed
  deriving DecidableEq, Repr

/-- The commands of the block: one constructor for each row of spec/opcode_table.json, in the table's order. -/
inductive Instr where
  | nop (f : Fn) (e : Block64)
  | fence (f : Fn) (e : Block64)
  | sleepWait (f : Fn) (e : Block64)
  | circuitSet (f : Fn) (e : Block64)
  | circuitClear (f : Fn) (e : Block64)
  | schedLoad (f : Fn) (e : Block64)
  | epochPrepare (f : Fn) (e : Block64)
  | epochCommit (f : Fn) (e : Block64)
  | memCopy (f : Fn) (e : Block64)
  | reduce (f : Fn) (e : Block64)
  | psmReduce (f : Fn) (e : Block64)
  | keyLoad (f : Fn) (e : Block64)
  | keyClear (f : Fn) (e : Block64)
  | calRun (f : Fn) (e : Block64)
  | jnlCompact (f : Fn) (e : Block64)
  | commandDoorbell (f : Fn) (v : Word)
  | completionDoorbell (f : Fn) (v : Word)
  | queueConfigWrite (f : Fn) (q : QReg) (v : DWord)
  | qCtrlWrite (f : Fn) (v : Word)
  | fetchReadIssue
  | fetchReadDone (f : Fn) (entries : List (Option Block64))
  | cplCoalTimer (f : Fn)
  | vfFlr (f : Fn)
  | pf0Flr
  | vfEnableChange (en : Bool) (num : Fn)
  | hostLinkDown (dlDown : Bool)
  | hostLinkUp (l : LinkParams)
  | nonMaskableAlert (f : Fn)
  | regWrite (r : Req) (a : Access)
  | rcTakingRead (r : Req) (addr : BitVec 20)
  | pairLoRead (r : Req) (addr : BitVec 20)
  | pairHiWrite (r : Req) (addr : BitVec 20) (v : Word)
  | pageLock (r : Req) (pg : PageIx) (v : Word)
  | lockTimerExpire (pg : PageIx)
  | softRst (r : Req) (pg : PageIx)
  | softRstDone (pg : PageIx)
  | intForce (r : Req) (pg : PageIx) (v : Word)
  | pageFreeze (r : Req) (pg : PageIx) (on : Bool)
  | pageEnableWrite (r : Req) (pg : PageIx) (on : Bool)
  | tableWindowWrite (r : Req) (win : Fin 5) (word : Fin 512) (v : Word)
  | tableWindowRead (r : Req) (win : Fin 5) (word : Fin 512)
  | monitorSlot (m : List MonSample)
  | laserFault
  | liLoss (i : Fin 2)
  | ilkCheck (li0 li1 : Int)
  | restartPulse
  | restartPulseEnd (held : Bool)
  | aprClose (p : Port)
  | probeInstant (p : Port)
  | probeEnd (p : Port)
  | aprReopen (p : Port)
  | shutterRequest (r : Req) (p : Port) (v : Word)
  | wakeTx (r : Req) (p : Port)
  | wakeTxEnd (p : Port)
  | wakeRx (p : Port)
  | searchStart (r : Req) (v : Word)
  | searchAbort (r : Req)
  | searchAnchorFound
  | searchInjectDone
  | searchSweepDone
  | searchIdentifyDone
  | searchParkDone
  | searchVerifyRoundDone
  | loopUpdate (u : List RingUpdate)
  | calSelect
  | calGapFound (ch : ChanIx)
  | calDefer (ch : ChanIx)
  | calMeasureDone (ch : ChanIx) (m : CalItems)
  | calSwitchDone (ch : ChanIx)
  | calGlideDone (ch : ChanIx)
  | codewordReceive (p : Port) (k : LineIx) (levels : List (Fin 4)) (t : DWord)
  | dataFlitReceive (p : Port) (j : PairIx)
  | controlFlitReceive (p : Port) (j : PairIx)
  | controlFlitSend (p : Port) (j : PairIx) (low : BitVec 2)
  | dataFlitSend (p : Port) (j : PairIx) (low : BitVec 2)
  | nakRepeat (p : Port) (j : PairIx)
  | spareRetry (p : Port)
  | trainBurstReceive (p : Port) (u : UnitIx)
  | cdrLock (p : Port) (u : UnitIx)
  | trainTimeout (p : Port) (u : UnitIx)
  | beaconSend (p : Port)
  | beaconReceive (p : Port)
  | parentLoss
  | changeAdmit
  | changeBuildStart (c : CircIx)
  | ringAcquireStart (ring : RingIx)
  | acquireTimeout (ring : RingIx)
  | epochCommitTime (e : Word)
  | lateLimitExpire (e : Word)
  | drainEnd (e : Word)
  | throughRelease (e : Word)
  | csqAbort (r : Req) (v : Word)
  | schedSlotFire (slot : Fin 16)
  | twnCfgWrite (r : Req) (v : Word)
  | switchover (r : Req)
  | takeover (r : Req)
  | switchFail
  | heartbeatSend
  | twinMiss
  | heartbeat
  | twinRecord
  | twinAck
  | twinNak
  | pull
  | handover
  | twinRecordSend
  | twinNakRepeat
  | pullSend
  | takeoverLoadDone
  | jnlProgramStart
  | jnlProgramDone (ok : Bool)
  | jnlEraseDone (ok : Bool)
  | replay (r : Req)
  | jnlAbort (r : Req)
  | bypass (r : Req) (v : Word)
  | replayProbeDone (part : Option Sfdp)
  | replaySelectDone
  | replayScanDone
  | bar2Read (f : Fn) (x : BitVec 34) (len : Nat) (relaxed : Bool)
  | bar2Write (f : Fn) (x : BitVec 34) (bytes : List (Option Byte)) (poisoned : Bool)
  | atomicGo (r : Req) (n : Fin 8)
  | rmeIssue (f : Fn)
  | readReq (c : CircIx)
  | writeReq (c : CircIx)
  | atomicReq (c : CircIx)
  | rmeTargetRespond (c : CircIx)
  | readRsp (c : CircIx)
  | writeAck (c : CircIx)
  | atomicRsp (c : CircIx)
  | reqAgeExpire (tag : Fin 8192)
  | tagQuarantineExpire (tag : Fin 8192)
  | mssTrain (r : Req)
  | mssTrainStageEnd (st : StackIx) (ok : Bool)
  | scrubAccess (st : StackIx) (res : EccResult)
  | rdxStepStart (f : Fn) (coll : Word) (step : Nat)
  | rdxStepDone (f : Fn) (coll : Word) (step : Nat)
  | stepListReadDone (f : Fn) (coll : Word) (first : Nat) (entries : Option (List StepEntry))
  | collectiveMessage (c : CircIx)
  | rdxStepAgeExpire (f : Fn) (coll : Word) (step : Nat)
  | rdxOrphan (c : CircIx) (coll : Word) (tag : BitVec 16)
  | psmClaimDone (p : Port)
  | lineariseDone (p : Port)
  | psmAlignStart (p : Port)
  | psmTrimSend (p : Port) (lines : List (Fin 8 × Word × Int))
  | psmStreamStart (p : Port)
  | psmGuardCheck (p : Port) (meanRaw : Nat) (samples : List (BitVec 10))
  | psmStreamEnd (p : Port) (samples : List (BitVec 10))
  | psmRepairWindow (p : Port)
  | psmStatusSend (p : Port) (sums : List (Option Int))
  | trim (p : Port) (frame : BitVec 128)
  | repair (p : Port) (frame : BitVec 128)
  | status (p : Port) (frame : BitVec 128)
  | downstreamLoss (p : Port)
  | psmStatusTimeout (p : Port)
  | psmReleaseDone (p : Port)
  | tamperLatch (src : Fin 5)
  | eraseDone
  | unfence (r : Req)
  | secKeyrangeWrite (r : Req) (n : Fn) (v : Word)
  | faultOnset (p : PairTrace)
  | fcuRecordAck (r : Req) (src : SrcIx)
  | fcuFenceSet (r : Req) (v : Word)
  | fcuUnfence (r : Req) (v : Word)
  | fcuRailInj (r : Req) (v : Word)
  | errInject (r : Req) (pg : PageIx) (v : Word)
  | dryErrnEnd
  | fcuPriorAck (r : Req)
  | evrLogEntry
  | clear (r : Req)
  | evrWinStatusRead (r : Req)
  | evrCursorWrite (r : Req) (v : BitVec 48)
  | periodBoundary
  | staLenWrite (r : Req) (v : Word)
  | dieSensorConversion (n : Fin 64) (temp : BitVec 16)
  | extConversionDone (n : Fin 4) (x : ExtConv)
  | extOpenDetect (n : Fin 4) (w : OpenWire)
  | extCfgWrite (r : Req) (n : Fin 4) (word : Fin 3) (v : Word)
  | supplyOutOfWindow (k : Fin 7) (mv : BitVec 13)
  | supplyRecover (k : Fin 7) (mv : BitVec 13)
  | alertN (statusWord : BitVec 16)
  | opTargetWrite (r : Req) (v : Word)
  | vCmdDone (x : PmbEnd)
  | readVoutDone (mv : BitVec 12) (x : PmbEnd)
  | settleDone
  | aonTrim (ticks : Nat)
  | rootPllLockLoss
  | lanePllLockChange (g : Fin 4) (locked : Bool)
  | sleepDrainDone
  | sleepDrainTimeout
  | sleepLinkIdle
  | linkWaitExpire
  | wakeN
  | hostWake
  | linkDataWake
  | wakeTimer
  | wSupplyDone (ok : Bool)
  | supplyRetry (ok : Bool)
  | wHostDone (ticks : Nat) (refclk : Nat) (inverted : Bool)
  | wDomainsDone
  | wEngineDone
  | refclkConfirm (r : Req) (ticks : Nat) (inverted : Bool)
  | padRelease (r : Req)
  | estClear (r : Req)
  | cpmTimeSet (r : Req) (v : DWord)
  | softwareReset (r : Req) (v : Word)
  | powerOnReset (inRange : Bool)
  | perst
  | perstRelease
  | porDone (straps : BitVec 3)
  | startupSupplyDone (exp : Option (BitVec 5)) (ok : Bool)
  | fuseDone (ok : Bool)
  | clockDone (inverted : Bool)
  | domainsDone
  | linkDone (l : LinkParams)
  | idcode
  | extest
  | samplePreload (preload : BitVec 64)
  | bypassInstruction (code : BitVec 6)
  | dbgChal
  | dbgResp (v : BitVec 128)
  | dbgChalExpire
  | holdoffEnd
  | dbgNop
  | dbgRead (addr : BitVec 18)
  | dbgWrite (addr : BitVec 18) (v : Word)
  | dbgTake (addr : BitVec 18)
  | relock (r : Req)
  | dbgFreezeAll (r : Req) (on : Bool)
  | forceFreeze (r : Req)
  | accessErrorRead (r : Req) (a : Access)
  | hostReadDone (f : Fn) (cmdId : BitVec 16) (d : HostData)
  | memoryAccessDone (cl : MemClass) (offset : BitVec 35) (op : MemOp) (ecc : EccResult)
  | laserFaultClear
  | tamperDeassert (src : Fin 5)
  | testLogicReset
  | psmOverRange (p : Port) (index : BitVec 24)
  | scrubBehind (st : StackIx)
  | flrComplete (f : Fn)
  | vectorMaskOrEnableWrite (f : Fn) (w : VecWrite)
  deriving DecidableEq, Repr

end Sys2Proof
end

