-- ==== Sys2Proof/Decode.lean ====
section
/-! DEFINITION. The command a word spells. The opcode table gives no row any bits, so no word spells a command. -/

namespace Sys2Proof

/-- The command that the nbits low bits of w spell by the bits of spec/opcode_table.json. Its rows give no bits: none. -/
def decodeTableWord (_nbits _w : Nat) : Option Instr := none

end Sys2Proof
end

