-- ==== Sys2Proof/Machine/Crypto.lean ====
section
/-! DEFINITION. AES-256 and AES-256-GCM on bytes as numbers (R22, R179, R317, R320, R443). -/

namespace Sys2Proof.Machine

/-- x times 2 in the field of AES. -/
def xtime (x : Nat) : Nat := if x < 128 then 2 * x else ((2 * x) ^^^ 0x11B) % 256

/-- The product of a and b in the field of AES, over n bits of b. -/
def gmul (a b : Nat) : Nat → Nat
  | 0 => 0
  | n + 1 => (if b % 2 = 1 then a else 0) ^^^ gmul (xtime a) (b / 2) n

/-- The inverse in the field of AES, x to the power 254; 0 for 0. -/
def ginv (x : Nat) : Nat :=
  let m (a b : Nat) : Nat := gmul a b 8
  let x2 := m x x
  let x3 := m x2 x
  let x6 := m x3 x3
  let x7 := m x6 x
  let x14 := m x7 x7
  let x15 := m x14 x
  let x30 := m x15 x15
  let x60 := m x30 x30
  let x120 := m x60 x60
  let x126 := m x120 x6
  let x252 := m x126 x126
  m x252 x2

/-- The substitution of AES. -/
def sbox (x : Nat) : Nat :=
  let y := ginv x
  let rot (n : Nat) : Nat := (y * 2 ^ n) % 256 + y / 2 ^ (8 - n)
  y ^^^ rot 1 ^^^ rot 2 ^^^ rot 3 ^^^ rot 4 ^^^ 0x63

/-- The four bytes of a word substituted, of a list of four. -/
def subWord (w : List Nat) : List Nat := w.map sbox

/-- Two lists of bytes, byte by byte. -/
def xorBytes (a b : List Nat) : List Nat := List.zipWith (· ^^^ ·) a b

/-- The round constant of step n. -/
def rcon : Nat → Nat
  | 0 => 1
  | n + 1 => xtime (rcon n)

/-- The key schedule of AES-256: n words more, newest first. -/
def expandKey (i : Nat) (ws : List (List Nat)) : Nat → List (List Nat)
  | 0 => ws
  | n + 1 =>
    let t := ws.getD 0 []
    let t := if i % 8 = 0 then (match subWord (t.drop 1 ++ t.take 1) with
        | a :: r => (a ^^^ rcon (i / 8 - 1)) :: r
        | [] => [])
      else if i % 8 = 4 then subWord t else t
    expandKey (i + 1) (xorBytes (ws.getD 7 []) t :: ws) n

/-- A list of bytes in groups of k. -/
def chunks (k : Nat) (l : List Nat) : Nat → List (List Nat)
  | 0 => []
  | n + 1 => l.take k :: chunks k (l.drop k) n

/-- The fifteen round keys of a key of 32 bytes. -/
def roundKeys (key : List Nat) : List (List Nat) := chunks 16 ((expandKey 8 (chunks 4 key 8).reverse 52).reverse.flatten) 15

/-- ShiftRows on a state of 16 bytes. -/
def shiftRows (s : List Nat) : List Nat := (List.range 16).map (fun i => s.getD (i % 4 + 4 * ((i / 4 + i % 4) % 4)) 0)

/-- MixColumns on one column. -/
def mixColumn (c : List Nat) : List Nat :=
  (List.range 4).map (fun i => xtime (c.getD i 0) ^^^ (xtime (c.getD ((i + 1) % 4) 0) ^^^ c.getD ((i + 1) % 4) 0) ^^^ c.getD ((i + 2) % 4) 0 ^^^
    c.getD ((i + 3) % 4) 0)

/-- The rounds of AES that are left. -/
def aesRounds (s : List Nat) : List (List Nat) → List Nat
  | [] => s
  | [k] => xorBytes (shiftRows (s.map sbox)) k
  | k :: ks => aesRounds (xorBytes ((chunks 4 (shiftRows (s.map sbox)) 4).flatMap mixColumn) k) ks

/-- AES-256 of one block of 16 bytes, with the round keys. -/
def aesBlock (rk : List (List Nat)) (b : List Nat) : List Nat := aesRounds (xorBytes b (rk.getD 0 [])) (rk.drop 1)

/-- Bytes as a number, first byte most significant. -/
def beNat (l : List Nat) : Nat := l.foldl (fun a b => a * 256 + b) 0

/-- A number as n bytes, most significant first. -/
def beBytes (n v : Nat) : List Nat := (List.range n).map (fun i => v / 256 ^ (n - 1 - i) % 256)

/-- The product in the field of GCM, over n bits of x from its most significant. -/
def ghashMul (x v : Nat) : Nat → Nat
  | 0 => 0
  | n + 1 => (if x.testBit n then v else 0) ^^^ ghashMul x (if v % 2 = 1 then (v / 2) ^^^ (0xE1 * 2 ^ 120) else v / 2) n

/-- Bytes padded with zeros to whole blocks, as numbers. -/
def ghashBlocks (l : List Nat) : List Nat :=
  let n := (l.length + 15) / 16
  (chunks 16 (l ++ List.replicate (16 * n - l.length) 0) n).map beNat

/-- GHASH of blocks under a hash key. -/
def ghash (h : Nat) (blocks : List Nat) : Nat := blocks.foldl (fun y b => ghashMul (y ^^^ b) h 128) 0

/-- The counter-mode key stream of n blocks from a counter block of a 12-byte IV. -/
def ctrStream (rk : List (List Nat)) (iv : List Nat) (c : Nat) : Nat → List Nat
  | 0 => []
  | n + 1 => aesBlock rk (iv ++ beBytes 4 c) ++ ctrStream rk iv (c + 1) n

/-- Counter mode from counter 2, which encrypts and decrypts. -/
def gcmCrypt (rk : List (List Nat)) (iv text : List Nat) : List Nat := xorBytes text (ctrStream rk iv 2 ((text.length + 15) / 16))

/-- The tag of GCM over additional data and ciphertext. -/
def gcmTag (rk : List (List Nat)) (iv aad ct : List Nat) : List Nat :=
  let h := beNat (aesBlock rk (List.replicate 16 0))
  let g := ghash h (ghashBlocks aad ++ ghashBlocks ct ++ [aad.length * 8 * 2 ^ 64 + ct.length * 8])
  xorBytes (beBytes 16 g) (aesBlock rk (iv ++ beBytes 4 1))

/-- AES-256-GCM encryption: ciphertext and tag. -/
def gcmSeal (key iv aad text : List Nat) : List Nat × List Nat :=
  let rk := roundKeys key
  let ct := gcmCrypt rk iv text
  (ct, gcmTag rk iv aad ct)

/-- AES-256-GCM decryption: the text where the tag verifies. -/
def gcmOpen (key iv aad ct tag : List Nat) : Option (List Nat) :=
  let rk := roundKeys key
  if gcmTag rk iv aad ct = tag then some (gcmCrypt rk iv ct) else none

/-- The bytes of a little-endian word, byte 0 first. -/
def leBytes {n : Nat} (k : Nat) (x : BitVec n) : List Nat := (List.range k).map (fun i => byteField x i 0 8)

end Sys2Proof.Machine
end

