-- ==== Sys2Proof/Config.lean ====
section
/-! DEFINITION. What one die fixes in its fuses, and the values the spec leaves open. Each is an opaque constant: nothing can be
proved about its value. -/

namespace Sys2Proof

/-- Fused silicon stepping (GLB_DEVICE.STEPPING, R50). -/
opaque Config.stepping : BitVec 8
/-- Fused 64-bit unit serial number (GLB_SERIAL, R50). -/
opaque Config.serial : BitVec 64
/-- The 256-bit root secret in fuses (R317). -/
opaque Config.root : BitVec 256
/-- Free value number n: a value the spec does not state (DESIGN CHOICE: log entry 5). -/
opaque Config.freeValue : Nat → BitVec 128
/-- Whether the rounding of an external temperature to 1/64 °C goes up, for a RAW code (R408 gives the equations and no rounding; DESIGN CHOICE: log
entry 12). -/
opaque Config.tempRoundUp : Nat → Bool

end Sys2Proof
end

