-- ==== Sys2Proof/Machine/Coding.lean ====
section
/-! DEFINITION. The codes on a lane: CRC-32C (R165, R182), the field and the RS(544,514) code of R160, the scrambler of R160, the codeword with its
header and slots (R160, R161), PAM4 levels (R159). -/

namespace Sys2Proof.Machine

/-! ## CRC-32C (R165, R182, R243) -/

/-- One byte into the remainder of CRC-32C, least significant bit first. The spec names the code and not its bit order, start and final value: those
of the code's usual definition (PRESUMED: log entry 102). -/
def crcByte (c b : Nat) : Nat :=
  (List.range 8).foldl (fun c _ => if c % 2 = 1 then (c / 2) ^^^ 0x82F63B78 else c / 2) (c ^^^ b)

/-- CRC-32C of bytes. -/
def crc32c (l : List Nat) : Nat := (l.foldl crcByte 0xFFFFFFFF) ^^^ 0xFFFFFFFF

/-- Bytes of a byte list, as numbers. -/
def natBytes (l : List Byte) : List Nat := l.map BitVec.toNat

/-- CRC-32C of bytes, as the 4 bytes that hold it, lowest first. -/
def crcOf (l : List Byte) : List Byte :=
  let c := crc32c (natBytes l)
  (List.range 4).map (fun i => BitVec.ofNat 8 (c / 256 ^ i))

/-- The bytes with their CRC-32C after them. -/
def withCrc (l : List Byte) : List Byte := l ++ crcOf l

/-- The last 4 of the bytes are the CRC-32C of the others. -/
def crcHolds (l : List Byte) : Bool := l.drop (l.length - 4) == crcOf (l.take (l.length - 4))

/-! ## The field GF(2^10) (R160)

Field, generator polynomial and parity placement are those of the RS-FEC of IEEE 802.3 Clause 91, which the spec names and does not repeat (PRESUMED:
log entry 103): x^10 + x^3 + 1, α = x, generator the product of x − α^j for j = 0 to 29, symbol 0 the highest coefficient, parity last. -/

/-- x times a field element. -/
def gfX (a : Nat) : Nat := if a < 512 then 2 * a else (2 * a) ^^^ 0x409

/-- The product of two field elements, over n bits of the first from its lowest. -/
def gfMulBits (a b : Nat) : Nat → Nat
  | 0 => 0
  | n + 1 => if a = 0 then 0 else (if a % 2 = 1 then b else 0) ^^^ gfMulBits (a / 2) (gfX b) n

/-- The product of two field elements. -/
def gfMul (a b : Nat) : Nat := if b = 0 then 0 else gfMulBits a b 10

/-- Powers of a field element, by squaring, over n bits of the exponent from its lowest. -/
def gfPowBits (a e : Nat) : Nat → Nat
  | 0 => 1
  | n + 1 => if e = 0 then 1 else
    let r := gfPowBits (gfMul a a) (e / 2) n
    if e % 2 = 1 then gfMul a r else r

/-- α^e. -/
def gfAlpha (e : Nat) : Nat := gfPowBits 2 (e % 1023) 10

/-- The inverse of a field element that is not 0. -/
def gfInv (a : Nat) : Nat := gfPowBits a 1022 10

/-- Sum of two polynomials, lowest coefficient first. -/
def polyAdd : List Nat → List Nat → List Nat
  | [], b => b
  | a, [] => a
  | x :: a, y :: b => (x ^^^ y) :: polyAdd a b

/-- A polynomial times a field element. -/
def polyScale (k : Nat) (a : List Nat) : List Nat := a.map (gfMul k)

/-- Product of two polynomials, lowest coefficient first. -/
def polyMul : List Nat → List Nat → List Nat
  | [], _ => []
  | x :: a, b => polyAdd (polyScale x b) (0 :: polyMul a b)

/-- The value of a polynomial at a field element. -/
def polyEval (a : List Nat) (x : Nat) : Nat := a.foldr (fun c r => c ^^^ gfMul r x) 0

/-! ## RS(544,514) (R160) -/

/-- The generator polynomial, highest coefficient first, without its leading 1. -/
def rsGen : List Nat := (((List.range 30).foldl (fun g j => polyMul [gfAlpha j, 1] g) [1]).reverse).drop 1

/-- The 30 parity symbols of 514 message symbols, symbol 0 first. -/
def rsParity (msg : List Nat) : List Nat :=
  let g := rsGen
  msg.foldl (fun r m =>
    let k := m ^^^ r.headD 0
    let r := r.drop 1 ++ [0]
    if k = 0 then r else List.zipWith (fun x y => x ^^^ gfMul k y) r g) (List.replicate 30 0)

/-- A codeword of 544 symbols: the message, then its parity. -/
def rsEncode (msg : List Nat) : List Nat := msg ++ rsParity msg

/-- The 30 syndromes of a received word, symbol 0 the highest coefficient. -/
def rsSyndromes (w : List Nat) : List Nat := (List.range 30).map (fun j => let a := gfAlpha j; w.foldl (fun r c => c ^^^ gfMul r a) 0)

/-- What the search for the error locator holds (Berlekamp and Massey): the locator, the one before its last change of length, the length, the shift
and the discrepancy that goes with the earlier one. -/
structure BmState where
  c : List Nat
  b : List Nat
  len : Nat
  shift : Nat
  disc : Nat

/-- One step of the search, with the syndromes seen so far, latest first. -/
def bmStep (x : BmState) (n : Nat) (seen : List Nat) : BmState :=
  let d := (List.zipWith gfMul x.c seen).foldl (· ^^^ ·) 0
  if d = 0 then { x with shift := x.shift + 1 }
  else
    let t := polyAdd x.c (List.replicate x.shift 0 ++ polyScale (gfMul d (gfInv x.disc)) x.b)
    if 2 * x.len ≤ n then { c := t, b := x.c, len := n + 1 - x.len, shift := 1, disc := d } else { x with c := t, shift := x.shift + 1 }

/-- The search over the syndromes left, after n of them. -/
def bmRun (x : BmState) (n : Nat) (seen : List Nat) : List Nat → BmState
  | [] => x
  | s :: r => bmRun (bmStep x n (s :: seen)) (n + 1) (s :: seen) r

/-- The derivative of a polynomial in characteristic 2. -/
def polyDeriv (a : List Nat) : List Nat := (a.drop 1).mapIdx (fun i c => if i % 2 = 0 then c else 0)

/-- A received word decoded: the 514 message symbols with up to 15 symbol errors corrected, and whether any was; none where it is uncorrectable. -/
def rsDecode (w : List Nat) : Option (List Nat × Bool) :=
  let s := rsSyndromes w
  if s.all (· == 0) then some (w.take 514, false)
  else
    let x := bmRun { c := [1], b := [1], len := 0, shift := 1, disc := 1 } 0 [] s
    -- the coefficient of x^e in the received word is symbol 543 − e; its locator is α^e
    let bad := (List.range 544).filter (fun i => polyEval x.c (gfInv (gfAlpha (543 - i))) == 0)
    if 15 < x.len ∨ bad.length ≠ x.len then none
    else
      let omega := (polyMul s x.c).take 30
      let dc := polyDeriv x.c
      let fix (i : Nat) : Nat :=
        let l := gfAlpha (543 - i)
        let li := gfInv l
        gfMul l (gfMul (polyEval omega li) (gfInv (polyEval dc li)))
      let out := w.mapIdx (fun i c => if bad.contains i then c ^^^ fix i else c)
      if (rsSyndromes out).all (· == 0) then some (out.take 514, true) else none

/-! ## Bits of a codeword (R159 to R161) -/

/-- n bits of a number, lowest first. -/
def natBits (v : Nat) (n : Nat) : List Bool := (List.range n).map (fun i => v.testBit i)

/-- The number whose bits these are, lowest first. -/
def bitsNat (l : List Bool) : Nat := l.foldr (fun b n => b2n b + 2 * n) 0

/-- n bits of the generator x^31 + x^28 + 1, as a number, lowest first; the state holds the last 31 bits, the latest lowest. The first bit is the
first one the generator forms after its start at all ones (DEDUCED: log entry 104). -/
def scrambleBits (state : Nat) : Nat → Nat
  | 0 => 0
  | n + 1 =>
    let b := (state / 2 ^ 30 + state / 2 ^ 27) % 2
    b + 2 * scrambleBits ((2 * state + b) % 2 ^ 31) n

/-- A number cut into n symbols of 10 bits, lowest first. -/
def symbols10 (v : Nat) : Nat → List Nat
  | 0 => []
  | n + 1 => v % 1024 :: symbols10 (v / 1024) n

/-- The number whose 10-bit symbols these are, lowest first. -/
def ofSymbols10 (l : List Nat) : Nat := l.foldr (fun x n => x + 1024 * n) 0

/-- A PAM4 level for a pair of bits, the earlier first (R159). -/
def pam4 (b0 b1 : Bool) : Fin 4 := match b0, b1 with | false, false => 0 | false, true => 1 | true, true => 2 | true, false => 3

/-- The pair of bits a PAM4 level stands for. -/
def unpam4 : Fin 4 → List Bool
  | 0 => [false, false]
  | 1 => [false, true]
  | 2 => [true, true]
  | 3 => [true, false]

/-- Levels of a bit stream. -/
def pam4s : List Bool → List (Fin 4)
  | a :: b :: r => pam4 a b :: pam4s r
  | _ => []

/-- What a burst slot carries: a skip, or 128 bytes. -/
inductive Burst where
  | skip
  | lost
  | data (b : List Byte)
  deriving DecidableEq, Repr

/-- The 1,024 slot bits of a burst, as a number; a skip's are 0 (the spec gives a skip no content; DESIGN CHOICE: log entry 104). -/
def Burst.bits : Burst → Nat
  | .data b => (b.take 128).foldr (fun x n => x.toNat + 256 * n) 0
  | _ => 0

/-- How a codeword decodes (R162). -/
inductive CwQuality where
  | clean | corrected | uncorrectable
  deriving DecidableEq, Repr

/-- A received codeword: how it decodes, its header (R161) and its five slots. -/
structure Codeword where
  quality : CwQuality
  line : Nat
  skip : Nat
  cwseq : Nat
  mark : Nat
  slots : List Burst
  deriving DecidableEq, Repr

/-- The 2,720 PAM4 levels of a codeword (R159 to R161) with MARK 0b1001. -/
def encodeCw (line cwseq : Nat) (slots : List Burst) : List (Fin 4) :=
  let skip := (slots.mapIdx (fun i b => if b = .skip then 2 ^ i else 0)).foldl (· + ·) 0
  let head := line + skip * 2 ^ 4 + cwseq * 2 ^ 9 + 9 * 2 ^ 16
  let body := slots.foldr (fun b n => b.bits + 2 ^ 1024 * n) 0
  let msg := head + 2 ^ 20 * (body ^^^ scrambleBits (2 ^ 31 - 1) 5120)
  pam4s ((rsEncode (symbols10 msg 514)).flatMap (fun v => natBits v 10))

/-- A received codeword decoded (R159 to R162). -/
def decodeCw (levels : List (Fin 4)) : Codeword :=
  let bits := (levels.take 2720).flatMap unpam4
  let w := symbols10 (bitsNat bits) 544
  match rsDecode w with
  | none => { quality := .uncorrectable, line := 0, skip := 0, cwseq := 0, mark := 0, slots := [] }
  | some (m, fixed) =>
    let msg := ofSymbols10 m
    let body := (msg / 2 ^ 20) ^^^ scrambleBits (2 ^ 31 - 1) 5120
    let skip := msg / 2 ^ 4 % 2 ^ 5
    { quality := if fixed then .corrected else .clean, line := msg % 2 ^ 4, skip := skip, cwseq := msg / 2 ^ 9 % 2 ^ 7, mark := msg / 2 ^ 16 % 2 ^ 4,
      slots := (List.range 5).map (fun i => if skip.testBit i then .skip
        else .data ((List.range 128).map (fun b => BitVec.ofNat 8 (body / 2 ^ (1024 * i + 8 * b))))) }

end Sys2Proof.Machine
end

