-- ==== Sys2Proof/Machine/Wire.lean ====
section
/-! DEFINITION. What Felilo and Lamkor carry, with its bytes: flits (R165), control flits (R172), TRAIN bursts (R188), beacons (R184), Lamkor records
(R243, R244), TWIN bursts (R230), downstream frames (R301). Fields are little-endian (R5); bytes and bits a layout leaves reserved are written as zero (R166). -/

namespace Sys2Proof.Machine

/-! ## Little-endian numbers (R5) -/

/-- The n low bytes of a number, lowest first. -/
def numBytes (n v : Nat) : List Byte := (List.range n).map (fun i => BitVec.ofNat 8 (v / 256 ^ i))

/-- A little-endian number. -/
def bytesNum (l : List Byte) : Nat := l.foldr (fun b acc => b.toNat + 256 * acc) 0

/-- The little-endian number in n bytes from byte i of a structure. -/
def numAt (l : List Byte) (i n : Nat) : Nat := bytesNum ((l.drop i).take n)

/-- Bytes cut or filled with zeros to n. -/
def padTo (n : Nat) (l : List Byte) : List Byte := l.take n ++ List.replicate (n - l.length) 0

/-! ## Flits (R165, R172) -/

/-- A flit (R165) without its CRC; rsv0 and rsv are its reserved bits, which a RELAY node forwards as they are (R178). -/
structure Flit where
  typ : BitVec 4
  enc : Bool
  rsv0 : BitVec 3 := 0
  len : Nat
  lseq : BitVec 16
  cseq : Word
  client : BitVec 4
  rsv : BitVec 28 := 0
  body : List Byte
  deriving DecidableEq, Repr

/-- Bytes 0 to 11 of a flit (R165). -/
def Flit.head (f : Flit) : List Byte :=
  numBytes 1 (f.typ.toNat + 16 * b2n f.enc + 32 * f.rsv0.toNat) ++ numBytes 1 f.len ++ numBytes 2 f.lseq.toNat ++ numBytes 4 f.cseq.toNat ++
    numBytes 4 (f.client.toNat + 16 * f.rsv.toNat)

/-- The 256 bytes of a flit (R165). -/
def Flit.bytes (f : Flit) : List Byte := withCrc (f.head ++ padTo 240 f.body)

/-- The flit in 256 bytes. -/
def flitOf (l : List Byte) : Flit :=
  let b0 := numAt l 0 1
  let w := numAt l 8 4
  { typ := BitVec.ofNat 4 b0, enc := b0.testBit 4, rsv0 := BitVec.ofNat 3 (b0 / 32), len := numAt l 1 1, lseq := BitVec.ofNat 16 (numAt l 2 2),
    cseq := BitVec.ofNat 32 (numAt l 4 4), client := BitVec.ofNat 4 w, rsv := BitVec.ofNat 28 (w / 16), body := (l.drop 12).take 240 }

/-- The valid body bytes of a flit: those up to LEN (R165, R166). -/
def Flit.valid (f : Flit) : List Byte := f.body.take f.len

/-- An IDLE flit (R164, R165). -/
def idleFlit : Flit := { typ := 3, enc := false, len := 0, lseq := 0xFFFF, cseq := 0, client := 0, body := [] }

/-- What EYE says of one lane (R172): three slicer margins, CDR margin, SNR, report ID. -/
structure Eye where
  m0 : Byte := 0
  m1 : Byte := 0
  m2 : Byte := 0
  cdr : Byte := 0
  snr : Byte := 0
  report : BitVec 16 := 0
  deriving DecidableEq, Repr

/-- The 8 bytes of one lane's EYE. -/
def Eye.bytes (x : Eye) : List Byte := [x.m0, x.m1, x.m2, x.cdr, x.snr] ++ numBytes 2 x.report.toNat ++ [0]

/-- One lane's EYE in 8 bytes. -/
def eyeOf (l : List Byte) : Eye :=
  { m0 := l.getD 0 0, m1 := l.getD 1 0, m2 := l.getD 2 0, cdr := l.getD 3 0, snr := l.getD 4 0, report := BitVec.ofNat 16 (numAt l 5 2) }

/-- The body of a control flit (R172). -/
structure CtlFlit where
  ackV : Bool
  nakV : Bool
  retrainReq : Bool
  substV : Bool
  ack : BitVec 16
  nak : BitVec 16
  credit : Word
  substLine : BitVec 4
  substOn : Bool
  substCw : BitVec 7
  eye0 : Eye := {}
  eye1 : Eye := {}
  deriving DecidableEq, Repr

/-- A control flit as a flit (R165, R172): CONTROL, no sequence number. -/
def CtlFlit.flit (c : CtlFlit) : Flit :=
  { typ := 2, enc := false, len := 0, lseq := 0xFFFF, cseq := 0, client := 0,
    body := numBytes 2 c.ack.toNat ++ numBytes 1 (b2n c.ackV + 2 * b2n c.nakV + 4 * b2n c.retrainReq + 8 * b2n c.substV) ++ [0] ++
      numBytes 2 c.nak.toNat ++ [0, 0] ++ numBytes 4 c.credit.toNat ++
      numBytes 4 (c.substLine.toNat + 16 * b2n c.substOn + 2 ^ 8 * c.substCw.toNat) ++ c.eye0.bytes ++ c.eye1.bytes }

/-- The control flit in a flit's body, which starts at byte 12 of the flit (R172). -/
def ctlOf (f : Flit) : CtlFlit :=
  let b := f.body
  let g := numAt b 2 1
  let w := numAt b 12 4
  { ackV := g.testBit 0, nakV := g.testBit 1, retrainReq := g.testBit 2, substV := g.testBit 3, ack := BitVec.ofNat 16 (numAt b 0 2),
    nak := BitVec.ofNat 16 (numAt b 4 2), credit := BitVec.ofNat 32 (numAt b 8 4), substLine := BitVec.ofNat 4 w, substOn := w.testBit 4,
    substCw := BitVec.ofNat 7 (w / 2 ^ 8), eye0 := eyeOf (b.drop 16), eye1 := eyeOf (b.drop 24) }

/-! ## Service bursts (R182, R184, R188) -/

/-- A TRAIN burst (R188). -/
structure TrainBurst where
  state : BitVec 4
  node : BitVec 14
  port : BitVec 4
  line : BitVec 4
  echoNode : BitVec 14
  echoPort : BitVec 4
  echoLine : BitVec 4
  echoV : Bool
  nextLseq : BitVec 16
  creditInit : Word
  tSend : DWord
  deriving DecidableEq, Repr

/-- The 128 bytes of a service burst from its first 124 (R182). -/
def burstBytes (l : List Byte) : List Byte := withCrc (padTo 124 l)

/-- The bytes of a TRAIN burst (R182, R188). -/
def TrainBurst.bytes (b : TrainBurst) : List Byte :=
  burstBytes ([0x10] ++ numBytes 1 b.state.toNat ++ numBytes 2 b.node.toNat ++ numBytes 1 b.port.toNat ++ numBytes 1 b.line.toNat ++
    numBytes 2 b.echoNode.toNat ++ numBytes 1 b.echoPort.toNat ++ numBytes 1 b.echoLine.toNat ++ numBytes 1 (b2n b.echoV) ++ [0] ++
    numBytes 2 b.nextLseq.toNat ++ [0, 0] ++ numBytes 4 b.creditInit.toNat ++ numBytes 8 b.tSend.toNat)

/-- The bytes are a burst of the given type whose CRC holds (R182). -/
def isBurst (typ : Nat) (l : List Byte) : Bool := l.length == 128 && numAt l 0 1 == typ && crcHolds l

/-- The TRAIN burst in a lane's burst: none where the type or the CRC says otherwise (R182, R188). -/
def trainOf (l : List Byte) : Option TrainBurst :=
  if isBurst 0x10 l then
    some { state := BitVec.ofNat 4 (numAt l 1 1), node := BitVec.ofNat 14 (numAt l 2 2), port := BitVec.ofNat 4 (numAt l 4 1),
           line := BitVec.ofNat 4 (numAt l 5 1), echoNode := BitVec.ofNat 14 (numAt l 6 2), echoPort := BitVec.ofNat 4 (numAt l 8 1),
           echoLine := BitVec.ofNat 4 (numAt l 9 1), echoV := numAt l 10 1 != 0, nextLseq := BitVec.ofNat 16 (numAt l 12 2),
           creditInit := BitVec.ofNat 32 (numAt l 16 4), tSend := BitVec.ofNat 64 (numAt l 20 8) }
  else none

/-- A BEACON burst (R184). -/
structure Beacon where
  bseq : BitVec 16
  tTxPrev : DWord
  tRxLast : DWord
  peerBseq : BitVec 16
  stratum : Byte
  rootNode : BitVec 14
  deriving DecidableEq, Repr

/-- The bytes of a BEACON burst (R182, R184). -/
def Beacon.bytes (b : Beacon) : List Byte :=
  burstBytes ([0x11, 0] ++ numBytes 2 b.bseq.toNat ++ numBytes 8 b.tTxPrev.toNat ++ numBytes 8 b.tRxLast.toNat ++ numBytes 2 b.peerBseq.toNat ++
    [b.stratum, 0] ++ numBytes 2 b.rootNode.toNat)

/-- The beacon in a burst whose type is BEACON (R184). -/
def beaconOf (l : List Byte) : Beacon :=
  { bseq := BitVec.ofNat 16 (numAt l 2 2), tTxPrev := BitVec.ofNat 64 (numAt l 4 8), tRxLast := BitVec.ofNat 64 (numAt l 12 8),
    peerBseq := BitVec.ofNat 16 (numAt l 20 2), stratum := l.getD 22 0, rootNode := BitVec.ofNat 14 (numAt l 24 2) }

/-- The bytes of an IDLE burst (R182). -/
def idleBurst : List Byte := burstBytes [0x14]

/-! ## Lamkor records (R243, R244) -/

/-- The payload of a Lamkor record (R244). -/
inductive RecPay where
  | circuitDelta (circuit : CircIx) (epoch w0 w1 w2 label : Word)
  | sched (slot : Fin 16) (state : BitVec 2) (epoch : Word) (act : DWord)
  | cal (first : BitVec 16) (count : Nat) (channel : Bool) (words : List Word)
  | keymeta (slot : KeyIx) (loaded : Bool) (blob : Block64)
  | commit (epoch : Word) (count : Nat) (side full takeover : Bool) (time : DWord)
  | mark (gen : Word) (isEnd : Bool) (startSeq : DWord)
  deriving DecidableEq, Repr

/-- A Lamkor record (R243). -/
structure JRec where
  seq : Nat
  mirror : Bool
  pay : RecPay
  deriving DecidableEq, Repr

/-- TYPE of a record (R244). -/
def recType : RecPay → Nat
  | .circuitDelta .. => 1
  | .sched .. => 2
  | .cal .. => 3
  | .keymeta .. => 4
  | .commit .. => 5
  | .mark .. => 6

/-- LEN of a record (R244). -/
def recLen : RecPay → Nat
  | .circuitDelta .. => 24
  | .sched .. => 16
  | .cal _ n channel _ => if channel then 4 + 12 * n else 4 + 4 * n
  | .keymeta .. => 68
  | .commit .. => 16
  | .mark .. => 16

/-- Bytes a record takes: 16 + LEN, rounded up to a multiple of 16 (R243). -/
def recBytes (r : JRec) : Nat := (16 + recLen r.pay + 15) / 16 * 16

/-- The payload bytes of a record (R244). -/
def RecPay.bytes : RecPay → List Byte
  | .circuitDelta c e w0 w1 w2 label =>
    numBytes 2 c ++ [0, 0] ++ numBytes 4 e.toNat ++ numBytes 4 w0.toNat ++ numBytes 4 w1.toNat ++ numBytes 4 w2.toNat ++ numBytes 4 label.toNat
  | .sched n st e act => numBytes 1 n ++ numBytes 1 st.toNat ++ [0, 0] ++ numBytes 4 e.toNat ++ numBytes 8 act.toNat
  | .cal first n channel w =>
    numBytes 2 first.toNat ++ numBytes 1 n ++ numBytes 1 (b2n channel) ++
      (List.range (if channel then 3 * n else n)).flatMap (fun i => numBytes 4 (w.getD i 0).toNat)
  | .keymeta n ld b => numBytes 2 n ++ numBytes 1 (b2n ld) ++ [0] ++ numBytes 64 b.toNat
  | .commit e n side full tko t =>
    numBytes 4 e.toNat ++ numBytes 2 n ++ numBytes 1 (b2n side + 2 * b2n full + 4 * b2n tko) ++ [0] ++ numBytes 8 t.toNat
  | .mark g isEnd q => numBytes 4 g.toNat ++ numBytes 1 (b2n isEnd) ++ [0, 0, 0] ++ numBytes 8 q.toNat

/-- The bytes of a record as it is stored (R243): header, payload, zeros up to a multiple of 16 B. -/
def JRec.bytes (r : JRec) : List Byte :=
  let head : List Byte := numBytes 8 r.seq ++ numBytes 1 (recType r.pay) ++ numBytes 1 (recLen r.pay) ++ numBytes 1 (b2n r.mirror) ++ [0]
  let p := r.pay.bytes
  padTo (recBytes r) (head ++ crcOf (head ++ p) ++ p)

/-- The payload that bytes of a listed TYPE hold: none where the TYPE is not listed or the LEN does not fit it (R244, R245). -/
def payOf (typ len : Nat) (p : List Byte) : Option RecPay :=
  let w (i : Nat) : Word := BitVec.ofNat 32 (numAt p i 4)
  match typ with
  | 1 => if len = 24 then some (.circuitDelta (BitVec.ofNat 10 (numAt p 0 2)).toFin (w 4) (w 8) (w 12) (w 16) (w 20)) else none
  | 2 => if len = 16 then some (.sched (BitVec.ofNat 4 (numAt p 0 1)).toFin (BitVec.ofNat 2 (numAt p 1 1)) (w 4) (BitVec.ofNat 64 (numAt p 8 8)))
    else none
  | 3 =>
    let n := numAt p 2 1
    let ch : Bool := numAt p 3 1 == 1
    let k := if ch then 3 * n else n
    if numAt p 3 1 ≤ 1 ∧ n ≤ (if ch then 6 else 16) ∧ len = 4 + 4 * k then
      some (.cal (BitVec.ofNat 16 (numAt p 0 2)) n ch ((List.range k).map (fun i => w (4 + 4 * i))))
    else none
  | 4 => if len = 68 then some (.keymeta (BitVec.ofNat 10 (numAt p 0 2)).toFin ((numAt p 2 1).testBit 0) (BitVec.ofNat 512 (numAt p 4 64))) else none
  | 5 =>
    let g := numAt p 6 1
    if len = 16 then some (.commit (w 0) (numAt p 4 2) (g.testBit 0) (g.testBit 1) (g.testBit 2) (BitVec.ofNat 64 (numAt p 8 8))) else none
  | 6 => if len = 16 then some (.mark (w 0) ((numAt p 4 1).testBit 0) (BitVec.ofNat 64 (numAt p 8 8))) else none
  | _ => none

/-- The record at the start of bytes (R243, R245): its TYPE is listed, its LEN fits and its CRC holds. -/
def recordAt (l : List Byte) : Option JRec :=
  let len := numAt l 9 1
  let p := (l.drop 16).take len
  if p.length = len ∧ (l.drop 12).take 4 = crcOf (l.take 12 ++ p) then
    (payOf (numAt l 8 1) len p).map (fun pay => { seq := numAt l 0 8, mirror := (numAt l 10 1).testBit 0, pay := pay })
  else none

/-! ## TWIN bursts (R230) -/

/-- A TWIN burst (R230). -/
structure TwinBurst where
  kind : BitVec 4
  role : BitVec 4
  node : BitVec 14
  tseq : Word
  gen : Word
  epoch : Word
  rcd : Option JRec
  pullReq : Bool
  total : Word
  deriving DecidableEq, Repr

/-- The bytes of a TWIN burst (R182, R230). -/
def TwinBurst.bytes (b : TwinBurst) : List Byte :=
  burstBytes (numBytes 1 0x13 ++ numBytes 1 (b.kind.toNat + 16 * b.role.toNat) ++ numBytes 2 b.node.toNat ++ numBytes 4 b.tseq.toNat ++ numBytes 4 b.gen.toNat ++
    numBytes 4 b.epoch.toNat ++ padTo 96 (match b.rcd with | some r => r.bytes | none => [BitVec.ofNat 8 (b2n b.pullReq)]) ++ numBytes 4 b.total.toNat)

/-- The TWIN burst in a burst whose type is TWIN (R230). -/
def twinOf (l : List Byte) : TwinBurst :=
  let kind := BitVec.ofNat 4 (numAt l 1 1)
  { kind := kind, role := BitVec.ofNat 4 (numAt l 1 1 / 16), node := BitVec.ofNat 14 (numAt l 2 2), tseq := BitVec.ofNat 32 (numAt l 4 4),
    gen := BitVec.ofNat 32 (numAt l 8 4), epoch := BitVec.ofNat 32 (numAt l 12 4),
    rcd := if kind = 2 then recordAt ((l.drop 16).take 96) else none,
    pullReq := kind == 1 && (numAt l 16 1).testBit 0, total := BitVec.ofNat 32 (numAt l 112 4) }

/-! ## Downstream frames of photonic summation (R301) -/

/-- The generator x^31 + x^28 + 1 over bits [111:0] of a frame, its first bit at bit 111 (R301; log entry 104). -/
def frameScramble : Nat :=
  let g := scrambleBits (2 ^ 31 - 1) 112
  (List.range 112).foldl (fun v i => 2 * v + b2n (g.testBit i)) 0

/-- CRC-32C of the 80 bits [111:32] of a frame, the highest byte first (PRESUMED: log entry 102). -/
def frameCrc (v : Nat) : Nat := crc32c ((List.range 10).map (fun i => v / 256 ^ (9 - i) % 256))

/-- A downstream frame (R301): TYPE, LINE and the 72 bits of PAYLOAD. -/
structure PsmFrame where
  typ : Nat
  line : Nat
  payload : Nat
  deriving DecidableEq, Repr

/-- The 128 bits of a frame: SYNC, then the scrambled bits (R301). -/
def PsmFrame.bits (x : PsmFrame) : BitVec 128 :=
  let v := x.typ % 16 * 2 ^ 76 + x.line % 16 * 2 ^ 72 + x.payload % 2 ^ 72
  BitVec.ofNat 128 (0xE4D2 * 2 ^ 112 + ((v * 2 ^ 32 + frameCrc v) ^^^ frameScramble))

/-- The frame in 128 bits; none where SYNC is not there or the CRC fails (R301). -/
def psmFrameOf (b : BitVec 128) : Option PsmFrame :=
  let w := b.toNat % 2 ^ 112 ^^^ frameScramble
  let v := w / 2 ^ 32
  if b.toNat / 2 ^ 112 = 0xE4D2 ∧ w % 2 ^ 32 = frameCrc v then some { typ := v / 2 ^ 76, line := v / 2 ^ 72 % 16, payload := v % 2 ^ 72 } else none

/-- The REPAIR frames that carry a list of sample indices: three in each, 0xFFFFFF as filler and terminator (R301, R307). -/
def repairFrames (line : Nat) (l : List Nat) : List PsmFrame :=
  (List.range (l.length / 3 + 1)).map (fun i =>
    let x (j : Nat) : Nat := l.getD (3 * i + j) 0xFFFFFF
    { typ := 3, line := line, payload := x 0 * 2 ^ 48 + x 1 * 2 ^ 24 + x 2 })

/-- The sample indices of a REPAIR frame. -/
def PsmFrame.indices (x : PsmFrame) : List Nat :=
  [x.payload / 2 ^ 48, x.payload / 2 ^ 24 % 2 ^ 24, x.payload % 2 ^ 24].filter (· != 0xFFFFFF)

end Sys2Proof.Machine
end

