-- ==== Sys2Proof/Machine/State.lean ====
section
/-! DEFINITION. The state of the Olnath OX16 as plain data: register fields, tables, queues, buffers, modes and pins of every block, and
the queue of waiting commands. INVENTORY.md lists each piece with its rule and reset value. -/

namespace Sys2Proof.Machine

/-- A register field: byte address of its word, lowest bit, width, reset value. PF0 BAR0 is 0 to 0xFFFFF (R24); VF v's BAR0 starts at
0x100000 + 0x10000 × (v − 1) (R26). A 64-bit pair is one field at its LO address (R37). -/
structure Fld where
  addr : Nat
  lo : Nat
  width : Nat
  reset : Nat
  deriving DecidableEq, Repr

/-- What the block has sent to the outside. vector: a memory write of data to addr (R69). alert: on the -M and -P forms the memory write of vector
0, on the -C form (none) the sideband message with the function's ASID and vector number 0 (R69). aer: PF0's log of an error with the requester ID it
is attributed to (R55). flit, ctlFlit, skipPair, beacon, twin: what has been put into a slot of the codewords that are being filled; codeword: the
codeword of a lane leaves, with the active bits of its modulator's drive converter (R107); trainBurst: the TRAIN burst that a lane sends in its slots
from now on. -/
inductive Output where
  | cplEntry (f : Fn) (slot : Nat) (e : Block64)
  | fetchRead (f : Fn) (slot n : Nat)
  | hostRead (f : Fn) (cmdId : Nat) (addr : DWord) (bytes : Nat)
  | hostWrite (f : Fn) (addr : DWord) (bytes : List Byte) (poisoned : Bool)
  | vector (f : Fn) (vec : Nat) (addr : DWord) (data : Word)
  | alert (f : Fn) (write : Option (DWord × Word))
  | bar4Data (f : Fn) (off : Nat) (v : Word)
  | sbUnsupported (asid : Nat)
  | bar2Cpl (f : Fn) (st : Nat) (poisoned : Bool) (data : List Byte)
  | regData (r : Req) (addr : Nat) (v : Word)
  | flit (p : Port) (j : PairIx) (f : Flit)
  | ctlFlit (p : Port) (j : PairIx) (c : CtlFlit)
  | skipPair (p : Port) (j : PairIx)
  | codeword (p : Port) (k : LineIx) (active : Nat) (levels : List (Fin 4))
  | trainBurst (p : Port) (k : LineIx) (b : TrainBurst)
  | beacon (p : Port) (b : Beacon)
  | twin (p : Port) (b : TwinBurst)
  | wakePattern (p : Port)
  | psmFrame (p : Port) (k : Nat) (bits : BitVec 128)
  | psmLaunch (p : Port) (active : Nat) (codes : List Nat)
  | flashProgram (addr : Nat) (bytes : List Byte)
  | flashErase (region : Nat)
  | pmbus (cmd : Nat) (data : Nat)
  | tdo (ir : Nat) (v : BitVec 128)
  | aer (requester : Nat) (st : Nat)
  deriving DecidableEq, Repr

/-- Configuration-space state of one function (R55, R57, R61, R65, R66, R70, R471) and its MSI-X table: table holds the words of BAR4 below 0x1000
by word index, but for the mask bits, which unmasked holds. d3: D3hot; mps and mrrs: codes of the maximum payload and read request sizes, 128 B × 2^code,
which PF0's set for every function. -/
structure HostFn where
  bme : Bool := false
  msix : Bool := false
  fmask : Bool := false
  unmasked : List Nat := []
  pba : List Nat := []
  d3 : Bool := false
  mps : Nat := 0
  mrrs : Nat := 2
  table : List (Nat × Nat) := []
  deriving DecidableEq, Repr

/-- What an EVR record holds (R384). -/
structure EvrRec where
  seq : Nat
  page : Nat
  sev : Nat
  code : Nat
  rep : Nat
  part : Nat
  pub : Bool
  list : Nat
  snaps : List Word
  arg : Nat
  deriving DecidableEq, Repr

/-- Window state of one requester on one table window (R43 to R47): WIN_SEL.BASE, TORN, the staged entry's index and words, the captured
entry's index and words. -/
structure WinState where
  base : Nat := 0
  torn : Bool := false
  staged : Option (Nat × List (Nat × Word)) := none
  cap : Option (Nat × List Word) := none
  deriving DecidableEq, Repr

/-- What one requester holds: read shadow (R38), held LO values (R39), windows (R43), event cursor, LOST flag and capture (R392). -/
structure ReqState where
  shadow : Option (Nat × Nat) := none
  hold : List (Nat × Nat) := []
  wins : List (Nat × WinState) := []
  cursor : Nat := 0
  lost : Bool := false
  evCap : Option (Option EvrRec) := none
  deriving DecidableEq, Repr

/-- What a completion carries beside the command's own fields (R79). -/
structure Cpl where
  status : Nat := 0
  detail : Nat := 0
  result : Nat := 0
  deriving DecidableEq, Repr

/-- A schedule slot (R212, R225). st: 0 EMPTY, 1 ARMED, 2 FIRED, 3 MISSED. -/
structure Slot where
  st : Nat := 0
  act : Nat := 0
  epoch : Nat := 0
  fire : Nat := 0
  deriving DecidableEq, Repr

/-- Where a command in flight stands (R75, R77, R85, R219, R431): not started; waiting for what its block brings; finished and waiting for
earlier commands of CSQ; complete once a journal record is durable, with the schedule slots that then take effect (R212), or once a freeze is released. -/
inductive Wait where
  | unstarted
  | running
  | fence
  | hostRead
  | admission
  | prepare
  | epoch (n : Word)
  | durable (seq : Nat) (c : Cpl)
  | schedule (seq : Nat) (slots : List (Nat × Slot))
  | released (c : Cpl)
  | finished (c : Cpl)
  | drain
  | compact
  | cal
  | dma
  deriving DecidableEq, Repr

/-- A command in flight (R75): its number in the order of start, function, entry, effective partition (R79 OWNER), stage. noEntry: it completes without writing a completion
entry (R91, R93); gone: a reset of its function's queues has taken it out of INFLIGHT (R93, R92). -/
structure Cmd where
  id : Nat
  fn : Fn
  e : Block64
  owner : Nat
  wait : Wait
  noEntry : Bool := false
  gone : Bool := false
  deriving DecidableEq, Repr

/-- A fetch read outstanding (R82). -/
structure Fetch where
  fn : Fn
  slot : Nat
  n : Nat
  deriving DecidableEq, Repr

/-- Queue manager state behind its registers. -/
structure QueState where
  inflight : List Cmd := []
  nextId : Nat := 0
  fetches : List Fetch := []
  deficit : List (Nat × Nat) := []
  visit : Nat := 1
  inVisit : Bool := false
  coal : List (Nat × Nat) := []
  deriving DecidableEq, Repr

/-- A host access that waits until it can be made (R471): a completion entry without its slot, PHASE and head, or any other access. -/
inductive HostWait where
  | cpl (f : Fn) (noint : Bool) (e : Block64)
  | acc (f : Fn) (o : Output)
  deriving DecidableEq, Repr

/-- Host attach state behind its registers. flr lists the functions whose FLR is under way (R92); reads holds the host reads that have been made and
have not returned, oldest first (R55, R471); lone: of two UCIe modules only one has trained since reset. -/
structure HostState where
  fns : List (Nat × HostFn) := []
  waiting : List HostWait := []
  flr : List Nat := []
  reads : List (Fn × Output) := []
  lone : Bool := false
  deriving DecidableEq, Repr

/-- Optical state of a ring (R102); off while RING is off or no search has placed it. -/
inductive RingOpt where
  | off | on | block | parked
  deriving DecidableEq, Repr

/-- A ring: its calibration-window entry (R158), its optical state (R102), the state it moves to, loop counters (R133, R135), fallback
(R134) and the sweep events last recorded (R126). loop is R154's number. ff: codes that feed-forward has added since ON_CODE was set, ffRem the
fraction of a code it carries, ffLast the sensor's previous sample (R134). monLast, rise: the last monitor code of a sweep and the code at which the
present rise reached it; htrSeen: what the heater monitor has reported in this sweep, sound or not (R126, R154). -/
structure Ring where
  onCode : Nat := 0
  parkOfs : Nat := 0
  live : Nat := 0
  loop : Nat := 0
  prior : Nat := 0
  htrFault : Bool := false
  shadow : Nat := 0xF
  ffSrc : Nat := 0
  lockErr : Nat := 0
  unlocks : Nat := 0
  opt : RingOpt := .off
  goal : RingOpt := .off
  inWin : Nat := 0
  outWin : Nat := 0
  hold : Nat := 0
  fallback : Bool := false
  unlocked : Bool := false
  headroom : Bool := false
  events : List Nat := []
  repeats : Nat := 0
  ff : Int := 0
  ffRem : Int := 0
  ffLast : Option Int := none
  monLast : Option Nat := none
  rise : Option Nat := none
  htrSeen : Option Bool := none
  deriving DecidableEq, Repr

/-- A calibration channel's entry (R158). STATUS: 0 OK, 1 DUE, 2 SUSPECT, 3 NEVER; base is the bank-sensor reading at CAL_LAST. -/
structure Chan where
  th0 : Nat := 0x40
  th1 : Nat := 0x80
  th2 : Nat := 0xC0
  cdrPh : Nat := 32
  pre : Nat := 0
  main : Nat := 48
  post : Nat := 0
  modBias : Nat := 0
  dropOfs : Nat := 0
  count : Nat := 0
  last : Nat := 0
  base : Int := 0
  suspect : Bool := false
  never : Bool := true
  retries : Nat := 0
  defers : Nat := 0
  deriving DecidableEq, Repr

/-- The steps of a calibration attempt (R155). -/
inductive CalStep where
  | waitGap | switchOut | measA | measB | applyStep | switchBack | glide
  deriving DecidableEq, Repr

/-- A calibration attempt (R155, R141): kind, classes still measured, first results, accepted items. -/
structure Attempt where
  ch : Nat
  spare : Bool
  step : CalStep
  classes : Nat
  again : Nat
  retry : Nat
  a : Option CalItems
  acc : Option CalItems
  deriving DecidableEq, Repr

/-- A CAL_RUN under way (R149): channels still to settle and the counts so far. -/
structure CalRunState where
  id : Nat
  left : List Nat
  force : Bool
  classes : Nat
  done : Nat
  suspect : Nat
  deferred : Nat
  skipped : Nat
  deriving DecidableEq, Repr

/-- Photonic front end and ring control behind their registers. ilkPending: falls of LASER_EN whose 5 ms have not elapsed; ilkHeld: a check waits
for RING (R120); sweepHold: updates for which a sweep still holds its step (R135, R151). -/
structure RingState where
  rings : List (Nat × Ring) := []
  chans : List (Nat × Chan) := []
  injectors : Bool := false
  full : Bool := true
  group : Nat := 0
  resweep : List Nat := []
  failed : List Nat := []
  round : Nat := 0
  everDone : Bool := false
  attempts : List Attempt := []
  calRuns : List CalRunState := []
  glides : List (Nat × CalItems) := []
  acqWait : List Nat := []
  acqs : List Nat := []
  ilkPending : Nat := 0
  ilkHeld : Bool := false
  pulse : Bool := false
  skips : List (Nat × Nat) := []
  sweepHold : Nat := 0
  deriving DecidableEq, Repr

/-- A deficit round robin over the functions (R82, R83): the partition being visited, whether its visit has begun, and the deficits that are not 0. -/
structure Drr where
  visit : Nat := 1
  inVisit : Bool := false
  deficit : List (Nat × Nat) := []
  deriving DecidableEq, Repr

/-- A lane's codeword lock (R162): good codewords in a row while unlocked, bad ones in a row while locked, the last CWSEQ. -/
structure Lane where
  lock : Bool := false
  good : Nat := 0
  bad : Nat := 0
  cw : Nat := 0
  deriving DecidableEq, Repr

/-- What a receiver holds of one slot: of a lane pair both halves, of λS its burst as h0 (R163, R182); bad0 and bad1: the half came in a run of
failing codewords that has not ended (R171); time: when the codeword came. -/
structure RxSlot where
  cw : Nat
  ix : Nat
  h0 : Option Burst := none
  h1 : Option Burst := none
  bad0 : Bool := false
  bad1 : Bool := false
  time : DWord := 0
  deriving DecidableEq, Repr

/-- What a lane has received as its peer's identity (R188): node, port, line. -/
structure PeerId where
  node : Nat
  port : Nat
  line : Nat
  deriving DecidableEq, Repr

/-- A lane pair or the spare (R163 to R177, R188 to R193). exp: LSEQ expected; next: LSEQ of the next new data flit; sent and credit: flits
sent and the peer's limit; given and taken: the limit granted and the flits that clients have taken; resend: sent and not acknowledged; replay:
still to be sent again; nak: a NAK is to be sent; nakOut: one has been sent and its flit has not come; losses: times of the loss events of the last
1 ms; circ, side: the circuit that holds it, and the side of a RELAY image it belongs to (0 A, 1 B); want: a training waits to start; byCsq, tries: a
training of CSQ and its further attempts; back: the pair returns from calibration through CW_LOCK (R191); slots: received and not yet taken; fill: the slots filled of the
codeword that is being sent; sinceSkip: control slots (of λS: slots 0) since the last skip; alloc, bits: REPLAY_ALLOC and BITS as its last
training found them (R175, R108); peer0, peer1: identities received (R188); eye0, eye1: what the peer's EYE last said (R172). -/
structure LinkUnit where
  exp : Nat := 0
  next : Nat := 0
  sent : Nat := 0
  credit : Nat := 0
  given : Nat := 0
  taken : Nat := 0
  resend : List Flit := []
  replay : List Flit := []
  nak : Bool := false
  nakOut : Bool := false
  losses : List Nat := []
  circ : Option Nat := none
  side : Nat := 0
  want : Bool := false
  byCsq : Bool := false
  tries : Nat := 0
  back : Bool := false
  slots : List RxSlot := []
  fill : List (Burst × Burst) := []
  sinceSkip : Nat := 0
  alloc : Nat := 0
  bits : Nat := 0
  peer0 : Option PeerId := none
  peer1 : Option PeerId := none
  eye0 : Eye := {}
  eye1 : Eye := {}
  deriving DecidableEq, Repr

/-- A substitution of λS for a line (R183), as its transmitter or its receiver holds it: to begin (on) or to end; cw: the changeover CWSEQ; base: at
the receiver, a CWSEQ shortly before the announcement's; told: it has been announced; done: the changeover lies behind. -/
structure Subst where
  line : Nat
  on : Bool
  cw : Nat := 0
  base : Nat := 0
  told : Bool := false
  done : Bool := false
  deriving DecidableEq, Repr

/-- A port's link state beside its units (R161, R183): the CWSEQ of the codewords being filled, the substitutions it sends and receives. -/
structure PortLink where
  cw : Nat := 0
  tx : Option Subst := none
  rx : Option Subst := none
  deriving DecidableEq, Repr

/-- A data flit that came out of order (R177, R181): its CSEQ, its lane pair, its CLIENT, and the flit, none for one that is LOST. -/
structure EarlyFlit where
  cseq : Nat
  unit : Nat
  client : Nat
  flit : Option Flit
  deriving DecidableEq, Repr

/-- A flit that a RELAY node is to forward (R17, R178): the side it came on, the lane pair whose credit it holds, the flit. -/
structure RelayFlit where
  side : Nat
  unit : Option Nat
  flit : Flit
  deriving DecidableEq, Repr

/-- A circuit's link state (R177, R178, R275): CSEQ next to send and next to deliver without a key; flits queued, as client
class and body; flits to be sent again with their CSEQ; flits that came out of order; flits delivered and not yet taken, as CSEQ, lane pair and flit;
flits to forward; broken: a flit of the message now arriving was LOST (R181, R280); drr: how partitions enter its queue (R275). -/
structure CircLink where
  tx : Nat := 0
  rx : Nat := 0
  txq : List (Nat × List Byte) := []
  again : List Flit := []
  early : List EarlyFlit := []
  inbox : List (Nat × Nat × Flit) := []
  relay : List RelayFlit := []
  broken : Bool := false
  drr : Drr := {}
  deriving DecidableEq, Repr

/-- A port's beacon state (R184). -/
structure BeaconSt where
  bseq : Nat := 0
  tPrev : Nat := 0
  tPrev2 : Nat := 0
  rxLast : Nat := 0
  peerBseq : Nat := 0
  seen : Bool := false
  deriving DecidableEq, Repr

/-- Felilo link state behind its registers. -/
structure LnkState where
  lanes : List (Nat × Lane) := []
  units : List (Nat × LinkUnit) := []
  ports : List (Nat × PortLink) := []
  circs : List (Nat × CircLink) := []
  beacons : List (Nat × BeaconSt) := []
  deriving DecidableEq, Repr

/-- A circuit image (R198, R224). path: 0 TERMINATE, 1 THROUGH, 2 RELAY. -/
structure Image where
  path : Nat := 0
  keyEn : Bool := false
  keySlot : Nat := 0
  portA : Nat := 0
  pairsA : Nat := 0
  subA : Nat := 0xF
  hopsA : Nat := 0
  portB : Nat := 0
  pairsB : Nat := 0
  subB : Nat := 0xF
  hopsB : Nat := 0
  peerA : Nat := 0
  peerB : Nat := 0
  deriving DecidableEq, Repr

/-- A circuit-table entry's active image (R224). state: 0 FREE, 1 ACTIVE, 2 DEGRADED, 3 DOWN, 4 RESTORED. lost: pairs lost, as port × 4 +
pair. -/
structure Circuit where
  state : Nat := 0
  down : Nat := 0
  owner : Nat := 0
  img : Image := {}
  epoch : Nat := 0
  label : Nat := 0
  lost : List Nat := []
  deriving DecidableEq, Repr

/-- A change (R221). id is its number in the order of admission; st is R221's number, fail its reason. rings and units are what it needs, with those that are ready; key is the slot it
binds; waitFor the epoch it waits for in WAIT_PREV; holds says that it holds an entry of the change queue (R219). -/
structure Change where
  id : Nat
  circ : Nat
  epoch : Nat
  owner : Nat
  isClear : Bool
  img : Image
  label : Nat
  st : Nat
  fail : Nat := 0
  key : Option Nat := none
  waitFor : Nat := 0
  rings : List Nat := []
  locked : List Nat := []
  units : List Nat := []
  active : List Nat := []
  holds : Bool := true
  deriving DecidableEq, Repr

/-- An epoch (R222). st is R222's number; moved lists each moved circuit with its old image; drained says that DRAIN has
released the old lane pairs, released that the old THROUGH cells are released too (R204). -/
structure Epoch where
  num : Nat
  pin : Bool
  cmd : Option Nat := none
  st : Nat := 0
  bySched : Bool := false
  part : Bool := false
  lateAbort : Bool := false
  t : Nat := 0
  lateLimit : Nat := 0
  late : Bool := false
  fired : Bool := false
  effect : Nat := 0
  changes : Nat := 0
  failed : Nat := 0
  failStatus : Nat := 0
  withdrawn : Nat := 0
  moved : List (Nat × Circuit) := []
  drained : Bool := false
  released : Bool := false
  seq : Nat := 0
  deriving DecidableEq, Repr

/-- Circuit sequencer state behind its registers. -/
structure CsqState where
  circuits : List (Nat × Circuit) := []
  changes : List Change := []
  epochs : List Epoch := []
  slots : List (Nat × Slot) := []
  floor : Option Nat := none
  nextChange : Nat := 0
  deriving DecidableEq, Repr

/-- The mirror (R228): image words W0 to W2, epoch and label per circuit; slots; blobs with LOADED. -/
structure Mirror where
  circs : List (Nat × (List Nat)) := []
  slots : List (Nat × Slot) := []
  keys : List (Nat × (Bool × Block64)) := []
  deriving DecidableEq, Repr

/-- A record of the twin stream: its number (the append count that must be durable before a commit record leaves, then its TSEQ), and the TOTAL of the
answer to a PULL that it belongs to, 0 outside one (R230). -/
structure TwinOut where
  n : Nat
  rcd : JRec
  total : Nat := 0
  deriving DecidableEq, Repr

/-- Twin mirroring state behind its registers. sendq: records to send; buf: sent and not acknowledged; resend: to be sent again; exp: TSEQ expected, none
before a PULL is answered; total: TOTAL of the answer received; group, groupEpoch: the incomplete group; gap: a NAK is outstanding; pulled: records of the
answer received; handing: a handover waits for its ACK; needFull: nothing is sent until a PULL, which a FULL group answers; deferred: a takeover waits for the end of FREEZE;
ackEpoch: epoch of the last commit record acknowledged; lastEpoch: the last epoch sent or applied; held: records of groups that
close during a handover. -/
structure TwnState where
  mirror : Mirror := {}
  sendq : List TwinOut := []
  buf : List TwinOut := []
  resend : List TwinOut := []
  total : Nat := 0
  exp : Option Nat := none
  group : List JRec := []
  groupEpoch : Nat := 0
  gap : Bool := false
  pulled : Nat := 0
  handing : Bool := false
  needFull : Bool := false
  deferred : Bool := false
  ackEpoch : Nat := 0
  lastEpoch : Nat := 0
  held : List TwinOut := []
  deriving DecidableEq, Repr

/-- A region of the flash (R241): the bytes programmed from its base on, and the offset up to which it has been erased. What lies beyond is what an earlier
use has left. -/
structure Region where
  bytes : List Byte := []
  erased : Nat := 0
  deriving DecidableEq, Repr

/-- Journal state behind its registers. queue holds the records appended, of which headDone bytes of the first are in flash; held those that wait to be
appended (R242, R249). prog holds the bytes being programmed (none: no program is under way), for the compaction when progComp. asked, taken and durable
count the records that blocks have handed over, that were appended, and that are durable, since reset; streamed is the highest of taken. regA and regB are
the flash regions, part the part accepted. firstErases are the erases of R430 still to do; background: the old region is being erased (R248). noFlash: no part
is accepted; stopped: a flash error; ready: a replay has reached DONE; failedBefore: the last replay FAILED; recover: what replay does once its compaction ends
(1 truncated end, 2 format). comp holds the compaction records still to write, compDone bytes of the first are in flash; compRecs counts those written,
compBytes their bytes; compTotal how many there are to copy; compSeq the SEQ of START, compNext the next one in the new region; catchup the records that became
durable in the old region since START. -/
structure JnlState where
  queue : List JRec := []
  headDone : Nat := 0
  held : List JRec := []
  prog : List Byte := []
  progComp : Bool := false
  asked : Nat := 0
  taken : Nat := 0
  streamed : Nat := 0
  durable : Nat := 0
  regA : Region := {}
  regB : Region := {}
  part : Option Sfdp := none
  firstErases : Nat := 0
  background : Bool := false
  noFlash : Bool := false
  stopped : Bool := false
  ready : Bool := false
  failedBefore : Bool := false
  recover : Nat := 0
  comp : List JRec := []
  compDone : Nat := 0
  compRecs : Nat := 0
  compBytes : Nat := 0
  compTotal : Nat := 0
  compSeq : Nat := 0
  compNext : Nat := 0
  catchup : List JRec := []
  deriving DecidableEq, Repr

/-- Stacked memory state behind its registers. mem is keyed by stack × 2^34 + address (R256); an unlisted byte reads as 0 (DESIGN CHOICE: log entry 9).
poison lists granules, stack × 2^28 + index (R259). passStart is the fabric time at which a stack's scrub pass started (R261). noZero: the training
of a wake leaves out ZERO (R281). barred: stacks that answer FENCED until training makes them READY (R346, R370). -/
structure MssState where
  mem : List Host.Cell := []
  poison : List Nat := []
  passStart : List (Nat × Nat) := []
  noZero : Bool := false
  barred : List Nat := []
  deriving DecidableEq, Repr

/-- Where an RME operation comes from (R267). -/
inductive OpSrc where
  | read | write | atomic (n : Nat) | dma (ch : Nat)
  deriving DecidableEq, Repr

/-- Where an RME operation stands (R271, R273, R275, R277): not issued; issued and waiting for host data; issued, its host data read, and waiting for
room in the circuit's queue or for the stacks; in the queue; sent and unanswered; quarantined. -/
inductive OpStage where
  | stalled | hostRead | waiting | queued | sent | quarantined
  deriving DecidableEq, Repr

/-- An RME operation (R267): tag once issued, function, the partition it acts for (R76), source, kind (0 load, 1 store, 2 atomic), node, offset, length,
store data, atomic operation and operands, circuit, CSEQ of its first flit, stage. relaxed: a read with the relaxed-ordering bit; pos: start of the operation
in its MEM_COPY; bell: a BAR2 write that arrived before a doorbell write (R271); flr: its response is discarded (R92, R447). -/
structure RmeOp where
  tag : Option Nat := none
  fn : Fn
  part : Nat
  src : OpSrc
  kind : Nat
  node : Nat
  offset : Nat
  len : Nat
  data : List (Option Byte) := []
  aop : Nat := 0
  a64 : Bool := false
  opa : Nat := 0
  opb : Nat := 0
  circ : Option Nat := none
  cseq : Nat := 0
  stage : OpStage := .stalled
  relaxed : Bool := false
  pos : Nat := 0
  bell : Bool := false
  flr : Bool := false
  deriving DecidableEq, Repr

/-- A DMA channel's copy (R269, R270): owner: the partition it acts for (R76); next: where its next operation starts; inflight: operations under way; okTo: (start, length) of those that
completed OK or POISON; issued, poisoned: counts of RESULT; fail: the first failure. -/
structure Dma where
  ch : Nat
  id : Nat
  fn : Fn
  owner : Nat
  e : Block64
  next : Nat := 0
  inflight : Nat := 0
  okTo : List (Nat × Nat) := []
  issued : Nat := 0
  poisoned : Nat := 0
  fail : Option Cpl := none
  deriving DecidableEq, Repr

/-- Remote memory engine state behind its registers. drr: how freed tags go to the functions that wait (R273). -/
structure RmeState where
  ops : List RmeOp := []
  dma : List Dma := []
  drr : Drr := {}
  deriving DecidableEq, Repr

/-- A step of a REDUCE command (R288, R290): index, entry, 0 read 1 in flight 2 complete 3 failed, elements received. -/
structure RStep where
  ix : Nat
  e : StepEntry
  st : Nat := 0
  got : Nat := 0
  deriving DecidableEq, Repr

/-- A running REDUCE command (R287, R290, R293): the steps read, the entries asked for, the first failure (STATUS, DETAIL [7:0], step), counts of
RESULT. -/
structure RCmd where
  id : Nat
  fn : Fn
  e : Block64
  owner : Nat
  steps : List RStep := []
  asked : Nat := 0
  fail : Option (Nat × Nat × Nat) := none
  done : Nat := 0
  poisoned : Nat := 0
  sat : Nat := 0
  deriving DecidableEq, Repr

/-- Reduction engine state behind its registers. waiting: commands that wait for one of the 16 places; unexp: the unexpected-message buffer, with
the circuit of each message; satV: each partition's VF_RDX_SAT; drr: how free step places go to the commands that wait (R290). -/
structure RdxState where
  cmds : List RCmd := []
  waiting : List Nat := []
  unexp : List (Nat × CollMsg) := []
  satV : List (Nat × Nat) := []
  drr : Drr := {}
  deriving DecidableEq, Repr

/-- A PSM run on a port (R296, R310). trimmed: a TRIM frame has come; ovr: data indices that over-ranged; done: result words written; dirty: those
written DIRTY; listed: the indices to repair; repaired: values repaired; late: T_START passed under FREEZE; flr: the contributor's function was
reset; failed: the run is FAILED; completed: its command has completed. -/
structure PRun where
  id : Nat
  fn : Fn
  e : Block64
  owner : Nat
  trimmed : Bool := false
  ovr : List Nat := []
  done : Nat := 0
  dirty : Nat := 0
  listed : List Nat := []
  repaired : Nat := 0
  late : Bool := false
  flr : Bool := false
  failed : Bool := false
  completed : Bool := false
  deriving DecidableEq, Repr

/-- Photonic summation state behind its registers. lin: per modulator ring the time and temperature of its table (R298). -/
structure PsmState where
  runs : List (Nat × PRun) := []
  lin : List (Nat × (Nat × Int)) := []
  deriving DecidableEq, Repr

/-- A key slot (R318 to R324, R331). -/
structure KeySlot where
  loaded : Bool := false
  owner : Nat := 0
  key : BitVec 256 := 0
  salt : Nat := 0
  lastSalt : Nat := 0
  tx : Nat := 0
  rx : Nat := 0
  blob : Block64 := 0
  deriving DecidableEq, Repr

/-- Security guard state behind its registers. -/
structure SecState where
  slots : List (Nat × KeySlot) := []
  kek : Option (BitVec 256) := none
  deriving DecidableEq, Repr

/-- A value of a source's pair (R359). -/
inductive Rail where
  | clear | error | wire
  deriving DecidableEq, Repr

/-- What FCU remembers of a pair's samples (R360): the value that counts, and whether the latest sample was a first WIRE after it. -/
structure PairMem where
  rail : Rail := .clear
  edge : Bool := false
  deriving DecidableEq, Repr

/-- Fault collector state behind its registers. raised: onsets on the pairs not yet sampled; pairs: by source, the memory of a pair and the last onset
on it; stopped: (page, source) of blocks stopped under R365; fences: (source, kind, value) a record's fence reaction named; shuts:
(source, port) LOCKOUT causes of the shutter reaction (R363). dryErrn,
supplyFail: ERR_N is held low by a dry run, or by a supply that fails (R375); fatal: a chip reset is to start once the onsets of a sample are
handled (R369, R372); wakeSupply: WAKE_SUPPLY is to be raised once HOST is on (R357). -/
structure FcuState where
  raised : List Onset := []
  pairs : List (Onset × PairMem) := []
  stopped : List (Nat × Nat) := []
  fences : List (Nat × Nat × Nat) := []
  shuts : List (Nat × Nat) := []
  dryErrn : Bool := false
  supplyFail : Bool := false
  fatal : Bool := false
  wakeSupply : Bool := false
  deriving DecidableEq, Repr

/-- Event recorder state behind its registers. -/
structure EvrState where
  log : List EvrRec := []
  staging : List EvrRec := []
  lostSince : Nat := 0
  snapLists : List (Nat × List Word) := []
  deriving DecidableEq, Repr

/-- Partition counters (R401): key partition × 8 + j; since: the fabric time from which the next boundary counts (R397, R398). -/
structure StaState where
  live : List (Nat × Nat) := []
  snap : List (Nat × Nat) := []
  since : Nat := 0
  deriving DecidableEq, Repr

/-- Fabric time and what runs with it (R349, R185, R351). sub: units of 10^-10 of the least significant bit; rate: parts per 10^9;
good: consecutive beacons within 2 ns (R186); theta: the last θ (R351); lossAt: when a SYNCED node lost its parent. -/
structure TimeState where
  now : DWord := 0
  sub : Nat := 0
  rate : Int := 0
  good : Nat := 0
  theta : Int := 0
  lossAt : Option Nat := none
  coreSub : Nat := 0
  deriving DecidableEq, Repr

/-- Clock and power manager state behind its registers. target: a TARGET that waits for the sequencer (R342); goal: the operating point it moves
to; reads: READ_VOUTs of V_WAIT so far; prevMv: the voltage before the change; wake: a held wake source, with its port (R356); tSleep: T_sleep
(R353); hostOff: HOST is off in this sleep; tamperHeld: TAMPER_N latched while HOST was off (R330); mode: CPM_PWR_MODE as SLEEP_WAIT was
checked with it (R343, R344); wakeRx: ports on whose ingress the wake pattern came while HOST was off (R187). -/
structure CpmState where
  target : Option Nat := none
  goal : Nat := 0
  reads : Nat := 0
  prevMv : Nat := 700
  wake : Option (Nat × Nat) := none
  tSleep : Nat := 0
  hostOff : Bool := false
  tamperHeld : Bool := false
  mode : Nat := 0
  wakeRx : List Nat := []
  deriving DecidableEq, Repr

/-- Start-up inputs held in AON (R420, R423): the AON supply is in range, PERST_N is low. -/
structure BootState where
  aon : Bool := true
  perstLow : Bool := true
  deriving DecidableEq, Repr

/-- Debug port state behind its registers (R438 to R444). stat: 0 OK, 1 BUSY, 2 DENIED. -/
structure DbgState where
  chal : Option (BitVec 128) := none
  ir : Nat := 2
  boundary : Nat := 0
  drvPins : Bool := false
  data : Word := 0
  stat : Nat := 0
  deriving DecidableEq, Repr

/-- The whole machine. -/
structure State where
  pending : List Instr
  out : List Output
  freeCtr : Nat
  regs : List (Nat × Nat)
  time : TimeState
  host : HostState
  req : List (Nat × ReqState)
  locks : List (Nat × Req)
  que : QueState
  rcu : RingState
  lnk : LnkState
  csq : CsqState
  twn : TwnState
  jnl : JnlState
  mss : MssState
  rme : RmeState
  rdx : RdxState
  psm : PsmState
  sec : SecState
  fcu : FcuState
  evr : EvrState
  sta : StaState
  cpm : CpmState
  boot : BootState
  dbg : DbgState
  deriving DecidableEq, Repr

/-- Why a step could fault. No rule of the spec stops the block, so there is no fault: nobody raises one. -/
inductive Fault : Type
  deriving DecidableEq, Repr

/-- Why a step could be refused. notModelled: a row without a meaning (none is left). illFormed: an operand that is no access the spec
defines, raised by BAR2_READ and BAR2_WRITE outside 1 B to 4,096 B (R266); safe: the hardware accepts no such access. -/
inductive Refusal where
  | notModelled (mnemonic : String)
  | illFormed (mnemonic : String)
  deriving DecidableEq, Repr

/-- The machine at reset: every register field at its reset value (nothing listed), every table, queue and buffer empty, fabric time 0
(R421), the start-up sequencer in POR (R423). -/
def State.reset : State where
  pending := []
  out := []
  freeCtr := 0
  regs := []
  time := {}
  host := {}
  req := []
  locks := []
  que := {}
  rcu := {}
  lnk := {}
  csq := {}
  twn := {}
  jnl := {}
  mss := {}
  rme := {}
  rdx := {}
  psm := {}
  sec := {}
  fcu := {}
  evr := {}
  sta := {}
  cpm := {}
  boot := {}
  dbg := {}

end Sys2Proof.Machine
end

