-- ==== Sys2Proof/Machine/Tbl.lean ====
section
/-! DEFINITION. Sparse tables: a list of (key, value) pairs with rising keys that lists no key whose value is the default. -/

namespace Sys2Proof.Machine

/-- The value at key i; d where the table lists none. -/
def Tbl.get {α : Type} (d : α) : List (Nat × α) → Nat → α
  | [], _ => d
  | (k, v) :: t, i => if k = i then v else Tbl.get d t i

/-- The table with v at key i, in canonical form: the default is not listed. -/
def Tbl.set {α : Type} [DecidableEq α] (d : α) : List (Nat × α) → Nat → α → List (Nat × α)
  | [], i, v => if v = d then [] else [(i, v)]
  | (k, w) :: t, i, v =>
    if i ≤ k then
      let rest := if i = k then t else (k, w) :: t
      if v = d then rest.filter (fun x => x.1 != i) else (i, v) :: rest
    else (k, w) :: Tbl.set d t i v

/-- Every key of the table is above b, rises, and lists something else than the default. -/
def Tbl.wfFrom {α : Type} [DecidableEq α] (d : α) : Nat → List (Nat × α) → Bool
  | _, [] => true
  | b, (k, v) :: t => decide (b ≤ k) && decide (v ≠ d) && Tbl.wfFrom d (k + 1) t

/-- The canonical form of a table. -/
def Tbl.wf {α : Type} [DecidableEq α] (d : α) (t : List (Nat × α)) : Bool := Tbl.wfFrom d 0 t

/-- The table with f applied to every value that satisfies p. -/
def Tbl.mapIf {α : Type} [DecidableEq α] (d : α) (p : Nat → α → Bool) (f : α → α) (t : List (Nat × α)) : List (Nat × α) :=
  t.foldl (fun acc x => if p x.1 x.2 then Tbl.set d acc x.1 (f x.2) else acc) t

/-- The numbers 0 to n − 1. -/
def upTo (n : Nat) : List Nat := List.range n

/-- The list with the first element that satisfies p changed by f. -/
def updFirst {α : Type} (p : α → Bool) (f : α → α) : List α → List α
  | [] => []
  | x :: t => if p x then f x :: t else x :: updFirst p f t

/-- The list without its first element that satisfies p. -/
def dropFirst {α : Type} (p : α → Bool) : List α → List α
  | [] => []
  | x :: t => if p x then t else x :: dropFirst p t

end Sys2Proof.Machine
end

