-- ==== Sys2Proof/Machine/Fields.lean ====
section
/-! DEFINITION. Every register field of the register pages (R24 to R50 and each chapter's tables): address of its word, lowest bit,
width and reset value (an index names a place modulo their number); and, per page, its row: access code (R10), count, stride and the range of values it accepts (R34). -/

namespace Sys2Proof.Machine

/-- Reset of PAGE_CTRL.EN by page base (R50). -/
def pageEnReset (b : Nat) : Nat :=
  if b / 0x1000 ∈ [0x00, 0x01, 0x02, 0x03, 0x0E, 0x0F, 0x21, 0x22, 0x40, 0x41, 0x42, 0x43, 0x44] then 1 else 0

/-- GLB_PAGE_MAP word w: bit n is set when page 32w + n is implemented (R25). -/
def pageMapWord : Nat → Nat
  | 0 => 0xFFFFFFFF
  | 1 => 0xF
  | 2 => 0x1F
  | _ => 0

/-- Reset of the policy bit k of source s: the Reactions column of R382 as R364 reads it (0 INT, 1 NMA, 2 ERRN, 3 FENCE, 5 BRST). -/
def polReset (s k : Nat) : Nat :=
  b2n (if k = 0 then decide (s = 5 ∨ 7 ≤ s ∧ s ≤ 35 ∨ 38 ≤ s ∧ s ≤ 53)
    else if k = 2 then decide (s ≤ 4 ∨ s = 10 ∨ s = 52)
    else if k = 3 then decide (s ∈ [7, 20, 24, 33, 39])
    else if k = 5 then decide (s = 43)
    else false)

/-- PAGE_ID [7:0], R50 (02_register_pages.md). -/
def F.PAGE_ID_BLOCK (b : Nat) : Fld := ⟨b + 0x0, 0, 8, 0⟩
/-- PAGE_ID [15:8], R50 (02_register_pages.md). -/
def F.PAGE_ID_INSTANCE (b : Nat) : Fld := ⟨b + 0x0, 8, 8, 0⟩
/-- PAGE_ID [23:16], R50 (02_register_pages.md). -/
def F.PAGE_ID_VERSION (b : Nat) : Fld := ⟨b + 0x0, 16, 8, 1⟩
/-- PAGE_CAP [15:0], R50 (02_register_pages.md). -/
def F.PAGE_CAP_BLOCK_CAP (b : Nat) : Fld := ⟨b + 0x4, 0, 16, 0⟩
/-- PAGE_CAP [16:16], R50 (02_register_pages.md). -/
def F.PAGE_CAP_LOCKABLE (b : Nat) : Fld := ⟨b + 0x4, 16, 1, 0⟩
/-- PAGE_CAP [17:17], R50 (02_register_pages.md). -/
def F.PAGE_CAP_FREEZABLE (b : Nat) : Fld := ⟨b + 0x4, 17, 1, 0⟩
/-- PAGE_CAP [18:18], R50 (02_register_pages.md). -/
def F.PAGE_CAP_TABLE (b : Nat) : Fld := ⟨b + 0x4, 18, 1, 0⟩
/-- PAGE_STAT [0:0], R50 (02_register_pages.md). -/
def F.PAGE_STAT_ENABLED (b : Nat) : Fld := ⟨b + 0x8, 0, 1, 0⟩
/-- PAGE_STAT [1:1], R50 (02_register_pages.md). -/
def F.PAGE_STAT_RST_BUSY (b : Nat) : Fld := ⟨b + 0x8, 1, 1, 0⟩
/-- PAGE_STAT [2:2], R50 (02_register_pages.md). -/
def F.PAGE_STAT_FROZEN (b : Nat) : Fld := ⟨b + 0x8, 2, 1, 0⟩
/-- PAGE_STAT [3:3], R50 (02_register_pages.md). -/
def F.PAGE_STAT_FREEZE_PEND (b : Nat) : Fld := ⟨b + 0x8, 3, 1, 0⟩
/-- PAGE_STAT [4:4], R50 (02_register_pages.md). -/
def F.PAGE_STAT_LOCKED (b : Nat) : Fld := ⟨b + 0x8, 4, 1, 0⟩
/-- PAGE_STAT [5:5], R50 (02_register_pages.md). -/
def F.PAGE_STAT_LOCK_ARMED (b : Nat) : Fld := ⟨b + 0x8, 5, 1, 0⟩
/-- PAGE_STAT [6:6], R50 (02_register_pages.md). -/
def F.PAGE_STAT_LOCK_SEQ_ERR (b : Nat) : Fld := ⟨b + 0x8, 6, 1, 0⟩
/-- PAGE_STAT [7:7], R50 (02_register_pages.md). -/
def F.PAGE_STAT_FENCED (b : Nat) : Fld := ⟨b + 0x8, 7, 1, 0⟩
/-- PAGE_STAT [31:16], R50 (02_register_pages.md). -/
def F.PAGE_STAT_BLOCK_STAT (b : Nat) : Fld := ⟨b + 0x8, 16, 16, 0⟩
/-- PAGE_CTRL [0:0], R50 (02_register_pages.md). -/
def F.PAGE_CTRL_EN (b : Nat) : Fld := ⟨b + 0xC, 0, 1, (pageEnReset b)⟩
/-- PAGE_CTRL [1:1], R50 (02_register_pages.md). -/
def F.PAGE_CTRL_SOFT_RST (b : Nat) : Fld := ⟨b + 0xC, 1, 1, 0⟩
/-- PAGE_CTRL [2:2], R50 (02_register_pages.md). -/
def F.PAGE_CTRL_FREEZE (b : Nat) : Fld := ⟨b + 0xC, 2, 1, 0⟩
/-- INT_CAUSE [31:0], R50 (02_register_pages.md). -/
def F.INT_CAUSE_CAUSE (b : Nat) : Fld := ⟨b + 0x10, 0, 32, 0⟩
/-- INT_MASK [31:0], R50 (02_register_pages.md). -/
def F.INT_MASK_MASK (b : Nat) : Fld := ⟨b + 0x14, 0, 32, 4294967295⟩
/-- INT_FORCE [31:0], R50 (02_register_pages.md). -/
def F.INT_FORCE_FORCE (b : Nat) : Fld := ⟨b + 0x18, 0, 32, 0⟩
/-- PAGE_LOCK [15:0], R50 (02_register_pages.md). -/
def F.PAGE_LOCK_KEY (b : Nat) : Fld := ⟨b + 0x1C, 0, 16, 0⟩
/-- PAGE_LOCK [16:16], R50 (02_register_pages.md). -/
def F.PAGE_LOCK_LOCKED (b : Nat) : Fld := ⟨b + 0x1C, 16, 1, 0⟩
/-- ERR_CAUSE [31:0], R50 (02_register_pages.md). -/
def F.ERR_CAUSE_ERR (b : Nat) : Fld := ⟨b + 0x20, 0, 32, 0⟩
/-- ERR_INJECT [31:0], R50 (02_register_pages.md). -/
def F.ERR_INJECT_INJ (b : Nat) : Fld := ⟨b + 0x24, 0, 32, 0⟩
/-- GLB_DEVICE [15:0], R50 (02_register_pages.md). -/
def F.GLB_DEVICE_PART : Fld := ⟨0x00040, 0, 16, 22⟩
/-- GLB_DEVICE [23:16], R50 (02_register_pages.md). -/
def F.GLB_DEVICE_STEPPING : Fld := ⟨0x00040, 16, 8, Config.stepping.toNat⟩
/-- GLB_DEVICE [31:24], R50 (02_register_pages.md). -/
def F.GLB_DEVICE_FAMILY : Fld := ⟨0x00040, 24, 8, 79⟩
/-- GLB_FORM [2:0], R50 (02_register_pages.md). -/
def F.GLB_FORM_STRAP : Fld := ⟨0x00044, 0, 3, 0⟩
/-- GLB_FORM [5:4], R50 (02_register_pages.md). -/
def F.GLB_FORM_FORM : Fld := ⟨0x00044, 4, 2, 0⟩
/-- GLB_CAP0 [7:0], R50 (02_register_pages.md). -/
def F.GLB_CAP0_PORTS : Fld := ⟨0x00048, 0, 8, 16⟩
/-- GLB_CAP0 [11:8], R50 (02_register_pages.md). -/
def F.GLB_CAP0_DATA_WL : Fld := ⟨0x00048, 8, 4, 8⟩
/-- GLB_CAP0 [12:12], R50 (02_register_pages.md). -/
def F.GLB_CAP0_SPARE_WL : Fld := ⟨0x00048, 12, 1, 1⟩
/-- GLB_CAP0 [15:13], R50 (02_register_pages.md). -/
def F.GLB_CAP0_STACKS : Fld := ⟨0x00048, 13, 3, 2⟩
/-- GLB_CAP0 [22:16], R50 (02_register_pages.md). -/
def F.GLB_CAP0_VFS : Fld := ⟨0x00048, 16, 7, 64⟩
/-- GLB_CAP1 [10:0], R50 (02_register_pages.md). -/
def F.GLB_CAP1_CIRCUITS : Fld := ⟨0x0004C, 0, 11, 1024⟩
/-- GLB_CAP1 [21:11], R50 (02_register_pages.md). -/
def F.GLB_CAP1_KEY_SLOTS : Fld := ⟨0x0004C, 11, 11, 1024⟩
/-- GLB_CAP1 [25:22], R50 (02_register_pages.md). -/
def F.GLB_CAP1_THROUGH_HOPS : Fld := ⟨0x0004C, 22, 4, 4⟩
/-- GLB_NODE_ID [13:0], R50 (02_register_pages.md). -/
def F.GLB_NODE_ID_NODE_ID : Fld := ⟨0x00050, 0, 14, 0⟩
/-- GLB_SERIAL [63:0], R50 (02_register_pages.md). -/
def F.GLB_SERIAL_SERIAL : Fld := ⟨0x00054, 0, 64, Config.serial.toNat⟩
/-- GLB_ACCESS_ERR [0:0], R50 (02_register_pages.md). -/
def F.GLB_ACCESS_ERR_PARTIAL : Fld := ⟨0x0005C, 0, 1, 0⟩
/-- GLB_ACCESS_ERR [1:1], R50 (02_register_pages.md). -/
def F.GLB_ACCESS_ERR_UNALIGNED : Fld := ⟨0x0005C, 1, 1, 0⟩
/-- GLB_ACCESS_ERR [2:2], R50 (02_register_pages.md). -/
def F.GLB_ACCESS_ERR_BADVAL : Fld := ⟨0x0005C, 2, 1, 0⟩
/-- GLB_ACCESS_ERR [3:3], R50 (02_register_pages.md). -/
def F.GLB_ACCESS_ERR_RSVD_WR : Fld := ⟨0x0005C, 3, 1, 0⟩
/-- GLB_ACCESS_ERR [4:4], R50 (02_register_pages.md). -/
def F.GLB_ACCESS_ERR_UNIMPL : Fld := ⟨0x0005C, 4, 1, 0⟩
/-- GLB_ACCESS_ERR [5:5], R50 (02_register_pages.md). -/
def F.GLB_ACCESS_ERR_LOCKED_WR : Fld := ⟨0x0005C, 5, 1, 0⟩
/-- GLB_ACCESS_ERR [15:8], R50 (02_register_pages.md). -/
def F.GLB_ACCESS_ERR_LAST_PAGE : Fld := ⟨0x0005C, 8, 8, 0⟩
/-- GLB_ACCESS_ERR [27:16], R50 (02_register_pages.md). -/
def F.GLB_ACCESS_ERR_LAST_OFFSET : Fld := ⟨0x0005C, 16, 12, 0⟩
/-- GLB_ACCESS_ERR [31:28], R50 (02_register_pages.md). -/
def F.GLB_ACCESS_ERR_LAST_SRC : Fld := ⟨0x0005C, 28, 4, 0⟩
/-- GLB_SCRATCH [31:0], R50 (02_register_pages.md). -/
def F.GLB_SCRATCH_SCRATCH : Fld := ⟨0x00060, 0, 32, 0⟩
/-- GLB_PAGE_MAP [31:0], R50 (02_register_pages.md). -/
def F.GLB_PAGE_MAP_PRESENT (n : Nat) : Fld := ⟨0x00070 + 4 * (n % 4), 0, 32, (pageMapWord (n % 4))⟩
/-- HIF_LINK_STAT [2:0], R93 (03_host_attach.md). -/
def F.HIF_LINK_STAT_SPEED : Fld := ⟨0x02040, 0, 3, 0⟩
/-- HIF_LINK_STAT [7:3], R93 (03_host_attach.md). -/
def F.HIF_LINK_STAT_WIDTH : Fld := ⟨0x02040, 3, 5, 0⟩
/-- HIF_LINK_STAT [8:8], R93 (03_host_attach.md). -/
def F.HIF_LINK_STAT_FLIT : Fld := ⟨0x02040, 8, 1, 0⟩
/-- HIF_LINK_STAT [9:9], R93 (03_host_attach.md). -/
def F.HIF_LINK_STAT_REVERSED : Fld := ⟨0x02040, 9, 1, 0⟩
/-- HIF_LINK_STAT [10:10], R93 (03_host_attach.md). -/
def F.HIF_LINK_STAT_UP : Fld := ⟨0x02040, 10, 1, 0⟩
/-- HIF_UCIE_STAT [1:0], R93 (03_host_attach.md). -/
def F.HIF_UCIE_STAT_MODULES : Fld := ⟨0x02044, 0, 2, 0⟩
/-- HIF_UCIE_STAT [3:2], R93 (03_host_attach.md). -/
def F.HIF_UCIE_STAT_RATE : Fld := ⟨0x02044, 2, 2, 0⟩
/-- HIF_UCIE_STAT [4:4], R93 (03_host_attach.md). -/
def F.HIF_UCIE_STAT_SB_UP : Fld := ⟨0x02044, 4, 1, 0⟩
/-- HIF_UCIE_STAT [5:5], R93 (03_host_attach.md). -/
def F.HIF_UCIE_STAT_MB_UP : Fld := ⟨0x02044, 5, 1, 0⟩
/-- HIF_UCIE_STAT [11:6], R93 (03_host_attach.md). -/
def F.HIF_UCIE_STAT_REPAIRED : Fld := ⟨0x02044, 6, 6, 0⟩
/-- HIF_NMA_PEND0 [31:0], R93 (03_host_attach.md). -/
def F.HIF_NMA_PEND0_PEND : Fld := ⟨0x02048, 0, 32, 0⟩
/-- HIF_NMA_PEND1 [31:0], R93 (03_host_attach.md). -/
def F.HIF_NMA_PEND1_PEND : Fld := ⟨0x0204C, 0, 32, 0⟩
/-- HIF_NMA_PEND2 [0:0], R93 (03_host_attach.md). -/
def F.HIF_NMA_PEND2_PEND : Fld := ⟨0x02050, 0, 1, 0⟩
/-- HIF_NMA_COUNT [31:0], R93 (03_host_attach.md). -/
def F.HIF_NMA_COUNT_COUNT : Fld := ⟨0x02054, 0, 32, 0⟩
/-- HIF_VF_STAT [6:0], R93 (03_host_attach.md). -/
def F.HIF_VF_STAT_NUM_VFS : Fld := ⟨0x02058, 0, 7, 0⟩
/-- HIF_VF_STAT [7:7], R93 (03_host_attach.md). -/
def F.HIF_VF_STAT_VF_EN : Fld := ⟨0x02058, 7, 1, 0⟩
/-- CMDQ_BASE [63:12], R94 (03_host_attach.md). -/
def F.CMDQ_BASE_BASE (b : Nat) : Fld := ⟨b + 0x40, 12, 52, 0⟩
/-- CMDQ_SIZE [3:0], R94 (03_host_attach.md). -/
def F.CMDQ_SIZE_SIZE (b : Nat) : Fld := ⟨b + 0x48, 0, 4, 4⟩
/-- CMDQ_TAIL [11:0], R94 (03_host_attach.md). -/
def F.CMDQ_TAIL_TAIL (b : Nat) : Fld := ⟨b + 0x4C, 0, 12, 0⟩
/-- CMDQ_HEAD [11:0], R94 (03_host_attach.md). -/
def F.CMDQ_HEAD_HEAD (b : Nat) : Fld := ⟨b + 0x50, 0, 12, 0⟩
/-- CPLQ_BASE [63:12], R94 (03_host_attach.md). -/
def F.CPLQ_BASE_BASE (b : Nat) : Fld := ⟨b + 0x54, 12, 52, 0⟩
/-- CPLQ_SIZE [3:0], R94 (03_host_attach.md). -/
def F.CPLQ_SIZE_SIZE (b : Nat) : Fld := ⟨b + 0x5C, 0, 4, 4⟩
/-- CPLQ_HEAD [11:0], R94 (03_host_attach.md). -/
def F.CPLQ_HEAD_HEAD (b : Nat) : Fld := ⟨b + 0x60, 0, 12, 0⟩
/-- CPLQ_TAIL [11:0], R94 (03_host_attach.md). -/
def F.CPLQ_TAIL_TAIL (b : Nat) : Fld := ⟨b + 0x64, 0, 12, 0⟩
/-- CPLQ_TAIL [12:12], R94 (03_host_attach.md). -/
def F.CPLQ_TAIL_PHASE (b : Nat) : Fld := ⟨b + 0x64, 12, 1, 1⟩
/-- Q_CTRL [0:0], R94 (03_host_attach.md). -/
def F.Q_CTRL_CMD_EN (b : Nat) : Fld := ⟨b + 0x68, 0, 1, 0⟩
/-- Q_CTRL [1:1], R94 (03_host_attach.md). -/
def F.Q_CTRL_CPL_EN (b : Nat) : Fld := ⟨b + 0x68, 1, 1, 0⟩
/-- Q_STAT [0:0], R94 (03_host_attach.md). -/
def F.Q_STAT_IDLE (b : Nat) : Fld := ⟨b + 0x6C, 0, 1, 1⟩
/-- Q_STAT [1:1], R94 (03_host_attach.md). -/
def F.Q_STAT_DB_OVR (b : Nat) : Fld := ⟨b + 0x6C, 1, 1, 0⟩
/-- Q_STAT [2:2], R94 (03_host_attach.md). -/
def F.Q_STAT_CPL_DB_OVR (b : Nat) : Fld := ⟨b + 0x6C, 2, 1, 0⟩
/-- Q_STAT [3:3], R94 (03_host_attach.md). -/
def F.Q_STAT_FETCH_ERR (b : Nat) : Fld := ⟨b + 0x6C, 3, 1, 0⟩
/-- Q_STAT [4:4], R94 (03_host_attach.md). -/
def F.Q_STAT_HALTED (b : Nat) : Fld := ⟨b + 0x6C, 4, 1, 0⟩
/-- Q_STAT [5:5], R94 (03_host_attach.md). -/
def F.Q_STAT_CPL_FULL (b : Nat) : Fld := ⟨b + 0x6C, 5, 1, 0⟩
/-- Q_STAT [24:16], R94 (03_host_attach.md). -/
def F.Q_STAT_INFLIGHT (b : Nat) : Fld := ⟨b + 0x6C, 16, 9, 0⟩
/-- CPL_COAL [7:0], R94 (03_host_attach.md). -/
def F.CPL_COAL_COUNT (b : Nat) : Fld := ⟨b + 0x70, 0, 8, 1⟩
/-- CPL_COAL [23:8], R94 (03_host_attach.md). -/
def F.CPL_COAL_TIME (b : Nat) : Fld := ⟨b + 0x70, 8, 16, 0⟩
/-- QUE_WEIGHT [7:0], R94 (03_host_attach.md). -/
def F.QUE_WEIGHT_WEIGHT (n : Nat) : Fld := ⟨0x03100 + 4 * (n % 65), 0, 8, 16⟩
/-- PFE_LASER_CTRL [0:0], R123 (04_light_path.md). -/
def F.PFE_LASER_CTRL_EN : Fld := ⟨0x04040, 0, 1, 0⟩
/-- PFE_LASER_CTRL [1:1], R123 (04_light_path.md). -/
def F.PFE_LASER_CTRL_AUTO_RESTART : Fld := ⟨0x04040, 1, 1, 1⟩
/-- PFE_LASER_STAT [0:0], R123 (04_light_path.md). -/
def F.PFE_LASER_STAT_LASER_EN : Fld := ⟨0x04044, 0, 1, 0⟩
/-- PFE_LASER_STAT [1:1], R123 (04_light_path.md). -/
def F.PFE_LASER_STAT_FAULT : Fld := ⟨0x04044, 1, 1, 0⟩
/-- PFE_LASER_STAT [2:2], R123 (04_light_path.md). -/
def F.PFE_LASER_STAT_LI0_LOSS : Fld := ⟨0x04044, 2, 1, 0⟩
/-- PFE_LASER_STAT [3:3], R123 (04_light_path.md). -/
def F.PFE_LASER_STAT_LI1_LOSS : Fld := ⟨0x04044, 3, 1, 0⟩
/-- PFE_LASER_STAT [4:4], R123 (04_light_path.md). -/
def F.PFE_LASER_STAT_LI_OVER : Fld := ⟨0x04044, 4, 1, 0⟩
/-- PFE_LASER_STAT [5:5], R123 (04_light_path.md). -/
def F.PFE_LASER_STAT_ILK_FAIL : Fld := ⟨0x04044, 5, 1, 0⟩
/-- PFE_LI0_LINES [8:0], R123 (04_light_path.md). -/
def F.PFE_LI0_LINES_PRESENT : Fld := ⟨0x04048, 0, 9, 0⟩
/-- PFE_LI0_LINES [24:16], R123 (04_light_path.md). -/
def F.PFE_LI0_LINES_OUT_OF_SPEC : Fld := ⟨0x04048, 16, 9, 0⟩
/-- PFE_LI0_LINES [31:31], R123 (04_light_path.md). -/
def F.PFE_LI0_LINES_ANCHOR_OK : Fld := ⟨0x04048, 31, 1, 0⟩
/-- PFE_LI0_PWR [10:0], R123 (04_light_path.md). -/
def F.PFE_LI0_PWR_TOTAL : Fld := ⟨0x04050, 0, 11, 1748⟩
/-- PFE_LI0_PWR [11:11], R123 (04_light_path.md). -/
def F.PFE_LI0_PWR_LOW : Fld := ⟨0x04050, 11, 1, 1⟩
/-- PFE_LI0_PWR [12:12], R123 (04_light_path.md). -/
def F.PFE_LI0_PWR_OVR : Fld := ⟨0x04050, 12, 1, 0⟩
/-- PFE_LI1_PWR [10:0], R123 (04_light_path.md). -/
def F.PFE_LI1_PWR_TOTAL : Fld := ⟨0x04054, 0, 11, 1748⟩
/-- PFE_LI1_PWR [11:11], R123 (04_light_path.md). -/
def F.PFE_LI1_PWR_LOW : Fld := ⟨0x04054, 11, 1, 1⟩
/-- PFE_LI1_PWR [12:12], R123 (04_light_path.md). -/
def F.PFE_LI1_PWR_OVR : Fld := ⟨0x04054, 12, 1, 0⟩
/-- PFE_XC_STAT [0:0], R123 (04_light_path.md). -/
def F.PFE_XC_STAT_CONFLICT : Fld := ⟨0x04058, 0, 1, 0⟩
/-- PFE_XC_STAT [27:16], R123 (04_light_path.md). -/
def F.PFE_XC_STAT_RING : Fld := ⟨0x04058, 16, 12, 0⟩
/-- PORT_SHUT_CTRL [0:0], R123 (04_light_path.md). -/
def F.PORT_SHUT_CTRL_OPEN (p : Nat) : Fld := ⟨0x10040 + 0x1000 * (p % 16), 0, 1, 0⟩
/-- PORT_SHUT_CTRL [1:1], R123 (04_light_path.md). -/
def F.PORT_SHUT_CTRL_APR_EN (p : Nat) : Fld := ⟨0x10040 + 0x1000 * (p % 16), 1, 1, 1⟩
/-- PORT_SHUT_CTRL [2:2], R123 (04_light_path.md). -/
def F.PORT_SHUT_CTRL_LOOP (p : Nat) : Fld := ⟨0x10040 + 0x1000 * (p % 16), 2, 1, 0⟩
/-- PORT_SHUT_STAT [2:0], R123 (04_light_path.md). -/
def F.PORT_SHUT_STAT_STATE (p : Nat) : Fld := ⟨0x10044 + 0x1000 * (p % 16), 0, 3, 0⟩
/-- PORT_SHUT_STAT [7:4], R123 (04_light_path.md). -/
def F.PORT_SHUT_STAT_REASON (p : Nat) : Fld := ⟨0x10044 + 0x1000 * (p % 16), 4, 4, 0⟩
/-- PORT_SHUT_STAT [31:16], R123 (04_light_path.md). -/
def F.PORT_SHUT_STAT_PROBES (p : Nat) : Fld := ⟨0x10044 + 0x1000 * (p % 16), 16, 16, 0⟩
/-- PORT_MOD_CFG [1:0], R123 (04_light_path.md). -/
def F.PORT_MOD_CFG_BITS (p : Nat) : Fld := ⟨0x10048 + 0x1000 * (p % 16), 0, 2, 0⟩
/-- PORT_TX_PWR [10:0], R123 (04_light_path.md). -/
def F.PORT_TX_PWR_TOTAL (p : Nat) : Fld := ⟨0x10050 + 0x1000 * (p % 16), 0, 11, 1748⟩
/-- PORT_TX_PWR [11:11], R123 (04_light_path.md). -/
def F.PORT_TX_PWR_LOW (p : Nat) : Fld := ⟨0x10050 + 0x1000 * (p % 16), 11, 1, 1⟩
/-- PORT_TX_PWR [12:12], R123 (04_light_path.md). -/
def F.PORT_TX_PWR_OVR (p : Nat) : Fld := ⟨0x10050 + 0x1000 * (p % 16), 12, 1, 0⟩
/-- PORT_RX_TOTAL [10:0], R123 (04_light_path.md). -/
def F.PORT_RX_TOTAL_TOTAL (p : Nat) : Fld := ⟨0x10054 + 0x1000 * (p % 16), 0, 11, 1748⟩
/-- PORT_RX_TOTAL [11:11], R123 (04_light_path.md). -/
def F.PORT_RX_TOTAL_LOW (p : Nat) : Fld := ⟨0x10054 + 0x1000 * (p % 16), 11, 1, 1⟩
/-- PORT_RX_TOTAL [12:12], R123 (04_light_path.md). -/
def F.PORT_RX_TOTAL_OVR (p : Nat) : Fld := ⟨0x10054 + 0x1000 * (p % 16), 12, 1, 0⟩
/-- PORT_PEER_EXP [13:0], R123 (04_light_path.md). -/
def F.PORT_PEER_EXP_NODE (p : Nat) : Fld := ⟨0x10058 + 0x1000 * (p % 16), 0, 14, 0⟩
/-- PORT_PEER_EXP [19:16], R123 (04_light_path.md). -/
def F.PORT_PEER_EXP_PORT (p : Nat) : Fld := ⟨0x10058 + 0x1000 * (p % 16), 16, 4, 0⟩
/-- PORT_PEER_EXP [31:31], R123 (04_light_path.md). -/
def F.PORT_PEER_EXP_CHECK (p : Nat) : Fld := ⟨0x10058 + 0x1000 * (p % 16), 31, 1, 0⟩
/-- PORT_PEER_SEEN [13:0], R123 (04_light_path.md). -/
def F.PORT_PEER_SEEN_NODE (p : Nat) : Fld := ⟨0x1005C + 0x1000 * (p % 16), 0, 14, 0⟩
/-- PORT_PEER_SEEN [19:16], R123 (04_light_path.md). -/
def F.PORT_PEER_SEEN_PORT (p : Nat) : Fld := ⟨0x1005C + 0x1000 * (p % 16), 16, 4, 0⟩
/-- PORT_PEER_SEEN [31:30], R123 (04_light_path.md). -/
def F.PORT_PEER_SEEN_RESULT (p : Nat) : Fld := ⟨0x1005C + 0x1000 * (p % 16), 30, 2, 0⟩
/-- PORT_RX_PWR [10:0], R123 (04_light_path.md). -/
def F.PORT_RX_PWR_PWR (p k : Nat) : Fld := ⟨0x10060 + 0x1000 * (p % 16) + 4 * (k % 9), 0, 11, 1748⟩
/-- PORT_RX_PWR [11:11], R123 (04_light_path.md). -/
def F.PORT_RX_PWR_LOW (p k : Nat) : Fld := ⟨0x10060 + 0x1000 * (p % 16) + 4 * (k % 9), 11, 1, 1⟩
/-- PORT_RX_PWR [12:12], R123 (04_light_path.md). -/
def F.PORT_RX_PWR_OVR (p k : Nat) : Fld := ⟨0x10060 + 0x1000 * (p % 16) + 4 * (k % 9), 12, 1, 0⟩
/-- PORT_RX_PWR [13:13], R123 (04_light_path.md). -/
def F.PORT_RX_PWR_OPT_HIGH (p k : Nat) : Fld := ⟨0x10060 + 0x1000 * (p % 16) + 4 * (k % 9), 13, 1, 0⟩
/-- PORT_RX_PWR [14:14], R123 (04_light_path.md). -/
def F.PORT_RX_PWR_VALID (p k : Nat) : Fld := ⟨0x10060 + 0x1000 * (p % 16) + 4 * (k % 9), 14, 1, 0⟩
/-- RCU_SEARCH_CTRL [0:0], R156 (05_ring_control.md). -/
def F.RCU_SEARCH_CTRL_START : Fld := ⟨0x05040, 0, 1, 0⟩
/-- RCU_SEARCH_CTRL [1:1], R156 (05_ring_control.md). -/
def F.RCU_SEARCH_CTRL_ABORT : Fld := ⟨0x05040, 1, 1, 0⟩
/-- RCU_SEARCH_CTRL [2:2], R156 (05_ring_control.md). -/
def F.RCU_SEARCH_CTRL_MODE : Fld := ⟨0x05040, 2, 1, 0⟩
/-- RCU_SEARCH_STAT [3:0], R156 (05_ring_control.md). -/
def F.RCU_SEARCH_STAT_STATE : Fld := ⟨0x05044, 0, 4, 0⟩
/-- RCU_SEARCH_STAT [10:4], R156 (05_ring_control.md). -/
def F.RCU_SEARCH_STAT_PCT : Fld := ⟨0x05044, 4, 7, 0⟩
/-- RCU_SEARCH_STAT [23:12], R156 (05_ring_control.md). -/
def F.RCU_SEARCH_STAT_RING : Fld := ⟨0x05044, 12, 12, 0⟩
/-- RCU_SEARCH_STAT [25:24], R156 (05_ring_control.md). -/
def F.RCU_SEARCH_STAT_RESULT : Fld := ⟨0x05044, 24, 2, 0⟩
/-- RCU_SEARCH_STAT [28:26], R156 (05_ring_control.md). -/
def F.RCU_SEARCH_STAT_REASON : Fld := ⟨0x05044, 26, 3, 0⟩
/-- RCU_SEARCH_CODE [15:0], R156 (05_ring_control.md). -/
def F.RCU_SEARCH_CODE_CODE : Fld := ⟨0x05048, 0, 16, 0⟩
/-- RCU_SEARCH_CODE [17:16], R156 (05_ring_control.md). -/
def F.RCU_SEARCH_CODE_GROUP : Fld := ⟨0x05048, 16, 2, 0⟩
/-- RCU_SEARCH_RES [11:0], R156 (05_ring_control.md). -/
def F.RCU_SEARCH_RES_UNIDENT : Fld := ⟨0x0504C, 0, 12, 0⟩
/-- RCU_SEARCH_RES [14:12], R156 (05_ring_control.md). -/
def F.RCU_SEARCH_RES_RESWEPT : Fld := ⟨0x0504C, 12, 3, 0⟩
/-- RCU_LOOP_CFG [7:0], R156 (05_ring_control.md). -/
def F.RCU_LOOP_CFG_LOCK_WIN : Fld := ⟨0x05050, 0, 8, 10⟩
/-- RCU_LOOP_CFG [11:8], R156 (05_ring_control.md). -/
def F.RCU_LOOP_CFG_PILOT_AMP : Fld := ⟨0x05050, 8, 4, 4⟩
/-- RCU_LOOP_CFG [12:12], R156 (05_ring_control.md). -/
def F.RCU_LOOP_CFG_FF_EN : Fld := ⟨0x05050, 12, 1, 1⟩
/-- RCU_FF_CFG [11:0], R156 (05_ring_control.md). -/
def F.RCU_FF_CFG_TO_COEF : Fld := ⟨0x05054, 0, 12, 950⟩
/-- RCU_LOOP_STAT [11:0], R156 (05_ring_control.md). -/
def F.RCU_LOOP_STAT_UNLOCKED : Fld := ⟨0x05058, 0, 12, 0⟩
/-- RCU_LOOP_STAT [23:12], R156 (05_ring_control.md). -/
def F.RCU_LOOP_STAT_FENCED : Fld := ⟨0x05058, 12, 12, 0⟩
/-- RCU_LOOP_STAT [24:24], R156 (05_ring_control.md). -/
def F.RCU_LOOP_STAT_FF_FALLBACK : Fld := ⟨0x05058, 24, 1, 0⟩
/-- RCU_CAL_CTRL [0:0], R156 (05_ring_control.md). -/
def F.RCU_CAL_CTRL_AUTO : Fld := ⟨0x05060, 0, 1, 0⟩
/-- RCU_CAL_CTRL [1:1], R156 (05_ring_control.md). -/
def F.RCU_CAL_CTRL_MODE_RX : Fld := ⟨0x05060, 1, 1, 0⟩
/-- RCU_CAL_CTRL [2:2], R156 (05_ring_control.md). -/
def F.RCU_CAL_CTRL_MODE_TX : Fld := ⟨0x05060, 2, 1, 1⟩
/-- RCU_CAL_CTRL [3:3], R156 (05_ring_control.md). -/
def F.RCU_CAL_CTRL_MODE_RING : Fld := ⟨0x05060, 3, 1, 1⟩
/-- RCU_CAL_CTRL [7:4], R156 (05_ring_control.md). -/
def F.RCU_CAL_CTRL_CAL_PAR : Fld := ⟨0x05060, 4, 4, 4⟩
/-- RCU_CAL_CTRL [15:8], R156 (05_ring_control.md). -/
def F.RCU_CAL_CTRL_CAL_TRIG : Fld := ⟨0x05060, 8, 8, 50⟩
/-- RCU_CAL_DEFER [15:0], R156 (05_ring_control.md). -/
def F.RCU_CAL_DEFER_CAL_DEFER_MAX : Fld := ⟨0x05064, 0, 16, 100⟩
/-- RCU_CAL_DEFER [19:16], R156 (05_ring_control.md). -/
def F.RCU_CAL_DEFER_CAL_TOL_HTR : Fld := ⟨0x05064, 16, 4, 3⟩
/-- RCU_CAL_DEFER [23:20], R156 (05_ring_control.md). -/
def F.RCU_CAL_DEFER_CAL_TOL_TAP : Fld := ⟨0x05064, 20, 4, 1⟩
/-- RCU_CAL_PORTMODE [15:0], R156 (05_ring_control.md). -/
def F.RCU_CAL_PORTMODE_SPARE : Fld := ⟨0x05068, 0, 16, 65535⟩
/-- RCU_CAL_STAT [3:0], R156 (05_ring_control.md). -/
def F.RCU_CAL_STAT_ACTIVE : Fld := ⟨0x0506C, 0, 4, 0⟩
/-- RCU_CAL_STAT [11:4], R156 (05_ring_control.md). -/
def F.RCU_CAL_STAT_DUE : Fld := ⟨0x0506C, 4, 8, 0⟩
/-- RCU_CAL_STAT [19:12], R156 (05_ring_control.md). -/
def F.RCU_CAL_STAT_LAST_CH : Fld := ⟨0x0506C, 12, 8, 0⟩
/-- RCU_CAL_STAT [27:20], R156 (05_ring_control.md). -/
def F.RCU_CAL_STAT_SUSPECT : Fld := ⟨0x0506C, 20, 8, 0⟩
/-- RCU_CAL_DEFERRALS [31:0], R156 (05_ring_control.md). -/
def F.RCU_CAL_DEFERRALS_COUNT : Fld := ⟨0x05070, 0, 32, 0⟩
/-- RCU_CAL_FORCED [31:0], R156 (05_ring_control.md). -/
def F.RCU_CAL_FORCED_COUNT : Fld := ⟨0x05074, 0, 32, 0⟩
/-- RCU_CAL_RETRIES [31:0], R156 (05_ring_control.md). -/
def F.RCU_CAL_RETRIES_COUNT : Fld := ⟨0x05078, 0, 32, 0⟩
/-- LNK_TIME_CTRL [0:0], R193 (06_felilo_link.md). -/
def F.LNK_TIME_CTRL_ROOT : Fld := ⟨0x06040, 0, 1, 0⟩
/-- LNK_TIME_CTRL [4:1], R193 (06_felilo_link.md). -/
def F.LNK_TIME_CTRL_PARENT : Fld := ⟨0x06040, 1, 4, 0⟩
/-- LNK_TIME_CTRL [5:5], R193 (06_felilo_link.md). -/
def F.LNK_TIME_CTRL_PARENT_EN : Fld := ⟨0x06040, 5, 1, 0⟩
/-- LNK_TIME_CTRL [15:8], R193 (06_felilo_link.md). -/
def F.LNK_TIME_CTRL_BEACON_INT : Fld := ⟨0x06040, 8, 8, 10⟩
/-- LNK_TIME_STAT [7:0], R193 (06_felilo_link.md). -/
def F.LNK_TIME_STAT_STRATUM : Fld := ⟨0x06044, 0, 8, 255⟩
/-- LNK_TIME_STAT [21:8], R193 (06_felilo_link.md). -/
def F.LNK_TIME_STAT_ROOT_NODE : Fld := ⟨0x06044, 8, 14, 0⟩
/-- LNK_TIME_STAT [22:22], R193 (06_felilo_link.md). -/
def F.LNK_TIME_STAT_SYNCED : Fld := ⟨0x06044, 22, 1, 0⟩
/-- LNK_TIME_OFS [31:0], R193 (06_felilo_link.md). -/
def F.LNK_TIME_OFS_THETA : Fld := ⟨0x06048, 0, 32, 0⟩
/-- LNK_TIME_STEPS [31:0], R193 (06_felilo_link.md). -/
def F.LNK_TIME_STEPS_COUNT : Fld := ⟨0x0604C, 0, 32, 0⟩
/-- PORT_LNK_CFG [6:0], R193 (06_felilo_link.md). -/
def F.PORT_LNK_CFG_REPLAY_ALLOC (p : Nat) : Fld := ⟨0x10100 + 0x1000 * (p % 16), 0, 7, 4⟩
/-- PORT_LNK_CFG [8:8], R193 (06_felilo_link.md). -/
def F.PORT_LNK_CFG_WAKE_TX (p : Nat) : Fld := ⟨0x10100 + 0x1000 * (p % 16), 8, 1, 0⟩
/-- PORT_LNK_CFG [9:9], R193 (06_felilo_link.md). -/
def F.PORT_LNK_CFG_BEACON_EN (p : Nat) : Fld := ⟨0x10100 + 0x1000 * (p % 16), 9, 1, 1⟩
/-- PORT_LNK_STAT [3:0], R193 (06_felilo_link.md). -/
def F.PORT_LNK_STAT_PAIR_UP (p : Nat) : Fld := ⟨0x10104 + 0x1000 * (p % 16), 0, 4, 0⟩
/-- PORT_LNK_STAT [7:4], R193 (06_felilo_link.md). -/
def F.PORT_LNK_STAT_PAIR_FAILED (p : Nat) : Fld := ⟨0x10104 + 0x1000 * (p % 16), 4, 4, 0⟩
/-- PORT_LNK_STAT [8:8], R193 (06_felilo_link.md). -/
def F.PORT_LNK_STAT_SPARE_UP (p : Nat) : Fld := ⟨0x10104 + 0x1000 * (p % 16), 8, 1, 0⟩
/-- PORT_LNK_STAT [9:9], R193 (06_felilo_link.md). -/
def F.PORT_LNK_STAT_SUBST (p : Nat) : Fld := ⟨0x10104 + 0x1000 * (p % 16), 9, 1, 0⟩
/-- PORT_LNK_STAT [13:10], R193 (06_felilo_link.md). -/
def F.PORT_LNK_STAT_SUBST_LINE (p : Nat) : Fld := ⟨0x10104 + 0x1000 * (p % 16), 10, 4, 0⟩
/-- PORT_LNK_STAT [31:16], R193 (06_felilo_link.md). -/
def F.PORT_LNK_STAT_RTT (p : Nat) : Fld := ⟨0x10104 + 0x1000 * (p % 16), 16, 16, 0⟩
/-- PORT_TRAIN [3:0], R193 (06_felilo_link.md). -/
def F.PORT_TRAIN_STATE (p k : Nat) : Fld := ⟨0x10110 + 0x1000 * (p % 16) + 4 * (k % 5), 0, 4, 0⟩
/-- PORT_TRAIN [7:4], R193 (06_felilo_link.md). -/
def F.PORT_TRAIN_FAIL (p k : Nat) : Fld := ⟨0x10110 + 0x1000 * (p % 16) + 4 * (k % 5), 4, 4, 0⟩
/-- PORT_TRAIN [15:8], R193 (06_felilo_link.md). -/
def F.PORT_TRAIN_RETRAINS (p k : Nat) : Fld := ⟨0x10110 + 0x1000 * (p % 16) + 4 * (k % 5), 8, 8, 0⟩
/-- PORT_HALF_LOSS [31:0], R193 (06_felilo_link.md). -/
def F.PORT_HALF_LOSS_COUNT (p k : Nat) : Fld := ⟨0x10130 + 0x1000 * (p % 16) + 4 * (k % 4), 0, 32, 0⟩
/-- PORT_CW_CORR [31:0], R193 (06_felilo_link.md). -/
def F.PORT_CW_CORR_COUNT (p k : Nat) : Fld := ⟨0x10140 + 0x1000 * (p % 16) + 4 * (k % 9), 0, 32, 0⟩
/-- PORT_CW_UNCORR [31:0], R193 (06_felilo_link.md). -/
def F.PORT_CW_UNCORR_COUNT (p k : Nat) : Fld := ⟨0x10170 + 0x1000 * (p % 16) + 4 * (k % 9), 0, 32, 0⟩
/-- PORT_REPLAYS [31:0], R193 (06_felilo_link.md). -/
def F.PORT_REPLAYS_COUNT (p : Nat) : Fld := ⟨0x101A0 + 0x1000 * (p % 16), 0, 32, 0⟩
/-- PORT_CRC_ERR [31:0], R193 (06_felilo_link.md). -/
def F.PORT_CRC_ERR_COUNT (p : Nat) : Fld := ⟨0x101A4 + 0x1000 * (p % 16), 0, 32, 0⟩
/-- PORT_AUTH_FAIL [31:0], R193 (06_felilo_link.md). -/
def F.PORT_AUTH_FAIL_COUNT (p : Nat) : Fld := ⟨0x101A8 + 0x1000 * (p % 16), 0, 32, 0⟩
/-- PORT_REPLAY_REJ [31:0], R193 (06_felilo_link.md). -/
def F.PORT_REPLAY_REJ_COUNT (p : Nat) : Fld := ⟨0x101AC + 0x1000 * (p % 16), 0, 32, 0⟩
/-- PORT_TIME_ASYM [15:0], R193 (06_felilo_link.md). -/
def F.PORT_TIME_ASYM_ASYM (p : Nat) : Fld := ⟨0x101B0 + 0x1000 * (p % 16), 0, 16, 0⟩
/-- PORT_LOCK_LOSS [31:0], R193 (06_felilo_link.md). -/
def F.PORT_LOCK_LOSS_COUNT (p k : Nat) : Fld := ⟨0x101B4 + 0x1000 * (p % 16) + 4 * (k % 9), 0, 32, 0⟩
/-- CSQ_CTRL [0:0], R223 (07_circuits.md). -/
def F.CSQ_CTRL_AUTO_SPARE : Fld := ⟨0x07040, 0, 1, 1⟩
/-- CSQ_CTRL [3:1], R223 (07_circuits.md). -/
def F.CSQ_CTRL_TRAIN_RETRY : Fld := ⟨0x07040, 1, 3, 2⟩
/-- CSQ_STAT [0:0], R223 (07_circuits.md). -/
def F.CSQ_STAT_OPEN : Fld := ⟨0x07044, 0, 1, 0⟩
/-- CSQ_STAT [5:1], R223 (07_circuits.md). -/
def F.CSQ_STAT_EPOCHS : Fld := ⟨0x07044, 1, 5, 0⟩
/-- CSQ_STAT [6:6], R223 (07_circuits.md). -/
def F.CSQ_STAT_STALL : Fld := ⟨0x07044, 6, 1, 0⟩
/-- CSQ_STAT [16:8], R223 (07_circuits.md). -/
def F.CSQ_STAT_CHGQ_USED : Fld := ⟨0x07044, 8, 9, 0⟩
/-- CSQ_OPEN_EPOCH [31:0], R223 (07_circuits.md). -/
def F.CSQ_OPEN_EPOCH_EPOCH : Fld := ⟨0x07048, 0, 32, 0⟩
/-- CSQ_LAST_EPOCH [31:0], R223 (07_circuits.md). -/
def F.CSQ_LAST_EPOCH_EPOCH : Fld := ⟨0x0704C, 0, 32, 0⟩
/-- CSQ_LAST_TIME [63:0], R223 (07_circuits.md). -/
def F.CSQ_LAST_TIME_TIME : Fld := ⟨0x07050, 0, 64, 0⟩
/-- CSQ_LAST_DURABLE [31:0], R223 (07_circuits.md). -/
def F.CSQ_LAST_DURABLE_EPOCH : Fld := ⟨0x07058, 0, 32, 0⟩
/-- CSQ_PROG [6:0], R223 (07_circuits.md). -/
def F.CSQ_PROG_PCT : Fld := ⟨0x0705C, 0, 7, 0⟩
/-- CSQ_PROG [19:8], R223 (07_circuits.md). -/
def F.CSQ_PROG_RING : Fld := ⟨0x0705C, 8, 12, 4095⟩
/-- CSQ_PROG [22:20], R223 (07_circuits.md). -/
def F.CSQ_PROG_STAGE : Fld := ⟨0x0705C, 20, 3, 0⟩
/-- CSQ_PROG_EPOCH [31:0], R223 (07_circuits.md). -/
def F.CSQ_PROG_EPOCH_EPOCH : Fld := ⟨0x07060, 0, 32, 0⟩
/-- CSQ_ABORT [31:0], R223 (07_circuits.md). -/
def F.CSQ_ABORT_EPOCH : Fld := ⟨0x07064, 0, 32, 0⟩
/-- CSQ_ABORT_STAT [0:0], R223 (07_circuits.md). -/
def F.CSQ_ABORT_STAT_ABORT_REFUSED : Fld := ⟨0x07068, 0, 1, 0⟩
/-- CSQ_LAST_ABORTED [31:0], R223 (07_circuits.md). -/
def F.CSQ_LAST_ABORTED_EPOCH : Fld := ⟨0x0706C, 0, 32, 0⟩
/-- CSQ_FAIL [9:0], R223 (07_circuits.md). -/
def F.CSQ_FAIL_CIRCUIT : Fld := ⟨0x07070, 0, 10, 0⟩
/-- CSQ_FAIL [15:12], R223 (07_circuits.md). -/
def F.CSQ_FAIL_REASON : Fld := ⟨0x07070, 12, 4, 0⟩
/-- CSQ_COMMITS [31:0], R223 (07_circuits.md). -/
def F.CSQ_COMMITS_COUNT : Fld := ⟨0x07074, 0, 32, 0⟩
/-- CSQ_LATE [31:0], R223 (07_circuits.md). -/
def F.CSQ_LATE_COUNT : Fld := ⟨0x07078, 0, 32, 0⟩
/-- CSQ_ABORTS [31:0], R223 (07_circuits.md). -/
def F.CSQ_ABORTS_COUNT : Fld := ⟨0x0707C, 0, 32, 0⟩
/-- TWN_CFG [0:0], R255 (08_twin_and_journal.md). -/
def F.TWN_CFG_EN : Fld := ⟨0x08040, 0, 1, 0⟩
/-- TWN_CFG [2:1], R255 (08_twin_and_journal.md). -/
def F.TWN_CFG_ROLE_REQ : Fld := ⟨0x08040, 1, 2, 0⟩
/-- TWN_CFG [7:4], R255 (08_twin_and_journal.md). -/
def F.TWN_CFG_PORT : Fld := ⟨0x08040, 4, 4, 0⟩
/-- TWN_CFG [29:16], R255 (08_twin_and_journal.md). -/
def F.TWN_CFG_PEER : Fld := ⟨0x08040, 16, 14, 0⟩
/-- TWN_CTRL [0:0], R255 (08_twin_and_journal.md). -/
def F.TWN_CTRL_SWITCHOVER : Fld := ⟨0x08044, 0, 1, 0⟩
/-- TWN_CTRL [1:1], R255 (08_twin_and_journal.md). -/
def F.TWN_CTRL_TAKEOVER : Fld := ⟨0x08044, 1, 1, 0⟩
/-- TWN_STAT [2:0], R255 (08_twin_and_journal.md). -/
def F.TWN_STAT_ROLE : Fld := ⟨0x08048, 0, 3, 0⟩
/-- TWN_STAT [5:3], R255 (08_twin_and_journal.md). -/
def F.TWN_STAT_TKO : Fld := ⟨0x08048, 3, 3, 0⟩
/-- TWN_STAT [7:6], R255 (08_twin_and_journal.md). -/
def F.TWN_STAT_MISSES : Fld := ⟨0x08048, 6, 2, 0⟩
/-- TWN_STAT [14:8], R255 (08_twin_and_journal.md). -/
def F.TWN_STAT_PCT : Fld := ⟨0x08048, 8, 7, 0⟩
/-- TWN_STAT [15:15], R255 (08_twin_and_journal.md). -/
def F.TWN_STAT_DESYNC : Fld := ⟨0x08048, 15, 1, 0⟩
/-- TWN_STAT [16:16], R255 (08_twin_and_journal.md). -/
def F.TWN_STAT_SWITCH_FAIL : Fld := ⟨0x08048, 16, 1, 0⟩
/-- TWN_STAT [17:17], R255 (08_twin_and_journal.md). -/
def F.TWN_STAT_TKO_BROKEN : Fld := ⟨0x08048, 17, 1, 0⟩
/-- TWN_GEN [31:0], R255 (08_twin_and_journal.md). -/
def F.TWN_GEN_GEN : Fld := ⟨0x0804C, 0, 32, 0⟩
/-- TWN_SENT_TSEQ [31:0], R255 (08_twin_and_journal.md). -/
def F.TWN_SENT_TSEQ_TSEQ : Fld := ⟨0x08050, 0, 32, 0⟩
/-- TWN_ACKED_TSEQ [31:0], R255 (08_twin_and_journal.md). -/
def F.TWN_ACKED_TSEQ_TSEQ : Fld := ⟨0x08054, 0, 32, 0⟩
/-- TWN_MIRROR_EPOCH [31:0], R255 (08_twin_and_journal.md). -/
def F.TWN_MIRROR_EPOCH_EPOCH : Fld := ⟨0x08058, 0, 32, 0⟩
/-- TWN_PARTIAL [31:0], R255 (08_twin_and_journal.md). -/
def F.TWN_PARTIAL_EPOCH : Fld := ⟨0x0805C, 0, 32, 0⟩
/-- TWN_PARTIAL_CNT [15:0], R255 (08_twin_and_journal.md). -/
def F.TWN_PARTIAL_CNT_COUNT : Fld := ⟨0x08060, 0, 16, 0⟩
/-- TWN_BUF_USED [18:0], R255 (08_twin_and_journal.md). -/
def F.TWN_BUF_USED_BYTES : Fld := ⟨0x08064, 0, 19, 0⟩
/-- TWN_TKO_CONFLICTS [31:0], R255 (08_twin_and_journal.md). -/
def F.TWN_TKO_CONFLICTS_COUNT : Fld := ⟨0x08068, 0, 32, 0⟩
/-- TWN_BAD [31:0], R255 (08_twin_and_journal.md). -/
def F.TWN_BAD_COUNT : Fld := ⟨0x0806C, 0, 32, 0⟩
/-- JNL_CFG [3:0], R255 (08_twin_and_journal.md). -/
def F.JNL_CFG_SPI_DIV : Fld := ⟨0x09040, 0, 4, 1⟩
/-- JNL_CFG [7:4], R255 (08_twin_and_journal.md). -/
def F.JNL_CFG_ERASE_AHEAD : Fld := ⟨0x09040, 4, 4, 4⟩
/-- JNL_CFG [8:8], R255 (08_twin_and_journal.md). -/
def F.JNL_CFG_AUTO_COMPACT : Fld := ⟨0x09040, 8, 1, 1⟩
/-- JNL_CFG [9:9], R255 (08_twin_and_journal.md). -/
def F.JNL_CFG_BYPASS : Fld := ⟨0x09040, 9, 1, 0⟩
/-- JNL_CTRL [0:0], R255 (08_twin_and_journal.md). -/
def F.JNL_CTRL_REPLAY : Fld := ⟨0x09044, 0, 1, 0⟩
/-- JNL_CTRL [1:1], R255 (08_twin_and_journal.md). -/
def F.JNL_CTRL_ABORT : Fld := ⟨0x09044, 1, 1, 0⟩
/-- JNL_FLASH [4:0], R255 (08_twin_and_journal.md). -/
def F.JNL_FLASH_SIZE_LOG2 : Fld := ⟨0x09048, 0, 5, 0⟩
/-- JNL_FLASH [5:5], R255 (08_twin_and_journal.md). -/
def F.JNL_FLASH_PRESENT : Fld := ⟨0x09048, 5, 1, 0⟩
/-- JNL_FLASH [6:6], R255 (08_twin_and_journal.md). -/
def F.JNL_FLASH_ADDR4 : Fld := ⟨0x09048, 6, 1, 0⟩
/-- JNL_STAT [2:0], R255 (08_twin_and_journal.md). -/
def F.JNL_STAT_RSTATE : Fld := ⟨0x0904C, 0, 3, 0⟩
/-- JNL_STAT [5:3], R255 (08_twin_and_journal.md). -/
def F.JNL_STAT_CSTATE : Fld := ⟨0x0904C, 3, 3, 0⟩
/-- JNL_STAT [6:6], R255 (08_twin_and_journal.md). -/
def F.JNL_STAT_REGION : Fld := ⟨0x0904C, 6, 1, 0⟩
/-- JNL_STAT [7:7], R255 (08_twin_and_journal.md). -/
def F.JNL_STAT_FULL : Fld := ⟨0x0904C, 7, 1, 0⟩
/-- JNL_STAT [14:8], R255 (08_twin_and_journal.md). -/
def F.JNL_STAT_PCT : Fld := ⟨0x0904C, 8, 7, 0⟩
/-- JNL_STAT [15:15], R255 (08_twin_and_journal.md). -/
def F.JNL_STAT_BLANK : Fld := ⟨0x0904C, 15, 1, 0⟩
/-- JNL_GEN [31:0], R255 (08_twin_and_journal.md). -/
def F.JNL_GEN_GEN : Fld := ⟨0x09050, 0, 32, 0⟩
/-- JNL_POS [31:0], R255 (08_twin_and_journal.md). -/
def F.JNL_POS_POS : Fld := ⟨0x09054, 0, 32, 0⟩
/-- JNL_USED [31:0], R255 (08_twin_and_journal.md). -/
def F.JNL_USED_BYTES : Fld := ⟨0x09058, 0, 32, 0⟩
/-- JNL_SEQ [63:0], R255 (08_twin_and_journal.md). -/
def F.JNL_SEQ_SEQ : Fld := ⟨0x0905C, 0, 64, 0⟩
/-- JNL_REPLAY_EPOCH [31:0], R255 (08_twin_and_journal.md). -/
def F.JNL_REPLAY_EPOCH_EPOCH : Fld := ⟨0x09064, 0, 32, 0⟩
/-- JNL_REPLAY_RECS [31:0], R255 (08_twin_and_journal.md). -/
def F.JNL_REPLAY_RECS_COUNT : Fld := ⟨0x09068, 0, 32, 0⟩
/-- JNL_DISCARDED [31:0], R255 (08_twin_and_journal.md). -/
def F.JNL_DISCARDED_COUNT : Fld := ⟨0x0906C, 0, 32, 0⟩
/-- JNL_TAIL_SEQ [63:0], R255 (08_twin_and_journal.md). -/
def F.JNL_TAIL_SEQ_SEQ : Fld := ⟨0x09070, 0, 64, 0⟩
/-- MSS_CFG [0:0], R283 (09_memory_fabric.md). -/
def F.MSS_CFG_INTLV : Fld := ⟨0x0A040, 0, 1, 0⟩
/-- MSS_CFG [1:1], R283 (09_memory_fabric.md). -/
def F.MSS_CFG_ZERO : Fld := ⟨0x0A040, 1, 1, 1⟩
/-- MSS_CFG [2:2], R283 (09_memory_fabric.md). -/
def F.MSS_CFG_SCRUB_EN : Fld := ⟨0x0A040, 2, 1, 1⟩
/-- MSS_CFG [15:8], R283 (09_memory_fabric.md). -/
def F.MSS_CFG_SCRUB_PERIOD : Fld := ⟨0x0A040, 8, 8, 24⟩
/-- MSS_CTRL [0:0], R283 (09_memory_fabric.md). -/
def F.MSS_CTRL_TRAIN : Fld := ⟨0x0A044, 0, 1, 0⟩
/-- MSS_STAT [2:0], R283 (09_memory_fabric.md). -/
def F.MSS_STAT_TSTATE0 : Fld := ⟨0x0A048, 0, 3, 0⟩
/-- MSS_STAT [6:4], R283 (09_memory_fabric.md). -/
def F.MSS_STAT_TSTATE1 : Fld := ⟨0x0A048, 4, 3, 0⟩
/-- MSS_STAT [9:8], R283 (09_memory_fabric.md). -/
def F.MSS_STAT_FENCED : Fld := ⟨0x0A048, 8, 2, 0⟩
/-- MSS_STAT [11:10], R283 (09_memory_fabric.md). -/
def F.MSS_STAT_BEHIND : Fld := ⟨0x0A048, 10, 2, 0⟩
/-- MSS_STAT [18:12], R283 (09_memory_fabric.md). -/
def F.MSS_STAT_TRAIN_PCT : Fld := ⟨0x0A048, 12, 7, 0⟩
/-- MSS_ARB [3:0], R283 (09_memory_fabric.md). -/
def F.MSS_ARB_W_HOST : Fld := ⟨0x0A04C, 0, 4, 4⟩
/-- MSS_ARB [7:4], R283 (09_memory_fabric.md). -/
def F.MSS_ARB_W_REMOTE : Fld := ⟨0x0A04C, 4, 4, 8⟩
/-- MSS_ARB [11:8], R283 (09_memory_fabric.md). -/
def F.MSS_ARB_W_RDX : Fld := ⟨0x0A04C, 8, 4, 4⟩
/-- MSS_SCRUB_POS [27:0], R283 (09_memory_fabric.md). -/
def F.MSS_SCRUB_POS_POS (n : Nat) : Fld := ⟨0x0A050 + 4 * (n % 2), 0, 28, 0⟩
/-- MSS_SCRUB_PASS [31:0], R283 (09_memory_fabric.md). -/
def F.MSS_SCRUB_PASS_COUNT (n : Nat) : Fld := ⟨0x0A058 + 4 * (n % 2), 0, 32, 0⟩
/-- MSS_CE_COUNT [31:0], R283 (09_memory_fabric.md). -/
def F.MSS_CE_COUNT_COUNT (n : Nat) : Fld := ⟨0x0A060 + 4 * (n % 2), 0, 32, 0⟩
/-- MSS_ODECC [31:0], R283 (09_memory_fabric.md). -/
def F.MSS_ODECC_COUNT (n : Nat) : Fld := ⟨0x0A068 + 4 * (n % 2), 0, 32, 0⟩
/-- MSS_UE_COUNT [31:0], R283 (09_memory_fabric.md). -/
def F.MSS_UE_COUNT_COUNT : Fld := ⟨0x0A070, 0, 32, 0⟩
/-- MSS_UE_ADDR_LO [31:0], R283 (09_memory_fabric.md). -/
def F.MSS_UE_ADDR_LO_OFFSET : Fld := ⟨0x0A078, 0, 32, 0⟩
/-- MSS_UE_ADDR_HI [2:0], R283 (09_memory_fabric.md). -/
def F.MSS_UE_ADDR_HI_OFFSET : Fld := ⟨0x0A07C, 0, 3, 0⟩
/-- MSS_UE_ADDR_HI [8:8], R283 (09_memory_fabric.md). -/
def F.MSS_UE_ADDR_HI_SRC : Fld := ⟨0x0A07C, 8, 1, 0⟩
/-- MSS_UE_ADDR_HI [31:31], R283 (09_memory_fabric.md). -/
def F.MSS_UE_ADDR_HI_VALID : Fld := ⟨0x0A07C, 31, 1, 0⟩
/-- RME_CFG [15:0], R283 (09_memory_fabric.md). -/
def F.RME_CFG_AGE : Fld := ⟨0x0B040, 0, 16, 1000⟩
/-- RME_STAT [13:0], R283 (09_memory_fabric.md). -/
def F.RME_STAT_TAGS_USED : Fld := ⟨0x0B044, 0, 14, 0⟩
/-- RME_STAT [14:14], R283 (09_memory_fabric.md). -/
def F.RME_STAT_TAG_STALL : Fld := ⟨0x0B044, 14, 1, 0⟩
/-- RME_STAT [15:15], R283 (09_memory_fabric.md). -/
def F.RME_STAT_ROB_STALL : Fld := ⟨0x0B044, 15, 1, 0⟩
/-- RME_STAT [25:16], R283 (09_memory_fabric.md). -/
def F.RME_STAT_ROB_KIB : Fld := ⟨0x0B044, 16, 10, 0⟩
/-- RME_QUAR [13:0], R283 (09_memory_fabric.md). -/
def F.RME_QUAR_TAGS : Fld := ⟨0x0B048, 0, 14, 0⟩
/-- RME_CONGESTED [31:0], R283 (09_memory_fabric.md). -/
def F.RME_CONGESTED_COUNT : Fld := ⟨0x0B050, 0, 32, 0⟩
/-- RME_LATE_RSP [31:0], R283 (09_memory_fabric.md). -/
def F.RME_LATE_RSP_COUNT : Fld := ⟨0x0B054, 0, 32, 0⟩
/-- RME_NOROUTE [31:0], R283 (09_memory_fabric.md). -/
def F.RME_NOROUTE_COUNT : Fld := ⟨0x0B058, 0, 32, 0⟩
/-- RME_DENIED [31:0], R283 (09_memory_fabric.md). -/
def F.RME_DENIED_COUNT : Fld := ⟨0x0B05C, 0, 32, 0⟩
/-- RME_POISON [31:0], R283 (09_memory_fabric.md). -/
def F.RME_POISON_COUNT : Fld := ⟨0x0B060, 0, 32, 0⟩
/-- RME_BAD_ADDR [31:0], R283 (09_memory_fabric.md). -/
def F.RME_BAD_ADDR_COUNT : Fld := ⟨0x0B064, 0, 32, 0⟩
/-- RME_LAST_ERR_GA [63:0], R283 (09_memory_fabric.md). -/
def F.RME_LAST_ERR_GA_GA : Fld := ⟨0x0B068, 0, 64, 0⟩
/-- RME_LAST_ERR [3:0], R283 (09_memory_fabric.md). -/
def F.RME_LAST_ERR_CODE : Fld := ⟨0x0B070, 0, 4, 0⟩
/-- RME_LAST_ERR [10:4], R283 (09_memory_fabric.md). -/
def F.RME_LAST_ERR_PART : Fld := ⟨0x0B070, 4, 7, 0⟩
/-- RME_TAG_QUOTA [13:0], R283 (09_memory_fabric.md). -/
def F.RME_TAG_QUOTA_QUOTA (n : Nat) : Fld := ⟨0x0B100 + 4 * (n % 65), 0, 14, (if (n % 65) = 0 then 2048 else 256)⟩
/-- RME_TAG_QUOTA [29:16], R283 (09_memory_fabric.md). -/
def F.RME_TAG_QUOTA_USED (n : Nat) : Fld := ⟨0x0B100 + 4 * (n % 65), 16, 14, 0⟩
/-- RME_ROUTE_W0 [13:0], R283 (09_memory_fabric.md). -/
def F.RME_ROUTE_W0_NODE (n : Nat) : Fld := ⟨0x0B300 + 8 * (n % 64), 0, 14, 0⟩
/-- RME_ROUTE_W0 [15:15], R283 (09_memory_fabric.md). -/
def F.RME_ROUTE_W0_VALID (n : Nat) : Fld := ⟨0x0B300 + 8 * (n % 64), 15, 1, 0⟩
/-- RME_ROUTE_W0 [29:16], R283 (09_memory_fabric.md). -/
def F.RME_ROUTE_W0_MASK (n : Nat) : Fld := ⟨0x0B300 + 8 * (n % 64), 16, 14, 0⟩
/-- RME_ROUTE_W1 [9:0], R283 (09_memory_fabric.md). -/
def F.RME_ROUTE_W1_CIRCUIT (n : Nat) : Fld := ⟨0x0B304 + 8 * (n % 64), 0, 10, 0⟩
/-- RME_MAP0 [13:0], R283 (09_memory_fabric.md). -/
def F.RME_MAP0_NODE (n : Nat) : Fld := ⟨0x0B500 + 4 * (n % 64), 0, 14, 0⟩
/-- RME_MAP0 [14:14], R283 (09_memory_fabric.md). -/
def F.RME_MAP0_VALID (n : Nat) : Fld := ⟨0x0B500 + 4 * (n % 64), 14, 1, 0⟩
/-- RME_MAP0 [15:15], R283 (09_memory_fabric.md). -/
def F.RME_MAP0_WR (n : Nat) : Fld := ⟨0x0B500 + 4 * (n % 64), 15, 1, 0⟩
/-- RME_MAP0 [24:16], R283 (09_memory_fabric.md). -/
def F.RME_MAP0_BASE (n : Nat) : Fld := ⟨0x0B500 + 4 * (n % 64), 16, 9, 0⟩
/-- RME_MAPV [13:0], R283 (09_memory_fabric.md). -/
def F.RME_MAPV_NODE (n : Nat) : Fld := ⟨0x0B800 + 4 * (n % 256), 0, 14, 0⟩
/-- RME_MAPV [14:14], R283 (09_memory_fabric.md). -/
def F.RME_MAPV_VALID (n : Nat) : Fld := ⟨0x0B800 + 4 * (n % 256), 14, 1, 0⟩
/-- RME_MAPV [15:15], R283 (09_memory_fabric.md). -/
def F.RME_MAPV_WR (n : Nat) : Fld := ⟨0x0B800 + 4 * (n % 256), 15, 1, 0⟩
/-- RME_MAPV [24:16], R283 (09_memory_fabric.md). -/
def F.RME_MAPV_BASE (n : Nat) : Fld := ⟨0x0B800 + 4 * (n % 256), 16, 9, 0⟩
/-- ATM_GA [63:0], R283 (09_memory_fabric.md). -/
def F.ATM_GA_GA (b n : Nat) : Fld := ⟨b + 0xC00 + 64 * (n % 8), 0, 64, 0⟩
/-- ATM_OPA [63:0], R283 (09_memory_fabric.md). -/
def F.ATM_OPA_OPA (b n : Nat) : Fld := ⟨b + 0xC08 + 64 * (n % 8), 0, 64, 0⟩
/-- ATM_OPB [63:0], R283 (09_memory_fabric.md). -/
def F.ATM_OPB_OPB (b n : Nat) : Fld := ⟨b + 0xC10 + 64 * (n % 8), 0, 64, 0⟩
/-- ATM_CTRL [1:0], R283 (09_memory_fabric.md). -/
def F.ATM_CTRL_OP (b n : Nat) : Fld := ⟨b + 0xC18 + 64 * (n % 8), 0, 2, 0⟩
/-- ATM_CTRL [2:2], R283 (09_memory_fabric.md). -/
def F.ATM_CTRL_SIZE64 (b n : Nat) : Fld := ⟨b + 0xC18 + 64 * (n % 8), 2, 1, 0⟩
/-- ATM_CTRL [8:8], R283 (09_memory_fabric.md). -/
def F.ATM_CTRL_GO (b n : Nat) : Fld := ⟨b + 0xC18 + 64 * (n % 8), 8, 1, 0⟩
/-- ATM_STAT [0:0], R283 (09_memory_fabric.md). -/
def F.ATM_STAT_BUSY (b n : Nat) : Fld := ⟨b + 0xC1C + 64 * (n % 8), 0, 1, 0⟩
/-- ATM_STAT [4:1], R283 (09_memory_fabric.md). -/
def F.ATM_STAT_STATUS (b n : Nat) : Fld := ⟨b + 0xC1C + 64 * (n % 8), 1, 4, 0⟩
/-- ATM_STAT [5:5], R283 (09_memory_fabric.md). -/
def F.ATM_STAT_POISON (b n : Nat) : Fld := ⟨b + 0xC1C + 64 * (n % 8), 5, 1, 0⟩
/-- ATM_RESULT [63:0], R283 (09_memory_fabric.md). -/
def F.ATM_RESULT_RESULT (b n : Nat) : Fld := ⟨b + 0xC20 + 64 * (n % 8), 0, 64, 0⟩
/-- VF_RME_CONGESTED [31:0], R283 (09_memory_fabric.md). -/
def F.VF_RME_CONGESTED_COUNT (b : Nat) : Fld := ⟨b + 0x60, 0, 32, 0⟩
/-- RDX_STAT [4:0], R312 (10_reduce_engine.md). -/
def F.RDX_STAT_CMDS : Fld := ⟨0x0C040, 0, 5, 0⟩
/-- RDX_STAT [16:8], R312 (10_reduce_engine.md). -/
def F.RDX_STAT_STEPS : Fld := ⟨0x0C040, 8, 9, 0⟩
/-- RDX_STAT [17:17], R312 (10_reduce_engine.md). -/
def F.RDX_STAT_UNEXP_FULL : Fld := ⟨0x0C040, 17, 1, 0⟩
/-- RDX_UNEXP [11:0], R312 (10_reduce_engine.md). -/
def F.RDX_UNEXP_KIB : Fld := ⟨0x0C044, 0, 12, 0⟩
/-- RDX_SAT [31:0], R312 (10_reduce_engine.md). -/
def F.RDX_SAT_COUNT : Fld := ⟨0x0C048, 0, 32, 0⟩
/-- RDX_OVF [31:0], R312 (10_reduce_engine.md). -/
def F.RDX_OVF_COUNT : Fld := ⟨0x0C04C, 0, 32, 0⟩
/-- RDX_NAN [31:0], R312 (10_reduce_engine.md). -/
def F.RDX_NAN_COUNT : Fld := ⟨0x0C050, 0, 32, 0⟩
/-- RDX_BADMSG [31:0], R312 (10_reduce_engine.md). -/
def F.RDX_BADMSG_COUNT : Fld := ⟨0x0C054, 0, 32, 0⟩
/-- RDX_ORPHAN [31:0], R312 (10_reduce_engine.md). -/
def F.RDX_ORPHAN_COUNT : Fld := ⟨0x0C058, 0, 32, 0⟩
/-- RDX_STEPS_DONE [31:0], R312 (10_reduce_engine.md). -/
def F.RDX_STEPS_DONE_COUNT : Fld := ⟨0x0C05C, 0, 32, 0⟩
/-- PSM_CFG [7:0], R313 (10_reduce_engine.md). -/
def F.PSM_CFG_LIN_AGE : Fld := ⟨0x23040, 0, 8, 60⟩
/-- PSM_CFG [15:8], R313 (10_reduce_engine.md). -/
def F.PSM_CFG_LIN_DT : Fld := ⟨0x23040, 8, 8, 4⟩
/-- PSM_STAT [3:0], R313 (10_reduce_engine.md). -/
def F.PSM_STAT_STATE (n : Nat) : Fld := ⟨0x23080 + 16 * (n % 16), 0, 4, 0⟩
/-- PSM_STAT [4:4], R313 (10_reduce_engine.md). -/
def F.PSM_STAT_ROLE (n : Nat) : Fld := ⟨0x23080 + 16 * (n % 16), 4, 1, 0⟩
/-- PSM_STAT [15:8], R313 (10_reduce_engine.md). -/
def F.PSM_STAT_LINES (n : Nat) : Fld := ⟨0x23080 + 16 * (n % 16), 8, 8, 0⟩
/-- PSM_STAT [22:16], R313 (10_reduce_engine.md). -/
def F.PSM_STAT_PCT (n : Nat) : Fld := ⟨0x23080 + 16 * (n % 16), 16, 7, 0⟩
/-- PSM_STAT [27:24], R313 (10_reduce_engine.md). -/
def F.PSM_STAT_REASON (n : Nat) : Fld := ⟨0x23080 + 16 * (n % 16), 24, 4, 0⟩
/-- PSM_OVR [31:0], R313 (10_reduce_engine.md). -/
def F.PSM_OVR_COUNT (n : Nat) : Fld := ⟨0x23084 + 16 * (n % 16), 0, 32, 0⟩
/-- PSM_TRIM [31:0], R313 (10_reduce_engine.md). -/
def F.PSM_TRIM_F (n : Nat) : Fld := ⟨0x23088 + 16 * (n % 16), 0, 32, 0⟩
/-- PSM_REPAIR [31:0], R313 (10_reduce_engine.md). -/
def F.PSM_REPAIR_COUNT (n : Nat) : Fld := ⟨0x2308C + 16 * (n % 16), 0, 32, 0⟩
/-- PSM_ALIGN_W0 [31:0], R313 (10_reduce_engine.md). -/
def F.PSM_ALIGN_W0_F (n : Nat) : Fld := ⟨0x23200 + 8 * (n % 128), 0, 32, 0⟩
/-- PSM_ALIGN_W1 [7:0], R313 (10_reduce_engine.md). -/
def F.PSM_ALIGN_W1_ATTEN (n : Nat) : Fld := ⟨0x23204 + 8 * (n % 128), 0, 8, 0⟩
/-- PSM_ALIGN_W1 [8:8], R313 (10_reduce_engine.md). -/
def F.PSM_ALIGN_W1_SEEN (n : Nat) : Fld := ⟨0x23204 + 8 * (n % 128), 8, 1, 0⟩
/-- SEC_STAT [0:0], R330 (11_partitions_security.md). -/
def F.SEC_STAT_ROOT_LOCKED : Fld := ⟨0x0D040, 0, 1, 0⟩
/-- SEC_STAT [1:1], R330 (11_partitions_security.md). -/
def F.SEC_STAT_FENCE : Fld := ⟨0x0D040, 1, 1, 0⟩
/-- SEC_STAT [4:2], R330 (11_partitions_security.md). -/
def F.SEC_STAT_ERASE : Fld := ⟨0x0D040, 2, 3, 0⟩
/-- SEC_STAT [15:5], R330 (11_partitions_security.md). -/
def F.SEC_STAT_LOADED : Fld := ⟨0x0D040, 5, 11, 0⟩
/-- SEC_TAMPER_POL [9:0], R330 (11_partitions_security.md). -/
def F.SEC_TAMPER_POL_POL : Fld := ⟨0x0D044, 0, 10, 0⟩
/-- SEC_TAMPER_POL [15:12], R330 (11_partitions_security.md). -/
def F.SEC_TAMPER_POL_DBG_LIMIT : Fld := ⟨0x0D044, 12, 4, 3⟩
/-- SEC_TAMPER_STAT [4:0], R330 (11_partitions_security.md). -/
def F.SEC_TAMPER_STAT_ACTIVE : Fld := ⟨0x0D048, 0, 5, 0⟩
/-- SEC_TAMPER_STAT [12:8], R330 (11_partitions_security.md). -/
def F.SEC_TAMPER_STAT_LATCHED : Fld := ⟨0x0D048, 8, 5, 0⟩
/-- SEC_CTRL [0:0], R330 (11_partitions_security.md). -/
def F.SEC_CTRL_UNFENCE : Fld := ⟨0x0D04C, 0, 1, 0⟩
/-- SEC_TAMPER_CNT [31:0], R330 (11_partitions_security.md). -/
def F.SEC_TAMPER_CNT_COUNT : Fld := ⟨0x0D050, 0, 32, 0⟩
/-- SEC_DBG_FAILS [3:0], R330 (11_partitions_security.md). -/
def F.SEC_DBG_FAILS_COUNT : Fld := ⟨0x0D054, 0, 4, 0⟩
/-- SEC_ERASE_TIME [63:0], R330 (11_partitions_security.md). -/
def F.SEC_ERASE_TIME_TIME : Fld := ⟨0x0D058, 0, 64, 0⟩
/-- SEC_TKO_SKIPPED [31:0], R330 (11_partitions_security.md). -/
def F.SEC_TKO_SKIPPED_COUNT : Fld := ⟨0x0D060, 0, 32, 0⟩
/-- SEC_KEYRANGE [9:0], R330 (11_partitions_security.md). -/
def F.SEC_KEYRANGE_BASE (n : Nat) : Fld := ⟨0x0D100 + 4 * (n % 65), 0, 10, 0⟩
/-- SEC_KEYRANGE [26:16], R330 (11_partitions_security.md). -/
def F.SEC_KEYRANGE_COUNT (n : Nat) : Fld := ⟨0x0D100 + 4 * (n % 65), 16, 11, 0⟩
/-- SEC_WIN_W0 [13:0], R330 (11_partitions_security.md). -/
def F.SEC_WIN_W0_SRC_NODE (n : Nat) : Fld := ⟨0x0D800 + 16 * (n % 128), 0, 14, 0⟩
/-- SEC_WIN_W0 [15:15], R330 (11_partitions_security.md). -/
def F.SEC_WIN_W0_VALID (n : Nat) : Fld := ⟨0x0D800 + 16 * (n % 128), 15, 1, 0⟩
/-- SEC_WIN_W0 [29:16], R330 (11_partitions_security.md). -/
def F.SEC_WIN_W0_SRC_MASK (n : Nat) : Fld := ⟨0x0D800 + 16 * (n % 128), 16, 14, 0⟩
/-- SEC_WIN_W1 [6:0], R330 (11_partitions_security.md). -/
def F.SEC_WIN_W1_REQ_PART (n : Nat) : Fld := ⟨0x0D804 + 16 * (n % 128), 0, 7, 0⟩
/-- SEC_WIN_W1 [14:8], R330 (11_partitions_security.md). -/
def F.SEC_WIN_W1_OWNER (n : Nat) : Fld := ⟨0x0D804 + 16 * (n % 128), 8, 7, 0⟩
/-- SEC_WIN_W1 [15:15], R330 (11_partitions_security.md). -/
def F.SEC_WIN_W1_WR (n : Nat) : Fld := ⟨0x0D804 + 16 * (n % 128), 15, 1, 0⟩
/-- SEC_WIN_W2 [8:0], R330 (11_partitions_security.md). -/
def F.SEC_WIN_W2_BASE (n : Nat) : Fld := ⟨0x0D808 + 16 * (n % 128), 0, 9, 0⟩
/-- SEC_WIN_W2 [24:16], R330 (11_partitions_security.md). -/
def F.SEC_WIN_W2_LIMIT (n : Nat) : Fld := ⟨0x0D808 + 16 * (n % 128), 16, 9, 0⟩
/-- CPM_CLK_STAT [0:0], R358 (12_clocks_power_time.md). -/
def F.CPM_CLK_STAT_ROOT_LOCK : Fld := ⟨0x01040, 0, 1, 0⟩
/-- CPM_CLK_STAT [4:1], R358 (12_clocks_power_time.md). -/
def F.CPM_CLK_STAT_LANE_LOCK : Fld := ⟨0x01040, 1, 4, 0⟩
/-- CPM_CLK_STAT [5:5], R358 (12_clocks_power_time.md). -/
def F.CPM_CLK_STAT_REFCLK_INV : Fld := ⟨0x01040, 5, 1, 0⟩
/-- CPM_CLK_STAT [6:6], R358 (12_clocks_power_time.md). -/
def F.CPM_CLK_STAT_REFCLK_CHANGED : Fld := ⟨0x01040, 6, 1, 0⟩
/-- CPM_CLK_STAT [7:7], R358 (12_clocks_power_time.md). -/
def F.CPM_CLK_STAT_BYPASS : Fld := ⟨0x01040, 7, 1, 0⟩
/-- CPM_CTRL [0:0], R358 (12_clocks_power_time.md). -/
def F.CPM_CTRL_REFCLK_CONFIRM : Fld := ⟨0x01044, 0, 1, 0⟩
/-- CPM_CTRL [1:1], R358 (12_clocks_power_time.md). -/
def F.CPM_CTRL_PAD_RELEASE : Fld := ⟨0x01044, 1, 1, 0⟩
/-- CPM_CTRL [2:2], R358 (12_clocks_power_time.md). -/
def F.CPM_CTRL_EST_CLEAR : Fld := ⟨0x01044, 2, 1, 0⟩
/-- CPM_OP [1:0], R358 (12_clocks_power_time.md). -/
def F.CPM_OP_TARGET : Fld := ⟨0x01048, 0, 2, 0⟩
/-- CPM_OP [5:4], R358 (12_clocks_power_time.md). -/
def F.CPM_OP_CUR : Fld := ⟨0x01048, 4, 2, 0⟩
/-- CPM_OP [8:8], R358 (12_clocks_power_time.md). -/
def F.CPM_OP_BUSY : Fld := ⟨0x01048, 8, 1, 0⟩
/-- CPM_OP [9:9], R358 (12_clocks_power_time.md). -/
def F.CPM_OP_OP_FAIL : Fld := ⟨0x01048, 9, 1, 0⟩
/-- CPM_OP [14:12], R358 (12_clocks_power_time.md). -/
def F.CPM_OP_OPSTATE : Fld := ⟨0x01048, 12, 3, 0⟩
/-- CPM_PMB_CFG [6:0], R358 (12_clocks_power_time.md). -/
def F.CPM_PMB_CFG_ADDR : Fld := ⟨0x0104C, 0, 7, 64⟩
/-- CPM_PMB_CFG [8:8], R358 (12_clocks_power_time.md). -/
def F.CPM_PMB_CFG_PEC : Fld := ⟨0x0104C, 8, 1, 0⟩
/-- CPM_PMB_CFG [20:16], R358 (12_clocks_power_time.md). -/
def F.CPM_PMB_CFG_VOUT_EXP : Fld := ⟨0x0104C, 16, 5, 0⟩
/-- CPM_PMB_CFG [24:24], R358 (12_clocks_power_time.md). -/
def F.CPM_PMB_CFG_PMB_OK : Fld := ⟨0x0104C, 24, 1, 0⟩
/-- CPM_VOUT [11:0], R358 (12_clocks_power_time.md). -/
def F.CPM_VOUT_CMD_MV : Fld := ⟨0x01050, 0, 12, 700⟩
/-- CPM_VOUT [27:16], R358 (12_clocks_power_time.md). -/
def F.CPM_VOUT_READ_MV : Fld := ⟨0x01050, 16, 12, 0⟩
/-- CPM_PWR_MODE [0:0], R358 (12_clocks_power_time.md). -/
def F.CPM_PWR_MODE_ENGINE_OFF : Fld := ⟨0x01060, 0, 1, 0⟩
/-- CPM_PWR_MODE [1:1], R358 (12_clocks_power_time.md). -/
def F.CPM_PWR_MODE_LANE_OFF : Fld := ⟨0x01060, 1, 1, 0⟩
/-- CPM_PWR_MODE [3:2], R358 (12_clocks_power_time.md). -/
def F.CPM_PWR_MODE_MEM : Fld := ⟨0x01060, 2, 2, 0⟩
/-- CPM_PWR_MODE [4:4], R358 (12_clocks_power_time.md). -/
def F.CPM_PWR_MODE_RING_OFF : Fld := ⟨0x01060, 4, 1, 0⟩
/-- CPM_PWR_MODE [5:5], R358 (12_clocks_power_time.md). -/
def F.CPM_PWR_MODE_HOST_OFF : Fld := ⟨0x01060, 5, 1, 0⟩
/-- CPM_PWR_MODE [8:8], R358 (12_clocks_power_time.md). -/
def F.CPM_PWR_MODE_DROP_THROUGH : Fld := ⟨0x01060, 8, 1, 0⟩
/-- CPM_WAKE_EN [0:0], R358 (12_clocks_power_time.md). -/
def F.CPM_WAKE_EN_HOST : Fld := ⟨0x01064, 0, 1, 1⟩
/-- CPM_WAKE_EN [1:1], R358 (12_clocks_power_time.md). -/
def F.CPM_WAKE_EN_LINK_DATA : Fld := ⟨0x01064, 1, 1, 1⟩
/-- CPM_WAKE_EN [2:2], R358 (12_clocks_power_time.md). -/
def F.CPM_WAKE_EN_OPT : Fld := ⟨0x01064, 2, 1, 1⟩
/-- CPM_WAKE_EN [3:3], R358 (12_clocks_power_time.md). -/
def F.CPM_WAKE_EN_TIMER : Fld := ⟨0x01064, 3, 1, 0⟩
/-- CPM_WAKE_PORTS [15:0], R358 (12_clocks_power_time.md). -/
def F.CPM_WAKE_PORTS_PORTS : Fld := ⟨0x01068, 0, 16, 65535⟩
/-- CPM_WAKE_TIMER [31:0], R358 (12_clocks_power_time.md). -/
def F.CPM_WAKE_TIMER_MS : Fld := ⟨0x0106C, 0, 32, 0⟩
/-- CPM_PWR_STAT [5:0], R358 (12_clocks_power_time.md). -/
def F.CPM_PWR_STAT_DOM_ON : Fld := ⟨0x01070, 0, 6, 3⟩
/-- CPM_PWR_STAT [6:6], R358 (12_clocks_power_time.md). -/
def F.CPM_PWR_STAT_MEM_SR : Fld := ⟨0x01070, 6, 1, 0⟩
/-- CPM_PWR_STAT [11:8], R358 (12_clocks_power_time.md). -/
def F.CPM_PWR_STAT_PSTATE : Fld := ⟨0x01070, 8, 4, 0⟩
/-- CPM_PWR_STAT [12:12], R358 (12_clocks_power_time.md). -/
def F.CPM_PWR_STAT_HOST_KEPT : Fld := ⟨0x01070, 12, 1, 0⟩
/-- CPM_PWR_STAT [19:16], R358 (12_clocks_power_time.md). -/
def F.CPM_PWR_STAT_WAKE_SRC : Fld := ⟨0x01070, 16, 4, 0⟩
/-- CPM_PWR_STAT [23:20], R358 (12_clocks_power_time.md). -/
def F.CPM_PWR_STAT_WAKE_PORT : Fld := ⟨0x01070, 20, 4, 0⟩
/-- CPM_PAD_HOLD [3:0], R358 (12_clocks_power_time.md). -/
def F.CPM_PAD_HOLD_HELD : Fld := ⟨0x01074, 0, 4, 0⟩
/-- CPM_SLEEP_CFG [15:0], R358 (12_clocks_power_time.md). -/
def F.CPM_SLEEP_CFG_DRAIN_MAX : Fld := ⟨0x01078, 0, 16, 200⟩
/-- CPM_SLEEP_CFG [31:16], R358 (12_clocks_power_time.md). -/
def F.CPM_SLEEP_CFG_LINK_WAIT : Fld := ⟨0x01078, 16, 16, 100⟩
/-- CPM_SLEEPS [31:0], R358 (12_clocks_power_time.md). -/
def F.CPM_SLEEPS_COUNT : Fld := ⟨0x0107C, 0, 32, 0⟩
/-- CPM_SLEEP_TICKS [47:0], R358 (12_clocks_power_time.md). -/
def F.CPM_SLEEP_TICKS_C : Fld := ⟨0x01080, 0, 48, 0⟩
/-- CPM_AON_TRIM [31:0], R358 (12_clocks_power_time.md). -/
def F.CPM_AON_TRIM_K : Fld := ⟨0x01088, 0, 32, 16384000⟩
/-- CPM_TIME [63:0], R358 (12_clocks_power_time.md). -/
def F.CPM_TIME_TIME : Fld := ⟨0x010A0, 0, 64, 0⟩
/-- CPM_TIME_SET [63:0], R358 (12_clocks_power_time.md). -/
def F.CPM_TIME_SET_TIME : Fld := ⟨0x010A8, 0, 64, 0⟩
/-- CPM_TIME_STAT [2:0], R358 (12_clocks_power_time.md). -/
def F.CPM_TIME_STAT_TIME_STATE : Fld := ⟨0x010B0, 0, 3, 0⟩
/-- CPM_TIME_UNCERT [31:0], R358 (12_clocks_power_time.md). -/
def F.CPM_TIME_UNCERT_TIME_UNCERT_NS : Fld := ⟨0x010B4, 0, 32, 4294967295⟩
/-- FCU_STAT [0:0], R382 (13_fault_collector.md). -/
def F.FCU_STAT_ANY : Fld := ⟨0x0E040, 0, 1, 0⟩
/-- FCU_STAT [3:1], R382 (13_fault_collector.md). -/
def F.FCU_STAT_HIGHEST : Fld := ⟨0x0E040, 1, 3, 0⟩
/-- FCU_STAT [4:4], R382 (13_fault_collector.md). -/
def F.FCU_STAT_ERRN : Fld := ⟨0x0E040, 4, 1, 0⟩
/-- FCU_STAT [5:5], R382 (13_fault_collector.md). -/
def F.FCU_STAT_TERMINAL : Fld := ⟨0x0E040, 5, 1, 0⟩
/-- FCU_CTRL [0:0], R382 (13_fault_collector.md). -/
def F.FCU_CTRL_DRY : Fld := ⟨0x0E044, 0, 1, 0⟩
/-- FCU_PEND [31:0], R382 (13_fault_collector.md). -/
def F.FCU_PEND_VALID (n : Nat) : Fld := ⟨0x0E048 + 4 * (n % 4), 0, 32, 0⟩
/-- FCU_FENCE [15:0], R382 (13_fault_collector.md). -/
def F.FCU_FENCE_PORTS : Fld := ⟨0x0E058, 0, 16, 0⟩
/-- FCU_FENCE [17:16], R382 (13_fault_collector.md). -/
def F.FCU_FENCE_STACKS : Fld := ⟨0x0E058, 16, 2, 0⟩
/-- FCU_FENCE_PART [31:0], R382 (13_fault_collector.md). -/
def F.FCU_FENCE_PART_PARTS (n : Nat) : Fld := ⟨0x0E05C + 4 * (n % 2), 0, 32, 0⟩
/-- FCU_FENCE_SET [1:0], R382 (13_fault_collector.md). -/
def F.FCU_FENCE_SET_KIND : Fld := ⟨0x0E064, 0, 2, 0⟩
/-- FCU_FENCE_SET [14:8], R382 (13_fault_collector.md). -/
def F.FCU_FENCE_SET_VALUE : Fld := ⟨0x0E064, 8, 7, 0⟩
/-- FCU_UNFENCE [1:0], R382 (13_fault_collector.md). -/
def F.FCU_UNFENCE_KIND : Fld := ⟨0x0E068, 0, 2, 0⟩
/-- FCU_UNFENCE [14:8], R382 (13_fault_collector.md). -/
def F.FCU_UNFENCE_VALUE : Fld := ⟨0x0E068, 8, 7, 0⟩
/-- FCU_RAIL_INJ [6:0], R382 (13_fault_collector.md). -/
def F.FCU_RAIL_INJ_SRC : Fld := ⟨0x0E06C, 0, 7, 0⟩
/-- FCU_RAIL_INJ [9:8], R382 (13_fault_collector.md). -/
def F.FCU_RAIL_INJ_PAT : Fld := ⟨0x0E06C, 8, 2, 0⟩
/-- FCU_PRIOR [6:0], R382 (13_fault_collector.md). -/
def F.FCU_PRIOR_SRC : Fld := ⟨0x0E070, 0, 7, 0⟩
/-- FCU_PRIOR [9:7], R382 (13_fault_collector.md). -/
def F.FCU_PRIOR_CLASS : Fld := ⟨0x0E070, 7, 3, 0⟩
/-- FCU_PRIOR [10:10], R382 (13_fault_collector.md). -/
def F.FCU_PRIOR_RAIL : Fld := ⟨0x0E070, 10, 1, 0⟩
/-- FCU_PRIOR [11:11], R382 (13_fault_collector.md). -/
def F.FCU_PRIOR_INJ : Fld := ⟨0x0E070, 11, 1, 0⟩
/-- FCU_PRIOR [31:31], R382 (13_fault_collector.md). -/
def F.FCU_PRIOR_VALID : Fld := ⟨0x0E070, 31, 1, 0⟩
/-- FCU_PRIOR_TIME [63:0], R382 (13_fault_collector.md). -/
def F.FCU_PRIOR_TIME_TIME : Fld := ⟨0x0E074, 0, 64, 0⟩
/-- FCU_TERM [0:0], R382 (13_fault_collector.md). -/
def F.FCU_TERM_LATCHED : Fld := ⟨0x0E07C, 0, 1, 0⟩
/-- FCU_TERM [14:8], R382 (13_fault_collector.md). -/
def F.FCU_TERM_SRC : Fld := ⟨0x0E07C, 8, 7, 0⟩
/-- FCU_TERM [15:15], R382 (13_fault_collector.md). -/
def F.FCU_TERM_RAIL : Fld := ⟨0x0E07C, 15, 1, 0⟩
/-- FCU_POL [0:0], R382 (13_fault_collector.md). -/
def F.FCU_POL_INT (n : Nat) : Fld := ⟨0x0E200 + 4 * (n % 128), 0, 1, (polReset (n % 128) 0)⟩
/-- FCU_POL [1:1], R382 (13_fault_collector.md). -/
def F.FCU_POL_NMA (n : Nat) : Fld := ⟨0x0E200 + 4 * (n % 128), 1, 1, (polReset (n % 128) 1)⟩
/-- FCU_POL [2:2], R382 (13_fault_collector.md). -/
def F.FCU_POL_ERRN (n : Nat) : Fld := ⟨0x0E200 + 4 * (n % 128), 2, 1, (polReset (n % 128) 2)⟩
/-- FCU_POL [3:3], R382 (13_fault_collector.md). -/
def F.FCU_POL_FENCE (n : Nat) : Fld := ⟨0x0E200 + 4 * (n % 128), 3, 1, (polReset (n % 128) 3)⟩
/-- FCU_POL [4:4], R382 (13_fault_collector.md). -/
def F.FCU_POL_SHUT (n : Nat) : Fld := ⟨0x0E200 + 4 * (n % 128), 4, 1, 0⟩
/-- FCU_POL [5:5], R382 (13_fault_collector.md). -/
def F.FCU_POL_BRST (n : Nat) : Fld := ⟨0x0E200 + 4 * (n % 128), 5, 1, (polReset (n % 128) 5)⟩
/-- FCU_POL [11:8], R382 (13_fault_collector.md). -/
def F.FCU_POL_ESC (n : Nat) : Fld := ⟨0x0E200 + 4 * (n % 128), 8, 4, 0⟩
/-- FCU_REC_W0 [0:0], R382 (13_fault_collector.md). -/
def F.FCU_REC_W0_VALID (n : Nat) : Fld := ⟨0x0E800 + 16 * (n % 128), 0, 1, 0⟩
/-- FCU_REC_W0 [3:1], R382 (13_fault_collector.md). -/
def F.FCU_REC_W0_CLASS (n : Nat) : Fld := ⟨0x0E800 + 16 * (n % 128), 1, 3, 0⟩
/-- FCU_REC_W0 [4:4], R382 (13_fault_collector.md). -/
def F.FCU_REC_W0_RAIL (n : Nat) : Fld := ⟨0x0E800 + 16 * (n % 128), 4, 1, 0⟩
/-- FCU_REC_W0 [5:5], R382 (13_fault_collector.md). -/
def F.FCU_REC_W0_INJ (n : Nat) : Fld := ⟨0x0E800 + 16 * (n % 128), 5, 1, 0⟩
/-- FCU_REC_W0 [6:6], R382 (13_fault_collector.md). -/
def F.FCU_REC_W0_MULTI (n : Nat) : Fld := ⟨0x0E800 + 16 * (n % 128), 6, 1, 0⟩
/-- FCU_REC_W0 [7:7], R382 (13_fault_collector.md). -/
def F.FCU_REC_W0_ESC_HIT (n : Nat) : Fld := ⟨0x0E800 + 16 * (n % 128), 7, 1, 0⟩
/-- FCU_REC_W0 [31:16], R382 (13_fault_collector.md). -/
def F.FCU_REC_W0_COUNT (n : Nat) : Fld := ⟨0x0E800 + 16 * (n % 128), 16, 16, 0⟩
/-- FCU_REC_W1 [1:0], R382 (13_fault_collector.md). -/
def F.FCU_REC_W1_SCOPE_KIND (n : Nat) : Fld := ⟨0x0E804 + 16 * (n % 128), 0, 2, 0⟩
/-- FCU_REC_W1 [14:8], R382 (13_fault_collector.md). -/
def F.FCU_REC_W1_SCOPE (n : Nat) : Fld := ⟨0x0E804 + 16 * (n % 128), 8, 7, 0⟩
/-- FCU_REC_W1 [31:16], R382 (13_fault_collector.md). -/
def F.FCU_REC_W1_CODE (n : Nat) : Fld := ⟨0x0E804 + 16 * (n % 128), 16, 16, 0⟩
/-- FCU_REC [63:0], R382 (13_fault_collector.md). -/
def F.FCU_REC_FIRST_TIME (n : Nat) : Fld := ⟨0x0E808 + 16 * (n % 128), 0, 64, 0⟩
/-- EVR_CFG [1:0], R401 (14_event_recorder_statistics.md). -/
def F.EVR_CFG_PUB_SEV : Fld := ⟨0x0F040, 0, 2, 3⟩
/-- EVR_CFG [2:2], R401 (14_event_recorder_statistics.md). -/
def F.EVR_CFG_PUB_EN : Fld := ⟨0x0F040, 2, 1, 1⟩
/-- EVR_CFG [5:4], R401 (14_event_recorder_statistics.md). -/
def F.EVR_CFG_NEW_SEV : Fld := ⟨0x0F040, 4, 2, 2⟩
/-- EVR_CTRL [0:0], R401 (14_event_recorder_statistics.md). -/
def F.EVR_CTRL_CLEAR : Fld := ⟨0x0F044, 0, 1, 0⟩
/-- EVR_STAT [12:0], R401 (14_event_recorder_statistics.md). -/
def F.EVR_STAT_COUNT : Fld := ⟨0x0F048, 0, 13, 0⟩
/-- EVR_STAT [13:13], R401 (14_event_recorder_statistics.md). -/
def F.EVR_STAT_FULL : Fld := ⟨0x0F048, 13, 1, 0⟩
/-- EVR_STAT [21:16], R401 (14_event_recorder_statistics.md). -/
def F.EVR_STAT_STAGED : Fld := ⟨0x0F048, 16, 6, 0⟩
/-- EVR_SEQ [47:0], R401 (14_event_recorder_statistics.md). -/
def F.EVR_SEQ_NEXT : Fld := ⟨0x0F050, 0, 48, 0⟩
/-- EVR_OLDEST [47:0], R401 (14_event_recorder_statistics.md). -/
def F.EVR_OLDEST_SEQ : Fld := ⟨0x0F058, 0, 48, 0⟩
/-- EVR_DROPPED [31:0], R401 (14_event_recorder_statistics.md). -/
def F.EVR_DROPPED_COUNT : Fld := ⟨0x0F060, 0, 32, 0⟩
/-- EVR_MISSED [31:0], R401 (14_event_recorder_statistics.md). -/
def F.EVR_MISSED_COUNT : Fld := ⟨0x0F064, 0, 32, 0⟩
/-- EVR_CURSOR [47:0], R401 (14_event_recorder_statistics.md). -/
def F.EVR_CURSOR_CURSOR : Fld := ⟨0x0F070, 0, 48, 0⟩
/-- STA_CFG [25:0], R402 (14_event_recorder_statistics.md). -/
def F.STA_CFG_LEN : Fld := ⟨0x20040, 0, 26, 1000000⟩
/-- STA_PERIOD [31:0], R402 (14_event_recorder_statistics.md). -/
def F.STA_PERIOD_PERIOD : Fld := ⟨0x20044, 0, 32, 0⟩
/-- STA_START [63:0], R402 (14_event_recorder_statistics.md). -/
def F.STA_START_TIME : Fld := ⟨0x20048, 0, 64, 0⟩
/-- STA_FLAGS [3:0], R402 (14_event_recorder_statistics.md). -/
def F.STA_FLAGS_FLAGS : Fld := ⟨0x20050, 0, 4, 0⟩
/-- STA_SNAP_PERIOD [31:0], R402 (14_event_recorder_statistics.md). -/
def F.STA_SNAP_PERIOD_PERIOD : Fld := ⟨0x20054, 0, 32, 0⟩
/-- STA_SNAP_START [63:0], R402 (14_event_recorder_statistics.md). -/
def F.STA_SNAP_START_TIME : Fld := ⟨0x20058, 0, 64, 0⟩
/-- STA_SNAP_END [63:0], R402 (14_event_recorder_statistics.md). -/
def F.STA_SNAP_END_TIME : Fld := ⟨0x20060, 0, 64, 0⟩
/-- STA_SNAP_FLAGS [3:0], R402 (14_event_recorder_statistics.md). -/
def F.STA_SNAP_FLAGS_FLAGS : Fld := ⟨0x20068, 0, 4, 0⟩
/-- STA_LIVE [63:0], R402 (14_event_recorder_statistics.md). -/
def F.STA_LIVE_COUNT (n : Nat) : Fld := ⟨0x20100 + 8 * (n % 32), 0, 64, 0⟩
/-- STA_SNAP [63:0], R402 (14_event_recorder_statistics.md). -/
def F.STA_SNAP_COUNT (n : Nat) : Fld := ⟨0x20200 + 8 * (n % 32), 0, 64, 0⟩
/-- STA_PART_SEL [6:0], R402 (14_event_recorder_statistics.md). -/
def F.STA_PART_SEL_PART : Fld := ⟨0x20300, 0, 7, 1⟩
/-- STA_PART_LIVE [63:0], R402 (14_event_recorder_statistics.md). -/
def F.STA_PART_LIVE_COUNT (n : Nat) : Fld := ⟨0x20340 + 8 * (n % 8), 0, 64, 0⟩
/-- STA_PART_SNAP [63:0], R402 (14_event_recorder_statistics.md). -/
def F.STA_PART_SNAP_COUNT (n : Nat) : Fld := ⟨0x20380 + 8 * (n % 8), 0, 64, 0⟩
/-- ENV_CFG [15:0], R419 (15_environment.md). -/
def F.ENV_CFG_TEMP_HI : Fld := ⟨0x21040, 0, 16, 6720⟩
/-- ENV_CFG [31:16], R419 (15_environment.md). -/
def F.ENV_CFG_TEMP_LO : Fld := ⟨0x21040, 16, 16, 65216⟩
/-- ENV_TEMP_STAT [6:0], R419 (15_environment.md). -/
def F.ENV_TEMP_STAT_COUNT : Fld := ⟨0x21044, 0, 7, 0⟩
/-- ENV_TEMP_STAT [13:8], R419 (15_environment.md). -/
def F.ENV_TEMP_STAT_FIRST : Fld := ⟨0x21044, 8, 6, 0⟩
/-- ENV_DIE_MAX [15:0], R419 (15_environment.md). -/
def F.ENV_DIE_MAX_TEMP : Fld := ⟨0x21048, 0, 16, 0⟩
/-- ENV_DIE_MAX [21:16], R419 (15_environment.md). -/
def F.ENV_DIE_MAX_SENSOR : Fld := ⟨0x21048, 16, 6, 0⟩
/-- ENV_HTR_STAT [11:0], R419 (15_environment.md). -/
def F.ENV_HTR_STAT_RING : Fld := ⟨0x2104C, 0, 12, 0⟩
/-- ENV_HTR_STAT [13:12], R419 (15_environment.md). -/
def F.ENV_HTR_STAT_KIND : Fld := ⟨0x2104C, 12, 2, 0⟩
/-- ENV_HTR_FAULTS [31:0], R419 (15_environment.md). -/
def F.ENV_HTR_FAULTS_COUNT : Fld := ⟨0x21050, 0, 32, 0⟩
/-- ENV_DIE_TEMP [15:0], R419 (15_environment.md). -/
def F.ENV_DIE_TEMP_TEMP (n : Nat) : Fld := ⟨0x21100 + 4 * (n % 64), 0, 16, 0⟩
/-- ENV_DIE_TEMP [16:16], R419 (15_environment.md). -/
def F.ENV_DIE_TEMP_VALID (n : Nat) : Fld := ⟨0x21100 + 4 * (n % 64), 16, 1, 0⟩
/-- ENV_DIE_TEMP [17:17], R419 (15_environment.md). -/
def F.ENV_DIE_TEMP_HI (n : Nat) : Fld := ⟨0x21100 + 4 * (n % 64), 17, 1, 0⟩
/-- ENV_DIE_TEMP [18:18], R419 (15_environment.md). -/
def F.ENV_DIE_TEMP_LO (n : Nat) : Fld := ⟨0x21100 + 4 * (n % 64), 18, 1, 0⟩
/-- ENV_EXT_CFG0 [1:0], R419 (15_environment.md). -/
def F.ENV_EXT_CFG0_MODE (n : Nat) : Fld := ⟨0x21200 + 32 * (n % 4), 0, 2, 0⟩
/-- ENV_EXT_CFG0 [3:2], R419 (15_environment.md). -/
def F.ENV_EXT_CFG0_EXC (n : Nat) : Fld := ⟨0x21200 + 32 * (n % 4), 2, 2, 0⟩
/-- ENV_EXT_CFG0 [4:4], R419 (15_environment.md). -/
def F.ENV_EXT_CFG0_ELEM (n : Nat) : Fld := ⟨0x21200 + 32 * (n % 4), 4, 1, 0⟩
/-- ENV_EXT_CFG1 [15:0], R419 (15_environment.md). -/
def F.ENV_EXT_CFG1_BETA (n : Nat) : Fld := ⟨0x21204 + 32 * (n % 4), 0, 16, 3950⟩
/-- ENV_EXT_CFG1 [31:16], R419 (15_environment.md). -/
def F.ENV_EXT_CFG1_R25 (n : Nat) : Fld := ⟨0x21204 + 32 * (n % 4), 16, 16, 1000⟩
/-- ENV_EXT_CFG2 [15:0], R419 (15_environment.md). -/
def F.ENV_EXT_CFG2_LEAD (n : Nat) : Fld := ⟨0x21208 + 32 * (n % 4), 0, 16, 0⟩
/-- ENV_EXT_RAW [23:0], R419 (15_environment.md). -/
def F.ENV_EXT_RAW_CODE (n : Nat) : Fld := ⟨0x2120C + 32 * (n % 4), 0, 24, 0⟩
/-- ENV_EXT_RAW [24:24], R419 (15_environment.md). -/
def F.ENV_EXT_RAW_OPEN (n : Nat) : Fld := ⟨0x2120C + 32 * (n % 4), 24, 1, 0⟩
/-- ENV_EXT_RAW [25:25], R419 (15_environment.md). -/
def F.ENV_EXT_RAW_REVERSED (n : Nat) : Fld := ⟨0x2120C + 32 * (n % 4), 25, 1, 0⟩
/-- ENV_EXT_RAW [26:26], R419 (15_environment.md). -/
def F.ENV_EXT_RAW_RANGE (n : Nat) : Fld := ⟨0x2120C + 32 * (n % 4), 26, 1, 0⟩
/-- ENV_EXT_RAW [27:27], R419 (15_environment.md). -/
def F.ENV_EXT_RAW_VALID (n : Nat) : Fld := ⟨0x2120C + 32 * (n % 4), 27, 1, 0⟩
/-- ENV_EXT_RAW [29:28], R419 (15_environment.md). -/
def F.ENV_EXT_RAW_WIRE (n : Nat) : Fld := ⟨0x2120C + 32 * (n % 4), 28, 2, 0⟩
/-- ENV_EXT_TEMP [15:0], R419 (15_environment.md). -/
def F.ENV_EXT_TEMP_TEMP (n : Nat) : Fld := ⟨0x21210 + 32 * (n % 4), 0, 16, 0⟩
/-- ENV_EXT_TEMP [16:16], R419 (15_environment.md). -/
def F.ENV_EXT_TEMP_VALID (n : Nat) : Fld := ⟨0x21210 + 32 * (n % 4), 16, 1, 0⟩
/-- ENV_EXT_CONV [31:0], R419 (15_environment.md). -/
def F.ENV_EXT_CONV_COUNT (n : Nat) : Fld := ⟨0x21214 + 32 * (n % 4), 0, 32, 0⟩
/-- ENV_SUP [12:0], R419 (15_environment.md). -/
def F.ENV_SUP_MV (n : Nat) : Fld := ⟨0x21300 + 4 * (n % 7), 0, 13, 0⟩
/-- ENV_SUP [13:13], R419 (15_environment.md). -/
def F.ENV_SUP_LOW (n : Nat) : Fld := ⟨0x21300 + 4 * (n % 7), 13, 1, 0⟩
/-- ENV_SUP [14:14], R419 (15_environment.md). -/
def F.ENV_SUP_HIGH (n : Nat) : Fld := ⟨0x21300 + 4 * (n % 7), 14, 1, 0⟩
/-- ENV_SUP [15:15], R419 (15_environment.md). -/
def F.ENV_SUP_VALID (n : Nat) : Fld := ⟨0x21300 + 4 * (n % 7), 15, 1, 0⟩
/-- CPM_RST_CTRL [15:0], R437 (16_bring_up.md). -/
def F.CPM_RST_CTRL_KEY : Fld := ⟨0x0108C, 0, 16, 0⟩
/-- CPM_RST_CAUSE [0:0], R437 (16_bring_up.md). -/
def F.CPM_RST_CAUSE_POR : Fld := ⟨0x01090, 0, 1, 1⟩
/-- CPM_RST_CAUSE [1:1], R437 (16_bring_up.md). -/
def F.CPM_RST_CAUSE_PERST : Fld := ⟨0x01090, 1, 1, 0⟩
/-- CPM_RST_CAUSE [2:2], R437 (16_bring_up.md). -/
def F.CPM_RST_CAUSE_FATAL : Fld := ⟨0x01090, 2, 1, 0⟩
/-- CPM_RST_CAUSE [3:3], R437 (16_bring_up.md). -/
def F.CPM_RST_CAUSE_SOFTWARE : Fld := ⟨0x01090, 3, 1, 0⟩
/-- CPM_BOOT [3:0], R437 (16_bring_up.md). -/
def F.CPM_BOOT_STAGE : Fld := ⟨0x01094, 0, 4, 0⟩
/-- CPM_BOOT [31:16], R437 (16_bring_up.md). -/
def F.CPM_BOOT_CHIP_RESETS : Fld := ⟨0x01094, 16, 16, 0⟩
/-- DBG_STAT [0:0], R448 (17_debug_port.md). -/
def F.DBG_STAT_UNLOCKED : Fld := ⟨0x22040, 0, 1, 0⟩
/-- DBG_STAT [1:1], R448 (17_debug_port.md). -/
def F.DBG_STAT_CHAL_VALID : Fld := ⟨0x22040, 1, 1, 0⟩
/-- DBG_STAT [2:2], R448 (17_debug_port.md). -/
def F.DBG_STAT_HOLDOFF : Fld := ⟨0x22040, 2, 1, 0⟩
/-- DBG_CTRL [0:0], R448 (17_debug_port.md). -/
def F.DBG_CTRL_RELOCK : Fld := ⟨0x22044, 0, 1, 0⟩
/-- DBG_FREEZE [0:0], R448 (17_debug_port.md). -/
def F.DBG_FREEZE_ALL : Fld := ⟨0x22048, 0, 1, 0⟩
/-- DBG_FREEZE [1:1], R448 (17_debug_port.md). -/
def F.DBG_FREEZE_FORCE : Fld := ⟨0x22048, 1, 1, 0⟩
/-- DBG_FREEZE_STAT [0:0], R448 (17_debug_port.md). -/
def F.DBG_FREEZE_STAT_FROZEN : Fld := ⟨0x2204C, 0, 1, 0⟩
/-- DBG_FREEZE_STAT [1:1], R448 (17_debug_port.md). -/
def F.DBG_FREEZE_STAT_SEQ_BROKEN : Fld := ⟨0x2204C, 1, 1, 0⟩
/-- DBG_PEND [10:0], R448 (17_debug_port.md). -/
def F.DBG_PEND_PEND : Fld := ⟨0x22050, 0, 11, 0⟩
/-- DBG_BROKEN [10:0], R448 (17_debug_port.md). -/
def F.DBG_BROKEN_BROKEN : Fld := ⟨0x22054, 0, 11, 0⟩
/-- PFE_LI1_LINES [8:0], R123 (04_light_path.md). -/
def F.PFE_LI1_LINES_PRESENT : Fld := ⟨0x0404C, 0, 9, 0⟩
/-- PFE_LI1_LINES [24:16], R123 (04_light_path.md). -/
def F.PFE_LI1_LINES_OUT_OF_SPEC : Fld := ⟨0x0404C, 16, 9, 0⟩

/-! Fields of the VF pages that have no PF0 twin at the same offset. -/

/-- VF_EVR_CFG.NEW_SEV: page 4 of a VF, offset 0x040 (R386). -/
def F.VF_EVR_NEW_SEV (b : Nat) : Fld := ⟨b + 0x40, 0, 2, 2⟩

/-- The access codes of R10. -/
inductive Acc where
  | ro | rw | wo | w1c | w1s | rc | ra | rwl | wos
  deriving DecidableEq, Repr

/-- A field of a page's register table: its instances first to first + count − 1, stride bytes apart, its access code, and the values it
accepts where its description gives a range (R34). -/
structure Row where
  fld : Nat → Fld
  acc : Acc
  first : Nat
  count : Nat
  stride : Nat
  allow : Option (Nat × Nat)

/-- Register table rows: H. -/
def rowsH (b : Nat) : List Row :=
  [⟨fun _ => F.PAGE_ID_BLOCK b, .ro, 0, 1, 0, none⟩,
   ⟨fun _ => F.PAGE_ID_INSTANCE b, .ro, 0, 1, 0, none⟩,
   ⟨fun _ => F.PAGE_ID_VERSION b, .ro, 0, 1, 0, none⟩,
   ⟨fun _ => F.PAGE_CAP_BLOCK_CAP b, .ro, 0, 1, 0, none⟩,
   ⟨fun _ => F.PAGE_CAP_LOCKABLE b, .ro, 0, 1, 0, none⟩,
   ⟨fun _ => F.PAGE_CAP_FREEZABLE b, .ro, 0, 1, 0, none⟩,
   ⟨fun _ => F.PAGE_CAP_TABLE b, .ro, 0, 1, 0, none⟩,
   ⟨fun _ => F.PAGE_STAT_ENABLED b, .ro, 0, 1, 0, none⟩,
   ⟨fun _ => F.PAGE_STAT_RST_BUSY b, .ro, 0, 1, 0, none⟩,
   ⟨fun _ => F.PAGE_STAT_FROZEN b, .ro, 0, 1, 0, none⟩,
   ⟨fun _ => F.PAGE_STAT_FREEZE_PEND b, .ro, 0, 1, 0, none⟩,
   ⟨fun _ => F.PAGE_STAT_LOCKED b, .ro, 0, 1, 0, none⟩,
   ⟨fun _ => F.PAGE_STAT_LOCK_ARMED b, .ro, 0, 1, 0, none⟩,
   ⟨fun _ => F.PAGE_STAT_LOCK_SEQ_ERR b, .w1c, 0, 1, 0, none⟩,
   ⟨fun _ => F.PAGE_STAT_FENCED b, .ro, 0, 1, 0, none⟩,
   ⟨fun _ => F.PAGE_STAT_BLOCK_STAT b, .ro, 0, 1, 0, none⟩,
   ⟨fun _ => F.PAGE_CTRL_EN b, .rw, 0, 1, 0, none⟩,
   ⟨fun _ => F.PAGE_CTRL_SOFT_RST b, .w1s, 0, 1, 0, none⟩,
   ⟨fun _ => F.PAGE_CTRL_FREEZE b, .rw, 0, 1, 0, none⟩,
   ⟨fun _ => F.INT_CAUSE_CAUSE b, .w1c, 0, 1, 0, none⟩] ++
  [⟨fun _ => F.INT_MASK_MASK b, .rw, 0, 1, 0, none⟩,
   ⟨fun _ => F.INT_FORCE_FORCE b, .wo, 0, 1, 0, none⟩,
   ⟨fun _ => F.PAGE_LOCK_KEY b, .wo, 0, 1, 0, none⟩,
   ⟨fun _ => F.PAGE_LOCK_LOCKED b, .ro, 0, 1, 0, none⟩,
   ⟨fun _ => F.ERR_CAUSE_ERR b, .w1c, 0, 1, 0, none⟩,
   ⟨fun _ => F.ERR_INJECT_INJ b, .rw, 0, 1, 0, none⟩]

/-- Register table rows: Glb. -/
def rowsGlb : List Row :=
  [⟨fun _ => F.GLB_DEVICE_PART, .ro, 0, 1, 0, none⟩,
   ⟨fun _ => F.GLB_DEVICE_STEPPING, .ro, 0, 1, 0, none⟩,
   ⟨fun _ => F.GLB_DEVICE_FAMILY, .ro, 0, 1, 0, none⟩,
   ⟨fun _ => F.GLB_FORM_STRAP, .ro, 0, 1, 0, none⟩,
   ⟨fun _ => F.GLB_FORM_FORM, .ro, 0, 1, 0, none⟩,
   ⟨fun _ => F.GLB_CAP0_PORTS, .ro, 0, 1, 0, none⟩,
   ⟨fun _ => F.GLB_CAP0_DATA_WL, .ro, 0, 1, 0, none⟩,
   ⟨fun _ => F.GLB_CAP0_SPARE_WL, .ro, 0, 1, 0, none⟩,
   ⟨fun _ => F.GLB_CAP0_STACKS, .ro, 0, 1, 0, none⟩,
   ⟨fun _ => F.GLB_CAP0_VFS, .ro, 0, 1, 0, none⟩,
   ⟨fun _ => F.GLB_CAP1_CIRCUITS, .ro, 0, 1, 0, none⟩,
   ⟨fun _ => F.GLB_CAP1_KEY_SLOTS, .ro, 0, 1, 0, none⟩,
   ⟨fun _ => F.GLB_CAP1_THROUGH_HOPS, .ro, 0, 1, 0, none⟩,
   ⟨fun _ => F.GLB_NODE_ID_NODE_ID, .rwl, 0, 1, 0, none⟩,
   ⟨fun _ => F.GLB_SERIAL_SERIAL, .ro, 0, 1, 0, none⟩,
   ⟨fun _ => F.GLB_ACCESS_ERR_PARTIAL, .w1c, 0, 1, 0, none⟩,
   ⟨fun _ => F.GLB_ACCESS_ERR_UNALIGNED, .w1c, 0, 1, 0, none⟩,
   ⟨fun _ => F.GLB_ACCESS_ERR_BADVAL, .w1c, 0, 1, 0, none⟩,
   ⟨fun _ => F.GLB_ACCESS_ERR_RSVD_WR, .w1c, 0, 1, 0, none⟩,
   ⟨fun _ => F.GLB_ACCESS_ERR_UNIMPL, .w1c, 0, 1, 0, none⟩] ++
  [⟨fun _ => F.GLB_ACCESS_ERR_LOCKED_WR, .w1c, 0, 1, 0, none⟩,
   ⟨fun _ => F.GLB_ACCESS_ERR_LAST_PAGE, .ro, 0, 1, 0, none⟩,
   ⟨fun _ => F.GLB_ACCESS_ERR_LAST_OFFSET, .ro, 0, 1, 0, none⟩,
   ⟨fun _ => F.GLB_ACCESS_ERR_LAST_SRC, .ro, 0, 1, 0, none⟩,
   ⟨fun _ => F.GLB_SCRATCH_SCRATCH, .rw, 0, 1, 0, none⟩,
   ⟨fun n => F.GLB_PAGE_MAP_PRESENT n, .ro, 0, 4, 4, none⟩]

/-- Register table rows: Hif. -/
def rowsHif : List Row :=
  [⟨fun _ => F.HIF_LINK_STAT_SPEED, .ro, 0, 1, 0, none⟩,
   ⟨fun _ => F.HIF_LINK_STAT_WIDTH, .ro, 0, 1, 0, none⟩,
   ⟨fun _ => F.HIF_LINK_STAT_FLIT, .ro, 0, 1, 0, none⟩,
   ⟨fun _ => F.HIF_LINK_STAT_REVERSED, .ro, 0, 1, 0, none⟩,
   ⟨fun _ => F.HIF_LINK_STAT_UP, .ro, 0, 1, 0, none⟩,
   ⟨fun _ => F.HIF_UCIE_STAT_MODULES, .ro, 0, 1, 0, none⟩,
   ⟨fun _ => F.HIF_UCIE_STAT_RATE, .ro, 0, 1, 0, none⟩,
   ⟨fun _ => F.HIF_UCIE_STAT_SB_UP, .ro, 0, 1, 0, none⟩,
   ⟨fun _ => F.HIF_UCIE_STAT_MB_UP, .ro, 0, 1, 0, none⟩,
   ⟨fun _ => F.HIF_UCIE_STAT_REPAIRED, .ro, 0, 1, 0, none⟩,
   ⟨fun _ => F.HIF_NMA_PEND0_PEND, .ro, 0, 1, 0, none⟩,
   ⟨fun _ => F.HIF_NMA_PEND1_PEND, .ro, 0, 1, 0, none⟩,
   ⟨fun _ => F.HIF_NMA_PEND2_PEND, .ro, 0, 1, 0, none⟩,
   ⟨fun _ => F.HIF_NMA_COUNT_COUNT, .rc, 0, 1, 0, none⟩,
   ⟨fun _ => F.HIF_VF_STAT_NUM_VFS, .ro, 0, 1, 0, none⟩,
   ⟨fun _ => F.HIF_VF_STAT_VF_EN, .ro, 0, 1, 0, none⟩]

/-- Register table rows: Q. -/
def rowsQ (b : Nat) : List Row :=
  [⟨fun _ => F.CMDQ_BASE_BASE b, .rw, 0, 1, 0, none⟩,
   ⟨fun _ => F.CMDQ_SIZE_SIZE b, .rw, 0, 1, 0, some (4, 12)⟩,
   ⟨fun _ => F.CMDQ_TAIL_TAIL b, .rw, 0, 1, 0, none⟩,
   ⟨fun _ => F.CMDQ_HEAD_HEAD b, .ro, 0, 1, 0, none⟩,
   ⟨fun _ => F.CPLQ_BASE_BASE b, .rw, 0, 1, 0, none⟩,
   ⟨fun _ => F.CPLQ_SIZE_SIZE b, .rw, 0, 1, 0, some (4, 12)⟩,
   ⟨fun _ => F.CPLQ_HEAD_HEAD b, .rw, 0, 1, 0, none⟩,
   ⟨fun _ => F.CPLQ_TAIL_TAIL b, .ro, 0, 1, 0, none⟩,
   ⟨fun _ => F.CPLQ_TAIL_PHASE b, .ro, 0, 1, 0, none⟩,
   ⟨fun _ => F.Q_CTRL_CMD_EN b, .rw, 0, 1, 0, none⟩,
   ⟨fun _ => F.Q_CTRL_CPL_EN b, .rw, 0, 1, 0, none⟩,
   ⟨fun _ => F.Q_STAT_IDLE b, .ro, 0, 1, 0, none⟩,
   ⟨fun _ => F.Q_STAT_DB_OVR b, .w1c, 0, 1, 0, none⟩,
   ⟨fun _ => F.Q_STAT_CPL_DB_OVR b, .w1c, 0, 1, 0, none⟩,
   ⟨fun _ => F.Q_STAT_FETCH_ERR b, .w1c, 0, 1, 0, none⟩,
   ⟨fun _ => F.Q_STAT_HALTED b, .ro, 0, 1, 0, none⟩,
   ⟨fun _ => F.Q_STAT_CPL_FULL b, .ro, 0, 1, 0, none⟩,
   ⟨fun _ => F.Q_STAT_INFLIGHT b, .ro, 0, 1, 0, none⟩,
   ⟨fun _ => F.CPL_COAL_COUNT b, .rw, 0, 1, 0, none⟩,
   ⟨fun _ => F.CPL_COAL_TIME b, .rw, 0, 1, 0, none⟩]

/-- Register table rows: Que. -/
def rowsQue : List Row :=
  [⟨fun n => F.QUE_WEIGHT_WEIGHT n, .rw, 1, 64, 4, none⟩]

/-- Register table rows: Pfe. -/
def rowsPfe : List Row :=
  [⟨fun _ => F.PFE_LASER_CTRL_EN, .rw, 0, 1, 0, none⟩,
   ⟨fun _ => F.PFE_LASER_CTRL_AUTO_RESTART, .rw, 0, 1, 0, none⟩,
   ⟨fun _ => F.PFE_LASER_STAT_LASER_EN, .ro, 0, 1, 0, none⟩,
   ⟨fun _ => F.PFE_LASER_STAT_FAULT, .ro, 0, 1, 0, none⟩,
   ⟨fun _ => F.PFE_LASER_STAT_LI0_LOSS, .w1c, 0, 1, 0, none⟩,
   ⟨fun _ => F.PFE_LASER_STAT_LI1_LOSS, .w1c, 0, 1, 0, none⟩,
   ⟨fun _ => F.PFE_LASER_STAT_LI_OVER, .w1c, 0, 1, 0, none⟩,
   ⟨fun _ => F.PFE_LASER_STAT_ILK_FAIL, .ro, 0, 1, 0, none⟩,
   ⟨fun _ => F.PFE_LI0_LINES_PRESENT, .ro, 0, 1, 0, none⟩,
   ⟨fun _ => F.PFE_LI0_LINES_OUT_OF_SPEC, .ro, 0, 1, 0, none⟩,
   ⟨fun _ => F.PFE_LI0_LINES_ANCHOR_OK, .ro, 0, 1, 0, none⟩,
   ⟨fun _ => F.PFE_LI0_PWR_TOTAL, .ro, 0, 1, 0, none⟩,
   ⟨fun _ => F.PFE_LI0_PWR_LOW, .ro, 0, 1, 0, none⟩,
   ⟨fun _ => F.PFE_LI0_PWR_OVR, .ro, 0, 1, 0, none⟩,
   ⟨fun _ => F.PFE_LI1_PWR_TOTAL, .ro, 0, 1, 0, none⟩,
   ⟨fun _ => F.PFE_LI1_PWR_LOW, .ro, 0, 1, 0, none⟩,
   ⟨fun _ => F.PFE_LI1_PWR_OVR, .ro, 0, 1, 0, none⟩,
   ⟨fun _ => F.PFE_XC_STAT_CONFLICT, .w1c, 0, 1, 0, none⟩,
   ⟨fun _ => F.PFE_XC_STAT_RING, .ro, 0, 1, 0, none⟩,
   ⟨fun _ => F.PFE_LI1_LINES_PRESENT, .ro, 0, 1, 0, none⟩] ++
  [⟨fun _ => F.PFE_LI1_LINES_OUT_OF_SPEC, .ro, 0, 1, 0, none⟩]

/-- Register table rows: Port. -/
def rowsPort (p : Nat) : List Row :=
  [⟨fun _ => F.PORT_SHUT_CTRL_OPEN p, .rw, 0, 1, 0, none⟩,
   ⟨fun _ => F.PORT_SHUT_CTRL_APR_EN p, .rw, 0, 1, 0, none⟩,
   ⟨fun _ => F.PORT_SHUT_CTRL_LOOP p, .rw, 0, 1, 0, none⟩,
   ⟨fun _ => F.PORT_SHUT_STAT_STATE p, .ro, 0, 1, 0, none⟩,
   ⟨fun _ => F.PORT_SHUT_STAT_REASON p, .ro, 0, 1, 0, none⟩,
   ⟨fun _ => F.PORT_SHUT_STAT_PROBES p, .ro, 0, 1, 0, none⟩,
   ⟨fun _ => F.PORT_MOD_CFG_BITS p, .rw, 0, 1, 0, some (0, 2)⟩,
   ⟨fun _ => F.PORT_TX_PWR_TOTAL p, .ro, 0, 1, 0, none⟩,
   ⟨fun _ => F.PORT_TX_PWR_LOW p, .ro, 0, 1, 0, none⟩,
   ⟨fun _ => F.PORT_TX_PWR_OVR p, .ro, 0, 1, 0, none⟩,
   ⟨fun _ => F.PORT_RX_TOTAL_TOTAL p, .ro, 0, 1, 0, none⟩,
   ⟨fun _ => F.PORT_RX_TOTAL_LOW p, .ro, 0, 1, 0, none⟩,
   ⟨fun _ => F.PORT_RX_TOTAL_OVR p, .ro, 0, 1, 0, none⟩,
   ⟨fun _ => F.PORT_PEER_EXP_NODE p, .rw, 0, 1, 0, none⟩,
   ⟨fun _ => F.PORT_PEER_EXP_PORT p, .rw, 0, 1, 0, none⟩,
   ⟨fun _ => F.PORT_PEER_EXP_CHECK p, .rw, 0, 1, 0, none⟩,
   ⟨fun _ => F.PORT_PEER_SEEN_NODE p, .ro, 0, 1, 0, none⟩,
   ⟨fun _ => F.PORT_PEER_SEEN_PORT p, .ro, 0, 1, 0, none⟩,
   ⟨fun _ => F.PORT_PEER_SEEN_RESULT p, .ro, 0, 1, 0, none⟩,
   ⟨fun n => F.PORT_RX_PWR_PWR p n, .ro, 0, 9, 4, none⟩] ++
  [⟨fun n => F.PORT_RX_PWR_LOW p n, .ro, 0, 9, 4, none⟩,
   ⟨fun n => F.PORT_RX_PWR_OVR p n, .ro, 0, 9, 4, none⟩,
   ⟨fun n => F.PORT_RX_PWR_OPT_HIGH p n, .w1c, 0, 9, 4, none⟩,
   ⟨fun n => F.PORT_RX_PWR_VALID p n, .ro, 0, 9, 4, none⟩,
   ⟨fun _ => F.PORT_LNK_CFG_REPLAY_ALLOC p, .rw, 0, 1, 0, some (0, 64)⟩,
   ⟨fun _ => F.PORT_LNK_CFG_WAKE_TX p, .w1s, 0, 1, 0, none⟩,
   ⟨fun _ => F.PORT_LNK_CFG_BEACON_EN p, .rw, 0, 1, 0, none⟩,
   ⟨fun _ => F.PORT_LNK_STAT_PAIR_UP p, .ro, 0, 1, 0, none⟩,
   ⟨fun _ => F.PORT_LNK_STAT_PAIR_FAILED p, .ro, 0, 1, 0, none⟩,
   ⟨fun _ => F.PORT_LNK_STAT_SPARE_UP p, .ro, 0, 1, 0, none⟩,
   ⟨fun _ => F.PORT_LNK_STAT_SUBST p, .ro, 0, 1, 0, none⟩,
   ⟨fun _ => F.PORT_LNK_STAT_SUBST_LINE p, .ro, 0, 1, 0, none⟩,
   ⟨fun _ => F.PORT_LNK_STAT_RTT p, .ro, 0, 1, 0, none⟩,
   ⟨fun n => F.PORT_TRAIN_STATE p n, .ro, 0, 5, 4, none⟩,
   ⟨fun n => F.PORT_TRAIN_FAIL p n, .ro, 0, 5, 4, none⟩,
   ⟨fun n => F.PORT_TRAIN_RETRAINS p n, .ro, 0, 5, 4, none⟩,
   ⟨fun n => F.PORT_HALF_LOSS_COUNT p n, .rc, 0, 4, 4, none⟩,
   ⟨fun n => F.PORT_CW_CORR_COUNT p n, .rc, 0, 9, 4, none⟩,
   ⟨fun n => F.PORT_CW_UNCORR_COUNT p n, .rc, 0, 9, 4, none⟩,
   ⟨fun _ => F.PORT_REPLAYS_COUNT p, .rc, 0, 1, 0, none⟩] ++
  [⟨fun _ => F.PORT_CRC_ERR_COUNT p, .rc, 0, 1, 0, none⟩,
   ⟨fun _ => F.PORT_AUTH_FAIL_COUNT p, .rc, 0, 1, 0, none⟩,
   ⟨fun _ => F.PORT_REPLAY_REJ_COUNT p, .rc, 0, 1, 0, none⟩,
   ⟨fun _ => F.PORT_TIME_ASYM_ASYM p, .rw, 0, 1, 0, none⟩,
   ⟨fun n => F.PORT_LOCK_LOSS_COUNT p n, .rc, 0, 9, 4, none⟩]

/-- Register table rows: Rcu. -/
def rowsRcu : List Row :=
  [⟨fun _ => F.RCU_SEARCH_CTRL_START, .w1s, 0, 1, 0, none⟩,
   ⟨fun _ => F.RCU_SEARCH_CTRL_ABORT, .w1s, 0, 1, 0, none⟩,
   ⟨fun _ => F.RCU_SEARCH_CTRL_MODE, .rw, 0, 1, 0, none⟩,
   ⟨fun _ => F.RCU_SEARCH_STAT_STATE, .ro, 0, 1, 0, none⟩,
   ⟨fun _ => F.RCU_SEARCH_STAT_PCT, .ro, 0, 1, 0, none⟩,
   ⟨fun _ => F.RCU_SEARCH_STAT_RING, .ro, 0, 1, 0, none⟩,
   ⟨fun _ => F.RCU_SEARCH_STAT_RESULT, .ro, 0, 1, 0, none⟩,
   ⟨fun _ => F.RCU_SEARCH_STAT_REASON, .ro, 0, 1, 0, none⟩,
   ⟨fun _ => F.RCU_SEARCH_CODE_CODE, .ro, 0, 1, 0, none⟩,
   ⟨fun _ => F.RCU_SEARCH_CODE_GROUP, .ro, 0, 1, 0, none⟩,
   ⟨fun _ => F.RCU_SEARCH_RES_UNIDENT, .ro, 0, 1, 0, none⟩,
   ⟨fun _ => F.RCU_SEARCH_RES_RESWEPT, .ro, 0, 1, 0, none⟩,
   ⟨fun _ => F.RCU_LOOP_CFG_LOCK_WIN, .rw, 0, 1, 0, some (1, 255)⟩,
   ⟨fun _ => F.RCU_LOOP_CFG_PILOT_AMP, .rw, 0, 1, 0, some (1, 15)⟩,
   ⟨fun _ => F.RCU_LOOP_CFG_FF_EN, .rw, 0, 1, 0, none⟩,
   ⟨fun _ => F.RCU_FF_CFG_TO_COEF, .rw, 0, 1, 0, none⟩,
   ⟨fun _ => F.RCU_LOOP_STAT_UNLOCKED, .ro, 0, 1, 0, none⟩,
   ⟨fun _ => F.RCU_LOOP_STAT_FENCED, .ro, 0, 1, 0, none⟩,
   ⟨fun _ => F.RCU_LOOP_STAT_FF_FALLBACK, .ro, 0, 1, 0, none⟩,
   ⟨fun _ => F.RCU_CAL_CTRL_AUTO, .rw, 0, 1, 0, none⟩] ++
  [⟨fun _ => F.RCU_CAL_CTRL_MODE_RX, .rw, 0, 1, 0, none⟩,
   ⟨fun _ => F.RCU_CAL_CTRL_MODE_TX, .rw, 0, 1, 0, none⟩,
   ⟨fun _ => F.RCU_CAL_CTRL_MODE_RING, .rw, 0, 1, 0, none⟩,
   ⟨fun _ => F.RCU_CAL_CTRL_CAL_PAR, .rw, 0, 1, 0, some (1, 8)⟩,
   ⟨fun _ => F.RCU_CAL_CTRL_CAL_TRIG, .rw, 0, 1, 0, some (1, 99)⟩,
   ⟨fun _ => F.RCU_CAL_DEFER_CAL_DEFER_MAX, .rw, 0, 1, 0, some (1, 65535)⟩,
   ⟨fun _ => F.RCU_CAL_DEFER_CAL_TOL_HTR, .rw, 0, 1, 0, none⟩,
   ⟨fun _ => F.RCU_CAL_DEFER_CAL_TOL_TAP, .rw, 0, 1, 0, none⟩,
   ⟨fun _ => F.RCU_CAL_PORTMODE_SPARE, .rw, 0, 1, 0, none⟩,
   ⟨fun _ => F.RCU_CAL_STAT_ACTIVE, .ro, 0, 1, 0, none⟩,
   ⟨fun _ => F.RCU_CAL_STAT_DUE, .ro, 0, 1, 0, none⟩,
   ⟨fun _ => F.RCU_CAL_STAT_LAST_CH, .ro, 0, 1, 0, none⟩,
   ⟨fun _ => F.RCU_CAL_STAT_SUSPECT, .ro, 0, 1, 0, none⟩,
   ⟨fun _ => F.RCU_CAL_DEFERRALS_COUNT, .rc, 0, 1, 0, none⟩,
   ⟨fun _ => F.RCU_CAL_FORCED_COUNT, .rc, 0, 1, 0, none⟩,
   ⟨fun _ => F.RCU_CAL_RETRIES_COUNT, .rc, 0, 1, 0, none⟩]

/-- Register table rows: Lnk. -/
def rowsLnk : List Row :=
  [⟨fun _ => F.LNK_TIME_CTRL_ROOT, .rw, 0, 1, 0, none⟩,
   ⟨fun _ => F.LNK_TIME_CTRL_PARENT, .rw, 0, 1, 0, none⟩,
   ⟨fun _ => F.LNK_TIME_CTRL_PARENT_EN, .rw, 0, 1, 0, none⟩,
   ⟨fun _ => F.LNK_TIME_CTRL_BEACON_INT, .rw, 0, 1, 0, some (1, 255)⟩,
   ⟨fun _ => F.LNK_TIME_STAT_STRATUM, .ro, 0, 1, 0, none⟩,
   ⟨fun _ => F.LNK_TIME_STAT_ROOT_NODE, .ro, 0, 1, 0, none⟩,
   ⟨fun _ => F.LNK_TIME_STAT_SYNCED, .ro, 0, 1, 0, none⟩,
   ⟨fun _ => F.LNK_TIME_OFS_THETA, .ro, 0, 1, 0, none⟩,
   ⟨fun _ => F.LNK_TIME_STEPS_COUNT, .rc, 0, 1, 0, none⟩]

/-- Register table rows: Csq. -/
def rowsCsq : List Row :=
  [⟨fun _ => F.CSQ_CTRL_AUTO_SPARE, .rw, 0, 1, 0, none⟩,
   ⟨fun _ => F.CSQ_CTRL_TRAIN_RETRY, .rw, 0, 1, 0, none⟩,
   ⟨fun _ => F.CSQ_STAT_OPEN, .ro, 0, 1, 0, none⟩,
   ⟨fun _ => F.CSQ_STAT_EPOCHS, .ro, 0, 1, 0, none⟩,
   ⟨fun _ => F.CSQ_STAT_STALL, .ro, 0, 1, 0, none⟩,
   ⟨fun _ => F.CSQ_STAT_CHGQ_USED, .ro, 0, 1, 0, none⟩,
   ⟨fun _ => F.CSQ_OPEN_EPOCH_EPOCH, .ro, 0, 1, 0, none⟩,
   ⟨fun _ => F.CSQ_LAST_EPOCH_EPOCH, .ro, 0, 1, 0, none⟩,
   ⟨fun _ => F.CSQ_LAST_TIME_TIME, .ro, 0, 1, 0, none⟩,
   ⟨fun _ => F.CSQ_LAST_DURABLE_EPOCH, .ro, 0, 1, 0, none⟩,
   ⟨fun _ => F.CSQ_PROG_PCT, .ro, 0, 1, 0, none⟩,
   ⟨fun _ => F.CSQ_PROG_RING, .ro, 0, 1, 0, none⟩,
   ⟨fun _ => F.CSQ_PROG_STAGE, .ro, 0, 1, 0, none⟩,
   ⟨fun _ => F.CSQ_PROG_EPOCH_EPOCH, .ro, 0, 1, 0, none⟩,
   ⟨fun _ => F.CSQ_ABORT_EPOCH, .wo, 0, 1, 0, none⟩,
   ⟨fun _ => F.CSQ_ABORT_STAT_ABORT_REFUSED, .w1c, 0, 1, 0, none⟩,
   ⟨fun _ => F.CSQ_LAST_ABORTED_EPOCH, .ro, 0, 1, 0, none⟩,
   ⟨fun _ => F.CSQ_FAIL_CIRCUIT, .ro, 0, 1, 0, none⟩,
   ⟨fun _ => F.CSQ_FAIL_REASON, .ro, 0, 1, 0, none⟩,
   ⟨fun _ => F.CSQ_COMMITS_COUNT, .rc, 0, 1, 0, none⟩] ++
  [⟨fun _ => F.CSQ_LATE_COUNT, .rc, 0, 1, 0, none⟩,
   ⟨fun _ => F.CSQ_ABORTS_COUNT, .rc, 0, 1, 0, none⟩]

/-- Register table rows: Twn. -/
def rowsTwn : List Row :=
  [⟨fun _ => F.TWN_CFG_EN, .rw, 0, 1, 0, none⟩,
   ⟨fun _ => F.TWN_CFG_ROLE_REQ, .rw, 0, 1, 0, some (0, 2)⟩,
   ⟨fun _ => F.TWN_CFG_PORT, .rw, 0, 1, 0, none⟩,
   ⟨fun _ => F.TWN_CFG_PEER, .rw, 0, 1, 0, none⟩,
   ⟨fun _ => F.TWN_CTRL_SWITCHOVER, .w1s, 0, 1, 0, none⟩,
   ⟨fun _ => F.TWN_CTRL_TAKEOVER, .w1s, 0, 1, 0, none⟩,
   ⟨fun _ => F.TWN_STAT_ROLE, .ro, 0, 1, 0, none⟩,
   ⟨fun _ => F.TWN_STAT_TKO, .ro, 0, 1, 0, none⟩,
   ⟨fun _ => F.TWN_STAT_MISSES, .ro, 0, 1, 0, none⟩,
   ⟨fun _ => F.TWN_STAT_PCT, .ro, 0, 1, 0, none⟩,
   ⟨fun _ => F.TWN_STAT_DESYNC, .ro, 0, 1, 0, none⟩,
   ⟨fun _ => F.TWN_STAT_SWITCH_FAIL, .w1c, 0, 1, 0, none⟩,
   ⟨fun _ => F.TWN_STAT_TKO_BROKEN, .w1c, 0, 1, 0, none⟩,
   ⟨fun _ => F.TWN_GEN_GEN, .ro, 0, 1, 0, none⟩,
   ⟨fun _ => F.TWN_SENT_TSEQ_TSEQ, .ro, 0, 1, 0, none⟩,
   ⟨fun _ => F.TWN_ACKED_TSEQ_TSEQ, .ro, 0, 1, 0, none⟩,
   ⟨fun _ => F.TWN_MIRROR_EPOCH_EPOCH, .ro, 0, 1, 0, none⟩,
   ⟨fun _ => F.TWN_PARTIAL_EPOCH, .ro, 0, 1, 0, none⟩,
   ⟨fun _ => F.TWN_PARTIAL_CNT_COUNT, .ro, 0, 1, 0, none⟩,
   ⟨fun _ => F.TWN_BUF_USED_BYTES, .ro, 0, 1, 0, none⟩] ++
  [⟨fun _ => F.TWN_TKO_CONFLICTS_COUNT, .rc, 0, 1, 0, none⟩,
   ⟨fun _ => F.TWN_BAD_COUNT, .rc, 0, 1, 0, none⟩]

/-- Register table rows: Jnl. -/
def rowsJnl : List Row :=
  [⟨fun _ => F.JNL_CFG_SPI_DIV, .rw, 0, 1, 0, none⟩,
   ⟨fun _ => F.JNL_CFG_ERASE_AHEAD, .rw, 0, 1, 0, some (1, 15)⟩,
   ⟨fun _ => F.JNL_CFG_AUTO_COMPACT, .rw, 0, 1, 0, none⟩,
   ⟨fun _ => F.JNL_CFG_BYPASS, .rw, 0, 1, 0, none⟩,
   ⟨fun _ => F.JNL_CTRL_REPLAY, .w1s, 0, 1, 0, none⟩,
   ⟨fun _ => F.JNL_CTRL_ABORT, .w1s, 0, 1, 0, none⟩,
   ⟨fun _ => F.JNL_FLASH_SIZE_LOG2, .ro, 0, 1, 0, none⟩,
   ⟨fun _ => F.JNL_FLASH_PRESENT, .ro, 0, 1, 0, none⟩,
   ⟨fun _ => F.JNL_FLASH_ADDR4, .ro, 0, 1, 0, none⟩,
   ⟨fun _ => F.JNL_STAT_RSTATE, .ro, 0, 1, 0, none⟩,
   ⟨fun _ => F.JNL_STAT_CSTATE, .ro, 0, 1, 0, none⟩,
   ⟨fun _ => F.JNL_STAT_REGION, .ro, 0, 1, 0, none⟩,
   ⟨fun _ => F.JNL_STAT_FULL, .ro, 0, 1, 0, none⟩,
   ⟨fun _ => F.JNL_STAT_PCT, .ro, 0, 1, 0, none⟩,
   ⟨fun _ => F.JNL_STAT_BLANK, .ro, 0, 1, 0, none⟩,
   ⟨fun _ => F.JNL_GEN_GEN, .ro, 0, 1, 0, none⟩,
   ⟨fun _ => F.JNL_POS_POS, .ro, 0, 1, 0, none⟩,
   ⟨fun _ => F.JNL_USED_BYTES, .ro, 0, 1, 0, none⟩,
   ⟨fun _ => F.JNL_SEQ_SEQ, .ro, 0, 1, 0, none⟩,
   ⟨fun _ => F.JNL_REPLAY_EPOCH_EPOCH, .ro, 0, 1, 0, none⟩] ++
  [⟨fun _ => F.JNL_REPLAY_RECS_COUNT, .ro, 0, 1, 0, none⟩,
   ⟨fun _ => F.JNL_DISCARDED_COUNT, .ro, 0, 1, 0, none⟩,
   ⟨fun _ => F.JNL_TAIL_SEQ_SEQ, .ro, 0, 1, 0, none⟩]

/-- Register table rows: Mss. -/
def rowsMss : List Row :=
  [⟨fun _ => F.MSS_CFG_INTLV, .rw, 0, 1, 0, none⟩,
   ⟨fun _ => F.MSS_CFG_ZERO, .rw, 0, 1, 0, none⟩,
   ⟨fun _ => F.MSS_CFG_SCRUB_EN, .rw, 0, 1, 0, none⟩,
   ⟨fun _ => F.MSS_CFG_SCRUB_PERIOD, .rw, 0, 1, 0, some (1, 255)⟩,
   ⟨fun _ => F.MSS_CTRL_TRAIN, .w1s, 0, 1, 0, none⟩,
   ⟨fun _ => F.MSS_STAT_TSTATE0, .ro, 0, 1, 0, none⟩,
   ⟨fun _ => F.MSS_STAT_TSTATE1, .ro, 0, 1, 0, none⟩,
   ⟨fun _ => F.MSS_STAT_FENCED, .ro, 0, 1, 0, none⟩,
   ⟨fun _ => F.MSS_STAT_BEHIND, .ro, 0, 1, 0, none⟩,
   ⟨fun _ => F.MSS_STAT_TRAIN_PCT, .ro, 0, 1, 0, none⟩,
   ⟨fun _ => F.MSS_ARB_W_HOST, .rw, 0, 1, 0, none⟩,
   ⟨fun _ => F.MSS_ARB_W_REMOTE, .rw, 0, 1, 0, none⟩,
   ⟨fun _ => F.MSS_ARB_W_RDX, .rw, 0, 1, 0, none⟩,
   ⟨fun n => F.MSS_SCRUB_POS_POS n, .ro, 0, 2, 4, none⟩,
   ⟨fun n => F.MSS_SCRUB_PASS_COUNT n, .ro, 0, 2, 4, none⟩,
   ⟨fun n => F.MSS_CE_COUNT_COUNT n, .rc, 0, 2, 4, none⟩,
   ⟨fun n => F.MSS_ODECC_COUNT n, .rc, 0, 2, 4, none⟩,
   ⟨fun _ => F.MSS_UE_COUNT_COUNT, .rc, 0, 1, 0, none⟩,
   ⟨fun _ => F.MSS_UE_ADDR_LO_OFFSET, .ro, 0, 1, 0, none⟩,
   ⟨fun _ => F.MSS_UE_ADDR_HI_OFFSET, .ro, 0, 1, 0, none⟩] ++
  [⟨fun _ => F.MSS_UE_ADDR_HI_SRC, .ro, 0, 1, 0, none⟩,
   ⟨fun _ => F.MSS_UE_ADDR_HI_VALID, .w1c, 0, 1, 0, none⟩]

/-- Register table rows: Rme. -/
def rowsRme : List Row :=
  [⟨fun _ => F.RME_CFG_AGE, .rw, 0, 1, 0, some (1, 65535)⟩,
   ⟨fun _ => F.RME_STAT_TAGS_USED, .ro, 0, 1, 0, none⟩,
   ⟨fun _ => F.RME_STAT_TAG_STALL, .ro, 0, 1, 0, none⟩,
   ⟨fun _ => F.RME_STAT_ROB_STALL, .ro, 0, 1, 0, none⟩,
   ⟨fun _ => F.RME_STAT_ROB_KIB, .ro, 0, 1, 0, none⟩,
   ⟨fun _ => F.RME_QUAR_TAGS, .ro, 0, 1, 0, none⟩,
   ⟨fun _ => F.RME_CONGESTED_COUNT, .rc, 0, 1, 0, none⟩,
   ⟨fun _ => F.RME_LATE_RSP_COUNT, .rc, 0, 1, 0, none⟩,
   ⟨fun _ => F.RME_NOROUTE_COUNT, .rc, 0, 1, 0, none⟩,
   ⟨fun _ => F.RME_DENIED_COUNT, .rc, 0, 1, 0, none⟩,
   ⟨fun _ => F.RME_POISON_COUNT, .rc, 0, 1, 0, none⟩,
   ⟨fun _ => F.RME_BAD_ADDR_COUNT, .rc, 0, 1, 0, none⟩,
   ⟨fun _ => F.RME_LAST_ERR_GA_GA, .ro, 0, 1, 0, none⟩,
   ⟨fun _ => F.RME_LAST_ERR_CODE, .ro, 0, 1, 0, none⟩,
   ⟨fun _ => F.RME_LAST_ERR_PART, .ro, 0, 1, 0, none⟩,
   ⟨fun n => F.RME_TAG_QUOTA_QUOTA n, .rw, 0, 65, 4, none⟩,
   ⟨fun n => F.RME_TAG_QUOTA_USED n, .ro, 0, 65, 4, none⟩,
   ⟨fun n => F.RME_ROUTE_W0_NODE n, .rw, 0, 64, 8, none⟩,
   ⟨fun n => F.RME_ROUTE_W0_VALID n, .rw, 0, 64, 8, none⟩,
   ⟨fun n => F.RME_ROUTE_W0_MASK n, .rw, 0, 64, 8, none⟩] ++
  [⟨fun n => F.RME_ROUTE_W1_CIRCUIT n, .rw, 0, 64, 8, none⟩,
   ⟨fun n => F.RME_MAP0_NODE n, .rw, 0, 64, 4, none⟩,
   ⟨fun n => F.RME_MAP0_VALID n, .rw, 0, 64, 4, none⟩,
   ⟨fun n => F.RME_MAP0_WR n, .rw, 0, 64, 4, none⟩,
   ⟨fun n => F.RME_MAP0_BASE n, .rw, 0, 64, 4, none⟩,
   ⟨fun n => F.RME_MAPV_NODE n, .rw, 0, 256, 4, none⟩,
   ⟨fun n => F.RME_MAPV_VALID n, .rw, 0, 256, 4, none⟩,
   ⟨fun n => F.RME_MAPV_WR n, .rw, 0, 256, 4, none⟩,
   ⟨fun n => F.RME_MAPV_BASE n, .rw, 0, 256, 4, none⟩]

/-- Register table rows: A. -/
def rowsA (b : Nat) : List Row :=
  [⟨fun n => F.ATM_GA_GA b n, .rw, 0, 8, 64, none⟩,
   ⟨fun n => F.ATM_OPA_OPA b n, .rw, 0, 8, 64, none⟩,
   ⟨fun n => F.ATM_OPB_OPB b n, .rw, 0, 8, 64, none⟩,
   ⟨fun n => F.ATM_CTRL_OP b n, .rw, 0, 8, 64, some (0, 2)⟩,
   ⟨fun n => F.ATM_CTRL_SIZE64 b n, .rw, 0, 8, 64, none⟩,
   ⟨fun n => F.ATM_CTRL_GO b n, .w1s, 0, 8, 64, none⟩,
   ⟨fun n => F.ATM_STAT_BUSY b n, .ro, 0, 8, 64, none⟩,
   ⟨fun n => F.ATM_STAT_STATUS b n, .ro, 0, 8, 64, none⟩,
   ⟨fun n => F.ATM_STAT_POISON b n, .ro, 0, 8, 64, none⟩,
   ⟨fun n => F.ATM_RESULT_RESULT b n, .ro, 0, 8, 64, none⟩]

/-- Register table rows: VRme. -/
def rowsVRme (b : Nat) : List Row :=
  [⟨fun _ => F.VF_RME_CONGESTED_COUNT b, .rc, 0, 1, 0, none⟩]

/-- Register table rows: Rdx. -/
def rowsRdx : List Row :=
  [⟨fun _ => F.RDX_STAT_CMDS, .ro, 0, 1, 0, none⟩,
   ⟨fun _ => F.RDX_STAT_STEPS, .ro, 0, 1, 0, none⟩,
   ⟨fun _ => F.RDX_STAT_UNEXP_FULL, .ro, 0, 1, 0, none⟩,
   ⟨fun _ => F.RDX_UNEXP_KIB, .ro, 0, 1, 0, none⟩,
   ⟨fun _ => F.RDX_SAT_COUNT, .rc, 0, 1, 0, none⟩,
   ⟨fun _ => F.RDX_OVF_COUNT, .rc, 0, 1, 0, none⟩,
   ⟨fun _ => F.RDX_NAN_COUNT, .rc, 0, 1, 0, none⟩,
   ⟨fun _ => F.RDX_BADMSG_COUNT, .rc, 0, 1, 0, none⟩,
   ⟨fun _ => F.RDX_ORPHAN_COUNT, .rc, 0, 1, 0, none⟩,
   ⟨fun _ => F.RDX_STEPS_DONE_COUNT, .rc, 0, 1, 0, none⟩]

/-- Register table rows: Psm. -/
def rowsPsm : List Row :=
  [⟨fun _ => F.PSM_CFG_LIN_AGE, .rw, 0, 1, 0, some (1, 255)⟩,
   ⟨fun _ => F.PSM_CFG_LIN_DT, .rw, 0, 1, 0, some (1, 255)⟩,
   ⟨fun n => F.PSM_STAT_STATE n, .ro, 0, 16, 16, none⟩,
   ⟨fun n => F.PSM_STAT_ROLE n, .ro, 0, 16, 16, none⟩,
   ⟨fun n => F.PSM_STAT_LINES n, .ro, 0, 16, 16, none⟩,
   ⟨fun n => F.PSM_STAT_PCT n, .ro, 0, 16, 16, none⟩,
   ⟨fun n => F.PSM_STAT_REASON n, .ro, 0, 16, 16, none⟩,
   ⟨fun n => F.PSM_OVR_COUNT n, .rc, 0, 16, 16, none⟩,
   ⟨fun n => F.PSM_TRIM_F n, .ro, 0, 16, 16, none⟩,
   ⟨fun n => F.PSM_REPAIR_COUNT n, .rc, 0, 16, 16, none⟩,
   ⟨fun n => F.PSM_ALIGN_W0_F n, .ro, 0, 128, 8, none⟩,
   ⟨fun n => F.PSM_ALIGN_W1_ATTEN n, .ro, 0, 128, 8, none⟩,
   ⟨fun n => F.PSM_ALIGN_W1_SEEN n, .ro, 0, 128, 8, none⟩]

/-- Register table rows: Sec. -/
def rowsSec : List Row :=
  [⟨fun _ => F.SEC_STAT_ROOT_LOCKED, .ro, 0, 1, 0, none⟩,
   ⟨fun _ => F.SEC_STAT_FENCE, .ro, 0, 1, 0, none⟩,
   ⟨fun _ => F.SEC_STAT_ERASE, .ro, 0, 1, 0, none⟩,
   ⟨fun _ => F.SEC_STAT_LOADED, .ro, 0, 1, 0, none⟩,
   ⟨fun _ => F.SEC_TAMPER_POL_POL, .rwl, 0, 1, 0, none⟩,
   ⟨fun _ => F.SEC_TAMPER_POL_DBG_LIMIT, .rwl, 0, 1, 0, some (1, 15)⟩,
   ⟨fun _ => F.SEC_TAMPER_STAT_ACTIVE, .ro, 0, 1, 0, none⟩,
   ⟨fun _ => F.SEC_TAMPER_STAT_LATCHED, .w1c, 0, 1, 0, none⟩,
   ⟨fun _ => F.SEC_CTRL_UNFENCE, .w1s, 0, 1, 0, none⟩,
   ⟨fun _ => F.SEC_TAMPER_CNT_COUNT, .rc, 0, 1, 0, none⟩,
   ⟨fun _ => F.SEC_DBG_FAILS_COUNT, .ro, 0, 1, 0, none⟩,
   ⟨fun _ => F.SEC_ERASE_TIME_TIME, .ro, 0, 1, 0, none⟩,
   ⟨fun _ => F.SEC_TKO_SKIPPED_COUNT, .rc, 0, 1, 0, none⟩,
   ⟨fun n => F.SEC_KEYRANGE_BASE n, .rwl, 1, 64, 4, some (0, 1023)⟩,
   ⟨fun n => F.SEC_KEYRANGE_COUNT n, .rwl, 1, 64, 4, some (0, 1024)⟩,
   ⟨fun n => F.SEC_WIN_W0_SRC_NODE n, .rwl, 0, 128, 16, none⟩,
   ⟨fun n => F.SEC_WIN_W0_VALID n, .rwl, 0, 128, 16, none⟩,
   ⟨fun n => F.SEC_WIN_W0_SRC_MASK n, .rwl, 0, 128, 16, none⟩,
   ⟨fun n => F.SEC_WIN_W1_REQ_PART n, .rwl, 0, 128, 16, none⟩,
   ⟨fun n => F.SEC_WIN_W1_OWNER n, .rwl, 0, 128, 16, none⟩] ++
  [⟨fun n => F.SEC_WIN_W1_WR n, .rwl, 0, 128, 16, none⟩,
   ⟨fun n => F.SEC_WIN_W2_BASE n, .rwl, 0, 128, 16, none⟩,
   ⟨fun n => F.SEC_WIN_W2_LIMIT n, .rwl, 0, 128, 16, none⟩]

/-- Register table rows: Cpm. -/
def rowsCpm : List Row :=
  [⟨fun _ => F.CPM_CLK_STAT_ROOT_LOCK, .ro, 0, 1, 0, none⟩,
   ⟨fun _ => F.CPM_CLK_STAT_LANE_LOCK, .ro, 0, 1, 0, none⟩,
   ⟨fun _ => F.CPM_CLK_STAT_REFCLK_INV, .ro, 0, 1, 0, none⟩,
   ⟨fun _ => F.CPM_CLK_STAT_REFCLK_CHANGED, .ro, 0, 1, 0, none⟩,
   ⟨fun _ => F.CPM_CLK_STAT_BYPASS, .ro, 0, 1, 0, none⟩,
   ⟨fun _ => F.CPM_CTRL_REFCLK_CONFIRM, .w1s, 0, 1, 0, none⟩,
   ⟨fun _ => F.CPM_CTRL_PAD_RELEASE, .w1s, 0, 1, 0, none⟩,
   ⟨fun _ => F.CPM_CTRL_EST_CLEAR, .w1s, 0, 1, 0, none⟩,
   ⟨fun _ => F.CPM_OP_TARGET, .rw, 0, 1, 0, none⟩,
   ⟨fun _ => F.CPM_OP_CUR, .ro, 0, 1, 0, none⟩,
   ⟨fun _ => F.CPM_OP_BUSY, .ro, 0, 1, 0, none⟩,
   ⟨fun _ => F.CPM_OP_OP_FAIL, .w1c, 0, 1, 0, none⟩,
   ⟨fun _ => F.CPM_OP_OPSTATE, .ro, 0, 1, 0, none⟩,
   ⟨fun _ => F.CPM_PMB_CFG_ADDR, .rwl, 0, 1, 0, none⟩,
   ⟨fun _ => F.CPM_PMB_CFG_PEC, .rwl, 0, 1, 0, none⟩,
   ⟨fun _ => F.CPM_PMB_CFG_VOUT_EXP, .ro, 0, 1, 0, none⟩,
   ⟨fun _ => F.CPM_PMB_CFG_PMB_OK, .ro, 0, 1, 0, none⟩,
   ⟨fun _ => F.CPM_VOUT_CMD_MV, .ro, 0, 1, 0, none⟩,
   ⟨fun _ => F.CPM_VOUT_READ_MV, .ro, 0, 1, 0, none⟩,
   ⟨fun _ => F.CPM_PWR_MODE_ENGINE_OFF, .rw, 0, 1, 0, none⟩] ++
  [⟨fun _ => F.CPM_PWR_MODE_LANE_OFF, .rw, 0, 1, 0, none⟩,
   ⟨fun _ => F.CPM_PWR_MODE_MEM, .rw, 0, 1, 0, some (0, 2)⟩,
   ⟨fun _ => F.CPM_PWR_MODE_RING_OFF, .rw, 0, 1, 0, none⟩,
   ⟨fun _ => F.CPM_PWR_MODE_HOST_OFF, .rw, 0, 1, 0, none⟩,
   ⟨fun _ => F.CPM_PWR_MODE_DROP_THROUGH, .rw, 0, 1, 0, none⟩,
   ⟨fun _ => F.CPM_WAKE_EN_HOST, .rw, 0, 1, 0, none⟩,
   ⟨fun _ => F.CPM_WAKE_EN_LINK_DATA, .rw, 0, 1, 0, none⟩,
   ⟨fun _ => F.CPM_WAKE_EN_OPT, .rw, 0, 1, 0, none⟩,
   ⟨fun _ => F.CPM_WAKE_EN_TIMER, .rw, 0, 1, 0, none⟩,
   ⟨fun _ => F.CPM_WAKE_PORTS_PORTS, .rw, 0, 1, 0, none⟩,
   ⟨fun _ => F.CPM_WAKE_TIMER_MS, .rw, 0, 1, 0, none⟩,
   ⟨fun _ => F.CPM_PWR_STAT_DOM_ON, .ro, 0, 1, 0, none⟩,
   ⟨fun _ => F.CPM_PWR_STAT_MEM_SR, .ro, 0, 1, 0, none⟩,
   ⟨fun _ => F.CPM_PWR_STAT_PSTATE, .ro, 0, 1, 0, none⟩,
   ⟨fun _ => F.CPM_PWR_STAT_HOST_KEPT, .w1c, 0, 1, 0, none⟩,
   ⟨fun _ => F.CPM_PWR_STAT_WAKE_SRC, .ro, 0, 1, 0, none⟩,
   ⟨fun _ => F.CPM_PWR_STAT_WAKE_PORT, .ro, 0, 1, 0, none⟩,
   ⟨fun _ => F.CPM_PAD_HOLD_HELD, .ro, 0, 1, 0, none⟩,
   ⟨fun _ => F.CPM_SLEEP_CFG_DRAIN_MAX, .rw, 0, 1, 0, none⟩,
   ⟨fun _ => F.CPM_SLEEP_CFG_LINK_WAIT, .rw, 0, 1, 0, none⟩] ++
  [⟨fun _ => F.CPM_SLEEPS_COUNT, .rc, 0, 1, 0, none⟩,
   ⟨fun _ => F.CPM_SLEEP_TICKS_C, .ro, 0, 1, 0, none⟩,
   ⟨fun _ => F.CPM_AON_TRIM_K, .ro, 0, 1, 0, none⟩,
   ⟨fun _ => F.CPM_TIME_TIME, .ro, 0, 1, 0, none⟩,
   ⟨fun _ => F.CPM_TIME_SET_TIME, .wo, 0, 1, 0, none⟩,
   ⟨fun _ => F.CPM_TIME_STAT_TIME_STATE, .ro, 0, 1, 0, none⟩,
   ⟨fun _ => F.CPM_TIME_UNCERT_TIME_UNCERT_NS, .ro, 0, 1, 0, none⟩,
   ⟨fun _ => F.CPM_RST_CTRL_KEY, .wo, 0, 1, 0, none⟩,
   ⟨fun _ => F.CPM_RST_CAUSE_POR, .w1c, 0, 1, 0, none⟩,
   ⟨fun _ => F.CPM_RST_CAUSE_PERST, .w1c, 0, 1, 0, none⟩,
   ⟨fun _ => F.CPM_RST_CAUSE_FATAL, .w1c, 0, 1, 0, none⟩,
   ⟨fun _ => F.CPM_RST_CAUSE_SOFTWARE, .w1c, 0, 1, 0, none⟩,
   ⟨fun _ => F.CPM_BOOT_STAGE, .ro, 0, 1, 0, none⟩,
   ⟨fun _ => F.CPM_BOOT_CHIP_RESETS, .ro, 0, 1, 0, none⟩]

/-- Register table rows: Fcu. -/
def rowsFcu : List Row :=
  [⟨fun _ => F.FCU_STAT_ANY, .ro, 0, 1, 0, none⟩,
   ⟨fun _ => F.FCU_STAT_HIGHEST, .ro, 0, 1, 0, none⟩,
   ⟨fun _ => F.FCU_STAT_ERRN, .ro, 0, 1, 0, none⟩,
   ⟨fun _ => F.FCU_STAT_TERMINAL, .ro, 0, 1, 0, none⟩,
   ⟨fun _ => F.FCU_CTRL_DRY, .rw, 0, 1, 0, none⟩,
   ⟨fun n => F.FCU_PEND_VALID n, .ro, 0, 4, 4, none⟩,
   ⟨fun _ => F.FCU_FENCE_PORTS, .ro, 0, 1, 0, none⟩,
   ⟨fun _ => F.FCU_FENCE_STACKS, .ro, 0, 1, 0, none⟩,
   ⟨fun n => F.FCU_FENCE_PART_PARTS n, .ro, 0, 2, 4, none⟩,
   ⟨fun _ => F.FCU_FENCE_SET_KIND, .wo, 0, 1, 0, none⟩,
   ⟨fun _ => F.FCU_FENCE_SET_VALUE, .wo, 0, 1, 0, none⟩,
   ⟨fun _ => F.FCU_UNFENCE_KIND, .wo, 0, 1, 0, none⟩,
   ⟨fun _ => F.FCU_UNFENCE_VALUE, .wo, 0, 1, 0, none⟩,
   ⟨fun _ => F.FCU_RAIL_INJ_SRC, .wo, 0, 1, 0, none⟩,
   ⟨fun _ => F.FCU_RAIL_INJ_PAT, .wo, 0, 1, 0, none⟩,
   ⟨fun _ => F.FCU_PRIOR_SRC, .ro, 0, 1, 0, none⟩,
   ⟨fun _ => F.FCU_PRIOR_CLASS, .ro, 0, 1, 0, none⟩,
   ⟨fun _ => F.FCU_PRIOR_RAIL, .ro, 0, 1, 0, none⟩,
   ⟨fun _ => F.FCU_PRIOR_INJ, .ro, 0, 1, 0, none⟩,
   ⟨fun _ => F.FCU_PRIOR_VALID, .w1c, 0, 1, 0, none⟩] ++
  [⟨fun _ => F.FCU_PRIOR_TIME_TIME, .ro, 0, 1, 0, none⟩,
   ⟨fun _ => F.FCU_TERM_LATCHED, .ro, 0, 1, 0, none⟩,
   ⟨fun _ => F.FCU_TERM_SRC, .ro, 0, 1, 0, none⟩,
   ⟨fun _ => F.FCU_TERM_RAIL, .ro, 0, 1, 0, none⟩,
   ⟨fun n => F.FCU_POL_INT n, .rwl, 0, 128, 4, none⟩,
   ⟨fun n => F.FCU_POL_NMA n, .rwl, 0, 128, 4, none⟩,
   ⟨fun n => F.FCU_POL_ERRN n, .rwl, 0, 128, 4, none⟩,
   ⟨fun n => F.FCU_POL_FENCE n, .rwl, 0, 128, 4, none⟩,
   ⟨fun n => F.FCU_POL_SHUT n, .rwl, 0, 128, 4, none⟩,
   ⟨fun n => F.FCU_POL_BRST n, .rwl, 0, 128, 4, none⟩,
   ⟨fun n => F.FCU_POL_ESC n, .rwl, 0, 128, 4, none⟩,
   ⟨fun n => F.FCU_REC_W0_VALID n, .w1c, 0, 128, 16, none⟩,
   ⟨fun n => F.FCU_REC_W0_CLASS n, .ro, 0, 128, 16, none⟩,
   ⟨fun n => F.FCU_REC_W0_RAIL n, .ro, 0, 128, 16, none⟩,
   ⟨fun n => F.FCU_REC_W0_INJ n, .ro, 0, 128, 16, none⟩,
   ⟨fun n => F.FCU_REC_W0_MULTI n, .ro, 0, 128, 16, none⟩,
   ⟨fun n => F.FCU_REC_W0_ESC_HIT n, .ro, 0, 128, 16, none⟩,
   ⟨fun n => F.FCU_REC_W0_COUNT n, .ro, 0, 128, 16, none⟩,
   ⟨fun n => F.FCU_REC_W1_SCOPE_KIND n, .ro, 0, 128, 16, none⟩,
   ⟨fun n => F.FCU_REC_W1_SCOPE n, .ro, 0, 128, 16, none⟩] ++
  [⟨fun n => F.FCU_REC_W1_CODE n, .ro, 0, 128, 16, none⟩,
   ⟨fun n => F.FCU_REC_FIRST_TIME n, .ro, 0, 128, 16, none⟩]

/-- Register table rows: Evr. -/
def rowsEvr : List Row :=
  [⟨fun _ => F.EVR_CFG_PUB_SEV, .rw, 0, 1, 0, none⟩,
   ⟨fun _ => F.EVR_CFG_PUB_EN, .rw, 0, 1, 0, none⟩,
   ⟨fun _ => F.EVR_CFG_NEW_SEV, .rw, 0, 1, 0, none⟩,
   ⟨fun _ => F.EVR_CTRL_CLEAR, .w1s, 0, 1, 0, none⟩,
   ⟨fun _ => F.EVR_STAT_COUNT, .ro, 0, 1, 0, none⟩,
   ⟨fun _ => F.EVR_STAT_FULL, .ro, 0, 1, 0, none⟩,
   ⟨fun _ => F.EVR_STAT_STAGED, .ro, 0, 1, 0, none⟩,
   ⟨fun _ => F.EVR_SEQ_NEXT, .ro, 0, 1, 0, none⟩,
   ⟨fun _ => F.EVR_OLDEST_SEQ, .ro, 0, 1, 0, none⟩,
   ⟨fun _ => F.EVR_DROPPED_COUNT, .rc, 0, 1, 0, none⟩,
   ⟨fun _ => F.EVR_MISSED_COUNT, .rc, 0, 1, 0, none⟩,
   ⟨fun _ => F.EVR_CURSOR_CURSOR, .rw, 0, 1, 0, none⟩]

/-- Register table rows: Sta. -/
def rowsSta : List Row :=
  [⟨fun _ => F.STA_CFG_LEN, .rw, 0, 1, 0, some (1, 60000000)⟩,
   ⟨fun _ => F.STA_PERIOD_PERIOD, .ro, 0, 1, 0, none⟩,
   ⟨fun _ => F.STA_START_TIME, .ro, 0, 1, 0, none⟩,
   ⟨fun _ => F.STA_FLAGS_FLAGS, .ro, 0, 1, 0, none⟩,
   ⟨fun _ => F.STA_SNAP_PERIOD_PERIOD, .ro, 0, 1, 0, none⟩,
   ⟨fun _ => F.STA_SNAP_START_TIME, .ro, 0, 1, 0, none⟩,
   ⟨fun _ => F.STA_SNAP_END_TIME, .ro, 0, 1, 0, none⟩,
   ⟨fun _ => F.STA_SNAP_FLAGS_FLAGS, .ro, 0, 1, 0, none⟩,
   ⟨fun n => F.STA_LIVE_COUNT n, .ro, 0, 32, 8, none⟩,
   ⟨fun n => F.STA_SNAP_COUNT n, .ro, 0, 32, 8, none⟩,
   ⟨fun _ => F.STA_PART_SEL_PART, .rw, 0, 1, 0, some (1, 64)⟩,
   ⟨fun n => F.STA_PART_LIVE_COUNT n, .ro, 0, 8, 8, none⟩,
   ⟨fun n => F.STA_PART_SNAP_COUNT n, .ro, 0, 8, 8, none⟩]

/-- Register table rows: Env. -/
def rowsEnv : List Row :=
  [⟨fun _ => F.ENV_CFG_TEMP_HI, .rw, 0, 1, 0, none⟩,
   ⟨fun _ => F.ENV_CFG_TEMP_LO, .rw, 0, 1, 0, none⟩,
   ⟨fun _ => F.ENV_TEMP_STAT_COUNT, .ro, 0, 1, 0, none⟩,
   ⟨fun _ => F.ENV_TEMP_STAT_FIRST, .ro, 0, 1, 0, none⟩,
   ⟨fun _ => F.ENV_DIE_MAX_TEMP, .ro, 0, 1, 0, none⟩,
   ⟨fun _ => F.ENV_DIE_MAX_SENSOR, .ro, 0, 1, 0, none⟩,
   ⟨fun _ => F.ENV_HTR_STAT_RING, .ro, 0, 1, 0, none⟩,
   ⟨fun _ => F.ENV_HTR_STAT_KIND, .ro, 0, 1, 0, none⟩,
   ⟨fun _ => F.ENV_HTR_FAULTS_COUNT, .rc, 0, 1, 0, none⟩,
   ⟨fun n => F.ENV_DIE_TEMP_TEMP n, .ro, 0, 64, 4, none⟩,
   ⟨fun n => F.ENV_DIE_TEMP_VALID n, .ro, 0, 64, 4, none⟩,
   ⟨fun n => F.ENV_DIE_TEMP_HI n, .ro, 0, 64, 4, none⟩,
   ⟨fun n => F.ENV_DIE_TEMP_LO n, .ro, 0, 64, 4, none⟩,
   ⟨fun n => F.ENV_EXT_CFG0_MODE n, .rw, 0, 4, 32, none⟩,
   ⟨fun n => F.ENV_EXT_CFG0_EXC n, .rw, 0, 4, 32, some (0, 2)⟩,
   ⟨fun n => F.ENV_EXT_CFG0_ELEM n, .rw, 0, 4, 32, none⟩,
   ⟨fun n => F.ENV_EXT_CFG1_BETA n, .rw, 0, 4, 32, none⟩,
   ⟨fun n => F.ENV_EXT_CFG1_R25 n, .rw, 0, 4, 32, none⟩,
   ⟨fun n => F.ENV_EXT_CFG2_LEAD n, .rw, 0, 4, 32, none⟩,
   ⟨fun n => F.ENV_EXT_RAW_CODE n, .ro, 0, 4, 32, none⟩] ++
  [⟨fun n => F.ENV_EXT_RAW_OPEN n, .ro, 0, 4, 32, none⟩,
   ⟨fun n => F.ENV_EXT_RAW_REVERSED n, .ro, 0, 4, 32, none⟩,
   ⟨fun n => F.ENV_EXT_RAW_RANGE n, .ro, 0, 4, 32, none⟩,
   ⟨fun n => F.ENV_EXT_RAW_VALID n, .ro, 0, 4, 32, none⟩,
   ⟨fun n => F.ENV_EXT_RAW_WIRE n, .ro, 0, 4, 32, none⟩,
   ⟨fun n => F.ENV_EXT_TEMP_TEMP n, .ro, 0, 4, 32, none⟩,
   ⟨fun n => F.ENV_EXT_TEMP_VALID n, .ro, 0, 4, 32, none⟩,
   ⟨fun n => F.ENV_EXT_CONV_COUNT n, .rc, 0, 4, 32, none⟩,
   ⟨fun n => F.ENV_SUP_MV n, .ro, 0, 7, 4, none⟩,
   ⟨fun n => F.ENV_SUP_LOW n, .ro, 0, 7, 4, none⟩,
   ⟨fun n => F.ENV_SUP_HIGH n, .ro, 0, 7, 4, none⟩,
   ⟨fun n => F.ENV_SUP_VALID n, .ro, 0, 7, 4, none⟩]

/-- Register table rows: Dbg. -/
def rowsDbg : List Row :=
  [⟨fun _ => F.DBG_STAT_UNLOCKED, .ro, 0, 1, 0, none⟩,
   ⟨fun _ => F.DBG_STAT_CHAL_VALID, .ro, 0, 1, 0, none⟩,
   ⟨fun _ => F.DBG_STAT_HOLDOFF, .ro, 0, 1, 0, none⟩,
   ⟨fun _ => F.DBG_CTRL_RELOCK, .w1s, 0, 1, 0, none⟩,
   ⟨fun _ => F.DBG_FREEZE_ALL, .rw, 0, 1, 0, none⟩,
   ⟨fun _ => F.DBG_FREEZE_FORCE, .w1s, 0, 1, 0, none⟩,
   ⟨fun _ => F.DBG_FREEZE_STAT_FROZEN, .ro, 0, 1, 0, none⟩,
   ⟨fun _ => F.DBG_FREEZE_STAT_SEQ_BROKEN, .w1c, 0, 1, 0, none⟩,
   ⟨fun _ => F.DBG_PEND_PEND, .ro, 0, 1, 0, none⟩,
   ⟨fun _ => F.DBG_BROKEN_BROKEN, .w1c, 0, 1, 0, none⟩]

/-- The table-window pages (R25). -/
def isWinPage (pg : Nat) : Bool := decide (0x40 ≤ pg ∧ pg ≤ 0x44)

/-- The implemented PF0 pages (R25). -/
def implPage (pg : Nat) : Bool := decide (pg ≤ 0x23) || isWinPage pg

/-- The block-specific rows of a PF0 page (R25). The window pages' registers are held per requester (R47). -/
def blockRows (pg : Nat) : List Row :=
  if 0x10 ≤ pg ∧ pg ≤ 0x1F then rowsPort (pg - 0x10)
  else match pg with
  | 0x00 => rowsGlb | 0x01 => rowsCpm | 0x02 => rowsHif | 0x03 => rowsQ 0x3000 ++ rowsQue | 0x04 => rowsPfe | 0x05 => rowsRcu
  | 0x06 => rowsLnk | 0x07 => rowsCsq | 0x08 => rowsTwn | 0x09 => rowsJnl | 0x0A => rowsMss | 0x0B => rowsRme ++ rowsA 0xB000
  | 0x0C => rowsRdx | 0x0D => rowsSec | 0x0E => rowsFcu | 0x0F => rowsEvr | 0x20 => rowsSta | 0x21 => rowsEnv | 0x22 => rowsDbg
  | 0x23 => rowsPsm | _ => []

end Sys2Proof.Machine
end

