-- ==== Sys2Proof/Machine/Ops.lean ====
section
/-! DEFINITION. The operations every block shares: register fields, free values, host accesses and vectors, interrupt causes, fault onsets,
statistics counters, and the life of a command in flight. -/

namespace Sys2Proof.Machine

/-! ## Register fields -/

/-- The key of a field in State.regs. -/
def Fld.key (f : Fld) : Nat := f.addr * 32 + f.lo

/-- The value of a register field, no wider than the field. -/
def State.rd (s : State) (f : Fld) : Nat := Tbl.get f.reset s.regs f.key % 2 ^ f.width

/-- The state with a register field at v. -/
def State.wr (s : State) (f : Fld) (v : Nat) : State := { s with regs := Tbl.set f.reset s.regs f.key (v % 2 ^ f.width) }

/-- A field read as a truth value. -/
def State.on (s : State) (f : Fld) : Bool := s.rd f != 0

/-- A counter field raised by n, stopping at all ones (R35). -/
def State.inc (s : State) (f : Fld) (n : Nat := 1) : State := s.wr f (min (s.rd f + n) (2 ^ f.width - 1))

/-- Fields written one after the other. -/
def State.wrs (s : State) (l : List (Fld × Nat)) : State := l.foldl (fun s x => s.wr x.1 x.2) s

/-- Fields returned to their reset values. -/
def State.clr (s : State) (l : List Fld) : State := l.foldl (fun s f => s.wr f f.reset) s

/-- The next free value (DESIGN CHOICE: log entry 5), and the state in which it is taken. -/
def State.free (s : State) : BitVec 128 × State := (Config.freeValue s.freeCtr, { s with freeCtr := s.freeCtr + 1 })

/-! ## Deficit round robin (R82, R83) -/

/-- The partition whose turn it is, and the round robin after it has taken what it needs: w gives each partition's quantum, need what the next item of
a waiting partition costs. A visit adds the quantum once; a partition that waits for nothing keeps no deficit. -/
def Drr.pick (w : Nat → Nat) (need : Nat → Option Nat) (d : Drr) : Nat → Option (Nat × Drr)
  | 0 => none
  | k + 1 =>
    let p := d.visit
    let next := if 64 ≤ p then 1 else p + 1
    match need p with
    | none => Drr.pick w need { visit := next, inVisit := false, deficit := Tbl.set 0 d.deficit p 0 } k
    | some n =>
      let x := Tbl.get 0 d.deficit p + (if d.inVisit then 0 else w p)
      if n ≤ x then some (p, { d with inVisit := true, deficit := Tbl.set 0 d.deficit p (x - n) })
      else Drr.pick w need { visit := next, inVisit := false, deficit := Tbl.set 0 d.deficit p x } k

/-- PF0 first, else the partition whose turn it is (R83, R273, R275, R290). -/
def Drr.choose (w : Nat → Nat) (need : Nat → Option Nat) (d : Drr) : Option (Nat × Drr) :=
  if (need 0).isSome then some (0, d)
  else if (upTo 64).all (fun i => (need (i + 1)).isNone) then none
  else d.pick w need 2048

/-- QUE_WEIGHT of a partition, in every use but fetch: 0 counts as 1 (R83). -/
def State.weight (s : State) (q : Nat) : Nat := max 1 (s.rd (F.QUE_WEIGHT_WEIGHT q))

/-! ## Pages (R24 to R27) -/

/-- Base of page pg of function f: PF0 page pg, or VF page pg (R24, R26). -/
def pageBase (f pg : Nat) : Nat := if f = 0 then 0x1000 * pg else 0x100000 + 0x10000 * (f - 1) + 0x1000 * pg


/-- A power domain is on (R336); 0 AON, 1 HOST, 2 RING, 3 LANE, 4 MEM, 5 ENGINE. -/
def State.domOn (s : State) (d : Nat) : Bool := bitOf (s.rd F.CPM_PWR_STAT_DOM_ON) d

/-- PAGE_CTRL.EN of a PF0 page, with the HOST domain on (R336). -/
def State.en (s : State) (pg : Nat) : Bool := s.on (F.PAGE_CTRL_EN (0x1000 * pg)) && s.domOn 1

/-- PAGE_STAT.FROZEN of a PF0 page (R445). -/
def State.frozen (s : State) (pg : Nat) : Bool := s.on (F.PAGE_STAT_FROZEN (0x1000 * pg))

/-- The power domain that holds a page's block (R336). -/
def pageDom (pg : Nat) : Nat :=
  match pg with
  | 0x04 | 0x05 | 0x23 => 2
  | 0x06 => 3
  | 0x0A => 4
  | 0x0B | 0x0C => 5
  | _ => 1

/-- Enabled, with its domain on: the page's block takes commands (R338, R425). -/
def State.runs (s : State) (pg : Nat) : Bool := s.en pg && s.domOn (pageDom pg)

/-- Enabled, powered and not frozen: the page's sequencers run. -/
def State.live (s : State) (pg : Nat) : Bool := s.runs pg && !s.frozen pg

/-! ## Functions, vectors and host accesses (R62, R65 to R70, R471) -/

/-- Configuration-space state of function f. -/
def State.hostFn (s : State) (f : Nat) : HostFn := Tbl.get {} s.host.fns f

/-- The state with function f's configuration-space state set. -/
def State.setHostFn (s : State) (f : Nat) (h : HostFn) : State := { s with host := { s.host with fns := Tbl.set {} s.host.fns f h } }

/-- Partition n exists (R62); 0 is the device. -/
def State.partExists (s : State) (n : Nat) : Bool := decide (1 ≤ n ∧ n ≤ s.rd F.HIF_VF_STAT_NUM_VFS) && s.on F.HIF_VF_STAT_VF_EN

/-- Function f exists. -/
def State.fnExists (s : State) (f : Nat) : Bool := f == 0 || s.partExists f

/-- Function f is in D0 (R55, R57); a VF is no higher than PF0 (PRESUMED: log entry 88). -/
def State.inD0 (s : State) (f : Nat) : Bool := !(s.hostFn f).d3 && !(s.hostFn 0).d3

/-- A host access of function f can be made: HOST is on, the link is up and Bus Master Enable is 1 (R336, R471), and the function is in D0 (PRESUMED:
log entry 88). -/
def State.canHost (s : State) (f : Nat) : Bool := s.on F.HIF_LINK_STAT_UP && s.domOn 1 && (s.hostFn f).bme && s.inD0 f

/-- Send an output. -/
def State.send (s : State) (o : Output) : State := { s with out := s.out ++ [o] }

/-- Bytes of host memory that an access reads; 0 for a write. -/
def Output.readBytes : Output → Nat
  | .fetchRead _ _ n => 64 * n
  | .hostRead _ _ _ n => n
  | _ => 0

/-- Non-posted requests that an access takes: reads of at most the maximum read request size (R55). -/
def State.nonPosted (s : State) (o : Output) : Nat := (o.readBytes + 128 * 2 ^ (s.hostFn 0).mrrs - 1) / (128 * 2 ^ (s.hostFn 0).mrrs)

/-- An access of function f can be made now: at most 768 non-posted requests are outstanding (R55, R471). -/
def State.canMake (s : State) (f : Nat) (o : Output) : Bool :=
  s.canHost f && (o.readBytes == 0 || decide ((s.host.reads.map (fun x => s.nonPosted x.2)).sum + s.nonPosted o ≤ 768))

/-- An access is made; a read is outstanding until it returns. -/
def State.makeAcc (s : State) (f : Fn) (o : Output) : State :=
  let s := s.send o
  if o.readBytes = 0 then s else { s with host := { s.host with reads := s.host.reads ++ [(f, o)] } }

/-- Make a host access, or let it wait (R55, R471). -/
def State.hostAcc (s : State) (f : Fn) (o : Output) : State :=
  if s.canMake f.val o then s.makeAcc f o else { s with host := { s.host with waiting := s.host.waiting ++ [.acc f o] } }

/-- The bytes of a list in pieces of n; k bounds their number. -/
def pieces {α : Type} (n : Nat) : Nat → List α → List (List α)
  | 0, _ => []
  | k + 1, l => if l = [] then [] else l.take n :: pieces n k (l.drop n)

/-- Write bytes to host memory in writes of at most the maximum payload size (R55, R471). -/
def State.hostWriteAt (s : State) (f : Fn) (addr : Nat) (bytes : List Byte) (pois : Bool) : State :=
  let n := 128 * 2 ^ (s.hostFn 0).mps
  ((pieces n bytes.length bytes).foldl (fun (x : State × Nat) l =>
    (x.1.hostAcc f (.hostWrite f (BitVec.ofNat 64 x.2) l pois), x.2 + l.length)) (s, addr)).1

/-- The number of vectors of a function (R55). -/
def vecCount (f : Nat) : Nat := if f = 0 then 64 else 31

/-- Vector v of function f can be sent: link, Bus Master Enable, MSI-X Enable, Function Mask and the vector's mask (R471). -/
def State.canVector (s : State) (f v : Nat) : Bool :=
  s.canHost f && (s.hostFn f).msix && !(s.hostFn f).fmask && (s.hostFn f).unmasked.contains v

/-- Address and data of vector v in function f's MSI-X table (R61). -/
def State.vecMsg (s : State) (f v : Nat) : DWord × Word :=
  let w (k : Nat) : Nat := Tbl.get 0 (s.hostFn f).table (4 * v + k)
  (BitVec.ofNat 64 (w 0 + w 1 * 2 ^ 32), BitVec.ofNat 32 (w 2))

/-- Send vector v of function f: a memory write by its entry in the MSI-X table (R61, R69). -/
def State.sendVector (s : State) (f : Fn) (v : Nat) : State := s.send (.vector f v (s.vecMsg f.val v).1 (s.vecMsg f.val v).2)

/-- Signal vector v of function f: sent, or its Pending Bit Array bit set (R471). -/
def State.vector (s : State) (f : Fn) (v : Nat) : State :=
  if s.canVector f.val v then s.sendVector f v
  else
    let h := s.hostFn f.val
    if h.pba.contains v then s else s.setHostFn f.val { h with pba := h.pba ++ [v] }

/-- The field of HIF_NMA_PEND that holds function f's bit, and the bit. -/
def nmaFld (f : Nat) : Fld × Nat :=
  if f < 32 then (F.HIF_NMA_PEND0_PEND, f) else if f < 64 then (F.HIF_NMA_PEND1_PEND, f - 32) else (F.HIF_NMA_PEND2_PEND, 0)

/-- A bit of a field set or cleared. -/
def State.setBit (s : State) (f : Fld) (i : Nat) (on : Bool := true) : State :=
  s.wr f (if on then s.rd f ||| 2 ^ i else (s.rd f ||| 2 ^ i) - 2 ^ i)

/-- Vector 0 of function f is sent, whatever its masks: on the -C form as a sideband message, on the others as a memory write (R68, R69). -/
def State.sendAlert (s : State) (f : Fn) : State :=
  (s.send (.alert f (if s.rd F.GLB_FORM_FORM = 0 then none else some (s.vecMsg f.val 0)))).inc F.HIF_NMA_COUNT_COUNT

/-- A non-maskable alert for function f: sent at once, or held (R68, R70). An alert for a partition whose VF does not exist sets its bit in HIF_NMA_PEND
as for a function whose enables are 0, and goes out once such a VF exists and is enabled (R68 does not speak of it; DESIGN CHOICE: log entry 89). -/
def State.alert (s : State) (f : Fn) : State :=
  if s.canHost f.val && (s.hostFn f.val).msix then s.sendAlert f
  else s.setBit (nmaFld f.val).1 (nmaFld f.val).2

/-- Function f's held alert, sent once it can be (R70). -/
def State.alertHeld (s : State) (f : Fn) : State :=
  if bitOf (s.rd (nmaFld f.val).1) (nmaFld f.val).2 && s.canHost f.val && (s.hostFn f.val).msix then
    (s.setBit (nmaFld f.val).1 (nmaFld f.val).2 false).sendAlert f
  else s

/-! ## Interrupt causes (R48, R67) -/

/-- INT_CAUSE & ~INT_MASK of the page at base b. -/
def State.intPend (s : State) (b : Nat) : Nat := s.rd (F.INT_CAUSE_CAUSE b) &&& ((2 ^ 32 - 1) - s.rd (F.INT_MASK_MASK b))

/-- Change the interrupt registers of function f's page pg by g, and signal the page's vector on the edge of R67. Pages 0x24 and above have
no vector (R65). -/
def State.intEdge (s : State) (f : Fn) (pg : Nat) (g : State → State) : State :=
  let b := pageBase f.val pg
  let s' := g s
  if s.intPend b = 0 ∧ s'.intPend b ≠ 0 ∧ pg < 0x24 then s'.vector f (2 + pg) else s'

/-- Set bit i of INT_CAUSE of function f's page pg. -/
def State.cause (s : State) (f : Fn) (pg i : Nat) : State :=
  s.intEdge f pg (fun s => s.setBit (F.INT_CAUSE_CAUSE (pageBase f.val pg)) i)

/-- Set bit i of INT_CAUSE of PF0 page pg. -/
def State.cause0 (s : State) (pg i : Nat) : State := s.cause 0 pg i

/-- A register access error (R28, R30, R32, R33, R42): the flag, where it happened, and ACCESS (R51). src: 0 PF0, 1 a VF, 2 the debug
aperture. -/
def State.accErr (s : State) (flag : Fld) (src page off : Nat) : State :=
  ((((s.wr flag 1).wr F.GLB_ACCESS_ERR_LAST_PAGE page).wr F.GLB_ACCESS_ERR_LAST_OFFSET off).wr F.GLB_ACCESS_ERR_LAST_SRC src).cause0 0 0

/-! ## Fault onsets (R360, R382) -/

/-- The page and ERR bit of a fault source (R376, R382); scope is the port of a PORT-page source, code the page of an SRAM source. -/
def srcBit (src scope code : Nat) : Option (Nat × Nat) :=
  match src with
  | 0 => some (0x0E, 0) | 1 => some (0x0D, 0) | 2 => some (0x04, 0) | 3 => some (0x01, 0)
  | 4 => some (code, 31) | 5 => some (code, 30) | 6 => some (code, 29)
  | 7 => some (0x01, 1) | 8 => some (0x01, 2) | 9 => some (0x01, 3) | 10 => some (0x01, 4) | 11 => some (0x02, 0) | 12 => some (0x03, 0)
  | 13 => some (0x04, 1) | 14 => some (0x04, 2) | 15 => some (0x04, 3) | 16 => some (0x04, 4) | 17 => some (0x04, 5)
  | 18 => some (0x04, 6) | 19 => some (0x05, 0) | 20 => some (0x05, 1) | 21 => some (0x05, 2) | 22 => some (0x05, 3)
  | 23 => some (0x05, 4) | 24 => if scope < 16 then some (0x10 + scope, 0) else none
  | 25 => if scope < 16 then some (0x10 + scope, 1) else none | 26 => if scope < 16 then some (0x10 + scope, 2) else none
  | 27 => some (0x07, 0) | 28 => some (0x07, 1) | 29 => some (0x07, 2) | 30 => some (0x07, 3) | 31 => some (0x07, 4)
  | 32 => some (0x08, 0) | 33 => some (0x09, 0) | 34 => some (0x09, 1) | 35 => some (0x09, 2)
  | 36 => some (0x0A, 0) | 37 => some (0x0A, 1) | 38 => some (0x0A, 2) | 39 => some (0x0A, 3) | 40 => some (0x0B, 0)
  | 41 => some (0x0B, 1) | 42 => some (0x0C, 0) | 43 => some (0x0C, 1) | 44 => some (0x23, 0)
  | 45 => some (0x0D, 1) | 46 => some (0x0D, 2) | 47 => some (0x0D, 3) | 48 => some (0x0D, 4) | 49 => some (0x0D, 5)
  | 50 => some (0x21, 0) | 51 => some (0x21, 1) | 52 => some (0x21, 2) | 53 => some (0x21, 3)
  | _ => none

/-- The power domain of a source (R336, R360): that of its page's block, LANE for LNK's sources of a port group or a port. -/
def srcDom (src scope code : Nat) : Nat :=
  if src ∈ [7, 24, 25, 26] then 3 else pageDom (((srcBit src scope code).map (·.1)).getD 0)

/-- FCU ignores the pairs of a domain that goes off, and remembers nothing of them (R360). -/
def State.forgetPairs (s : State) (d : Nat) : State :=
  { s with fcu := { s.fcu with pairs := s.fcu.pairs.filter (fun x => srcDom x.1.src x.1.scope x.1.code.toNat != d) } }

/-- Set the ERR_CAUSE bit of a source (R376). -/
def State.errCause (s : State) (src scope code : Nat) : State :=
  match srcBit src scope code with
  | some (pg, i) => s.setBit (F.ERR_CAUSE_ERR (0x1000 * pg)) i
  | none => s

/-- An onset comes onto a source's pair: it waits for FCU's next sample (R360, DESIGN CHOICE: log entry 3). -/
def State.onset (s : State) (o : Onset) : State :=
  { (s.errCause o.src.val o.scope o.code.toNat) with fcu := { s.fcu with raised := s.fcu.raised ++ [o] } }

/-- A block raises the fault of source src (R382): scope kind (0 none, 1 port, 2 partition, 3 stack), scope and code. A partition-scoped
source raised for the device records no scope. -/
def State.fault (s : State) (src : SrcIx) (kind : Fin 4 := 0) (scope : Nat := 0) (code : Nat := 0) : State :=
  let k : Fin 4 := if kind = 2 ∧ scope = 0 then 0 else kind
  s.onset { src := src, wire := false, kind := k, scope := scope, code := BitVec.ofNat 16 code, inj := false }

/-! ## Statistics counters (R397 to R401) -/

/-- Device counter i raised by n while STA is enabled, saturating (R397, R399, R400). -/
def State.stat (s : State) (i : Nat) (n : Nat := 1) : State := if s.en 0x20 then s.inc (F.STA_LIVE_COUNT i) n else s

/-- Counter j of partition p raised by n (R401); nothing for the device. -/
def State.statPart (s : State) (p j : Nat) (n : Nat := 1) : State :=
  if s.en 0x20 ∧ 1 ≤ p ∧ p ≤ 64 then
    { s with sta := { s.sta with live := Tbl.set 0 s.sta.live (p * 8 + j) (min (Tbl.get 0 s.sta.live (p * 8 + j) + n) (2 ^ 64 - 1)) } }
  else s

/-! ## Fabric time (R9, R349) -/

/-- An event that comes about at fabric time t: time has reached t (DEDUCED: log entry 4). -/
def State.advanceTo (s : State) (t : DWord) : State := { s with time := { s.time with now := if s.time.now < t then t else s.time.now } }

/-- Fabric time after d nanoseconds. -/
def after (t : DWord) (ns : Nat) : DWord := t + BitVec.ofNat 64 (ns * 65536)

/-! ## Freezes (R445) -/

/-- A deferred FREEZE takes effect on a page (R445): FROZEN, with its FREEZE_PEND and DBG_PEND bits cleared, and DBG_FREEZE_STAT.FROZEN once
no block is pending. -/
def State.freezeNow (s : State) (pg bit : Nat) : State :=
  let b := 0x1000 * pg
  let s := ((s.wr (F.PAGE_STAT_FROZEN b) 1).wr (F.PAGE_STAT_FREEZE_PEND b) 0).setBit F.DBG_PEND_PEND bit false
  if s.on F.DBG_FREEZE_ALL ∧ s.rd F.DBG_PEND_PEND = 0 ∧ s.rd F.DBG_FREEZE_STAT_FROZEN = 0 then
    (s.wr F.DBG_FREEZE_STAT_FROZEN 1).cause0 0x22 2
  else s

/-! ## Commands in flight (R75 to R91) -/

/-- Base of function f's queue registers (R94). -/
def qBase (f : Nat) : Nat := pageBase f (if f = 0 then 3 else 1)

/-- Page of function f's queue registers. -/
def qPage (f : Nat) : Nat := if f = 0 then 3 else 1

/-- OPCODE of a command entry (R76). -/
def opcode (e : Block64) : Nat := byteField e 0 0 8

/-- NOINT of a command entry (R76). -/
def noint (e : Block64) : Bool := byteField e 0 8 1 != 0

/-- CMD_ID of a command entry (R76). -/
def cmdId (e : Block64) : Nat := byteField e 0 16 16

/-- OWNER of a command entry (R76). -/
def ownerField (e : Block64) : Nat := byteField e 4 0 7

/-- The partition a command acts for: OWNER from PF0, the VF's own partition from a VF (R76). -/
def effOwner (f : Fn) (e : Block64) : Nat := if f.val = 0 then ownerField e else f.val

/-- The opcodes of the command set (R77). -/
def listedOp (n : Nat) : Bool :=
  [0x00, 0x01, 0x02, 0x10, 0x11, 0x12, 0x13, 0x14, 0x20, 0x28, 0x29, 0x30, 0x31, 0x40, 0x41].contains n

/-- R64: the command may be issued by the function. -/
def mayIssue (f : Fn) (op : Nat) : Bool := f.val == 0 || [0x00, 0x01, 0x20, 0x28, 0x29, 0x30, 0x31].contains op

/-- The bits of a command entry that carry a field, as (byte, low bit, width): the header of R76, then the operands by opcode (R148, R198,
R206, R208, R212, R269, R287, R296, R320, R322). -/
def entryFields (op : Nat) : List (Nat × Nat × Nat) :=
  [(0, 0, 9), (0, 16, 16), (4, 0, 7), (8, 0, 64)] ++
  (match op with
  | 0x10 => [(16, 0, 10), (18, 0, 3), (19, 0, 3), (19, 4, 3), (20, 0, 24), (24, 0, 14), (26, 0, 14), (28, 0, 10), (32, 0, 32)]
  | 0x11 => [(16, 0, 10)]
  | 0x12 => [(16, 0, 64), (24, 0, 16)]
  | 0x13 => [(16, 0, 32), (20, 0, 1)]
  | 0x14 => [(16, 0, 32), (20, 0, 3), (24, 0, 64), (32, 0, 32)]
  | 0x20 => [(16, 0, 64), (24, 0, 64), (32, 0, 32), (36, 0, 2)]
  | 0x28 => [(16, 0, 64), (24, 0, 32), (28, 0, 32), (32, 0, 6)]
  | 0x29 => [(16, 0, 32), (20, 0, 2), (21, 0, 4), (22, 0, 8), (24, 0, 64), (32, 0, 32), (40, 0, 35)]
  | 0x30 => [(16, 0, 64), (24, 0, 10)]
  | 0x31 => [(24, 0, 10)]
  | 0x40 => [(16, 0, 25), (20, 0, 3), (20, 4, 1)]
  | _ => [])

/-- A reserved bit of the entry is 1: some bit lies in none of its fields (R78 case 2, DEDUCED: log entry 15). -/
def reservedSet (e : Block64) : Bool :=
  decide (e.toNat ≠ (entryFields (opcode e)).foldl (fun acc f => acc + byteField e f.1 f.2.1 f.2.2 * 2 ^ (8 * f.1 + f.2.1)) 0)

/-- The checks of R78, in order: the DETAIL code of the first that holds. -/
def State.badCmd (s : State) (f : Fn) (e : Block64) : Option Nat :=
  if !listedOp (opcode e) then some 0x01
  else if reservedSet e then some 0x02
  else if !mayIssue f (opcode e) then some 0x03
  else if f.val ≠ 0 ∧ ownerField e ≠ 0 ∨ f.val = 0 ∧ ownerField e ≠ 0 ∧ s.partExists (ownerField e) = false then some 0x04
  else none

/-- Commands of function f in flight, as Q_STAT.INFLIGHT counts them. -/
def State.inflight (s : State) (f : Nat) : Nat := (s.que.inflight.filter (fun c => c.fn.val == f && !c.gone)).length

/-- Change the commands in flight. -/
def State.setCmds (s : State) (l : List Cmd) : State := { s with que := { s.que with inflight := l } }

/-- The command in flight with a number. -/
def State.cmd? (s : State) (id : Nat) : Option Cmd := s.que.inflight.find? (fun c => c.id == id)

/-- Set where a command in flight stands. -/
def State.setWait (s : State) (id : Nat) (w : Wait) : State :=
  s.setCmds (updFirst (fun c => c.id == id) (fun c => { c with wait := w }) s.que.inflight)

/-- The completion entry without its PHASE and CMDQ_HEAD (R79). -/
def cplEntry (c : Cmd) (x : Cpl) (now : DWord) : Block64 :=
  BitVec.ofNat 512 (opcode c.e + x.status % 16 * 2 ^ 8 + cmdId c.e * 2 ^ 16 + c.owner % 128 * 2 ^ 48 + byteField c.e 8 0 64 * 2 ^ 64 +
    now.toNat * 2 ^ 128 + x.detail % 2 ^ 64 * 2 ^ 192 + x.result % 2 ^ 256 * 2 ^ 256)

/-- Signal the completion vector when CPL_COAL.COUNT counted entries have been written (R88). The count is compared when an entry is written: a
write of COUNT to at or below the number already pending signals nothing until the next counted entry or the timer (R88 does not speak of it; DESIGN
CHOICE: log entry 90). -/
def State.coalesce (s : State) (f : Fn) : State :=
  let n := Tbl.get 0 s.que.coal f.val + 1
  if s.rd (F.CPL_COAL_COUNT (qBase f.val)) ≤ n then
    ({ s with que := { s.que with coal := Tbl.set 0 s.que.coal f.val 0 } }).vector f 1
  else { s with que := { s.que with coal := Tbl.set 0 s.que.coal f.val n } }

/-- Write a completion entry into the next slot of function f's completion queue (R79, R80, R87, R88). -/
def State.writeEntry (s : State) (f : Fn) (nint : Bool) (e : Block64) : State :=
  let b := qBase f.val
  let slot := s.rd (F.CPLQ_TAIL_TAIL b)
  let ph := s.rd (F.CPLQ_TAIL_PHASE b)
  let full := e + BitVec.ofNat 512 (ph * 2 ^ 15 + s.rd (F.CMDQ_HEAD_HEAD b) * 2 ^ 32)
  let next := (slot + 1) % 2 ^ s.rd (F.CPLQ_SIZE_SIZE b)
  let s := ((s.send (.cplEntry f slot full)).wr (F.CPLQ_TAIL_TAIL b) next).wr (F.CPLQ_TAIL_PHASE b) (if next = 0 then 1 - ph else ph)
  if nint then s else s.coalesce f

/-- A waiting access is made. -/
def State.deliver1 (s : State) (w : HostWait) : State :=
  match w with
  | .cpl f nint e => s.writeEntry f nint e
  | .acc f o => s.makeAcc f o

/-- A waiting access can be made (R55, R471). -/
def State.canDeliver (s : State) (w : HostWait) : Bool :=
  match w with
  | .cpl f _ _ => s.canHost f.val
  | .acc f o => s.canMake f.val o

/-- Every waiting access that can be made is made, in order (R471). -/
def State.releaseWaiting (s : State) : State :=
  s.host.waiting.foldl (fun s w => if s.canDeliver w then s.deliver1 w else { s with host := { s.host with waiting := s.host.waiting ++ [w] } })
    { s with host := { s.host with waiting := [] } }

/-- A host read of function f that satisfies p returns: the oldest outstanding one, whose place another may take (R55, R471); none where there is no
such read. -/
def State.readBack (s : State) (f : Fn) (p : Output → Bool) : Option State :=
  let mine (x : Fn × Output) : Bool := x.1 == f && p x.2
  if s.host.reads.any mine then
    some ({ s with host := { s.host with reads := dropFirst mine s.host.reads } }).releaseWaiting
  else none

/-- The access is a host read of a command with this CMD_ID. -/
def Output.isReadOf (id : Nat) : Output → Bool
  | .hostRead _ i _ _ => i == id
  | _ => false

/-- The address that a host read reads. -/
def Output.readAddr : Output → Nat
  | .hostRead _ _ a _ => a.toNat
  | _ => 0

/-- The address of the oldest outstanding host read of function f that satisfies p. -/
def State.oldestRead (s : State) (f : Fn) (p : Output → Bool) : Nat :=
  ((s.host.reads.find? (fun x => x.1 == f && p x.2)).map (fun x => x.2.readAddr)).getD 0

/-- Take a command out of flight and write its completion entry, at once or once the write can be made (R75, R79, R91, R471). -/
def State.retire (s : State) (id : Nat) (x : Cpl) : State :=
  match s.cmd? id with
  | none => s
  | some c =>
    let s := ((s.setCmds (dropFirst (fun c => c.id == id) s.que.inflight)).stat 29).statPart c.fn.val 1
    let e := cplEntry c x s.time.now
    if c.noEntry || !s.on (F.Q_CTRL_CPL_EN (qBase c.fn.val)) then s
    else if s.canHost c.fn.val then s.writeEntry c.fn (noint c.e) e
    else { s with host := { s.host with waiting := s.host.waiting ++ [.cpl c.fn (noint c.e) e] } }

/-- The opcodes CSQ handles (R77, R85). -/
def csqOp (op : Nat) : Bool := [0x10, 0x11, 0x12, 0x13, 0x14].contains op

/-- An earlier command of the same function is in flight. -/
def State.earlier (s : State) (c : Cmd) : Bool := s.que.inflight.any (fun d => d.fn == c.fn && decide (d.id < c.id))

/-- An earlier command that CSQ handles is in flight. -/
def State.earlierCsq (s : State) (c : Cmd) : Bool :=
  s.que.inflight.any (fun d => d.fn == c.fn && csqOp (opcode d.e) && decide (d.id < c.id))

/-- The function's first command that has not started. -/
def State.firstUnstarted (s : State) (f : Fn) : Option Cmd :=
  s.que.inflight.find? (fun c => c.fn == f && c.wait == .unstarted)

/-- Something holds back a function's next command: a FENCE that waits (R77), a change that CSQ holds (R219), an EPOCH_PREPARE that waits (R206), or a
BAR2 write that arrived before a doorbell write and has not completed (R271). -/
def State.blocked (s : State) (f : Fn) : Bool :=
  s.que.inflight.any (fun c => c.fn == f && (c.wait == .fence || c.wait == .admission || c.wait == .prepare)) ||
    s.rme.ops.any (fun o => o.fn == f && o.bell && o.stage != .quarantined)

/-- A command that can complete without a further event: a FENCE with no earlier command in flight (R77), a finished command of CSQ with no
earlier one (R85), a command with an unlisted opcode whose turn has come (R78). -/
def State.ripe (s : State) (c : Cmd) : Option Cpl :=
  match c.wait with
  | .fence => if s.earlier c then none else some {}
  | .finished x => if s.earlierCsq c then none else some x
  | .unstarted =>
    if !listedOp (opcode c.e) && !s.blocked c.fn && s.firstUnstarted c.fn == some c then some { status := 4, detail := 1 } else none
  | _ => none

/-- Complete the commands that have become ripe, one after the other. -/
def State.settle (s : State) : Nat → State
  | 0 => s
  | n + 1 =>
    match s.que.inflight.find? (fun c => (s.ripe c).isSome) with
    | none => s
    | some c => (s.retire c.id ((s.ripe c).getD {})).settle n

/-- Complete a command (R79), and then what its completion lets complete. -/
def State.complete (s : State) (id : Nat) (x : Cpl) : State :=
  let s := s.retire id x
  s.settle s.que.inflight.length

/-- A command of CSQ finishes: it completes after the earlier commands of CSQ (R85). -/
def State.finish (s : State) (id : Nat) (x : Cpl) : State :=
  let s := s.setWait id (.finished x)
  s.settle s.que.inflight.length

/-- Start a command of function f with entry e: the function exists (R62), its first command that has not started must be this one, and nothing may
hold it back (R77, R85). With none in flight unstarted the command counts as taken in flight now (DESIGN CHOICE: log entry 14). -/
def State.start (s : State) (f : Fn) (e : Block64) : Option (Cmd × State) :=
  if s.blocked f || !s.fnExists f.val then none
  else match s.firstUnstarted f with
    | some c => if c.e = e then some ({ c with wait := .running }, s.setWait c.id .running) else none
    | none =>
      let c : Cmd := { id := s.que.nextId, fn := f, e := e, owner := effOwner f e, wait := .running }
      some (c, { s with que := { s.que with inflight := s.que.inflight ++ [c], nextId := s.que.nextId + 1 } })

/-- The life of a command of opcode op from its start: nothing while its block is off (R425) or it may not start; BAD_CMD by R78; else the
block's own meaning. A command that R78 refuses never reaches its block: it completes at once, also one of CSQ's with earlier ones in flight (R85 orders
the commands CSQ handles; DESIGN CHOICE: log entry 91). -/
def State.command (s : State) (op pg : Nat) (f : Fn) (e : Block64) (body : Cmd → State → State) : State :=
  if opcode e ≠ op then s
  else match s.start f e with
    | none => s
    | some (c, s') =>
      match s'.badCmd f e with
      | some d => s'.complete c.id { status := 4, detail := d }
      | none =>
        if s.runs pg then
          let t := body c s'
          t.settle t.que.inflight.length
        else s

end Sys2Proof.Machine
end

