-- ==== Sys2Proof/Machine/Images.lean ====
section
/-! DEFINITION. Ring numbers (R101) and the channels, rings and lane pairs of a circuit image (R194, R201). -/

namespace Sys2Proof.Machine

/-- The modulator ring of port p, line k (R101). -/
def modRing (p k : Nat) : Nat := p * 9 + k

/-- The drop ring of port p, line k (R101). -/
def dropRing (p k : Nat) : Nat := 144 + p * 9 + k

/-- The cross-connect cell of ingress i, egress e, line k (R101). -/
def cellRing (i e k : Nat) : Nat := 288 + k * 256 + i * 16 + e

/-- The lines of the lane pairs in a mask. -/
def linesOf (pairs : Nat) : List Nat := (upTo 8).filter (fun k => bitOf pairs (k / 2))

/-- The lane pairs in a mask. -/
def pairsOf (pairs : Nat) : List Nat := (upTo 4).filter (fun j => bitOf pairs j)

/-- The sides of an image, as (port, pairs, SUB, HOPS, PEER): one of a TERMINATE circuit, two of a RELAY circuit (R197). -/
def Image.sides (i : Image) : List (Nat × Nat × Nat × Nat × Nat) :=
  match i.path with
  | 0 => [(i.portA, i.pairsA, i.subA, i.hopsA, i.peerA)]
  | 2 => [(i.portA, i.pairsA, i.subA, i.hopsA, i.peerA), (i.portB, i.pairsB, i.subB, i.hopsB, i.peerB)]
  | _ => []

/-- The channels an image holds at this node (R194). -/
def Image.channels (i : Image) : List (Nat × Nat) :=
  match i.path with
  | 1 => (linesOf i.pairsA).map (fun k => (i.portA, k)) ++ (linesOf i.pairsA).map (fun k => (i.portB, k))
  | _ => i.sides.flatMap (fun x => (linesOf x.2.1).map (fun k => (x.1, k)))

/-- The ports an image names. -/
def Image.ports (i : Image) : List Nat := if i.path = 0 then [i.portA] else [i.portA, i.portB]

/-- The rings an image needs, in ascending index (R194, R201): a channel that λS stands in for needs none. -/
def Image.rings (i : Image) : List Nat :=
  match i.path with
  | 1 =>
    let a := min i.portA i.portB
    let b := max i.portA i.portB
    (linesOf i.pairsA).flatMap (fun k => [cellRing a b k, cellRing b a k])
  | _ =>
    let sides := if i.portA ≤ i.portB then i.sides else i.sides.reverse
    let chs := sides.flatMap (fun x => ((linesOf x.2.1).filter (· != x.2.2.1)).map (fun k => (x.1, k)))
    chs.map (fun c => modRing c.1 c.2) ++ chs.map (fun c => dropRing c.1 c.2)

/-- The lane pairs an image needs, as port × 5 + pair (R194). -/
def Image.units (i : Image) : List Nat := i.sides.flatMap (fun x => (pairsOf x.2.1).map (fun j => x.1 * 5 + j))

end Sys2Proof.Machine
end

