-- ==== Sys2Proof/Machine/Pages.lean ====
section
/-! DEFINITION. The pages of the register space (R24 to R27, R468): which are implemented, the rows of each, the header values they read, and
the interrupt causes a page has (R469). -/

namespace Sys2Proof.Machine

/-! ## Fields of the VF pages (R26, R27) -/

/-- VF_PARTITION [6:0] (02_register_pages.md). -/
def F.VF_PARTITION (v : Nat) : Fld := ⟨pageBase v 0 + 0x40, 0, 7, v⟩

/-- A field of a PF0 page as a VF page shows it, at another address. -/
def Fld.at (f : Fld) (a : Nat) : Fld := { f with addr := a }

/-- VF_RME_STAT [13:0] (R283). -/
def F.VF_RME_STAT_USED (v : Nat) : Fld := ⟨pageBase v 2 + 0x40, 0, 14, 0⟩

/-- VF_RME_STAT [29:16] (R283). -/
def F.VF_RME_STAT_QUOTA (v : Nat) : Fld := ⟨pageBase v 2 + 0x40, 16, 14, 256⟩

/-- VF_RDX_STAT [4:0] (10_reduce_engine.md). -/
def F.VF_RDX_STAT_CMDS (v : Nat) : Fld := ⟨pageBase v 3 + 0x40, 0, 5, 0⟩

/-- VF_RDX_STAT [16:8] (10_reduce_engine.md). -/
def F.VF_RDX_STAT_STEPS (v : Nat) : Fld := ⟨pageBase v 3 + 0x40, 8, 9, 0⟩

/-- VF_RDX_SAT (10_reduce_engine.md). -/
def F.VF_RDX_SAT (v : Nat) : Fld := ⟨pageBase v 3 + 0x44, 0, 32, 0⟩

/-- VF_EVR_CURSOR [47:0] (14_event_recorder_statistics.md). -/
def F.VF_EVR_CURSOR (v : Nat) : Fld := ⟨pageBase v 4 + 0x48, 0, 48, 0⟩

/-- VF_CIRC_SEL [9:0] (07_circuits.md). -/
def F.VF_CIRC_SEL (v : Nat) : Fld := ⟨pageBase v 6 + 0x40, 0, 10, 0⟩

/-- VF_CIRC_STAT STATE [2:0] (07_circuits.md). -/
def F.VF_CIRC_STAT_STATE (v : Nat) : Fld := ⟨pageBase v 6 + 0x44, 0, 3, 0⟩

/-- VF_CIRC_STAT PATH [4:3] (07_circuits.md). -/
def F.VF_CIRC_STAT_PATH (v : Nat) : Fld := ⟨pageBase v 6 + 0x44, 3, 2, 0⟩

/-- VF_CIRC_STAT DOWN_REASON [7:5] (07_circuits.md). -/
def F.VF_CIRC_STAT_DOWN (v : Nat) : Fld := ⟨pageBase v 6 + 0x44, 5, 3, 0⟩

/-- VF_CIRC_STAT PEER_A [21:8] (07_circuits.md). -/
def F.VF_CIRC_STAT_PEER (v : Nat) : Fld := ⟨pageBase v 6 + 0x44, 8, 14, 0⟩

/-- A row of one field. -/
def row1 (f : Fld) (a : Acc) : Row := ⟨fun _ => f, a, 0, 1, 0, none⟩

/-- The block-specific rows of page g of VF v (R26). -/
def vfRows (v g : Nat) : List Row :=
  let b := pageBase v g
  match g with
  | 0 => [row1 (F.VF_PARTITION v) .ro, row1 (F.GLB_DEVICE_PART.at (b + 0x44)) .ro, row1 (F.GLB_DEVICE_STEPPING.at (b + 0x44)) .ro,
      row1 (F.GLB_DEVICE_FAMILY.at (b + 0x44)) .ro, row1 (F.GLB_FORM_STRAP.at (b + 0x48)) .ro, row1 (F.GLB_FORM_FORM.at (b + 0x48)) .ro]
  | 1 => rowsQ b
  | 2 => [row1 (F.VF_RME_STAT_USED v) .ro, row1 (F.VF_RME_STAT_QUOTA v) .ro,
      ⟨fun k => (F.RME_MAPV_NODE k).at (b + 0x50 + 4 * k), .ro, 0, 4, 4, none⟩,
      ⟨fun k => (F.RME_MAPV_VALID k).at (b + 0x50 + 4 * k), .ro, 0, 4, 4, none⟩,
      ⟨fun k => (F.RME_MAPV_WR k).at (b + 0x50 + 4 * k), .ro, 0, 4, 4, none⟩,
      ⟨fun k => (F.RME_MAPV_BASE k).at (b + 0x50 + 4 * k), .ro, 0, 4, 4, none⟩] ++ rowsVRme b ++ rowsA b
  | 3 => [row1 (F.VF_RDX_STAT_CMDS v) .ro, row1 (F.VF_RDX_STAT_STEPS v) .ro, row1 (F.VF_RDX_SAT v) .rc]
  | 4 => [row1 (F.VF_EVR_NEW_SEV b) .rw, row1 (F.VF_EVR_CURSOR v) .rw]
  | 5 => [row1 (F.STA_PERIOD_PERIOD.at (b + 0x44)) .ro, row1 (F.STA_START_TIME.at (b + 0x48)) .ro, row1 (F.STA_FLAGS_FLAGS.at (b + 0x50)) .ro,
      row1 (F.STA_SNAP_PERIOD_PERIOD.at (b + 0x54)) .ro, row1 (F.STA_SNAP_START_TIME.at (b + 0x58)) .ro,
      row1 (F.STA_SNAP_END_TIME.at (b + 0x60)) .ro, row1 (F.STA_SNAP_FLAGS_FLAGS.at (b + 0x68)) .ro,
      ⟨fun j => ⟨b + 0x100 + 8 * j, 0, 64, 0⟩, .ro, 0, 8, 8, none⟩, ⟨fun j => ⟨b + 0x200 + 8 * j, 0, 64, 0⟩, .ro, 0, 8, 8, none⟩]
  | 6 => [row1 (F.VF_CIRC_SEL v) .rw, row1 (F.VF_CIRC_STAT_STATE v) .ro, row1 (F.VF_CIRC_STAT_PATH v) .ro,
      row1 (F.VF_CIRC_STAT_DOWN v) .ro, row1 (F.VF_CIRC_STAT_PEER v) .ro]
  | _ => []

/-! ## Addresses -/

/-- The VF whose BAR0 holds an address; 0 for PF0's. -/
def vfOf (a : Nat) : Nat := if a < 0x100000 then 0 else (a - 0x100000) / 0x10000 + 1

/-- The page of an address within its function's BAR0. -/
def pageOf (a : Nat) : Nat := if a < 0x100000 then a / 0x1000 else (a - 0x100000) % 0x10000 / 0x1000

/-- The address's page is implemented (R25, R26). -/
def implAt (a : Nat) : Bool := if vfOf a = 0 then implPage (pageOf a) else decide (pageOf a ≤ 6)

/-- The PF0 page whose block a page shows (R468). -/
def underPage (a : Nat) : Nat :=
  if vfOf a = 0 then pageOf a
  else match pageOf a with
    | 0 => 0x00 | 1 => 0x03 | 2 => 0x0B | 3 => 0x0C | 4 => 0x0F | 5 => 0x20 | _ => 0x07

/-- The rows of the page that holds address a: its header or its block registers; none on a page that is not implemented. -/
def pageRows (a : Nat) : List Row :=
  if implAt a then
    if a % 0x1000 < 0x40 then rowsH (a - a % 0x1000)
    else if vfOf a = 0 then blockRows (pageOf a) else vfRows (vfOf a) (pageOf a)
  else []

/-! ## Headers (R25, R27, R50, R468) -/

/-- The FREEZABLE blocks, with their bits in DBG_PEND (R445). -/
def freezable : List (Nat × Nat) :=
  [(0x03, 0), (0x05, 1), (0x06, 2), (0x07, 3), (0x08, 4), (0x09, 5), (0x0A, 6), (0x0B, 7), (0x0C, 8), (0x23, 9), (0x0F, 10)]

/-- The LOCKABLE PF0 pages, those that hold RWL fields (R40). -/
def lockable (pg : Nat) : Bool := [0x00, 0x01, 0x0D, 0x0E].contains pg

/-- The causes of the page that holds address a (R469): every other bit of its interrupt registers has no cause. -/
def intBits (a : Nat) : Nat :=
  if vfOf a = 0 then
    match pageOf a with
    | 0x00 => 1 | 0x01 => 0x3F | 0x02 => 7 | 0x03 => 7 | 0x04 => 0x1F | 0x05 => 0xFF | 0x06 => 7 | 0x07 => 0x3F | 0x08 => 0x7F | 0x09 => 0xFF
    | 0x0A => 0xF | 0x0B => 0x3F | 0x0C => 7 | 0x0D => 7 | 0x0E => 0x1F | 0x0F => 0x1F | 0x20 => 1 | 0x21 => 0xF | 0x22 => 0xF | 0x23 => 7
    | pg => if 0x10 ≤ pg ∧ pg < 0x20 then 0x3F0F else 0
  else match pageOf a with
    | 1 => 7 | 2 => 0xF | 3 => 3 | 4 => 3 | 5 => 1 | _ => 0

end Sys2Proof.Machine
end

