-- ==== Sys2Proof/Machine/View.lean ====
section
/-! DEFINITION. What a register reads: each field's own value, or what the block's state makes it, and whole 32-bit words. -/

namespace Sys2Proof.Machine

/-! ## Operands of PSM_REDUCE (R296) -/

/-- ROLE: the run is a summer's. -/
def psmSummer (e : Block64) : Bool := byteField e 20 0 1 == 1
/-- REPAIR. -/
def psmRepair (e : Block64) : Bool := byteField e 20 1 1 == 1
/-- PORT. -/
def psmPort (e : Block64) : Nat := byteField e 21 0 4
/-- LINES. -/
def psmLines (e : Block64) : Nat := byteField e 22 0 8
/-- T_START. -/
def psmStart (e : Block64) : Nat := byteField e 24 0 64
/-- COUNT. -/
def psmCount (e : Block64) : Nat := byteField e 32 0 32
/-- ADDR. -/
def psmAddr (e : Block64) : Nat := byteField e 40 0 35
/-- The lines that LINES names. -/
def psmLineList (e : Block64) : List Nat := (upTo 8).filter (fun k => bitOf (psmLines e) k)

/-- Samples of a run's stream (R302). -/
def psmSamples (e : Block64) : Nat := 1024 + psmCount e + 64 * ((psmCount e - 1) / 65536)

/-! ## What the blocks' status fields count -/

/-- Tags a function holds (R272). -/
def State.tagsHeld (s : State) (f : Nat) : Nat := (s.rme.ops.filter (fun o => o.fn == f && o.tag.isSome)).length

/-- Tags held, quarantined ones included. -/
def State.tagsUsed (s : State) : Nat := (s.rme.ops.filter (fun o => o.tag.isSome)).length

/-- Bytes of the reorder buffer that a read of n bytes reserves (R272). -/
def robBytes (n : Nat) : Nat := (n + 63) / 64 * 64

/-- Bytes of the reorder buffer in use (R272). -/
def State.robUsed (s : State) : Nat :=
  ((s.rme.ops.filter (fun o => o.src == .read && o.tag.isSome && o.stage != .quarantined)).map (fun o => robBytes o.len)).sum

/-- Entries of the change queue in use (R219). -/
def State.queueUsed (s : State) : Nat := (s.csq.changes.filter (fun x => x.holds)).length

/-- Port p is fenced (R370). -/
def State.portFenced (s : State) (p : Nat) : Bool := bitOf (s.rd F.FCU_FENCE_PORTS) p

/-- Partition n is fenced (R370). -/
def State.partFenced (s : State) (n : Nat) : Bool :=
  decide (1 ≤ n) && bitOf (s.rd (F.FCU_FENCE_PART_PARTS ((n - 1) / 32))) ((n - 1) % 32)

/-- A channel's entry. -/
def State.chan (s : State) (c : Nat) : Chan := Tbl.get {} s.rcu.chans c

/-- DRIFT_PCT of a channel, rounded down (R143, DESIGN CHOICE: log entry 16); a channel never calibrated has no CAL_LAST and reads 0. -/
def State.drift (s : State) (ch : Nat) : Nat :=
  let x := s.chan ch
  if x.never then 0
  else
    let dt := (toSigned 16 (s.rd (F.ENV_DIE_TEMP_TEMP (ch / 9))) - x.base).natAbs
    let hour := 3600 * 10 ^ 9 * 65536
    let t := s.time.now.toNat - x.last
    let pct (a b g : Nat) : Nat := 100 * (a * dt * hour + 64 * b * t) / (64 * hour * 1000 * g)
    min 255 (max (max (pct 400 50 6) (pct 150 20 2)) (max (pct 250 10 1) (pct 50 5 1)))

/-- The channel is due (R141, R144). -/
def State.chanDue (s : State) (ch : Nat) : Bool :=
  s.on F.RCU_CAL_CTRL_AUTO && !(s.chan ch).suspect && !(s.chan ch).never && decide (s.rd F.RCU_CAL_CTRL_CAL_TRIG ≤ s.drift ch)

/-- Bytes of the unexpected-message buffer that a message takes. -/
def msgBytes (m : CollMsg) : Nat := 16 + m.data.length

/-- Bytes of the unexpected-message buffer in use (R292). -/
def State.unexpUsed (s : State) : Nat := (s.rdx.unexp.map (fun x => msgBytes x.2)).sum

/-- Steps in flight, of all commands (R290). -/
def State.stepsInFlight (s : State) : Nat := (s.rdx.cmds.map (fun c => (c.steps.filter (fun x => x.st == 1)).length)).sum

/-- Depth of a queue (R71). -/
def depth (s : State) (f : Fld) : Nat := 2 ^ s.rd f

/-- (a − b) mod N. -/
def modSub (n a b : Nat) : Nat := (a + n - b % n) % n

/-- Entries of function f's command queue that no fetch read covers yet. -/
def State.waitingEntries (s : State) (f : Nat) : Nat :=
  let b := qBase f
  modSub (depth s (F.CMDQ_SIZE_SIZE b)) (s.rd (F.CMDQ_TAIL_TAIL b)) (s.rd (F.CMDQ_HEAD_HEAD b))

/-- Completion slots of function f that are neither in use nor reserved (R84). -/
def State.cplRoom (s : State) (f : Nat) : Nat :=
  let b := qBase f
  let n := depth s (F.CPLQ_SIZE_SIZE b)
  let used := modSub n (s.rd (F.CPLQ_TAIL_TAIL b)) (s.rd (F.CPLQ_HEAD_HEAD b))
  let held := (s.host.waiting.filter (fun w => match w with | .cpl g _ _ => g.val == f | _ => false)).length
  n - 1 - used - s.inflight f - held

/-- The device is TERMINAL (R373). -/
def State.terminal (s : State) : Bool := s.on F.FCU_TERM_LATCHED

/-- ERR_N is driven low (R375). -/
def State.errN (s : State) : Bool :=
  s.terminal || s.on F.FCU_PRIOR_VALID || s.rd F.GLB_FORM_FORM == 3 || s.fcu.supplyFail || s.fcu.dryErrn ||
    (upTo 54).any (fun n => s.on (F.FCU_REC_W0_VALID n) && (s.rd (F.FCU_REC_W0_CLASS n) == 1 || s.rd (F.FCU_REC_W0_CLASS n) == 2) &&
      s.on (F.FCU_POL_ERRN n))

/-- A tamper source's policy (R327). -/
def State.tamperPolicy (s : State) (src : Nat) : Nat := s.rd F.SEC_TAMPER_POL_POL / 4 ^ src % 4

/-- What a requester holds. -/
def State.reqOf (s : State) (r : Nat) : ReqState := Tbl.get {} s.req r

/-- PAGE_STAT.FENCED of the page that holds address a (R474). -/
def State.fencedPage (s : State) (a : Nat) : Bool :=
  let pg := pageOf a
  if vfOf a ≠ 0 then s.partFenced (vfOf a)
  else (decide (0x10 ≤ pg ∧ pg < 0x20) && s.portFenced (pg - 0x10)) || (pg == 0x0A && s.rd F.FCU_FENCE_STACKS != 0) ||
    s.fcu.stopped.any (fun x => x.1 == pg)

/-- The sensors with HI or LO set (R404). -/
def State.hotSensors (s : State) : List Nat := (upTo 64).filter (fun n => s.on (F.ENV_DIE_TEMP_HI n) || s.on (F.ENV_DIE_TEMP_LO n))

/-- The sensor with the highest on-die value, the lowest of equals; none while no sensor has a value. -/
def State.hottest (s : State) : Option Nat :=
  let t (n : Nat) : Int := toSigned 16 (s.rd (F.ENV_DIE_TEMP_TEMP n))
  (upTo 64).foldl (fun acc n =>
    if s.on (F.ENV_DIE_TEMP_VALID n) then
      match acc with
      | none => some n
      | some m => if t m < t n then some n else some m
    else acc) none

/-- The rings a change needs (R220): those of its image until it builds. -/
def Change.needs (x : Change) : List Nat := if x.st ≤ 3 then (if x.isClear then [] else x.img.rings) else x.rings

/-- The lane pairs a change needs (R220). -/
def Change.needsUnits (x : Change) : List Nat := if x.st ≤ 3 then (if x.isClear then [] else x.img.units) else x.units

/-- n × k / d rounded down; n where the denominator is zero (R220). -/
def share (n k d : Nat) : Nat := if d = 0 then n else n * k / d

/-- PCT and RING of the oldest epoch (R220). -/
def State.progress (s : State) : Nat × Nat :=
  match s.csq.epochs with
  | [] => (0, 0xFFF)
  | e :: _ =>
    let l := s.csq.changes.filter (fun x => x.epoch == e.num)
    let sum (f : Change → List Nat) : Nat := (l.map (fun x => (f x).length)).sum
    let acq := (l.filter (fun x => x.st == 4)).flatMap (fun x => x.rings.filter (fun r => !x.locked.contains r))
    (share 90 (sum (·.locked)) (sum Change.needs) + share 10 (sum (·.active)) (sum Change.needsUnits), acq.foldl min 0xFFF)

/-- TIME_UNCERT_NS (R351); ESTIMATED keeps the bound stored at wake (R353). -/
def State.uncert (s : State) : Nat :=
  let two := 2 * s.rd F.LNK_TIME_STAT_STRATUM
  let v := match s.rd F.CPM_TIME_STAT_TIME_STATE with
    | 1 => 0
    | 2 => (s.time.theta.natAbs + 65535) / 65536 + two
    | 3 => two
    | 4 => two + ((s.time.now.toNat - s.time.lossAt.getD s.time.now.toNat) + 655359999) / 655360000
    | 5 => s.rd F.CPM_TIME_UNCERT_TIME_UNCERT_NS
    | _ => 0xFFFFFFFF
  min v 0xFFFFFFFF

/-! ## Fields by page -/

/-- A header field (R25, R27, R468, R474) of the page that holds its address. -/
def State.viewHead (s : State) (f : Fld) : Nat :=
  let b := f.addr - f.addr % 0x1000
  let pg := pageOf f.addr
  let u := underPage f.addr
  let pf : Bool := vfOf f.addr == 0
  if f = F.PAGE_ID_BLOCK b then u
  else if f = F.PAGE_ID_INSTANCE b then (if pf = true ∧ 0x10 ≤ pg ∧ pg < 0x20 then pg - 0x10 else 0)
  else if f = F.PAGE_CAP_LOCKABLE b then b2n (pf && lockable pg)
  else if f = F.PAGE_CAP_FREEZABLE b then b2n (freezable.any (fun x => x.1 == u))
  else if f = F.PAGE_CAP_TABLE b then b2n (pf && isWinPage pg)
  else if f = F.PAGE_STAT_ENABLED b ∨ f = F.PAGE_CTRL_EN b then s.rd (F.PAGE_CTRL_EN (0x1000 * u))
  else if f = F.PAGE_STAT_RST_BUSY b then s.rd (F.PAGE_STAT_RST_BUSY (0x1000 * u))
  else if f = F.PAGE_STAT_FROZEN b then s.rd (F.PAGE_STAT_FROZEN (0x1000 * u))
  else if f = F.PAGE_STAT_FREEZE_PEND b then s.rd (F.PAGE_STAT_FREEZE_PEND (0x1000 * u))
  else if f = F.PAGE_CTRL_FREEZE b then s.rd (F.PAGE_CTRL_FREEZE (0x1000 * u))
  else if f = F.PAGE_STAT_FENCED b then b2n (s.fencedPage f.addr)
  else if f = F.PAGE_LOCK_LOCKED b then s.rd (F.PAGE_STAT_LOCKED b)
  else s.rd f

/-- The queue registers of function g (R84, R94). -/
def State.viewQueue (s : State) (g : Nat) (f : Fld) : Nat :=
  let b := qBase g
  if f = F.Q_STAT_IDLE b then b2n (s.inflight g == 0 && s.waitingEntries g == 0)
  else if f = F.Q_STAT_CPL_FULL b then
    b2n (s.on (F.Q_CTRL_CMD_EN b) && !s.on (F.Q_STAT_HALTED b) && s.waitingEntries g != 0 && s.cplRoom g == 0)
  else if f = F.Q_STAT_INFLIGHT b then s.inflight g
  else s.rd f

/-- PCT of the run on port n (R310): a contributor streams by fabric time from T_S on, 2.5 samples in each ns. -/
def State.viewPct (s : State) (n : Nat) : Nat :=
  match s.psm.runs.find? (fun r => r.1 == n) with
  | some (_, r) =>
    if s.rd (F.PSM_STAT_STATE n) = 5 ∧ psmSummer r.e = false then
      let t := s.time.now.toNat - (psmStart r.e + 400000 * 65536)
      100 * min (t * 5 / 131072) (psmSamples r.e) / psmSamples r.e
    else s.rd (F.PSM_STAT_PCT n)
  | none => s.rd (F.PSM_STAT_PCT n)

/-- A block-specific field of PF0 as requester q reads it. -/
def State.viewPf (s : State) (q : Nat) (f : Fld) : Nat :=
  match f.addr / 0x1000 with
  | 0x01 =>
    if f = F.CPM_OP_BUSY then b2n (s.rd F.CPM_OP_OPSTATE != 0)
    else if f = F.CPM_TIME_TIME then s.time.now.toNat
    else if f = F.CPM_TIME_UNCERT_TIME_UNCERT_NS then s.uncert
    else s.rd f
  | 0x03 => s.viewQueue 0 f
  | 0x05 =>
    if f = F.RCU_LOOP_STAT_UNLOCKED then (s.rcu.rings.filter (fun r => r.2.unlocked)).length
    else if f = F.RCU_LOOP_STAT_FENCED then (s.rcu.rings.filter (fun r => r.2.loop == 5)).length
    else if f = F.RCU_LOOP_STAT_FF_FALLBACK then b2n (s.rcu.rings.any (fun r => r.2.fallback))
    else if f = F.RCU_CAL_STAT_ACTIVE then s.rcu.attempts.length
    else if f = F.RCU_CAL_STAT_DUE then ((upTo 144).filter s.chanDue).length
    else if f = F.RCU_CAL_STAT_SUSPECT then (s.rcu.chans.filter (fun c => c.2.suspect)).length
    else s.rd f
  | 0x07 =>
    if f = F.CSQ_STAT_OPEN then b2n (s.csq.epochs.any (fun e => e.st == 0))
    else if f = F.CSQ_STAT_EPOCHS then s.csq.epochs.length
    else if f = F.CSQ_STAT_STALL then b2n (s.que.inflight.any (fun c => c.wait == .admission))
    else if f = F.CSQ_STAT_CHGQ_USED then s.queueUsed
    else if f = F.CSQ_PROG_PCT then s.progress.1
    else if f = F.CSQ_PROG_RING then s.progress.2
    else if f = F.CSQ_PROG_STAGE then (s.csq.epochs.head?.map (·.st)).getD 0
    else if f = F.CSQ_PROG_EPOCH_EPOCH then (s.csq.epochs.head?.map (·.num)).getD 0
    else s.rd f
  | 0x08 => if f = F.TWN_BUF_USED_BYTES then 128 * s.twn.buf.length else s.rd f
  | 0x0A => if f = F.MSS_STAT_FENCED then s.rd F.FCU_FENCE_STACKS else s.rd f
  | 0x0B =>
    if f = F.RME_STAT_TAGS_USED then s.tagsUsed
    else if f = F.RME_STAT_TAG_STALL then b2n (decide (8192 ≤ s.tagsUsed))
    else if f = F.RME_STAT_ROB_STALL then b2n (decide (524288 ≤ s.robUsed))
    else if f = F.RME_STAT_ROB_KIB then s.robUsed / 1024
    else if f = F.RME_QUAR_TAGS then (s.rme.ops.filter (fun o => o.tag.isSome && o.stage == .quarantined)).length
    else if f = F.RME_TAG_QUOTA_USED ((f.addr - 0xB100) / 4) then s.tagsHeld ((f.addr - 0xB100) / 4)
    else s.rd f
  | 0x0C =>
    if f = F.RDX_STAT_CMDS then s.rdx.cmds.length
    else if f = F.RDX_STAT_STEPS then s.stepsInFlight
    else if f = F.RDX_STAT_UNEXP_FULL then b2n (decide (2097152 < s.unexpUsed + 4112))
    else if f = F.RDX_UNEXP_KIB then s.unexpUsed / 1024
    else s.rd f
  | 0x0D => if f = F.SEC_STAT_LOADED then (s.sec.slots.filter (fun x => x.2.loaded)).length else s.rd f
  | 0x0E =>
    if f = F.FCU_STAT_ANY then b2n ((upTo 54).any (fun n => s.on (F.FCU_REC_W0_VALID n)))
    else if f = F.FCU_STAT_HIGHEST then
      (upTo 54).foldl (fun m n => if s.on (F.FCU_REC_W0_VALID n) then max m (s.rd (F.FCU_REC_W0_CLASS n)) else m) 0
    else if f = F.FCU_STAT_ERRN then b2n s.errN
    else if f = F.FCU_STAT_TERMINAL then b2n s.terminal
    else if f = F.FCU_PEND_VALID ((f.addr - 0xE048) / 4) then
      (upTo 32).foldl (fun m i => m + b2n (s.on (F.FCU_REC_W0_VALID (32 * ((f.addr - 0xE048) / 4) + i))) * 2 ^ i) 0
    else if 0xE2B4 ≤ f.addr ∧ f.addr ≤ 0xE2C4 ∧ f.lo = 1 ∧ s.tamperPolicy ((f.addr - 0xE2B4) / 4) ≠ 0 then 1
    else s.rd f
  | 0x0F =>
    if f = F.EVR_STAT_COUNT then s.evr.log.length
    else if f = F.EVR_STAT_FULL then b2n (s.evr.log.length == 4096)
    else if f = F.EVR_STAT_STAGED then s.evr.staging.length
    else if f = F.EVR_OLDEST_SEQ then (s.evr.log.head?.map (·.seq)).getD (s.rd F.EVR_SEQ_NEXT)
    else if f = F.EVR_CURSOR_CURSOR then (s.reqOf q).cursor
    else s.rd f
  | 0x20 =>
    let p := s.rd F.STA_PART_SEL_PART
    if f = F.STA_PART_LIVE_COUNT ((f.addr - 0x20340) / 8) then Tbl.get 0 s.sta.live (p * 8 + (f.addr - 0x20340) / 8)
    else if f = F.STA_PART_SNAP_COUNT ((f.addr - 0x20380) / 8) then Tbl.get 0 s.sta.snap (p * 8 + (f.addr - 0x20380) / 8)
    else s.rd f
  | 0x21 =>
    if f = F.ENV_TEMP_STAT_COUNT then s.hotSensors.length
    else if f = F.ENV_TEMP_STAT_FIRST then s.hotSensors.headD 0
    else if f = F.ENV_DIE_MAX_TEMP then (s.hottest.map (fun n => s.rd (F.ENV_DIE_TEMP_TEMP n))).getD 0
    else if f = F.ENV_DIE_MAX_SENSOR then s.hottest.getD 0
    else s.rd f
  | 0x23 => if f = F.PSM_STAT_PCT ((f.addr - 0x23080) / 16) then s.viewPct ((f.addr - 0x23080) / 16) else s.rd f
  | 0x22 => if f = F.DBG_STAT_CHAL_VALID then b2n s.dbg.chal.isSome else s.rd f
  | _ => s.rd f

/-- VF_CIRC_STAT's entry of VF v: the selected circuit where it is the partition's. -/
def State.vfCircuit (s : State) (v : Nat) : Circuit :=
  let x := Tbl.get {} s.csq.circuits (s.rd (F.VF_CIRC_SEL v))
  if x.owner = v then x else {}

/-- A block-specific field of VF v's page g (R26, R27). -/
def State.viewVf (s : State) (v g : Nat) (f : Fld) : Nat :=
  let o := f.addr % 0x1000
  match g with
  | 0 => if o = 0x48 then s.rd (f.at 0x44) else f.reset
  | 1 => s.viewQueue v f
  | 2 =>
    if f = F.VF_RME_STAT_USED v then s.tagsHeld v
    else if f = F.VF_RME_STAT_QUOTA v then s.rd (F.RME_TAG_QUOTA_QUOTA v)
    else if 0x50 ≤ o ∧ o < 0x60 then s.rd (f.at (0xB800 + 16 * (v - 1) + (o - 0x50)))
    else s.rd f
  | 3 =>
    if f = F.VF_RDX_STAT_CMDS v then (s.rdx.cmds.filter (fun c => c.owner == v)).length
    else if f = F.VF_RDX_STAT_STEPS v then
      ((s.rdx.cmds.filter (fun c => c.owner == v)).map (fun c => (c.steps.filter (fun x => x.st == 1)).length)).sum
    else Tbl.get 0 s.rdx.satV v
  | 4 => if f = F.VF_EVR_CURSOR v then (s.reqOf v).cursor else s.rd f
  | 5 =>
    if o < 0x100 then s.rd (f.at (0x20000 + o))
    else if o < 0x200 then Tbl.get 0 s.sta.live (v * 8 + (o - 0x100) / 8)
    else Tbl.get 0 s.sta.snap (v * 8 + (o - 0x200) / 8)
  | 6 =>
    let x := s.vfCircuit v
    if f = F.VF_CIRC_STAT_STATE v then x.state
    else if f = F.VF_CIRC_STAT_PATH v then x.img.path
    else if f = F.VF_CIRC_STAT_DOWN v then x.down
    else if f = F.VF_CIRC_STAT_PEER v then x.img.peerA
    else s.rd f
  | _ => s.rd f

/-- What a field reads to requester q. -/
def State.view (s : State) (q : Nat) (f : Fld) : Nat :=
  if f.addr % 0x1000 < 0x40 then s.viewHead f
  else if vfOf f.addr = 0 then s.viewPf q f else s.viewVf (vfOf f.addr) (pageOf f.addr) f

/-! ## Words -/

/-- A field with its LO address at a (false), or a 64-bit pair whose HI half lies at a (true): the row's place there. -/
def Row.at? (r : Row) (a : Nat) : Option (Fld × Bool) :=
  let f0 := r.fld r.first
  let wide : Bool := decide (32 < f0.lo + f0.width)
  if a < f0.addr then none
  else
    let d := a - f0.addr
    let n := if r.count ≤ 1 then 0 else d / r.stride
    let o := if r.count ≤ 1 then d else d % r.stride
    if r.count ≤ n then none
    else if o = 0 then some (r.fld (r.first + n), false)
    else if o = 4 ∧ wide = true then some (r.fld (r.first + n), true)
    else none

/-- The rows with a field in the word at a, with the field and whether it is the pair's HI half. -/
def fieldsAt (rows : List Row) (a : Nat) : List (Row × Fld × Bool) :=
  rows.filterMap (fun r => (r.at? a).map (fun x => (r, x.1, x.2)))

/-- A field's share of its word; hi for the upper half of a pair. -/
def fieldInWord (f : Fld) (hi : Bool) (v : Nat) : Nat := if hi then v * 2 ^ f.lo / 2 ^ 32 else v * 2 ^ f.lo % 2 ^ 32

/-- The word that the fields listed make up, as requester q reads it. WO fields read zero (R10). -/
def State.wordOf (s : State) (q : Nat) (l : List (Row × Fld × Bool)) : Word :=
  BitVec.ofNat 32 (l.foldl (fun acc x => if x.1.acc = .wo then acc else acc + fieldInWord x.2.1 x.2.2 (s.view q x.2.1)) 0)

/-- The live 32-bit register at an address as requester q reads it, without side effect; zero where no register lies (R28, R390). The
window pages' registers are held per requester (R43) and are no part of it. -/
def State.peekAs (s : State) (q a : Nat) : Word := s.wordOf q (fieldsAt (pageRows a) (a - a % 4))

/-- The live 32-bit register at a PF0 BAR0 offset (R390). -/
def State.peek (s : State) (a : Nat) : Word := s.peekAs 0 a

end Sys2Proof.Machine
end

