-- ==== Sys2Proof/Machine/Evr.lean ====
section
/-! DEFINITION. The event recorder: staging, merging, the log and what each function sees of it (R383 to R396, R472, R473). -/

namespace Sys2Proof.Machine

/-- An event as its block reports it (R384, R386). -/
structure Event where
  page : Nat
  code : Nat
  sev : Nat
  part : Nat := 0
  arg : Nat := 0
  deriving DecidableEq, Repr

/-- Word w of a snapshot-list entry (R402). -/
def listWord (l : List Word) (w : Nat) : Nat := (l.getD w 0).toNat

/-- The snapshot list an event uses: the lowest-indexed valid entry that names its page and code (R390). -/
def State.snapList (s : State) (page code : Nat) : Option (Nat × List Word) :=
  s.evr.snapLists.find? (fun e =>
    let w0 := listWord e.2 0
    bitOf w0 8 && w0 % 256 == page && (bitOf w0 9 || w0 / 65536 == code))

/-- The snapshot values of a list, in list order (R390): a live register, or zero on the window pages. -/
def State.snapshots (s : State) (l : List Word) : List Word :=
  ((upTo 8).filter (fun i => bitOf (listWord l (i + 1)) 0)).map (fun i =>
    let a := listWord l (i + 1) / 4 % 2 ^ 18 * 4
    if isWinPage (a / 0x1000) then 0 else s.peek a)

/-- PUBLIC of a new record, by EVR_CFG as it stands (R394). -/
def State.publicOf (s : State) (e : Event) : Bool :=
  e.page == 0x0F || (e.part == 0 && s.on F.EVR_CFG_PUB_EN && decide (s.rd F.EVR_CFG_PUB_SEV ≤ e.sev))

/-- The record of an event as it enters the staging queue (R384, R389, R390). -/
def State.record (s : State) (e : Event) : EvrRec :=
  let l := s.snapList e.page e.code
  let snaps := (l.map (fun x => s.snapshots x.2)).getD []
  { seq := 0, page := e.page, sev := e.sev, code := e.code, rep := 1, part := e.part, pub := s.publicOf e,
    list := if snaps = [] then 0 else (l.map (·.1)).getD 0, snaps := snaps, arg := e.arg }

/-- Two records of one kind, of which the older can count another occurrence (R387). -/
def EvrRec.merges (a : EvrRec) (page code part sev : Nat) : Bool :=
  a.page == page && a.code == code && a.part == part && a.sev == sev && decide (a.rep < 0xFFFF)

/-- Change the event recorder's state. -/
def State.setEvr (s : State) (e : EvrState) : State := { s with evr := e }

/-- Put a record into the staging queue, or merge it into the newest staged entry; false where there is no room for it (R387, R389). -/
def State.enstage (s : State) (e : Event) : Option State :=
  match s.evr.staging.getLast? with
  | some r =>
    if r.merges e.page e.code e.part e.sev then
      some (s.setEvr { s.evr with staging := s.evr.staging.dropLast ++ [{ r with rep := r.rep + 1 }] })
    else if s.evr.staging.length < 32 then some (s.setEvr { s.evr with staging := s.evr.staging ++ [s.record e] }) else none
  | none => some (s.setEvr { s.evr with staging := [s.record e] })

/-- One event is lost (R389, R472): counted, with the MISSED interrupt unless EVR is disabled. -/
def State.missEvent (s : State) (irq : Bool) : State :=
  let s := (s.setEvr { s.evr with lostSince := s.evr.lostSince + 1 }).inc F.EVR_MISSED_COUNT
  if irq then s.cause0 0x0F 3 else s

/-- Stage the MISSED record once the queue has room (R389, R472). -/
def State.stageMissed (s : State) : State :=
  if s.evr.lostSince ≠ 0 ∧ s.en 0x0F = true ∧ s.evr.staging.length < 32 then
    match s.enstage { page := 0x0F, code := 2, sev := 1, arg := s.evr.lostSince } with
    | some t => t.setEvr { t.evr with lostSince := 0 }
    | none => s
  else s

/-- An event arises (R389, R472). -/
def State.event (s : State) (e : Event) : State :=
  if !s.en 0x0F then s.missEvent false
  else match s.enstage e with
    | some t => t
    | none => s.missEvent true

/-- A requester sees a record (R394): PF0 and the debug aperture all of them. -/
def visible (r : Nat) (e : EvrRec) : Bool := r == 0 || r == 65 || e.part == r || e.pub

/-- The state with a requester's own state set. -/
def State.setReq (s : State) (r : Nat) (x : ReqState) : State := { s with req := Tbl.set {} s.req r x }

/-- Functions that exist, and PF0. -/
def State.functions (s : State) : List Fn := (List.finRange 65).filter (fun f => s.fnExists f.val)

/-- Removed records set LOST of each requester that saw one of them at or above its cursor, and with it the LOST interrupt of a function's window
page (R393). -/
def State.loseRecords (s : State) (gone : List EvrRec) : State :=
  let hit (s : State) (r : Nat) : Bool := gone.any (fun e => visible r e && decide ((s.reqOf r).cursor ≤ e.seq))
  let s := s.functions.foldl (fun s f =>
    if hit s f.val then
      (s.setReq f.val { s.reqOf f.val with lost := true }).cause f (if f.val = 0 then 0x0F else 4) 1
    else s) s
  if hit s 65 then s.setReq 65 { s.reqOf 65 with lost := true } else s

/-- NEW_SEV of a function (R396). -/
def State.newSev (s : State) (f : Fn) : Nat :=
  if f.val = 0 then s.rd F.EVR_CFG_NEW_SEV else s.rd (F.VF_EVR_NEW_SEV (pageBase f.val 4))

/-- A new record enters the log with the next SEQ (R383), and the NEW and CRIT interrupts follow (R396). -/
def State.logRecord (s : State) (r : EvrRec) : State :=
  let r := { r with seq := s.rd F.EVR_SEQ_NEXT }
  let s := ((s.setEvr { s.evr with log := s.evr.log ++ [r] }).wr F.EVR_SEQ_NEXT (r.seq + 1)).stat 31
  let s := s.functions.foldl (fun s f =>
    if visible f.val r && decide (s.newSev f ≤ r.sev) then s.cause f (if f.val = 0 then 0x0F else 4) 0 else s) s
  if r.sev = 3 then s.cause0 0x0F 4 else s

/-- The record that R388 overwrites: the lowest SEQ among those of no higher severity. The log is in SEQ order. -/
def victim (log : List EvrRec) (sev : Nat) : Option EvrRec := log.find? (fun x => decide (x.sev ≤ sev))

/-- A record that no record of the log takes up enters a log of 4,096 records at most (R388). -/
def State.admitRecord (s : State) (r : EvrRec) : State :=
  if s.evr.log.length < 4096 then s.logRecord r
  else match victim s.evr.log r.sev with
    | some v => ((s.setEvr { s.evr with log := dropFirst (fun x => x == v) s.evr.log }).loseRecords [v]).logRecord r
    | none => (s.inc F.EVR_DROPPED_COUNT).cause0 0x0F 2

/-- A staged entry enters the log as one event that occurred REPEAT times (R387, R473). -/
def State.logEntry (s : State) (r : EvrRec) : State :=
  match s.evr.log.getLast? with
  | some n =>
    if n.merges r.page r.code r.part r.sev then
      let k := min r.rep (0xFFFF - n.rep)
      let s := s.setEvr { s.evr with log := s.evr.log.dropLast ++ [{ n with rep := n.rep + k }] }
      if r.rep = k then s else s.admitRecord { r with rep := r.rep - k }
    else s.admitRecord r
  | none => s.admitRecord r

/-- EVR_LOG_ENTRY (R389, R391, R472): the oldest staged entry moves into the log. -/
def execEvrLogEntry (s : State) : Host.Outcome State Fault Refusal :=
  .next (match s.evr.staging with
    | [] => s
    | r :: rest =>
      if s.live 0x0F then ((s.setEvr { s.evr with staging := rest }).logEntry r).stageMissed else s)

/-- CLEAR (R395): every record is removed and a CLEARED record staged. A VF page has no clear. -/
def State.clearLog (s : State) : State :=
  let gone := s.evr.log
  ((s.setEvr { s.evr with log := [] }).loseRecords gone).event { page := 0x0F, code := 1, sev := 0, arg := gone.length }

end Sys2Proof.Machine
end

