-- ==== Sys2Proof/Machine/Record.lean ====
section
/-! DEFINITION. What comes into effect is recorded: journal records and groups (R229, R243, R244), their append and durability (R246, R247,
R427, R431), and the opening and ending of epochs that wait on them (R206, R207, R222). -/

namespace Sys2Proof.Machine

/-! ## Epoch numbers and image words -/

/-- Epoch number a is later than b (R207). -/
def later (a b : Nat) : Bool := let d := (a + 2 ^ 32 - b % 2 ^ 32) % 2 ^ 32; decide (1 ≤ d ∧ d < 2 ^ 31)

/-- Word W0 of a circuit-table entry (R224). -/
def circW0 (state down owner : Nat) (i : Image) : Nat :=
  state % 8 + i.path % 4 * 2 ^ 3 + down % 8 * 2 ^ 5 + owner % 128 * 2 ^ 8 + b2n i.keyEn * 2 ^ 15 + i.keySlot % 1024 * 2 ^ 16

/-- Word W1 of a circuit-table entry (R224). -/
def Image.w1 (i : Image) : Nat :=
  i.portA % 16 + i.pairsA % 16 * 2 ^ 4 + i.subA % 16 * 2 ^ 8 + i.hopsA % 8 * 2 ^ 12 + i.portB % 16 * 2 ^ 16 + i.pairsB % 16 * 2 ^ 20 +
    i.subB % 16 * 2 ^ 24 + i.hopsB % 8 * 2 ^ 28

/-- Word W2 of a circuit-table entry (R224). -/
def Image.w2 (i : Image) : Nat := i.peerA % 2 ^ 14 + i.peerB % 2 ^ 14 * 2 ^ 16

/-- The image that words W0 to W2 hold (R224). -/
def imageOf (w0 w1 w2 : Nat) : Image :=
  { path := w0 / 2 ^ 3 % 4, keyEn := bitOf w0 15, keySlot := w0 / 2 ^ 16 % 1024, portA := w1 % 16, pairsA := w1 / 2 ^ 4 % 16,
    subA := w1 / 2 ^ 8 % 16, hopsA := w1 / 2 ^ 12 % 8, portB := w1 / 2 ^ 16 % 16, pairsB := w1 / 2 ^ 20 % 16, subB := w1 / 2 ^ 24 % 16,
    hopsB := w1 / 2 ^ 28 % 8, peerA := w2 % 2 ^ 14, peerB := w2 / 2 ^ 16 % 2 ^ 14 }

/-- An entry of the circuit table. -/
def State.circuit (s : State) (c : Nat) : Circuit := Tbl.get {} s.csq.circuits c

/-- The state with an entry of the circuit table set. -/
def State.setCircuit (s : State) (c : Nat) (x : Circuit) : State :=
  { s with csq := { s.csq with circuits := Tbl.set {} s.csq.circuits c x } }

/-- A slot of the schedule table. -/
def State.slot (s : State) (n : Nat) : Slot := Tbl.get {} s.csq.slots n

/-- The state with a slot of the schedule table set. -/
def State.setSlot (s : State) (n : Nat) (x : Slot) : State := { s with csq := { s.csq with slots := Tbl.set {} s.csq.slots n x } }

/-! ## Records -/

/-- The CIRCUIT_DELTA record of an entry (R244): STATE FREE means cleared. -/
def deltaOf (c : Nat) (x : Circuit) : RecPay :=
  .circuitDelta (BitVec.ofNat 10 c).toFin (BitVec.ofNat 32 x.epoch) (BitVec.ofNat 32 (circW0 x.state x.down x.owner x.img))
    (BitVec.ofNat 32 x.img.w1) (BitVec.ofNat 32 x.img.w2) (BitVec.ofNat 32 x.label)

/-- The SCHED record of a slot (R244). -/
def schedOf (n : Nat) (x : Slot) : RecPay :=
  .sched (BitVec.ofNat 4 n).toFin (BitVec.ofNat 2 x.st) (BitVec.ofNat 32 x.epoch) (BitVec.ofNat 64 x.act)

/-- The KEYMETA record of a key slot (R244). -/
def keymetaOf (n : Nat) (loaded : Bool) (blob : Block64) : RecPay := .keymeta (BitVec.ofNat 10 n).toFin loaded blob

/-- The active mirrors the record (R229). -/
def recMirrored : RecPay → Bool
  | .cal .. => false
  | .mark .. => false
  | _ => true

/-! ## Journal appends (R246, R247, R427) -/

/-- Change the journal's state. -/
def State.setJnl (s : State) (j : JnlState) : State := { s with jnl := j }

/-- Appends are durable at once: JNL is disabled, has no flash, or BYPASS is set (R247, R427). -/
def State.jnlThrough (s : State) : Bool := !s.en 0x09 || s.jnl.noFlash || s.on F.JNL_CFG_BYPASS

/-- Bytes of a flash region: half the part (R241). -/
def State.regionSize (s : State) : Nat := 2 ^ (s.rd F.JNL_FLASH_SIZE_LOG2 - 1)

/-- Bytes of a list of records. -/
def recsBytes (l : List JRec) : Nat := (l.map recBytes).sum

/-- Bytes of the journal's queue that are not in flash. -/
def State.queueBytes (s : State) : Nat := recsBytes s.jnl.queue - s.jnl.headDone

/-- The region is full for the appends that wait: JNL_FULL (R249). -/
def State.jnlFull (s : State) : State :=
  if s.on F.JNL_STAT_FULL then s else ((s.wr F.JNL_STAT_FULL 1).cause0 0x09 3).fault 34

/-- Record n is appended: the active has it to send, after a handover if one is under way (R229, R236). -/
def State.stream (s : State) (n : Nat) (r : JRec) : State :=
  if n ≤ s.jnl.streamed then s
  else
    let s := s.setJnl { s.jnl with streamed := n }
    if s.rd F.TWN_STAT_ROLE = 1 ∧ r.mirror = false ∧ recMirrored r.pay = true then
      let x : TwinOut := { n := n, rcd := r }
      if s.twn.handing then { s with twn := { s.twn with held := s.twn.held ++ [x] } }
      else { s with twn := { s.twn with sendq := s.twn.sendq ++ [x] } }
    else s

/-- Records that wait are appended, in order, and take their SEQ (R242, R243, R249): once a replay has reached DONE, while the queue has room for 64, and while
the region holds them. None is appended while a compaction writes END (R248). -/
def State.refill (s : State) : Nat → State
  | 0 => s
  | k + 1 =>
    match s.jnl.held with
    | [] => s
    | r :: t =>
      if s.jnl.ready = false ∨ s.rd F.JNL_STAT_CSTATE = 5 ∨ 64 ≤ s.jnl.queue.length then s
      else if s.regionSize < s.rd F.JNL_USED_BYTES + s.queueBytes + recBytes r then s.jnlFull
      else
        let r := { r with seq := s.rd F.JNL_SEQ_SEQ }
        let n := s.jnl.taken + 1
        (((s.setJnl { s.jnl with held := t, queue := s.jnl.queue ++ [r], taken := n }).wr F.JNL_SEQ_SEQ (r.seq + 1)).stream n r).refill k

/-- What waits to be appended is appended as far as it may be. -/
def State.appendWaiting (s : State) : State := s.refill s.jnl.held.length

/-- A block hands one record over to be appended: it is durable at once where nothing is written to flash, in which case its SEQ is a free value (R246, R247,
R427; DESIGN CHOICE: log entry 115). -/
def State.append (s : State) (pay : RecPay) (mirror : Bool := false) : State :=
  let n := s.jnl.asked + 1
  if s.jnlThrough then
    let (v, s) := s.free
    let s := s.setJnl { s.jnl with asked := n, taken := n, durable := n, queue := [], held := [], headDone := 0 }
    s.stream n { seq := v.toNat % 2 ^ 64, mirror := mirror, pay := pay }
  else (s.setJnl { s.jnl with asked := n, held := s.jnl.held ++ [{ seq := 0, mirror := mirror, pay := pay }] }).appendWaiting

/-- Append a group: its records and the EPOCH_COMMIT that closes it (R229). -/
def State.appendGroup (s : State) (pays : List RecPay) (epoch time : Nat) (side : Bool) (full takeover mirror : Bool := false) : State :=
  (pays.foldl (fun s p => s.append p mirror) s).append
    (.commit (BitVec.ofNat 32 epoch) pays.length side full takeover (BitVec.ofNat 64 time)) mirror

/-- Append a side group (R229). -/
def State.sideGroup (s : State) (pays : List RecPay) : State := s.appendGroup pays (s.rd F.CSQ_LAST_EPOCH_EPOCH) 0 true

/-! ## Epochs open and end (R206, R222) -/

/-- Change the circuit sequencer's state. -/
def State.setCsq (s : State) (c : CsqState) : State := { s with csq := c }

/-- An epoch CSQ still holds. -/
def State.epoch? (s : State) (n : Nat) : Option Epoch := s.csq.epochs.find? (fun e => e.num == n)

/-- Change an epoch. -/
def State.updEpoch (s : State) (n : Nat) (f : Epoch → Epoch) : State :=
  s.setCsq { s.csq with epochs := updFirst (fun e => e.num == n) f s.csq.epochs }

/-- The OPEN epoch. -/
def State.openEpoch? (s : State) : Option Epoch := s.csq.epochs.find? (fun e => e.st == 0)

/-- Replay is between PROBE and RECOVER: EPOCH_PREPARE is held (R428). -/
def State.replayHolds (s : State) : Bool := decide (s.rd F.JNL_STAT_RSTATE ∈ [1, 2, 3, 4])

/-- EPOCH_PREPARE's own effect, once it may proceed: BAD_CMD by R206, or the epoch is OPEN. -/
def State.prepareEpoch (s : State) (id : Nat) (e : Block64) : State :=
  let n := byteField e 16 0 32
  if (s.openEpoch?).isSome then s.finish id { status := 4, detail := 0x21 }
  else if n = 0 ∨ (match s.csq.floor with | none => false | some f => !later n f) = true then s.finish id { status := 4, detail := 0x20 }
  else
    ((s.setCsq { s.csq with epochs := s.csq.epochs ++ [{ num := n, pin := byteField e 20 0 1 == 1 }], floor := some n }).wr
      F.CSQ_OPEN_EPOCH_EPOCH n).finish id {}

/-- An EPOCH_PREPARE may proceed: fewer than 16 epochs are held, no replay is under way, CSQ is not frozen (R206, R223, R428). -/
def State.canPrepare (s : State) : Bool := decide (s.csq.epochs.length < 16) && !s.replayHolds && !s.frozen 0x07

/-- A held EPOCH_PREPARE proceeds once it may (R206, R428). -/
def State.resumePrepare (s : State) : State :=
  match s.que.inflight.find? (fun c => c.wait == .prepare) with
  | some c => if s.canPrepare then s.prepareEpoch c.id c.e else s
  | none => s

/-- RESULT of EPOCH_COMMIT (R211). -/
def Epoch.result (e : Epoch) : Nat :=
  let late := if e.late ∧ e.t ≠ 0 then min ((e.effect - e.t) / 65536) (2 ^ 32 - 1) else 0
  e.effect + e.changes * 2 ^ 64 + e.failed * 2 ^ 96 + late * 2 ^ 128 + e.withdrawn * 2 ^ 160

/-- EPOCH_COMMIT of an epoch completes. -/
def State.finishCommit (s : State) (e : Epoch) (x : Cpl) : State :=
  match e.cmd with
  | some id => s.finish id x
  | none => s

/-- An epoch in RECORD whose commit record is durable is DONE (R222). -/
def State.epochDone (s : State) (e : Epoch) : State :=
  let s := (s.setCsq { s.csq with epochs := dropFirst (fun x => x.num == e.num) s.csq.epochs }).cause0 0x07 0
  (s.finishCommit e { result := e.result }).resumePrepare

/-! ## Durability (R246, R431) -/

/-- SCHED_LOAD takes effect (R212): the selected slots are replaced, and those whose time has passed are MISSED. -/
def State.scheduled (s : State) (id : Nat) (l : List (Nat × Slot)) : State :=
  let now (x : Slot) : Slot := if x.st = 1 ∧ x.act < s.time.now.toNat then { x with st := 3 } else x
  let t := l.foldl (fun t x => t.setSlot x.1 (now x.2)) s
  t.finish id { result := l.foldl (fun m x => if (now x.2).st = 3 then m + 2 ^ x.1 else m) 0 }

/-- The commands whose record is durable complete, and the epochs in RECORD end, one after the other. -/
def State.releaseDurable (s : State) : Nat → State
  | 0 => s
  | n + 1 =>
    let done (c : Cmd) : Bool := match c.wait with
      | .durable k _ => decide (k ≤ s.jnl.durable)
      | .schedule k _ => decide (k ≤ s.jnl.durable)
      | _ => false
    match s.csq.epochs.find? (fun e => e.st == 5 && decide (e.seq ≤ s.jnl.durable)) with
    | some e => (s.epochDone e).releaseDurable n
    | none =>
      match s.que.inflight.find? done with
      | some c =>
        (match c.wait with
        | .durable _ x => if csqOp (opcode c.e) then s.finish c.id x else s.complete c.id x
        | .schedule _ l => s.scheduled c.id l
        | _ => s).releaseDurable n
      | none => s

/-- Everything that waits for records now durable goes on. -/
def State.durableNow (s : State) : State := s.releaseDurable (s.csq.epochs.length + s.que.inflight.length)

/-- A command completes once the records appended so far are durable (R431). -/
def State.completeDurable (s : State) (id : Nat) (x : Cpl) : State := (s.setWait id (.durable s.jnl.asked x)).durableNow

end Sys2Proof.Machine
end

