-- ==== Sys2Proof/Machine/Light.lean ====
section
/-! DEFINITION. Rings, cross-connect and link units as every block sees them: ring numbers (R101), optical states (R102), the cross-connect's
conditions (R104), channels of an image (R194), lane pairs and λS (R95, R189). -/

namespace Sys2Proof.Machine

/-! ## Rings (R101 to R106) -/

/-- A ring's state. -/
def State.ring (s : State) (r : Nat) : Ring := Tbl.get {} s.rcu.rings r

/-- The state with a ring's state set. -/
def State.setRing (s : State) (r : Nat) (x : Ring) : State := { s with rcu := { s.rcu with rings := Tbl.set {} s.rcu.rings r x } }

/-- Ring r is ON. -/
def State.ringOn (s : State) (r : Nat) : Bool := (s.ring r).opt == .on

/-- Some circuit-table entry uses port p (R104); a PSM run that claims it counts as one (R295). -/
def State.portInTable (s : State) (p : Nat) : Bool :=
  s.psm.runs.any (fun r => r.1 == p) || s.csq.circuits.any (fun c => c.2.state != 0 && (c.2.img.portA == p || (c.2.img.path != 0 && c.2.img.portB == p)))

/-- PFE allows ring r to move to ON, or to leave BLOCK (R104): the conditions hold after the move. -/
def State.xcAllows (s : State) (r : Nat) : Bool :=
  if r < 144 then
    let e := r / 9
    let k := r % 9
    decide (k = 8) || (upTo 16).all (fun i => !s.ringOn (cellRing i e k))
  else if r < 288 then
    let i := (r - 144) / 9
    let k := (r - 144) % 9
    decide (k = 8) || (upTo 16).all (fun e => !s.ringOn (cellRing i e k))
  else
    let k := (r - 288) / 256
    let i := (r - 288) % 256 / 16
    let e := (r - 288) % 16
    !s.ringOn (dropRing i k) && (upTo 16).all (fun x => x == e || !s.ringOn (cellRing i x k)) &&
      (upTo 16).all (fun x => x == i || !s.ringOn (cellRing x e k)) && (s.ring (modRing e k)).opt == .block &&
      (i != e || (s.on (F.PORT_SHUT_CTRL_LOOP i) && !s.portInTable i))

/-- PFE refuses a ring move (R104). -/
def State.xcConflict (s : State) (r : Nat) : State :=
  ((s.wr F.PFE_XC_STAT_CONFLICT 1).wr F.PFE_XC_STAT_RING r).cause0 0x04 3

/-- The resting state of a ring in no use: modulators BLOCK, other rings PARKED (R106). -/
def restOf (r : Nat) : RingOpt := if r < 144 then .block else .parked

/-- A heater code, held at its ends (R157). -/
def clampCode (x : Int) : Nat := min 65535 x.toNat

/-- A ring PARKED (R128): at ON_CODE − PARK_OFS plus what feed-forward has added since ON_CODE was set (DEDUCED: log entry 96), with no loop. -/
def Ring.parked (x : Ring) : Ring :=
  { x with opt := .parked, goal := .parked, loop := 1, live := clampCode ((x.onCode : Int) - x.parkOfs + x.ff), inWin := 0, outWin := 0, hold := 0,
           prior := 0, unlocked := false }

/-- A ring that starts to acquire ON (R128, R154): from its ON_CODE, or from where the heater stands in BLOCK. -/
def Ring.acquiring (x : Ring) : Ring :=
  { x with opt := .on, goal := .on, loop := 2, live := if x.opt = .block then x.live else clampCode ((x.onCode : Int) + x.ff), inWin := 0, outWin := 0,
           hold := 0, prior := 0, unlocked := false }

/-- A ring moves to its resting state (R106, R154): a modulator acquires in BLOCK, others park. A ring that is off, fenced or unidentified
stays as it is. -/
def State.restRing (s : State) (r : Nat) : State :=
  let x := s.ring r
  if x.loop = 0 ∨ x.loop = 5 ∨ x.loop = 6 then s
  else
    let s := { s with rcu := { s.rcu with acqs := s.rcu.acqs.filter (· != r), acqWait := s.rcu.acqWait.filter (· != r) } }
    if restOf r = .block then
      if x.opt = .block then s.setRing r { x with goal := .block, loop := if x.loop = 1 then 2 else x.loop }
      else s.setRing r { x with opt := .block, goal := .block, loop := 2, inWin := 0, outWin := 0, hold := 0, prior := 0, unlocked := false }
    else s.setRing r x.parked

/-- A ring starts to acquire ON (R128, R154, R202). -/
def State.acquireRing (s : State) (r : Nat) : State :=
  let x := s.ring r
  (({ s with rcu := { s.rcu with acqs := s.rcu.acqs ++ [r], acqWait := s.rcu.acqWait.filter (· != r) } }).setRing r x.acquiring).stat 6

/-- A ring's optical state turned off (R136, R137). -/
def State.offRing (s : State) (r : Nat) (loop : Nat) : State :=
  s.setRing r { s.ring r with opt := .off, goal := .off, loop := loop, live := 0, inWin := 0, outWin := 0, hold := 0, prior := 0, unlocked := false }

/-! ## Images and channels (R194, R197) -/

/-! ## Link units (R95, R172 to R193) -/

/-- A unit's link state, by port × 5 + unit (4 is λS). -/
def State.unit (s : State) (u : Nat) : LinkUnit := Tbl.get {} s.lnk.units u

/-- The state with a unit's link state set. -/
def State.setUnit (s : State) (u : Nat) (x : LinkUnit) : State := { s with lnk := { s.lnk with units := Tbl.set {} s.lnk.units u x } }

/-- Training state of a unit (R189). -/
def State.unitSt (s : State) (u : Nat) : Nat := s.rd (F.PORT_TRAIN_STATE (u / 5) (u % 5))

/-- The state with a unit's training state and failure set, and PAIR_UP or SPARE_UP with it (R189). -/
def State.setUnitSt (s : State) (u st fail : Nat) : State :=
  let p := u / 5
  let s := (s.wr (F.PORT_TRAIN_STATE p (u % 5)) st).wr (F.PORT_TRAIN_FAIL p (u % 5)) fail
  if u % 5 = 4 then s.wr (F.PORT_LNK_STAT_SPARE_UP p) (b2n (st == 7)) else s.setBit (F.PORT_LNK_STAT_PAIR_UP p) (u % 5) (st == 7)

/-- The lines of a unit. -/
def unitLines (u : Nat) : List Nat := if u % 5 = 4 then [8] else [2 * (u % 5), 2 * (u % 5) + 1]

/-- The laser line of line k at port p is present (R97, R100). -/
def State.linePresent (s : State) (p k : Nat) : Bool :=
  if p < 8 then bitOf (s.rd F.PFE_LI0_LINES_PRESENT) k else bitOf (s.rd F.PFE_LI1_LINES_PRESENT) k

/-- The GCM engines are stopped: SEC is in FENCE, or an erase has begun (R326, R328). -/
def State.secGated (s : State) : Bool := s.on F.SEC_STAT_FENCE || s.rd F.SEC_STAT_ERASE != 0

/-- A circuit's link state (R177). -/
def State.circLink (s : State) (c : Nat) : CircLink := Tbl.get {} s.lnk.circs c

/-- The state with a circuit's link state set. -/
def State.setCircLink (s : State) (c : Nat) (x : CircLink) : State := { s with lnk := { s.lnk with circs := Tbl.set {} s.lnk.circs c x } }

/-- A unit's training may start: LNK runs, the port is enabled (R192, R425, R426). -/
def State.mayTrain (s : State) (u : Nat) : Bool := s.live 0x06 && s.en (0x10 + u / 5)

/-- A port's link state. -/
def State.plink (s : State) (p : Nat) : PortLink := Tbl.get {} s.lnk.ports p

/-- The state with a port's link state set. -/
def State.setPlink (s : State) (p : Nat) (x : PortLink) : State := { s with lnk := { s.lnk with ports := Tbl.set {} s.lnk.ports p x } }

/-- The registers that show port p's substitution (R183). -/
def State.showSubst (s : State) (p : Nat) (on : Bool) (k : Nat) : State :=
  (s.wr (F.PORT_LNK_STAT_SUBST p) (b2n on)).wr (F.PORT_LNK_STAT_SUBST_LINE p) k

/-- λS of port p is to stand in for line k of a pair in service (R183): the change is announced on the pair before it happens. -/
def State.substitute (s : State) (p k : Nat) : State := (s.showSubst p true k).setPlink p { s.plink p with tx := some { line := k, on := true } }

/-- λS of port p stands in for line k of a pair that is about to train (R201): there is no changeover. -/
def State.substNow (s : State) (p k : Nat) : State :=
  let x : Subst := { line := k, on := true, told := true, done := true }
  (s.showSubst p true k).setPlink p { s.plink p with tx := some x, rx := some x }

/-- A substitution on port p ends at once (R171), or with the pair it served. -/
def State.dropSubst (s : State) (p : Nat) : State := (s.showSubst p false 0).setPlink p { s.plink p with tx := none, rx := none }

/-- A λS substitution on port p ends with a restore (R183, R204), which is announced in the same way where the substitution was and the pair is still in
service. -/
def State.restoreSubst (s : State) (p : Nat) : State :=
  let x := s.plink p
  match x.tx with
  | some t =>
    if t.on && t.told && s.unitSt (p * 5 + t.line / 2) == 7 then (s.showSubst p false 0).setPlink p { x with tx := some { line := t.line, on := false } }
    else s.dropSubst p
  | none => s.showSubst p false 0

/-- A training finds its port's substitution settled: the line is on λS, or on its own lane again. -/
def State.settleFor (s : State) (u : Nat) : State :=
  let p := u / 5
  let x := s.plink p
  let mine (t : Subst) : Bool := t.line / 2 == u % 5
  match x.tx with
  | some t =>
    if !mine t then s
    else if t.on then s.setPlink p { x with tx := some { t with told := true, done := true }, rx := some { t with told := true, done := true } }
    else s.setPlink p { x with tx := none, rx := none }
  | none => match x.rx with
    | some r => if mine r then s.setPlink p { x with rx := none } else s
    | none => s

/-- The receive buffer share of one pair of port p, in flits (R176): 1 MiB over the pairs that are up or in training (DESIGN CHOICE: log entry 29). -/
def State.creditShare (s : State) (p : Nat) : Nat := 4096 / max 1 ((upTo 4).filter (fun j => s.unitSt (p * 5 + j) != 0)).length

/-- A unit's training starts, at WAIT_LIGHT, or waits until it may (R189, R192, R425). REPLAY_ALLOC and BITS take effect (R108, R175), and the pair
grants its credit share at least (R176). -/
def State.startTraining (s : State) (u : Nat) : State :=
  if s.mayTrain u then
    let s := (s.settleFor u).setUnitSt u 1 0
    let x := s.unit u
    s.setUnit u { x with want := false, back := false, slots := [], fill := [], peer0 := none, peer1 := none,
                         alloc := s.rd (F.PORT_LNK_CFG_REPLAY_ALLOC (u / 5)), bits := s.rd (F.PORT_MOD_CFG_BITS (u / 5)),
                         given := max x.given (x.taken + s.creditShare (u / 5)) }
  else s.setUnit u { s.unit u with want := true }

/-- Flits of a circuit that a unit leaves unacknowledged go to the front of what the circuit sends next (R193, R204, R205): at a RELAY node on the
side they were to leave on. -/
def State.takeBack (s : State) (c side : Nat) (l : List Flit) : State :=
  if l = [] then s
  else
    let x := s.circLink c
    if (s.circuit c).img.path = 2 then
      s.setCircLink c { x with relay := l.map (fun f => { side := 1 - side, unit := none, flit := f }) ++ x.relay }
    else s.setCircLink c { x with again := l ++ x.again }

/-- A unit goes DOWN and is bound to no circuit; its unacknowledged flits go back to its circuit (R193, R204). -/
def State.releaseUnit (s : State) (u : Nat) : State :=
  let x := s.unit u
  let s := match x.circ with
    | some c => s.takeBack c x.side x.resend
    | none => s
  (s.setUnit u { bits := x.bits }).setUnitSt u 0 0

/-- A lane's codeword lock (R162). -/
def State.lane (s : State) (p k : Nat) : Lane := Tbl.get {} s.lnk.lanes (p * 9 + k)

/-- The state with a lane's codeword lock set. -/
def State.setLane (s : State) (p k : Nat) (x : Lane) : State := { s with lnk := { s.lnk with lanes := Tbl.set {} s.lnk.lanes (p * 9 + k) x } }

/-! ## Lanes under calibration (R140, R146, R156) -/

/-- The lane of an attempt is out of service: switched out and not yet back (R155). -/
def Attempt.out (a : Attempt) : Bool :=
  match a.step with
  | .measA | .measB | .applyStep | .switchBack => true
  | _ => false

/-- The lane pair, or λS, of a channel. -/
def chanUnit (ch : Nat) : Nat := ch / 9 * 5 + (if ch % 9 = 8 then 4 else ch % 9 / 2)

/-- A lane of the unit is out of service for an INTERRUPT attempt: the unit is in no training (R140, R191). -/
def State.calOut (s : State) (u : Nat) : Bool := s.rcu.attempts.any (fun a => a.out && !a.spare && chanUnit a.ch == u)

/-- The lane of an attempt comes back: λS is released, or the pair returns through CW_LOCK with no new exchange, as soon as its lanes hold codeword
lock (R191). -/
def State.returnLane (s : State) (a : Attempt) : State :=
  if !a.out then s
  else if a.spare then s.restoreSubst (a.ch / 9)
  else
    let u := chanUnit a.ch
    if s.unitSt u = 3 then ((unitLines u).foldl (fun s k => s.setLane (u / 5) k {}) s).setUnit u { s.unit u with back := true } else s

/-- The attempts that satisfy p are abandoned: lanes return, measurements are discarded (R146, R147, R156). -/
def State.abandon (s : State) (p : Attempt → Bool) : State :=
  let s := (s.rcu.attempts.filter p).foldl State.returnLane s
  { s with rcu := { s.rcu with attempts := s.rcu.attempts.filter (fun a => !p a),
                               glides := s.rcu.glides.filter (fun g => !(s.rcu.attempts.any (fun a => p a && a.ch == g.1))) } }

end Sys2Proof.Machine
end

