-- ==== Sys2Proof/Machine/Claim.lean ====
section
/-! DEFINITION. PSM claims as the light path and the circuits see them: the channels and rings a run claims (R295), and how a run fails (R310,
R311). -/

namespace Sys2Proof.Machine

/-! ## Claims (R295) -/

/-- The lines of its port that a run claims. -/
def psmClaimed (e : Block64) : List Nat := if psmSummer e then upTo 8 else psmLineList e

/-- A run claims a channel. -/
def State.claimed (s : State) (ch : Nat × Nat) : Bool := s.psm.runs.any (fun r => r.1 == ch.1 && (psmClaimed r.2.e).contains ch.2)

/-- The modulator and drop rings of the channels a run on port p claims. -/
def psmRings (p : Nat) (e : Block64) : List Nat := (psmClaimed e).map (modRing p) ++ (psmClaimed e).map (dropRing p)

/-- The run on a port. -/
def State.prun? (s : State) (p : Nat) : Option PRun := (s.psm.runs.find? (fun r => r.1 == p)).map (·.2)

/-- Change the photonic summation state. -/
def State.setPsm (s : State) (x : PsmState) : State := { s with psm := x }

/-- Change the run on a port. -/
def State.updRun (s : State) (p : Nat) (f : PRun → PRun) : State :=
  s.setPsm { s.psm with runs := updFirst (fun r => r.1 == p) (fun r => (r.1, f r.2)) s.psm.runs }

/-- STATE of the run on a port (R310). -/
def State.psmState (s : State) (p : Nat) : Nat := s.rd (F.PSM_STAT_STATE p)

/-- A run is in ALIGN, STREAM or REPAIR, where a FREEZE is deferred (R311). -/
def State.psmBusy (s : State) : Bool := s.psm.runs.any (fun r => decide (4 ≤ s.psmState r.1 ∧ s.psmState r.1 ≤ 6))

/-- A FREEZE that waited for the runs takes effect (R311). -/
def State.psmUnfreeze (s : State) : State :=
  if s.on (F.PAGE_STAT_FREEZE_PEND 0x23000) ∧ s.psmBusy = false then s.freezeNow 0x23 9 else s

/-- RESULT of PSM_REDUCE (R308): samples, OVR, DIRTY, repaired, unrepaired of a summer; samples sent of a contributor. -/
def PRun.result (r : PRun) : Nat :=
  let n := psmSamples r.e
  if psmSummer r.e then
    n + r.ovr.length * 2 ^ 32 + r.dirty * 2 ^ 64 + r.repaired * 2 ^ 96 + (r.ovr.length + r.dirty - r.repaired) * 2 ^ 128
  else n

/-- The command of a run completes, unless its function was reset. -/
def State.psmComplete (s : State) (p st : Nat) (samples : Bool) : State :=
  match s.prun? p with
  | none => s
  | some r =>
    if r.completed then s
    else
      let s := s.updRun p (fun r => { r with completed := true })
      if r.flr then s else s.complete r.id { status := st, result := if samples then r.result else 0 }

/-- Status of a failure reason (R310). -/
def psmStatus (reason : Nat) : Nat := match reason with | 5 => 6 | 6 => 6 | 7 => 6 | 9 => 6 | 8 => 2 | _ => 3

/-- A run fails (R310): FAILED with its reason, modulators to BLOCK, PSM_FAIL; the claim is freed by RELEASE. -/
def State.psmFail (s : State) (p reason : Nat) : State :=
  match s.prun? p with
  | none => s
  | some r =>
    if r.failed || 7 ≤ s.psmState p then s
    else
      let streaming : Bool := decide (5 ≤ s.psmState p)
      let s := (s.wrs [(F.PSM_STAT_STATE p, 9), (F.PSM_STAT_REASON p, reason)]).updRun p (fun r => { r with failed := true })
      let s := (psmClaimed r.e).foldl (fun s k => s.restRing (modRing p k)) s
      let s := (s.cause0 0x23 1).fault 44 2 r.owner
      let s := if h : r.owner < 65 then (if r.owner = 0 then s else s.cause ⟨r.owner, h⟩ 3 1) else s
      let s := if reason = 6 then
          ((s.setWait r.id (.released { status := 6, result := if streaming then r.result else 0 })).updRun p (fun r => { r with completed := true }))
        else s.psmComplete p (psmStatus reason) streaming
      s.psmUnfreeze

end Sys2Proof.Machine
end

