-- ==== Sys2Proof/Machine/Csq.lean ====
section
/-! DEFINITION. The circuit sequencer: admission of changes (R198 to R200, R218, R219), moves (R201 to R205), epochs (R206 to R211, R221 to
R223), what becomes of circuits that lose pairs or keys (R216, R217). -/

namespace Sys2Proof.Machine

/-! ## Circuits go down (R193, R217) -/

/-- Quarantined tags of circuit c are free (R277). -/
def State.freeQuarantine (s : State) (c : Nat) : State :=
  { s with rme := { s.rme with ops := s.rme.ops.filter (fun o => !(o.stage == .quarantined && o.circ == some c)) } }

/-- A circuit in service becomes DOWN with a reason, CIRCUIT_DOWN is raised (R217), and its quarantined tags are free (R277). -/
def State.circuitDown (s : State) (c reason : Nat) : State :=
  let x := s.circuit c
  if x.state = 1 ∨ x.state = 2 then
    (((s.freeQuarantine c).setCircuit c { x with state := 3, down := reason }).cause0 0x07 5).fault 31 2 x.owner c
  else s

/-- An image has none of its lane pairs left (R217). -/
def Image.allLost (i : Image) (lost : List Nat) : Bool := i.units.all lost.contains

/-- An active image loses lane pair u (R193, R217): the circuit is DEGRADED, or DOWN with no pair left. Its flits go back to the
circuit's queue. -/
def State.pairLost (s : State) (u : Nat) : State :=
  match (s.unit u).circ with
  | none => s
  | some c =>
    let x := s.circuit c
    let y := s.unit u
    let s := (s.takeBack c y.side y.resend).setUnit u { y with resend := [], replay := [] }
    if (x.state = 1 ∨ x.state = 2) ∧ u ∈ x.img.units ∧ u ∉ x.lost then
      let lost := x.lost ++ [u]
      let s := s.setCircuit c { x with lost := lost, state := 2 }
      if x.img.allLost lost then s.circuitDown c 1 else s
    else s

/-- A pair fails (R193): it is in service no longer, it is marked failed, DEGRADE is raised, and its circuit loses it. -/
def State.degrade (s : State) (u : Nat) : State :=
  let p := u / 5
  if u % 5 = 4 then s
  else
    let s := if s.unitSt u = 7 then s.setUnitSt u 0 0 else s
    (((s.setBit (F.PORT_LNK_STAT_PAIR_FAILED p) (u % 5)).cause0 (0x10 + p) 10).fault 26 1 p).pairLost u

/-! ## Fences and partitions -/

/-- Stack k answers FENCED: fenced by FCU (R370), or barred until it is trained (R346). -/
def State.stackFenced (s : State) (k : Nat) : Bool := bitOf (s.rd F.FCU_FENCE_STACKS) k || s.mss.barred.contains k

/-- A key slot. -/
def State.keySlot (s : State) (n : Nat) : KeySlot := Tbl.get {} s.sec.slots n

/-- The state with a key slot set. -/
def State.setKeySlot (s : State) (n : Nat) (x : KeySlot) : State := { s with sec := { s.sec with slots := Tbl.set {} s.sec.slots n x } }

/-! ## Changes (R218 to R221) -/

/-- Change the list of changes. -/
def State.setChanges (s : State) (l : List Change) : State := s.setCsq { s.csq with changes := l }

/-- An entry of the change list by its number. -/
def isChange (id : Nat) (x : Change) : Bool := x.id == id

/-- Change a change. -/
def State.updChange (s : State) (id : Nat) (f : Change → Change) : State := s.setChanges (updFirst (isChange id) f s.csq.changes)

/-- The sides of an image that name a line for λS to stand in for, as (port, line) (R197). -/
def Image.subs (i : Image) : List (Nat × Nat) := (i.sides.filter (fun x => x.2.2.1 != 15)).map (fun x => (x.1, x.2.2.1))

/-- A change that is still to come into effect. -/
def Change.pending (x : Change) : Bool := x.st != 7

/-- What a change has built is taken back (R210): new rings rest, new pairs go DOWN, substitutions end. -/
def State.unbuild (s : State) (x : Change) : State :=
  if x.st = 4 ∨ x.st = 5 ∨ x.st = 6 ∨ x.st = 7 then
    let s := { s with rcu := { s.rcu with acqWait := s.rcu.acqWait.filter (fun r => !x.rings.contains r) } }
    let s := x.rings.foldl State.restRing s
    let s := x.units.foldl State.releaseUnit s
    if x.units = [] then s else x.img.subs.foldl (fun s p => s.restoreSubst p.1) s
  else s

/-- CSQ_FAIL names the last change that failed and why (R221). -/
def State.noteFail (s : State) (c reason : Nat) : State := (s.wr F.CSQ_FAIL_CIRCUIT c).wr F.CSQ_FAIL_REASON reason

/-- A change fails (R221): its reason is recorded, what it built is taken back, its queue entry is freed. One that has failed stays as it is. -/
def State.failChange (s : State) (id reason : Nat) : State :=
  match s.csq.changes.find? (isChange id) with
  | none => s
  | some x =>
    if x.st = 7 then s
    else
      let s := (s.unbuild x).updChange id (fun x => { x with st := 7, fail := reason, holds := false, rings := [], units := [] })
      let status := match reason with | 1 => 2 | 3 => 3 | 4 => 3 | 5 => 5 | _ => 6
      let s := s.updEpoch x.epoch (fun e => { e with failStatus := if e.failStatus = 0 then status else e.failStatus })
      ((s.noteFail x.circ reason).cause0 0x07 3).fault 29 0 0 x.circ

/-- The changes that satisfy p fail with a reason, in the order of their admission, and the sequencer takes note (R221). -/
def State.failChanges (s : State) (p : Change → Bool) (reason : Nat) : State :=
  (s.csq.changes.filter (fun x => x.pending && p x)).foldl (fun s x => s.failChange x.id reason) s

/-- The image in service of an entry holds channels: not FREE, and not RESTORED (R429). -/
def Circuit.holds (x : Circuit) : Bool := x.state != 0 && x.state != 4

/-- Two images keep PATH, ports, PAIRS and SUB (R200). -/
def Image.sameLayout (a b : Image) : Bool :=
  a.path == b.path && a.portA == b.portA && a.pairsA == b.pairsA && a.subA == b.subA && a.portB == b.portB && a.pairsB == b.pairsB &&
    a.subB == b.subB

/-- The circuit whose active image holds a channel. -/
def State.holder (s : State) (ch : Nat × Nat) : Option (Nat × Circuit) :=
  s.csq.circuits.find? (fun x => x.2.holds && x.2.img.channels.contains ch)

/-- The change is in-place: the circuit's own active image has the same layout (R200). -/
def State.inPlace (s : State) (c : Nat) (i : Image) : Bool := (s.circuit c).holds && (s.circuit c).img.sameLayout i

/-- The circuit's change that comes into effect next. -/
def State.headChange (s : State) (c : Nat) : Option Change := s.csq.changes.find? (fun x => x.circ == c && x.pending && x.st != 3)

/-- Channel ch of a new image for circuit c in epoch n, as R200 judges it: free or the circuit's own under an in-place change (some false), held by an
image that a change of an earlier epoch releases (some true), or held as R200 forbids or claimed by a PSM run (none; R295). gone is the number of a
change that the new one replaces. -/
def State.judgeChannel (s : State) (c n : Nat) (i : Image) (gone : Option Nat) (ch : Nat × Nat) : Option Bool :=
  let rest := s.csq.changes.filter (fun x => x.pending && some x.id != gone)
  if s.claimed ch || rest.any (fun x => !x.isClear && x.img.channels.contains ch && x.circ != c) then none
  else match s.holder ch with
    | none => some false
    | some (h, _) =>
      if h = c ∧ s.inPlace c i = true then some false
      else if rest.any (fun x => x.circ == h && later n x.epoch && (x.isClear || !x.img.channels.contains ch)) then some true
      else none

/-- Every channel of a new image judged (R200): none if one is held as R200 forbids, else whether the change must wait. -/
def State.judge (s : State) (c n : Nat) (i : Image) (gone : Option Nat) : Option Bool :=
  i.channels.foldl (fun acc ch => match acc, s.judgeChannel c n i gone ch with
    | some a, some b => some (a || b)
    | _, _ => none) (some false)

/-- A later change of the same circuit in epoch n replaces change x (R218): x is in QUEUED or WAIT_CHAN, in the same epoch or in an earlier one without
PIN. -/
def State.replaces (s : State) (n : Nat) (x : Change) : Bool :=
  let pin := match s.epoch? x.epoch with | some e => e.pin | none => false
  (x.st == 1 || x.st == 2) && (x.epoch == n || (later n x.epoch && !pin))

/-- Where a new change for circuit c in epoch n stands towards the circuit's earlier changes (R218): the change it replaces, or the epoch it
waits for. -/
def State.r218 (s : State) (c n : Nat) : Option Change × Option Nat :=
  match s.headChange c with
  | none =>
    match s.csq.changes.find? (fun x => x.circ == c && x.pending) with
    | none => (none, none)
    | some x => (none, some x.waitFor)
  | some x => if s.replaces n x then (some x, none) else (none, some x.epoch)

/-- A change takes its place: READY at once (a CLEAR or an in-place change), QUEUED or WAIT_CHAN (R200, R221). -/
def State.place (s : State) (x : Change) : Change :=
  if x.isClear || s.inPlace x.circ x.img then { x with st := 6, holds := false }
  else match s.judge x.circ x.epoch x.img (some x.id) with
    | some true => { x with st := 2 }
    | _ => { x with st := 1 }

/-! ## Admission (R198, R199, R219) -/

/-- The image a CIRCUIT_SET carries (R198). -/
def imageOfEntry (e : Block64) : Image :=
  { path := byteField e 18 0 2, keyEn := byteField e 18 2 1 == 1, keySlot := byteField e 28 0 10, portA := byteField e 20 0 4,
    pairsA := byteField e 21 0 4, subA := byteField e 22 0 4, hopsA := byteField e 19 0 3, portB := byteField e 20 4 4,
    pairsB := byteField e 21 4 4, subB := byteField e 22 4 4, hopsB := byteField e 19 4 3, peerA := byteField e 24 0 14,
    peerB := byteField e 26 0 14 }

/-- The layout rules of R198 and R199 hold (DETAIL 0x11). -/
def State.layoutOk (s : State) (i : Image) : Bool :=
  let node := s.rd F.GLB_NODE_ID_NODE_ID
  i.pairsA != 0 &&
  (match i.path with
  | 0 => i.portB == 0 && i.pairsB == 0 && i.subB == 15 && i.hopsB == 0 && i.peerB == 0 && i.peerA != node
  | 1 => i.portA != i.portB && i.pairsB == i.pairsA && i.hopsA == 0 && i.hopsB == 0 && i.peerA == 0 && i.peerB == 0 && i.subA == 15 &&
      i.subB == 15
  | 2 => i.portA != i.portB && i.peerA != node && i.peerB != node
  | _ => false)

/-- The HOPS rules of R199 hold (DETAIL 0x12). -/
def State.hopsOk (s : State) (i : Image) : Bool :=
  i.sides.all (fun x => decide (x.2.2.2.1 ≤ 4) && !(decide (3 < x.2.2.2.1) && s.rd (F.PORT_MOD_CFG_BITS x.1) != 0))

/-- Ring r is FENCED or UNIDENT. -/
def State.ringBad (s : State) (r : Nat) : Bool := (s.ring r).loop == 5 || (s.ring r).loop == 6

/-- Channel (p, k) is unavailable to new images (R215). -/
def State.unavailable (s : State) (ch : Nat × Nat) : Bool :=
  s.ringBad (modRing ch.1 ch.2) || s.ringBad (dropRing ch.1 ch.2) ||
    (upTo 9).any (fun k => (s.ring (modRing ch.1 k)).loop == 5 && (s.ring (modRing ch.1 k)).shadow == ch.2 ||
      (s.ring (dropRing ch.1 k)).loop == 5 && (s.ring (dropRing ch.1 k)).shadow == ch.2) ||
    !s.linePresent ch.1 ch.2

/-- A line of the image is unavailable and SUB does not cover it (R199, R215). -/
def State.lineMissing (s : State) (i : Image) : Bool :=
  i.channels.any (fun ch => !i.subs.contains ch && s.unavailable ch) ||
    (i.path == 1 && i.rings.any s.ringBad)

/-- The twin channel's port (R226). -/
def State.twinPort (s : State) (p : Nat) : Bool := s.on F.TWN_CFG_EN && s.rd F.TWN_CFG_PORT == p

/-- λS of port p is held by another circuit than c. -/
def State.spareHeld (s : State) (c p : Nat) : Bool :=
  s.csq.circuits.any (fun x => x.1 != c && x.2.holds && (x.2.img.subs.map (·.1)).contains p) ||
    s.csq.changes.any (fun x => x.circ != c && x.pending && !x.isClear && (x.img.subs.map (·.1)).contains p)

/-- The SUB rules of R199 hold (DETAIL 0x15). -/
def State.subOk (s : State) (c : Nat) (i : Image) : Bool :=
  i.sides.all (fun x => x.2.2.1 == 15 ||
    (x.2.2.2.1 == 0 && (linesOf x.2.1).contains x.2.2.1 && !s.twinPort x.1 && !s.spareHeld c x.1))

/-- The entry is FREE or belongs to the owner, or R63 lets PF0 clear it (DETAIL 0x16). -/
def State.ownerOk (s : State) (c owner : Nat) (isClear : Bool) : Bool :=
  let x := s.circuit c
  x.state == 0 || x.owner == owner || (isClear && owner == 0 && !s.partExists x.owner)

/-- A key slot is loaded, belongs to the owner, and is bound to no other circuit (R199, R323). -/
def State.slotUsable (s : State) (n owner c : Nat) : Bool :=
  (s.keySlot n).loaded && (s.keySlot n).owner == owner &&
    !s.csq.circuits.any (fun x => x.1 != c && x.2.holds && x.2.img.keyEn && x.2.img.keySlot == n) &&
    !s.csq.changes.any (fun x => x.circ != c && x.pending && x.key == some n)

/-- The checks of R199, in its order: status and DETAIL of the first that fails. -/
def State.r199 (s : State) (c n owner : Nat) (isClear : Bool) (i : Image) : Option (Nat × Nat) :=
  if isClear = false ∧ s.layoutOk i = false then some (4, 0x11)
  else if isClear = false ∧ s.hopsOk i = false then some (4, 0x12)
  else if isClear = false ∧ (s.judge c n i ((s.r218 c n).1.map (·.id))).isNone then some (4, 0x13)
  else if isClear = false ∧ s.lineMissing i = true then some (4, 0x14)
  else if isClear = false ∧ s.subOk c i = false then some (4, 0x15)
  else if s.ownerOk c owner isClear = false then some (4, 0x16)
  else if s.rcu.everDone = false then some (4, 0x17)
  else if isClear = false ∧ i.keyEn = true ∧ i.path ≠ 0 then some (4, 0x18)
  else if (isClear = false ∧ i.ports.any s.portFenced = true) ∨ s.partFenced owner = true then some (2, 0)
  else if isClear = false ∧ i.keyEn = true ∧ s.slotUsable i.keySlot owner c = false then some (5, 0)
  else none

/-- Entries of the change queue an owner holds (R219). -/
def State.queueHeld (s : State) (q : Nat) : Nat := (s.csq.changes.filter (fun x => x.holds && x.owner == q)).length

/-- Partition q is active (R196). -/
def State.partActive (s : State) (q : Nat) : Bool :=
  s.partExists q && (s.csq.circuits.any (fun x => x.2.state != 0 && x.2.owner == q) || decide (s.queueHeld q ≠ 0))

/-- The change queue has room for a change of an owner (R219). -/
def State.queueRoom (s : State) (owner : Nat) : Bool :=
  let need := (upTo 64).foldl (fun n i => if i + 1 ≠ owner ∧ s.partActive (i + 1) = true then n + (4 - s.queueHeld (i + 1)) else n) 0
  decide (need < 256 - s.queueUsed)

/-! ## Epochs advance (R203 to R210, R222) -/

/-- The old images that an epoch in DRAIN has moved circuits away from (R204), and that it has not released yet. -/
def State.drainingImages (s : State) : List Image :=
  (s.csq.epochs.filter (fun e => e.st == 4)).flatMap (fun e =>
    (e.moved.filter (fun m => m.2.holds && !((s.circuit m.1).holds && (s.circuit m.1).img.sameLayout m.2.img) &&
      !(if m.2.img.path = 1 then e.released else e.drained))).map (fun m => m.2.img))

/-- A channel, or λS of a port as line 8, that an image in DRAIN still holds (R204). -/
def State.draining (s : State) (ch : Nat × Nat) : Bool :=
  s.drainingImages.any (fun i => i.channels.contains ch || (ch.2 == 8 && (i.subs.map (·.1)).contains ch.1))

/-- The channels of an image, and λS of the ports where it stands in, as line 8. -/
def Image.lanes (i : Image) : List (Nat × Nat) := i.channels ++ i.subs.map (fun p => (p.1, 8))

/-- A change becomes READY and frees its queue entry (R219, R221). -/
def State.changeReady (s : State) (x : Change) : State := s.updChange x.id (fun x => { x with st := 6, holds := false })

/-- The side of an image, 0 or 1, that lane pair u is on. -/
def Image.sideOf (i : Image) (u : Nat) : Nat := if u / 5 = i.portA then 0 else 1

/-- A change whose rings are locked asks LNK for its pairs (R201, R221); a substituted line's λS stands in from here on. -/
def State.trainChange (s : State) (x : Change) : State :=
  let s := s.updChange x.id (fun x => { x with st := 5 })
  let s := x.img.subs.foldl (fun s p => s.substNow p.1 p.2) s
  x.units.foldl (fun s u => (s.setUnit u { s.unit u with circ := some x.circ, side := x.img.sideOf u, byCsq := true, tries := 0 }).startTraining u) s

/-- An epoch aborts (R210): its changes are withdrawn and EPOCH_COMMIT completes with the status of the cause. An abort with ABORTED that no failed
change caused records reason ABORTED for each change it withdraws (R221; DESIGN CHOICE: log entry 113). -/
def State.abortEpoch (s : State) (e : Epoch) (status : Nat) : State :=
  let mine := s.csq.changes.filter (fun x => x.epoch == e.num)
  let s := mine.foldl State.unbuild s
  let s := s.setCsq { s.csq with changes := s.csq.changes.filter (fun x => x.epoch != e.num),
                                 epochs := dropFirst (fun x => x.num == e.num) s.csq.epochs }
  let s := if status = 6 ∧ e.failStatus = 0 then (mine.filter Change.pending).foldl (fun s x => s.noteFail x.circ 7) s else s
  let s := if e.st = 0 then s.wr F.CSQ_OPEN_EPOCH_EPOCH 0 else s
  let s := ((((s.wr F.CSQ_LAST_ABORTED_EPOCH e.num).inc F.CSQ_ABORTS_COUNT).stat 5).cause0 0x07 2).fault 28
  (s.finishCommit e { status := status }).resumePrepare

/-- The entry that a change puts into service (R195, R224), where old is the entry it replaces. An in-place change trains nothing, so the pairs that the
circuit has lost stay lost (R217). -/
def Change.entry (x : Change) (old : Circuit) : Circuit :=
  if x.isClear then {}
  else
    let lost := if old.holds && old.img.sameLayout x.img then old.lost else []
    let gone : Bool := !lost.isEmpty && x.img.allLost lost
    { state := if gone then 3 else if lost.isEmpty then 1 else 2, down := if gone then 1 else 0, owner := x.owner, img := x.img,
      epoch := x.epoch, label := x.label, lost := lost }

/-- A unit serves circuit c on a side from now on; flits of another circuit that are not acknowledged go back to it (R193, R204). -/
def State.bindUnit (s : State) (c side u : Nat) : State :=
  let x := s.unit u
  match x.circ with
  | some d =>
    if d = c then s.setUnit u { x with side := side, byCsq := false }
    else
      (s.takeBack d x.side x.resend).setUnit u { x with circ := some c, side := side, resend := [], replay := [], byCsq := false }
  | none => s.setUnit u { x with circ := some c, side := side, byCsq := false }

/-- A change's image becomes active (R204). A circuit that is activated, and not moved, starts with no flits under way and, without a key, with CSEQ 0
(R177). -/
def State.activate (s : State) (x : Change) : State :=
  let old := s.circuit x.circ
  let s := if old.holds then s else s.setCircLink x.circ {}
  x.units.foldl (fun s u => s.bindUnit x.circ (x.img.sideOf u) u) (s.setCircuit x.circ (x.entry old))

/-- An epoch takes effect (R204, R209, R222): every READY change's image becomes active, and the epoch enters DRAIN. SWITCH, of 0.5 µs at most, lies
within this one step (DESIGN CHOICE: log entry 111). -/
def State.takeEffect (s : State) (e : Epoch) : State :=
  let mine := s.csq.changes.filter (fun x => x.epoch == e.num)
  let ready := mine.filter (fun x => x.st == 6)
  let moved := ready.map (fun x => (x.circ, s.circuit x.circ))
  let s := ready.foldl State.activate s
  let s := s.setChanges (s.csq.changes.filter (fun x => x.epoch != e.num))
  let s := s.updEpoch e.num (fun e => { e with st := 4, effect := s.time.now.toNat, changes := ready.length,
                                               failed := (mine.filter (fun x => x.st == 7)).length, moved := moved })
  let s := ((s.wr F.CSQ_LAST_EPOCH_EPOCH e.num).wr F.CSQ_LAST_TIME_TIME s.time.now.toNat).inc F.CSQ_COMMITS_COUNT
  if e.late then s.inc F.CSQ_LATE_COUNT else s

/-- An epoch's time has come: it takes effect once READY (R209). -/
def Epoch.due (e : Epoch) : Bool := (e.t == 0 && !e.bySched) || e.late

/-- A withdrawn change leaves its epoch (R218). -/
def State.withdraw (s : State) (x : Change) : State :=
  ((s.setChanges (s.csq.changes.filter (fun y => y.id != x.id))).updEpoch x.epoch (fun e => { e with withdrawn := e.withdrawn + 1 })).stat 1

/-- A change leaves WAIT_PREV (R218, R221): it takes its place in QUEUED, where it replaces an earlier change of its circuit as R218 has it, or waits for
that one's epoch (DEDUCED: log entry 112). -/
def State.leavePrev (s : State) (x : Change) : State :=
  match s.headChange x.circ with
  | none => s.updChange x.id (fun x => s.place { x with st := 1 })
  | some y =>
    if s.replaces x.epoch y then let t := s.withdraw y; t.updChange x.id (fun x => t.place { x with st := 1 })
    else s.updChange x.id (fun x => { x with waitFor := y.epoch })

/-- What the sequencer does next by itself, if anything: a change whose rings are locked trains, one whose pairs are up is READY, one whose
earlier epoch has ended takes its place; an epoch with a failed change aborts, one whose changes are READY is READY, one that is due takes
effect. Under FREEZE a change whose rings are locked holds them and asks for no training (R223). -/
def State.csqNext (s : State) : Option State :=
  match s.csq.changes.find? (fun x => (x.st == 4 && x.rings.all x.locked.contains && !s.frozen 0x07) || (x.st == 5 && x.units.all x.active.contains) ||
      (x.st == 3 && !s.csq.epochs.any (fun e => e.num == x.waitFor && decide (e.st < 4)))) with
  | some x =>
    some (if x.st = 4 ∧ x.units ≠ [] then s.trainChange x
      else if x.st = 3 then s.leavePrev x
      else s.changeReady x)
  | none =>
    let has (e : Epoch) (p : Change → Bool) : Bool := s.csq.changes.any (fun x => x.epoch == e.num && p x)
    match s.csq.epochs.find? (fun e =>
        ((e.st == 1 || e.st == 2) && !e.part && has e (fun x => x.st == 7)) ||
        (e.st == 1 && !has e (fun x => x.st != 6 && x.st != 7)) || (e.st == 2 && e.due && !s.frozen 0x07)) with
    | none => none
    | some e =>
      some (if !e.part && has e (fun x => x.st == 7) then s.abortEpoch e e.failStatus
        else if e.st = 1 then s.updEpoch e.num (fun e => { e with st := 2 })
        else s.takeEffect e)

/-- The sequencer goes on until it waits for an event. -/
def State.csqRun (s : State) : Nat → State
  | 0 => s
  | n + 1 => match s.csqNext with
    | none => s
    | some t => t.csqRun n

/-- The sequencer goes on. -/
def State.csqSettle (s : State) : State := s.csqRun (4 * s.csq.changes.length + 4 * s.csq.epochs.length)

/-- An epoch is late (R209): EPOCH_LATE, or an abort with TIMEOUT under LATE_ABORT. -/
def State.epochLate (s : State) (e : Epoch) : State :=
  if e.lateAbort then s.abortEpoch e 3
  else ((s.updEpoch e.num (fun e => { e with late := true })).cause0 0x07 1).fault 27

/-- Fabric time reaches an epoch's T (R209, R223): it takes effect when READY, is late otherwise; under FREEZE it is late at release. -/
def State.epochAtT (s : State) (e : Epoch) : State :=
  let s := s.updEpoch e.num (fun e => { e with fired := true })
  if s.frozen 0x07 then s
  else if e.st = 2 then s.takeEffect e
  else s.epochLate e

/-- CIRCUIT_SET and CIRCUIT_CLEAR (R199, R218, R219): refused, held for room, or admitted as a change to the OPEN epoch. -/
def State.admitTo (s : State) (id : Nat) (owner : Nat) (e : Block64) : State :=
  let isClear : Bool := opcode e == 0x11
  let c := byteField e 16 0 10
  if s.frozen 0x07 then s.setWait id .admission
  else match s.openEpoch? with
    | none => s.finish id { status := 4, detail := 0x10 }
    | some ep =>
      let img : Image := if isClear then {} else imageOfEntry e
      match s.r199 c ep.num owner isClear img with
      | some (st, d) => s.finish id { status := st, detail := d }
      | none =>
        if isClear ∧ (s.circuit c).state = 0 then
          s.finish id { result := 2 ^ 33 }
        else if !s.queueRoom owner then s.setWait id .admission
        else
          let (old, wait) := s.r218 c ep.num
          let s1 := match old with | some x => s.withdraw x | none => s
          let x : Change :=
            { id := s.csq.nextChange, circ := c, epoch := ep.num, owner := owner, isClear := isClear, img := img, label := byteField e 32 0 32, st := 3,
              key := if isClear = false ∧ img.keyEn = true then some img.keySlot else none, waitFor := wait.getD 0 }
          let x := match wait with | some _ => x | none => s1.place x
          let s2 := (s1.setCsq { s1.csq with changes := s1.csq.changes ++ [x], nextChange := s1.csq.nextChange + 1 }).stat 2
          let r := match old with | some y => y.epoch + 2 ^ 32 | none => 0
          (s2.finish id { result := r }).csqSettle

/-! ## The commands of CSQ -/

/-- CIRCUIT_SET (R199). -/
def execCircuitSet (f : Fn) (e : Block64) (s : State) : Host.Outcome State Fault Refusal :=
  .next (s.command 0x10 0x07 f e (fun c s => s.admitTo c.id c.owner e))

/-- CIRCUIT_CLEAR (R199). -/
def execCircuitClear (f : Fn) (e : Block64) (s : State) : Host.Outcome State Fault Refusal :=
  .next (s.command 0x11 0x07 f e (fun c s => s.admitTo c.id c.owner e))

/-- EPOCH_PREPARE (R206, R207, R428). -/
def execEpochPrepare (f : Fn) (e : Block64) (s : State) : Host.Outcome State Fault Refusal :=
  .next (s.command 0x13 0x07 f e (fun c s => if s.canPrepare then s.prepareEpoch c.id e else s.setWait c.id .prepare))

/-- EPOCH_COMMIT's own effect (R208, R209): the epoch is CLOSED, and late from here on when T is past. -/
def State.commitEpoch (s : State) (id : Nat) (e : Block64) : State :=
  match s.openEpoch? with
  | none => s.finish id { status := 4, detail := 0x22 }
  | some ep =>
    let t := byteField e 24 0 64
    let bySched : Bool := byteField e 20 0 1 == 1
    if byteField e 16 0 32 ≠ ep.num then s.finish id { status := 4, detail := 0x22 }
    else if bySched ∧ t ≠ 0 then s.finish id { status := 4, detail := 0x23 }
    else
      let lim := byteField e 32 0 32
      let s := (s.setWait id (.epoch (BitVec.ofNat 32 ep.num))).updEpoch ep.num (fun x =>
        { x with st := 1, cmd := some id, bySched := bySched, part := byteField e 20 1 1 == 1, lateAbort := byteField e 20 2 1 == 1, t := t,
                 lateLimit := if lim = 0 then 2000 else lim })
      let s := s.wr F.CSQ_OPEN_EPOCH_EPOCH 0
      let s := if t ≠ 0 ∧ t < s.time.now.toNat then
          match s.epoch? ep.num with
          | some x => (s.updEpoch ep.num (fun x => { x with fired := true })).epochLate x
          | none => s
        else s
      s.csqSettle

/-- EPOCH_COMMIT (R208, R209, R211). -/
def execEpochCommit (f : Fn) (e : Block64) (s : State) : Host.Outcome State Fault Refusal :=
  .next (s.command 0x14 0x07 f e (fun c s => s.commitEpoch c.id e))

/-- SCHED_LOAD (R212): the image is read from the host. -/
def execSchedLoad (f : Fn) (e : Block64) (s : State) : Host.Outcome State Fault Refusal :=
  .next (s.command 0x12 0x07 f e (fun c s =>
    let a := byteField e 16 0 64
    if a % 64 ≠ 0 ∨ byteField e 24 0 16 = 0 then s.finish c.id { status := 4, detail := 0x24 }
    else (s.setWait c.id .hostRead).hostAcc f (.hostRead f (cmdId e) (BitVec.ofNat 64 a) 256)))

/-- One schedule slot from its 16 B of the image (R212): EMPTY, ARMED, or MISSED when its time has passed. -/
def slotOf (now : DWord) (b : Block64) (i : Nat) : Slot :=
  let act := byteField b (16 * i) 0 64
  if byteField b (16 * i + 12) 0 1 = 0 then {}
  else { act := act, epoch := byteField b (16 * i + 8) 0 32, st := if act < now.toNat then 3 else 1 }

/-- SCHED_LOAD's image has arrived (R212): the selected slots are journaled as a side group, and the command takes effect and completes once that is
durable (R431). -/
def State.schedImage (s : State) (c : Cmd) (d : HostData) : State :=
  match d with
  | .error => s.finish c.id { status := 4, detail := 0x25 }
  | .data bs =>
    let mask := byteField c.e 24 0 16
    let l := ((upTo 16).filter (fun i => bitOf mask i)).map (fun i => (i, slotOf s.time.now (bs.getD (i / 4) 0) (i % 4)))
    let s := s.sideGroup (l.map (fun x => schedOf x.1 x.2))
    (s.setWait c.id (.schedule s.jnl.asked l)).durableNow

/-! ## Events of the change and epoch sequencers -/

/-- CHANGE_ADMIT (R219): the held change is admitted once there is room. -/
def execChangeAdmit (s : State) : Host.Outcome State Fault Refusal :=
  .next (match s.que.inflight.find? (fun c => c.wait == .admission) with
    | some c => if s.live 0x07 then s.admitTo c.id c.owner c.e else s
    | none => s)

/-- A calibration attempt on a channel or a spare that a change's image takes (R201). -/
def Change.takes (x : Change) (a : Attempt) : Bool :=
  x.img.lanes.contains (a.ch / 9, a.ch % 9) || (a.spare && (x.img.subs.map (·.1)).contains (a.ch / 9))

/-- The rings of a THROUGH image's channels that no draining image holds are parked or blocked first (R105). -/
def State.parkFirst (s : State) (x : Change) : State :=
  if x.img.path = 1 then (x.img.channels.filter (fun ch => !s.draining ch)).foldl
    (fun s ch => (s.restRing (modRing ch.1 ch.2)).restRing (dropRing ch.1 ch.2)) s
  else s

/-- A change starts to build (R200, R201). -/
def State.buildStart (s : State) (x : Change) : State :=
  let s := s.abandon x.takes
  let s := ({ s with rcu := { s.rcu with acqWait := s.rcu.acqWait ++ x.img.rings } } : State).parkFirst x
  (s.updChange x.id (fun x => { x with st := 4, rings := x.img.rings, units := x.img.units })).csqSettle

/-- CHANGE_BUILD_START (R105, R146, R201): the circuit's change whose channels are free starts to build. Attempts on its lanes are abandoned, and for a
THROUGH image the modulators and drop rings of its channels are blocked and parked first. -/
def execChangeBuildStart (c : CircIx) (s : State) : Host.Outcome State Fault Refusal :=
  .next (match s.csq.changes.find? (fun x => x.circ == c.val && (x.st == 1 || x.st == 2)) with
    | none => s
    | some x => if s.live 0x07 ∧ x.img.channels.all (fun ch => (s.holder ch).isNone) = true then s.buildStart x else s)

/-- The waiting acquisitions in the order of R202: by the admission of their changes, then by ring index. -/
def State.acqOrder (s : State) : List (Change × Nat) :=
  (s.csq.changes.filter (fun x => x.st == 4)).flatMap (fun x => (x.rings.filter s.rcu.acqWait.contains).map (fun r => (x, r)))

/-- PFE or RCU refuses a ring's acquisition: the changes that build with it fail (R203). -/
def State.refuseRing (s : State) (r : Nat) : State :=
  let s := { s with rcu := { s.rcu with acqWait := s.rcu.acqWait.filter (· != r) } }
  (s.failChanges (fun x => x.st == 4 && x.rings.contains r) 2).csqSettle

/-- RING_ACQUIRE_START (R104, R105, R202): the first of the waiting acquisitions starts, or PFE or RCU refuses it. It waits while an image in DRAIN holds a
channel of its change, whose rings R105 parks or blocks first (DEDUCED: log entry 26). -/
def execRingAcquireStart (ring : RingIx) (s : State) : Host.Outcome State Fault Refusal :=
  .next (match s.acqOrder.head? with
    | none => s
    | some (x, r) =>
      if r = ring.val ∧ s.rcu.acqs.length < 64 ∧ s.frozen 0x07 = false ∧ s.runs 0x05 = true ∧
          (144 ≤ r ∨ s.en (0x10 + r / 9) = true) ∧ x.img.lanes.any s.draining = false then
        if s.ringBad r || !s.rcu.everDone || (s.ring r).loop == 0 then s.refuseRing r
        else if !s.xcAllows r then (s.xcConflict r).refuseRing r
        else s.acquireRing r
      else s)

/-- A ring reports locked to CSQ (R133). -/
def State.ringLocked (s : State) (r : Nat) : State :=
  let s := { s with rcu := { s.rcu with acqs := s.rcu.acqs.filter (· != r) } }
  s.setChanges (s.csq.changes.map (fun x =>
    if x.st = 4 ∧ x.rings.contains r = true ∧ x.locked.contains r = false then { x with locked := x.locked ++ [r] } else x))

/-- A ring reports UNLOCKED to CSQ (R133): a change that is still acquiring its rings counts it as locked no longer. -/
def State.ringUnlocked (s : State) (r : Nat) : State :=
  s.setChanges (s.csq.changes.map (fun x => if x.st = 4 then { x with locked := x.locked.filter (· != r) } else x))

/-- A ring fails for good while changes acquire it (R136, R203): they fail with ACQUIRE. -/
def State.ringFailed (s : State) (r : Nat) : State := (s.failChanges (fun x => x.st == 4 && x.rings.contains r) 3).csqSettle

/-- ACQUIRE_TIMEOUT (R203): a ring not locked within 100 µs fails its change. -/
def execAcquireTimeout (ring : RingIx) (s : State) : Host.Outcome State Fault Refusal :=
  .next (
    if s.rcu.acqs.contains ring.val then
      ({ s with rcu := { s.rcu with acqs := s.rcu.acqs.filter (· != ring.val) } } : State).ringFailed ring.val
    else s)

/-- EPOCH_COMMIT_TIME (R209, R223): fabric time reaches the epoch's T. -/
def execEpochCommitTime (e : Word) (s : State) : Host.Outcome State Fault Refusal :=
  .next (match s.epoch? e.toNat with
    | some x =>
      if (x.st = 1 ∨ x.st = 2) ∧ x.t ≠ 0 ∧ x.bySched = false ∧ x.fired = false ∧ s.en 0x07 = true then
        ((s.advanceTo (BitVec.ofNat 64 x.t)).epochAtT x).csqSettle
      else s
    | none => s)

/-- LATE_LIMIT_EXPIRE (R209): the late epoch is still not READY; under FREEZE the timer pauses (R223). -/
def execLateLimitExpire (e : Word) (s : State) : Host.Outcome State Fault Refusal :=
  .next (match s.epoch? e.toNat with
    | some x => if x.st = 1 ∧ x.late = true ∧ s.frozen 0x07 = false then
        ((s.advanceTo (after (BitVec.ofNat 64 x.t) (x.lateLimit * 1000))).abortEpoch x 3).csqSettle else s
    | none => s)

/-- The images in service. -/
def State.activeImages (s : State) : List Image := (s.csq.circuits.filter (fun x => x.2.holds)).map (fun x => x.2.img)

/-- The old image of a moved circuit releases its channels (R204): pairs go DOWN, rings rest, a substitution is restored; the cells of a THROUGH image only
when through. What an active image holds stays. -/
def State.releaseOld (s : State) (through : Bool) (m : Nat × Circuit) : State :=
  let old := m.2
  let new := s.circuit m.1
  let used := s.activeImages
  if !old.holds || (new.holds && new.img.sameLayout old.img) || (old.img.path == 1) != through then s
  else
    let s := (old.img.units.filter (fun u => !used.any (·.units.contains u))).foldl State.releaseUnit s
    let s := (old.img.rings.filter (fun r => !used.any (·.rings.contains r))).foldl State.restRing s
    (old.img.subs.filter (fun p => !used.any (fun i => (i.subs.map (·.1)).contains p.1))).foldl (fun s p => s.restoreSubst p.1) s

/-- An epoch's DRAIN has ended: its old lane pairs are released, and 10 µs after its commit its old cells (R204). -/
def Epoch.over (e : Epoch) : Bool := e.drained && (e.released || !e.moved.any (fun m => m.2.holds && m.2.img.path == 1))

/-- The epoch is recorded once its DRAIN has released every old channel (R19, R222, R223): EVR, then STA, then JNL, then TWN. -/
def State.recordEpoch (s : State) (num : Nat) : State :=
  match s.epoch? num with
  | none => s
  | some x =>
    if x.st = 4 ∧ x.over = true then
      let s := s.event { page := 0x07, code := 1, sev := 0, arg := x.num + x.changes % 2 ^ 16 * 2 ^ 32 }
      let s := (s.stat 3 x.changes).stat 4
      let s := s.appendGroup (x.moved.map (fun m => deltaOf m.1 (s.circuit m.1))) x.num x.effect false
      let s := s.updEpoch x.num (fun y => { y with st := 5, seq := s.jnl.asked })
      let s := if s.on (F.PAGE_STAT_FREEZE_PEND 0x7000) ∧ s.csq.epochs.any (fun y => y.st == 4) = false then s.freezeNow 0x07 3 else s
      s.durableNow.csqSettle
    else s

/-- DRAIN_END (R19, R204, R222, R223): the old lane pairs are released, and the epoch is recorded unless old THROUGH cells are still held. -/
def execDrainEnd (e : Word) (s : State) : Host.Outcome State Fault Refusal :=
  .next (match s.epoch? e.toNat with
    | some x =>
      if x.st = 4 ∧ x.drained = false then
        ((x.moved.foldl (State.releaseOld · false) s).updEpoch x.num (fun y => { y with drained := true })).recordEpoch x.num
      else s
    | none => s)

/-- THROUGH_RELEASE (R19, R204): 10 µs after its own commit the node releases the old cells of the epoch's moved THROUGH circuits, and DRAIN, of 10 µs at
most, is over. -/
def execThroughRelease (e : Word) (s : State) : Host.Outcome State Fault Refusal :=
  .next (match s.epoch? e.toNat with
    | some x =>
      if x.st = 4 ∧ x.released = false then
        ((x.moved.foldl (State.releaseOld · true) s).updEpoch x.num (fun y => { y with released := true })).recordEpoch x.num
      else s
    | none => s)

/-- A write of CSQ_ABORT (R210, R223). -/
def State.abortWrite (s : State) (v : Nat) : State :=
  match s.epoch? v with
  | some x => if x.st < 3 then (s.abortEpoch x 6).csqSettle else s.wr F.CSQ_ABORT_STAT_ABORT_REFUSED 1
  | none => s.wr F.CSQ_ABORT_STAT_ABORT_REFUSED 1

/-- An ARMED slot that fires before slot n does (R213): one due earlier, or one due in the same cycle with a lower number. Slots whose time has passed are
due at once (R214). -/
def State.firesFirst (s : State) (n : Nat) (y : Nat × Slot) : Bool :=
  let due (z : Slot) : Nat := max s.time.now.toNat z.act
  y.2.st == 1 && (decide (due y.2 < due (s.slot n)) || (due y.2 == due (s.slot n) && decide (y.1 < n)))

/-- SCHED_SLOT_FIRE (R213, R214): an ARMED slot's time has come. An epoch that another slot has made late already stays as late as it is (DEDUCED: log
entry 114). -/
def execSchedSlotFire (slot : Fin 16) (s : State) : Host.Outcome State Fault Refusal :=
  .next (
    let x := s.slot slot.val
    if x.st = 1 ∧ s.en 0x07 = true ∧ s.csq.slots.any (s.firesFirst slot.val) = false then
      let s := s.advanceTo (BitVec.ofNat 64 x.act)
      match s.csq.epochs.find? (fun e => e.num == x.epoch && e.bySched && (e.st == 1 || e.st == 2)) with
      | some e =>
        let s := s.setSlot slot.val { x with st := 2, fire := s.time.now.toNat }
        if e.fired then s
        else
          let s := s.updEpoch e.num (fun e => { e with t := x.act })
          (s.epochAtT { e with t := x.act }).csqSettle
      | none => ((s.setSlot slot.val { x with st := 3, fire := s.time.now.toNat }).cause0 0x07 4).fault 30
    else s)

/-- CSQ's FREEZE ends (R223): a T passed meanwhile is late now, held changes and trainings go on. -/
def State.csqThaw (s : State) : State :=
  let s := (s.csq.epochs.filter (fun e => e.fired && !e.late && decide (e.st < 3))).foldl (fun s e => s.epochLate e) s
  s.resumePrepare.csqSettle

end Sys2Proof.Machine
end

