-- ==== Sys2Proof/Machine/Pfe.lean ====
section
/-! DEFINITION. The photonic front end: trainings that fail (R171, R193, R203), shutters (R117, R118, R426), laser inputs and eye safety
(R99, R100, R119 to R121), monitor slots (R109 to R112), line loopback (R103). -/

namespace Sys2Proof.Machine

/-! ## Trainings that fail or start again (R170, R171, R193, R203) -/

/-- A training of unit u ends in FAILED (R189, R193, R203), which it leaves for DOWN as soon as the reason is recorded (DEDUCED: log entry 100): CSQ
tries again up to TRAIN_RETRY times, a retraining that fails degrades the port, λS waits for the next retry of R171. -/
def State.trainFailed (s : State) (u reason : Nat) : State :=
  let x := s.unit u
  let s := (s.setUnitSt u 0 reason).cause0 (0x10 + u / 5) 8
  let s := if reason = 8 then s.degrade u else s
  if u % 5 = 4 then s
  else if x.byCsq then
    if x.tries < s.rd F.CSQ_CTRL_TRAIN_RETRY ∧ reason ≠ 8 then (s.setUnit u { x with tries := x.tries + 1 }).startTraining u
    else (s.failChanges (fun c => c.st == 5 && c.units.contains u) (if reason = 8 then 6 else 4)).csqSettle
  else if reason = 8 then s else s.degrade u

/-- Every line of unit u is present, or λS stands in for it (R100, R183). -/
def State.linesThere (s : State) (u : Nat) : Bool :=
  (unitLines u).all (fun k => s.linePresent (u / 5) k ||
    s.on (F.PORT_LNK_STAT_SUBST (u / 5)) && s.rd (F.PORT_LNK_STAT_SUBST_LINE (u / 5)) == k)

/-- A training of unit u that CSQ has not asked for starts: it fails at once where one of the unit's lines is missing (R100, R193). -/
def State.train (s : State) (u : Nat) : State := if s.linesThere u then s.startTraining u else s.trainFailed u 8

/-- Trainings that waited start once they may (R192, R425). -/
def State.resumeTraining (s : State) : State :=
  s.lnk.units.foldl (fun s x => if x.2.want && s.mayTrain x.1 then s.train x.1 else s) s

/-- A unit is retrained with one attempt, and counted (R170, R171). -/
def State.retrain (s : State) (u : Nat) : State :=
  let p := u / 5
  let x := s.unit u
  ((((s.setUnit u { x with byCsq := false, losses := [] }).inc (F.PORT_TRAIN_RETRAINS p (u % 5))).stat 11).cause0 (0x10 + p) 9).train u

/-! ## Shutters (R117, R118, R426) -/

/-- The LOCKOUT causes that hold for port p, by their REASON numbers (R100, R118, R363). -/
def State.lockCauses (s : State) (p : Nat) : List Nat :=
  (if s.terminal then [4] else []) ++ (if s.fcu.shuts.any (fun x => x.2 == p) then [3] else []) ++ (if s.domOn 2 then [] else [5]) ++
    (if s.on F.PFE_LI0_LINES_ANCHOR_OK then [] else [7]) ++ (if s.linePresent p 8 then [] else [6])

/-- A resonance search is under way (R151). -/
def State.searching (s : State) : Bool := decide (1 ≤ s.rd F.RCU_SEARCH_STAT_STATE ∧ s.rd F.RCU_SEARCH_STAT_STATE ≤ 6)

/-- Every ring OFF; a fenced or UNIDENT ring stays marked (R137, R151, R154). -/
def State.allRingsOff (s : State) : State :=
  let off (x : Ring) : Ring :=
    { x with opt := .off, goal := .off, loop := if x.loop = 5 ∨ x.loop = 6 then x.loop else 0, live := 0, inWin := 0, outWin := 0,
             hold := 0, prior := 0, unlocked := false }
  { s with rcu := { s.rcu with acqs := [], acqWait := [], rings := Tbl.mapIf {} (fun _ _ => true) off s.rcu.rings } }

/-- A search aborts with a reason (R151, R153): injectors off, every ring OFF, SEARCH_FAIL. -/
def State.abortSearch (s : State) (reason : Nat) : State :=
  if s.searching then
    let s := { s with rcu := { s.rcu with injectors := false } }
    ((s.allRingsOff.wrs [(F.RCU_SEARCH_STAT_STATE, 8), (F.RCU_SEARCH_STAT_RESULT, 2), (F.RCU_SEARCH_STAT_REASON, reason)]).cause0 0x05 1).event
      { page := 0x05, code := 1, sev := 0, arg := 2 + s.rd F.RCU_SEARCH_RES_UNIDENT * 2 ^ 16 }
  else s

/-- The λS rings of an open port are ON and λS trains (R106, R189). -/
def State.lightSpare (s : State) (p : Nat) : State :=
  let up (s : State) (r : Nat) : State :=
    if s.rcu.everDone ∧ s.ringBad r = false ∧ s.ringOn r = false ∧ s.en (0x10 + p) = true then s.acquireRing r else s
  up (up s (modRing p 8)) (dropRing p 8)

/-- The shutter of port p moves to a state (R118), with a reason where the state is a closed one. -/
def State.shutTo (s : State) (p st reason : Nat) : State :=
  let old := s.rd (F.PORT_SHUT_STAT_STATE p)
  let s := s.wr (F.PORT_SHUT_STAT_STATE p) st
  let s := if st = 1 ∨ st = 3 then s else s.wr (F.PORT_SHUT_STAT_REASON p) reason
  let s := if (old = 0 ∨ old = 4) ∧ st ≠ 0 ∧ st ≠ 4 then s.abortSearch 2 else s
  let s := if old = 1 ∧ st ≠ 1 then s.psmFail p 7 else s
  let s := if st = 2 then (s.cause0 (0x10 + p) 0).fault 16 1 p else s
  let s := if st = 4 ∧ old ≠ 4 then s.cause0 (0x10 + p) 3 else s
  if st = 1 then
    let s := (s.wr (F.PORT_SHUT_STAT_PROBES p) 0).lightSpare p
    if s.unitSt (p * 5 + 4) = 0 then s.train (p * 5 + 4) else s
  else if st = 3 then (s.inc (F.PORT_SHUT_STAT_PROBES p)).lightSpare p
  else s

/-- The shutter of port p takes the state that R118 and R426 give it, after the LOCKOUT causes that held before became those that hold now. -/
def State.evalShutter (s : State) (p : Nat) (before : List Nat) : State :=
  let st := s.rd (F.PORT_SHUT_STAT_STATE p)
  let opened := s.on (F.PORT_SHUT_CTRL_OPEN p)
  let causes := s.lockCauses p
  if !s.en (0x10 + p) && !causes.contains 4 then (if st = 0 then s.wr (F.PORT_SHUT_STAT_REASON p) 1 else s.shutTo p 0 1)
  else match causes with
    | [] =>
      if st = 4 then (if opened then s.shutTo p 2 2 else s.shutTo p 0 1)
      else if st = 0 then (if opened then s.shutTo p 1 0 else s)
      else if opened then s else s.shutTo p 0 1
    | c :: _ =>
      if st ≠ 4 then s.shutTo p 4 c
      else match causes.filter (fun x => !before.contains x) with
        | [] => if causes.contains (s.rd (F.PORT_SHUT_STAT_REASON p)) then s else s.wr (F.PORT_SHUT_STAT_REASON p) c
        | n :: _ => s.wr (F.PORT_SHUT_STAT_REASON p) n

/-- Whatever g changes, every shutter follows it (R118). -/
def State.withShutters (s : State) (g : State → State) : State :=
  (upTo 16).foldl (fun t p => t.evalShutter p (s.lockCauses p)) (g s)

/-! ## LASER_EN (R119 to R121) -/

/-- The conditions of R119 that no restart pulse overrides; LASER_EN also waits for a held interlock check (R120) and is low while pad group L
is held (R347) and throughout EXTEST (R439). -/
def State.laserBase (s : State) : Bool :=
  s.on F.PFE_LASER_CTRL_EN && !s.on F.PFE_LASER_STAT_FAULT && !s.on F.PFE_LASER_STAT_LI_OVER && s.domOn 2 &&
    !s.dbg.drvPins && !bitOf (s.rd F.CPM_PAD_HOLD_HELD) 1 && !s.terminal && !s.rcu.ilkHeld

/-- LI_LOSS is set for some input. -/
def State.liLost (s : State) : Bool := s.on F.PFE_LASER_STAT_LI0_LOSS || s.on F.PFE_LASER_STAT_LI1_LOSS

/-- LASER_EN follows its conditions (R119): a fall outside a restart pulse is to be checked (R120). -/
def State.evalLaser (s : State) : State :=
  let ok := s.laserBase && (s.rcu.pulse || !s.liLost)
  if ok then (if s.rcu.pulse then s else s.wr F.PFE_LASER_STAT_LASER_EN 1)
  else if s.on F.PFE_LASER_STAT_LASER_EN then
    let s := s.wr F.PFE_LASER_STAT_LASER_EN 0
    if s.rcu.pulse then { s with rcu := { s.rcu with pulse := false } } else { s with rcu := { s.rcu with ilkPending := s.rcu.ilkPending + 1 } }
  else s

/-- LASER_FAULT (R119): LASER_FAULT_N goes low. While HOST is off the laser control is unpowered (R336) and LASER_EN low: STAT.FAULT, which is the
pin's level, shows it once HOST is on. -/
def execLaserFault (s : State) : Host.Outcome State Fault Refusal :=
  .next (
    let s := s.wr F.PFE_LASER_STAT_FAULT 1
    if s.domOn 1 then (((s.wr F.PFE_LASER_CTRL_EN 0).evalLaser.cause0 0x04 1).fault 14) else s)

/-- LASER_FAULT_CLEAR (R119): LASER_FAULT_N returns high. -/
def execLaserFaultClear (s : State) : Host.Outcome State Fault Refusal := .next (s.wr F.PFE_LASER_STAT_FAULT 0).evalLaser

/-- LI_LOSS (R119): an input's total has been low for 50 µs while LASER_EN is high, outside a restart pulse. -/
def execLiLoss (i : Fin 2) (s : State) : Host.Outcome State Fault Refusal :=
  .next (
    if s.on F.PFE_LASER_STAT_LASER_EN ∧ s.rcu.pulse = false then
      (((s.wr (if i.val = 0 then F.PFE_LASER_STAT_LI0_LOSS else F.PFE_LASER_STAT_LI1_LOSS) 1).evalLaser).cause0 0x04 0).fault 13
    else s)

/-- ILK_CHECK (R120): 5 ms after a fall of LASER_EN the totals are checked, or with RING off the check is held until RING is on. A check that was
held serves every fall it was held for. -/
def execIlkCheck (li0 li1 : Int) (s : State) : Host.Outcome State Fault Refusal :=
  .next (
    if s.domOn 2 then
      if s.rcu.ilkHeld = false ∧ s.rcu.ilkPending = 0 then s
      else
        let s := { s with rcu := { s.rcu with ilkHeld := false, ilkPending := if s.rcu.ilkHeld then s.rcu.ilkPending else s.rcu.ilkPending - 1 } }
        (if -100 < li0 ∨ -100 < li1 then (s.wr F.PFE_LASER_STAT_ILK_FAIL 1).fault 2 else s).evalLaser
    else if s.rcu.ilkPending = 0 then s
    else { s with rcu := { s.rcu with ilkHeld := true, ilkPending := s.rcu.ilkPending - 1 } })

/-- RESTART_PULSE (R121). -/
def execRestartPulse (s : State) : Host.Outcome State Fault Refusal :=
  .next (
    if s.laserBase ∧ s.liLost = true ∧ s.on F.PFE_LASER_CTRL_AUTO_RESTART = true ∧ s.rcu.pulse = false then
      { (s.wr F.PFE_LASER_STAT_LASER_EN 1) with rcu := { s.rcu with pulse := true } }
    else s)

/-- RESTART_PULSE_END (R121): held says that both totals stayed at +21.5 dBm for 0.5 ms within the pulse. -/
def execRestartPulseEnd (held : Bool) (s : State) : Host.Outcome State Fault Refusal :=
  .next (
    if s.rcu.pulse then
      let s := if held then (s.wr F.PFE_LASER_STAT_LI0_LOSS 0).wr F.PFE_LASER_STAT_LI1_LOSS 0 else s
      let s := { s with rcu := { s.rcu with pulse := false } }
      s.wr F.PFE_LASER_STAT_LASER_EN (b2n (s.laserBase && !s.liLost))
    else s)

/-! ## Automatic power reduction (R118) -/

/-- APR_CLOSE (R118): ingress power of an OPEN port has been low for 20 µs. -/
def execAprClose (p : Port) (s : State) : Host.Outcome State Fault Refusal :=
  .next (if s.rd (F.PORT_SHUT_STAT_STATE p) = 1 ∧ s.on (F.PORT_SHUT_CTRL_APR_EN p) = true then s.shutTo p 2 2 else s)

/-- PROBE_INSTANT (R118). -/
def execProbeInstant (p : Port) (s : State) : Host.Outcome State Fault Refusal :=
  .next (if s.rd (F.PORT_SHUT_STAT_STATE p) = 2 then s.shutTo p 3 0 else s)

/-- PROBE_END (R118): 2 ms without reopening. -/
def execProbeEnd (p : Port) (s : State) : Host.Outcome State Fault Refusal :=
  .next (if s.rd (F.PORT_SHUT_STAT_STATE p) = 3 then s.shutTo p 2 2 else s)

/-- APR_REOPEN (R118): ingress power has been back for 100 µs. -/
def execAprReopen (p : Port) (s : State) : Host.Outcome State Fault Refusal :=
  .next (if s.rd (F.PORT_SHUT_STAT_STATE p) = 2 ∨ s.rd (F.PORT_SHUT_STAT_STATE p) = 3 then s.shutTo p 1 0 else s)

/-- A write of PORT_SHUT_CTRL has changed its fields (R118): the shutter follows OPEN, and LOOP asks for the diagonal cells (R103, R104) or
parks them. A diagonal cell refused here is not asked for again by itself: a later write that sets LOOP, or a search that reaches DONE, asks again
(R104 does not say when; DESIGN CHOICE: log entry 98). -/
def State.shutCtrlWritten (s : State) (p : Nat) (loopBefore : Bool) : State :=
  let s := s.evalShutter p (s.lockCauses p)
  let loop := s.on (F.PORT_SHUT_CTRL_LOOP p)
  if loop = loopBefore then s
  else (upTo 8).foldl (fun s k =>
    let r := cellRing p p k
    if !loop then (if s.ringOn r then s.restRing r else s)
    else if !s.rcu.everDone || s.ringBad r then s
    else if s.xcAllows r then s.acquireRing r
    else s.xcConflict r) s

/-! ## Monitor slots (R99, R100, R109 to R112) -/

/-- A power as its field holds it (R112): value, LOW, OVR. An over-range slot reads the ceiling with OVR (R111). -/
def powerOf (ceiling : Int) (m : MonSample) : Int × Bool × Bool :=
  if m.overRange then (ceiling, false, true)
  else if m.deci < -300 then (-300, true, false)
  else if ceiling < m.deci then (ceiling, false, true)
  else (m.deci, false, false)

/-- The number of a tap's photodiode in RingState.skips; a laser line is read through a modulator ring's monitor (R99). -/
def tapNum : Tap → Nat
  | .liTotal i => i.val
  | .liLine p k => 196 + 9 * p.val + k.val
  | .tx p => 20 + p.val
  | .rx p => 36 + p.val
  | .lane p k => 52 + 9 * p.val + k.val
  | .ring r => 196 + r.val

/-- Write a power into the three fields that show it. -/
def State.showPower (s : State) (v l o : Fld) (x : Int × Bool × Bool) : State :=
  s.wrs [(v, ofSigned 11 x.1), (l, b2n x.2.1), (o, b2n x.2.2)]

/-- A laser input over its limit (R99): LI_OVER, its interrupt, LASER_EN. -/
def State.liOver (s : State) : State :=
  if s.on F.PFE_LASER_STAT_LI_OVER then s else ((s.wr F.PFE_LASER_STAT_LI_OVER 1).evalLaser).cause0 0x04 4

/-- ANCHOR_OK falls during a search (R125, R153): back to ANCHOR, with the injectors off; a group being swept starts again, later states repeat from
INJECT. -/
def State.anchorLost (s : State) : State :=
  if s.searching then
    let s := if 4 ≤ s.rd F.RCU_SEARCH_STAT_STATE then { s with rcu := { s.rcu with group := 0, round := 0, resweep := [], failed := [] } } else s
    ({ s with rcu := { s.rcu with injectors := false } }).wrs [(F.RCU_SEARCH_STAT_STATE, 1), (F.RCU_SEARCH_STAT_PCT, 0)]
  else s

/-- A laser line's PRESENT changes (R100): LINES_CHG, the shutters, the search, trainings and changes that need the line. -/
def State.lineChanged (s : State) (i k : Nat) (on : Bool) : State :=
  let f := if i = 0 then F.PFE_LI0_LINES_PRESENT else F.PFE_LI1_LINES_PRESENT
  let s := s.withShutters (fun s =>
    let s := s.setBit f k on
    if i = 0 ∧ k = 0 then s.wr F.PFE_LI0_LINES_ANCHOR_OK (b2n on) else s)
  let s := (s.cause0 0x04 2).fault 15
  if on then s
  else
    let ports := (upTo 16).filter (fun p => p / 8 == i)
    let s := ports.foldl (fun s p => (upTo 5).foldl (fun s j =>
      let u := p * 5 + j
      if (unitLines u).contains k ∧ 1 ≤ s.unitSt u ∧ s.unitSt u ≤ 6 ∧ s.calOut u = false then s.trainFailed u 8 else s) s) s
    let s := s.failChanges (fun x => !x.isClear && x.img.path != 1 && (x.st != 6 || x.units != []) &&
      x.img.channels.any (fun c => ports.contains c.1 && c.2 == k && !x.img.subs.contains c)) 6
    let s := if i = 0 ∧ k = 0 then s.anchorLost else s
    s.csqSettle

/-- A laser line's power (R99): PRESENT from +9.0 dBm, OUT_OF_SPEC outside +11.5 to +15.5 dBm, LI_OVER above +17.0 dBm. -/
def State.laserLine (s : State) (i k : Nat) (v : Int) : State :=
  let fp := if i = 0 then F.PFE_LI0_LINES_PRESENT else F.PFE_LI1_LINES_PRESENT
  let fo := if i = 0 then F.PFE_LI0_LINES_OUT_OF_SPEC else F.PFE_LI1_LINES_OUT_OF_SPEC
  let pres : Bool := decide (90 ≤ v)
  let s := s.setBit fo k (pres && decide (v < 115 ∨ 155 < v))
  let s := if bitOf (s.rd fp) k = pres then s else s.lineChanged i k pres
  if 170 < v then s.liOver else s

/-- The port whose modulator-ring monitors measure laser input i (R99): the lowest-numbered one of its group that is not fenced. With every port of
the group fenced no line is measured (R99 does not speak of it; DESIGN CHOICE: log entry 97). -/
def State.probePort (s : State) (i : Nat) : Option Nat := ((upTo 8).map (· + 8 * i)).find? (fun p => !s.portFenced p)

/-- A data lane's power (R109): above +3.0 dBm sets OPT_HIGH. -/
def State.lanePower (s : State) (p k : Nat) (x : Int × Bool × Bool) : State :=
  let s := s.showPower (F.PORT_RX_PWR_PWR p k) (F.PORT_RX_PWR_LOW p k) (F.PORT_RX_PWR_OVR p k) x
  if 30 < x.1 ∧ s.on (F.PORT_RX_PWR_OPT_HIGH p k) = false then
    ((s.wr (F.PORT_RX_PWR_OPT_HIGH p k) 1).cause0 (0x10 + p) 1).fault 17 1 p
  else s

/-- What a tap's result shows (R99, R109 to R112); valid: no skip of its photodiode was pending. -/
def State.tapShows (s : State) (m : MonSample) (valid : Bool) : State :=
  match m.tap with
  | .liTotal i =>
    let x := powerOf 300 m
    let s := if i.val = 0 then s.showPower F.PFE_LI0_PWR_TOTAL F.PFE_LI0_PWR_LOW F.PFE_LI0_PWR_OVR x
      else s.showPower F.PFE_LI1_PWR_TOTAL F.PFE_LI1_PWR_LOW F.PFE_LI1_PWR_OVR x
    if valid ∧ 260 < x.1 then s.liOver else s
  | .liLine p k => if valid && s.probePort (p.val / 8) == some p.val then s.laserLine (p.val / 8) k.val (powerOf 300 m).1 else s
  | .tx p => s.showPower (F.PORT_TX_PWR_TOTAL p) (F.PORT_TX_PWR_LOW p) (F.PORT_TX_PWR_OVR p) (powerOf 100 m)
  | .rx p => s.showPower (F.PORT_RX_TOTAL_TOTAL p) (F.PORT_RX_TOTAL_LOW p) (F.PORT_RX_TOTAL_OVR p) (powerOf 100 m)
  | .lane p k =>
    let s := s.wr (F.PORT_RX_PWR_VALID p k) (b2n valid)
    if valid then s.lanePower p.val k.val (powerOf 100 m)
    else s.showPower (F.PORT_RX_PWR_PWR p k) (F.PORT_RX_PWR_LOW p k) (F.PORT_RX_PWR_OVR p k) (powerOf 100 m)
  | .ring _ => s

/-- One monitor result. -/
def State.monitor (s : State) (m : MonSample) : State :=
  let left := Tbl.get 0 s.rcu.skips (tapNum m.tap)
  let next := if m.overRange then 2 else left - 1
  ({ s with rcu := { s.rcu with skips := Tbl.set 0 s.rcu.skips (tapNum m.tap) next } } : State).tapShows m (left == 0)

/-- Lane k of port p receives at least −20.0 dBm (R189). -/
def State.laneLit (s : State) (p k : Nat) : Bool :=
  s.on (F.PORT_RX_PWR_VALID p k) && decide (-200 ≤ toSigned 11 (s.rd (F.PORT_RX_PWR_PWR p k)))

/-- Units in WAIT_LIGHT whose every lane is lit go to CDR (R189). -/
def State.lightReached (s : State) : State :=
  (upTo 80).foldl (fun s u =>
    if s.unitSt u = 1 ∧ (unitLines u).all (fun k => s.laneLit (u / 5) k) = true then s.setUnitSt u 2 0 else s) s

/-- The results of one group of taps in one slot: what its photodiodes raise alike on one source's pair is one onset (R360). -/
def State.monitorGroup (s : State) (m : List MonSample) : State :=
  let t := m.foldl State.monitor s
  { t with fcu := { t.fcu with raised := s.fcu.raised ++
    (t.fcu.raised.drop s.fcu.raised.length).foldl (fun acc o => if acc.contains o then acc else acc ++ [o]) [] } }

/-- The laser input a tap measures, if it is one. -/
def tapInput : Tap → Option Nat
  | .liTotal i => some i.val
  | .liLine p _ => some (p.val / 8)
  | _ => none

/-- MONITOR_SLOT (R99, R100, R109 to R112, R189): the slot's results, while RING is on. -/
def execMonitorSlot (m : List MonSample) (s : State) : Host.Outcome State Fault Refusal :=
  .next (
    if s.domOn 2 then
      ((([some 0, some 1, none] : List (Option Nat)).foldl
        (fun s g => s.monitorGroup (m.filter (fun x => tapInput x.tap == g))) s)).lightReached
    else s)

end Sys2Proof.Machine
end

