-- ==== Sys2Proof/Machine/Rcu.lean ====
section
/-! DEFINITION. Ring control: the resonance search (R125 to R131, R151 to R153), the loops (R132 to R137, R157), calibration (R138 to R149,
R155). -/

namespace Sys2Proof.Machine

/-! ## The search (R129 to R131, R151) -/

/-- The first ring and the number of rings of a group (R131). -/
def groupRange (g : Nat) : Nat × Nat := if g = 0 then (0, 288) else (288 + 1024 * (g - 1), 1024)

/-- The rings of a group. -/
def groupRings (g : Nat) : List Nat := (upTo (groupRange g).2).map (· + (groupRange g).1)

/-- The group of a ring. -/
def groupOf (r : Nat) : Nat := if r < 288 then 0 else (r - 288) / 1024 + 1

/-- Set the search state and PCT. -/
def State.setSearch (s : State) (st pct : Nat) : State := s.wrs [(F.RCU_SEARCH_STAT_STATE, st), (F.RCU_SEARCH_STAT_PCT, pct)]

/-- The search starts to sweep a group at code 0 (R126, R131, R151): its rings' records of an earlier sweep are gone. -/
def State.sweepGroup (s : State) (g : Nat) : State :=
  let s := s.setSearch 3 (3 + 30 * g)
  let s := s.wrs [(F.RCU_SEARCH_STAT_RING, (groupRange g).1), (F.RCU_SEARCH_CODE_CODE, 0), (F.RCU_SEARCH_CODE_GROUP, g)]
  let s := (groupRings g).foldl (fun s r => s.setRing r { s.ring r with events := [], repeats := 0, monLast := none, rise := none, htrSeen := none }) s
  { s with rcu := { s.rcu with group := g, sweepHold := 0 } }

/-- START (R130, R151): accepted with the anchor, RING on and every shutter CLOSED or LOCKOUT; none where it is refused with BADVAL. -/
def State.searchStart (s : State) : Option State :=
  if s.on F.PFE_LI0_LINES_ANCHOR_OK ∧ s.domOn 2 = true ∧
      (upTo 16).all (fun p => s.rd (F.PORT_SHUT_STAT_STATE p) == 0 || s.rd (F.PORT_SHUT_STAT_STATE p) == 4) = true then
    if s.searching then some s
    else
      let s := { s with rcu := { s.rcu with full := s.rd F.RCU_SEARCH_CTRL_MODE == 0, group := 0, round := 0, resweep := [], failed := [] } }
      some ((s.setSearch 1 0).wrs [(F.RCU_SEARCH_STAT_RING, 0), (F.RCU_SEARCH_STAT_RESULT, 0), (F.RCU_SEARCH_STAT_REASON, 0),
        (F.RCU_SEARCH_CODE_CODE, 0), (F.RCU_SEARCH_CODE_GROUP, 0), (F.RCU_SEARCH_RES_UNIDENT, 0), (F.RCU_SEARCH_RES_RESWEPT, 0)])
  else none

/-- The search is in a state and its sequencer runs. -/
def State.searchIn (s : State) (st : Nat) : Bool := s.rd F.RCU_SEARCH_STAT_STATE == st && s.live 0x05 && s.domOn 2

/-- SEARCH_ANCHOR_FOUND (R125, R151): the injectors turn on and every heater goes to 0. -/
def execSearchAnchorFound (s : State) : Host.Outcome State Fault Refusal :=
  .next (
    if s.searchIn 1 ∧ s.on F.PFE_LI0_LINES_ANCHOR_OK = true then
      let s := s.allRingsOff
      let known (x : Ring) : Ring := if x.loop = 6 then { x with loop := 0 } else x
      { s with rcu := { s.rcu with injectors := true, rings := Tbl.mapIf {} (fun _ _ => true) known s.rcu.rings } }.setSearch 2 0
    else s)

/-- SEARCH_INJECT_DONE (R151): FULL sweeps, VERIFY parks; a group that ANCHOR_OK interrupted is swept again (R153). -/
def execSearchInjectDone (s : State) : Host.Outcome State Fault Refusal :=
  .next (
    if s.searchIn 2 then
      if s.rcu.full ∨ s.rcu.resweep ≠ [] then s.sweepGroup s.rcu.group else s.setSearch 5 95
    else s)

/-- Ring r's heater is raised by the sweep of its group now (R126): a fenced ring's heater takes part in a FULL search alone (R154). -/
def State.swept (s : State) (r : Nat) : Bool :=
  s.rd F.RCU_SEARCH_STAT_STATE == 3 && s.domOn 2 && groupOf r == s.rcu.group && ((s.ring r).loop != 5 || (s.rcu.full && (s.ring r).htrSeen != some false))

/-- The heater code of ring r now, without dither (R126, R158). -/
def State.liveCode (s : State) (r : Nat) : Nat := if s.swept r then s.rd F.RCU_SEARCH_CODE_CODE else (s.ring r).live

/-- A ring's sweep ends (R136, R154): in a FULL search a fenced ring whose heater was found sound is no longer fenced. -/
def State.sweepRing (s : State) (r : Nat) : State :=
  let x := s.ring r
  if x.loop = 5 ∧ s.rcu.full = true ∧ x.htrSeen = some true then s.setRing r { x with loop := 0, htrFault := false, shadow := 0xF } else s

/-- SEARCH_SWEEP_DONE (R126, R131, R151): a group's sweep ends. -/
def execSearchSweepDone (s : State) : Host.Outcome State Fault Refusal :=
  .next (
    if s.searchIn 3 then
      let g := s.rcu.group
      let s := (groupRings g).foldl State.sweepRing s
      if s.rcu.resweep = [] then (if g < 2 then s.sweepGroup (g + 1) else s.setSearch 4 93)
      else match s.rcu.resweep.filter (fun x => decide (g < x)) with
        | [] => s.setSearch 4 93
        | n :: _ => s.sweepGroup n
    else s)

/-- The spacings of consecutive events. -/
def spacings : List Nat → List Nat
  | a :: b :: t => (b - a) :: spacings (b :: t)
  | _ => []

/-- Insertion into a list sorted by f. -/
def insBy (f : Nat → Nat) (a : Nat) : List Nat → List Nat
  | [] => [a]
  | b :: t => if f a ≤ f b then a :: b :: t else b :: insBy f a t

/-- The list in rising order of f. -/
def sortBy (f : Nat → Nat) (l : List Nat) : List Nat := l.foldr (insBy f) []

/-- Twice the median of a list (R126); 0 for none. -/
def median2 (l : List Nat) : Nat :=
  let t := sortBy id l
  let n := t.length
  if n = 0 then 0 else t.getD ((n - 1) / 2) 0 + t.getD (n / 2) 0

/-- The gap of a ring's events in code order (R126): the spacing of at least 2.5 times the median, where there is exactly one. -/
def gapOf (ev : List Nat) : Option Nat :=
  let sp := spacings ev
  match (List.range sp.length).filter (fun i => decide (5 * median2 sp ≤ 4 * sp.getD i 0)) with
  | [g] => some g
  | _ => none

/-- The line of event i of n events with the gap behind event g (R126). -/
def lineAt (n g i : Nat) : Nat := if g < i then (i - (g + 1)) % 9 else (8 + 9 * n - (g - i)) % 9

/-- ON_CODE and PARK_OFS of a ring on line k by R126 and R127, from its events in code order; none where it is UNIDENT. PARK_OFS and an
extrapolated code are rounded down (DESIGN CHOICE: log entry 16). -/
def identify (k : Nat) (ev : List Nat) : Option (Nat × Nat) :=
  match gapOf ev with
  | some g =>
    let m := median2 (spacings ev)
    let line := lineAt ev.length g
    let seen := (List.range ev.length).filter (fun i => line i == k && decide (4096 ≤ ev.getD i 0))
    match seen with
    | i :: _ => some (ev.getD i 0, m / 4)
    | [] =>
      let last := ev.length - 1
      let d := if line last < k then k - line last else k + 11 - line last
      some (ev.getD last 0 + d * m / 2, m / 4)
  | none => none

/-- SHADOW of a fenced ring (R136): the line within 100 GHz of the resonance at code 0, going back from the first event by one grid slot of 400 GHz for
each median spacing; the two slots of the FSR without a line (R124), and a ring without identified events, have none. -/
def shadowOf (ev : List Nat) : Nat :=
  match gapOf ev, ev with
  | some g, c :: _ =>
    let m := median2 (spacings ev)
    match (List.range 16).find? (fun n => decide (((8 * c : Nat) - (4 * n * m : Nat) : Int).natAbs ≤ m)) with
    | some n => if (lineAt ev.length g 0 + 22 - n) % 11 ≤ 8 then (lineAt ev.length g 0 + 22 - n) % 11 else 15
    | none => 15
  | _, _ => 15

/-- The two events nearest to code 32,768 (R127). -/
def nearestTwo (ev : List Nat) : List Nat :=
  (sortBy (fun a => (a - 32768) + (32768 - a)) ev).take 2

/-- The line of a ring (R101). -/
def lineOfRing (r : Nat) : Nat := if r < 288 then r % 9 else (r - 288) / 256

/-- One ring is identified, or becomes UNIDENT (R126, R127, R151): held midway between the two nearest events, at a free value where there
are fewer than two (DESIGN CHOICE: log entry 5). -/
def State.identifyRing (s : State) (r : Nat) : State :=
  let x := s.ring r
  if x.loop = 5 then s
  else
    match (if 64 < x.repeats then none else identify (lineOfRing r) x.events) with
    | some (on, ofs) => s.setRing r { x with onCode := on % 2 ^ 16, parkOfs := ofs % 2 ^ 16, loop := 0, ff := 0, ffRem := 0 }
    | none =>
      let s := s.inc F.RCU_SEARCH_RES_UNIDENT
      match nearestTwo x.events with
      | [a, b] => s.setRing r { x with loop := 6, opt := .off, goal := .off, live := (a + b) / 2 }
      | _ =>
        let (v, s) := s.free
        s.setRing r { x with loop := 6, opt := .off, goal := .off, live := v.toNat % 2 ^ 16 }

/-- SEARCH_IDENTIFY_DONE (R126, R127, R151): the rings of the swept groups are identified. -/
def execSearchIdentifyDone (s : State) : Host.Outcome State Fault Refusal :=
  .next (
    if s.searchIn 4 then
      let groups := if s.rcu.resweep = [] then [0, 1, 2] else s.rcu.resweep
      let s := (groups.flatMap groupRings).foldl State.identifyRing s
      { s with rcu := { s.rcu with failed := [] } }.setSearch 5 95
    else s)

/-- One ring goes to its state of search PARK (R106, R151, R154). -/
def State.parkRing (s : State) (r : Nat) : State :=
  let x := s.ring r
  if x.loop = 5 ∨ x.loop = 6 then s
  else if r < 144 then s.setRing r { x.acquiring with opt := .block, goal := .block }
  else s.setRing r x.parked

/-- The rings of VERIFY round n (R131). -/
def State.roundRings (s : State) (n : Nat) : List Nat :=
  if n = 0 then upTo 288
  else if n < 16 then (upTo 8).flatMap (fun k => (upTo 16).map (fun i => cellRing i ((i + n) % 16) k))
  else (upTo 8).flatMap (fun k => ((upTo 16).filter (fun p => s.on (F.PORT_SHUT_CTRL_LOOP p))).map (fun p => cellRing p p k))

/-- A VERIFY round starts (R129, R131): its rings acquire from their ON_CODE. RING of a round that holds no ring is a free value (DESIGN CHOICE: log
entry 5). -/
def State.verifyRound (s : State) (n : Nat) : State :=
  let t := ({ s with rcu := { s.rcu with round := n } } : State).setSearch 6 (95 + 5 * n / 17)
  let t := ((s.roundRings n).filter (fun r => decide (144 ≤ r) && !s.ringBad r)).foldl (fun t r => t.setRing r (t.ring r).acquiring) t
  match s.roundRings n with
  | r :: _ => t.wr F.RCU_SEARCH_STAT_RING r
  | [] => let (v, t) := t.free; t.wr F.RCU_SEARCH_STAT_RING v.toNat

/-- SEARCH_PARK_DONE (R106, R151): modulators in BLOCK, all other rings PARKED. -/
def execSearchParkDone (s : State) : Host.Outcome State Fault Refusal :=
  .next (if s.searchIn 5 then ((upTo 2336).foldl State.parkRing s).verifyRound 0 else s)

/-- The diagonal cells of the ports whose LOOP bit is 1 are asked for once rings can move (R103). -/
def State.lightLoops (s : State) : State := (upTo 16).foldl (fun s p => s.shutCtrlWritten p false) s

/-- One ring at the end of its VERIFY round (R129): LOCKED within 512 codes of ON_CODE, ON_CODE takes LIVE_CODE, else the ring's group fails; then
modulators stay in BLOCK and the others are PARKED. A ring whose loop is in the hold of R135 keeps the status it had. -/
def State.verifyRing (s : State) (r : Nat) : State :=
  let x := s.ring r
  let d := (x.live - x.onCode) + (x.onCode - x.live)
  let rest (x : Ring) : Ring := if r < 144 then x else x.parked
  if x.loop = 5 ∨ x.loop = 6 then s
  else if (x.loop = 3 ∨ x.loop = 4 ∧ x.prior = 3) ∧ d ≤ 512 then s.setRing r (rest { x with onCode := x.live, ff := 0, ffRem := 0 })
  else
    let s := s.setRing r (rest x)
    if s.rcu.failed.contains (groupOf r) then s else { s with rcu := { s.rcu with failed := s.rcu.failed ++ [groupOf r] } }

/-- SEARCH_VERIFY_ROUND_DONE (R129, R131, R151): the next round, a sweep of the groups that failed, or DONE. -/
def execSearchVerifyRoundDone (s : State) : Host.Outcome State Fault Refusal :=
  .next (
    if s.searchIn 6 then
      let s := (s.roundRings s.rcu.round).foldl State.verifyRing s
      if s.rcu.round < 16 then s.verifyRound (s.rcu.round + 1)
      else
        let again := [0, 1, 2].filter s.rcu.failed.contains
        match again with
        | g :: _ =>
          let s := again.foldl (fun s g => s.setBit F.RCU_SEARCH_RES_RESWEPT g) s
          { s with rcu := { s.rcu with resweep := again } }.sweepGroup g
        | [] =>
          let s := { s with rcu := { s.rcu with injectors := false, everDone := true, resweep := [] } }
          let s := ((s.setSearch 7 100).wr F.RCU_SEARCH_STAT_RESULT 1).cause0 0x05 0
          (s.event { page := 0x05, code := 1, sev := 0, arg := 1 + s.rd F.RCU_SEARCH_RES_UNIDENT * 2 ^ 16 }).lightLoops
    else s)

/-! ## The loops (R132 to R137, R157) -/

/-- λS of port p is free: no circuit, no change, no calibration attempt holds it (R216). -/
def State.spareFree (s : State) (p : Nat) : Bool :=
  !s.spareHeld 1024 p && !s.twinPort p && !s.rcu.attempts.any (fun a => a.spare && a.ch / 9 == p) && !s.on (F.PORT_LNK_STAT_SUBST p)

/-- λS of port p stands in for line k in the active image of circuit c, and the change is journaled (R216). -/
def State.autoSpare (s : State) (c p k : Nat) : State :=
  let x := s.circuit c
  let i := x.img
  let i := if i.portA = p then { i with subA := k } else { i with subB := k }
  let s := s.setCircuit c { x with img := i }
  let s := s.substitute p k
  s.sideGroup [deltaOf c (s.circuit c)]

/-- Line k of port p is lost to circuit c (R216): λS stands in for it where it can, else the pair fails. -/
def State.lineFenced (s : State) (c p k : Nat) : State :=
  let i := (s.circuit c).img
  match i.sides.find? (fun x => x.1 == p && (linesOf x.2.1).contains k) with
  | none => s
  | some x =>
    if x.2.2.1 = k then s
    else if s.on F.CSQ_CTRL_AUTO_SPARE ∧ x.2.2.2.1 = 0 ∧ x.2.2.1 = 15 ∧ s.spareFree p = true then s.autoSpare c p k
    else s.degrade (p * 5 + k / 2)

/-- CSQ's reaction to a fenced ring in use by active images (R216). -/
def State.csqFenced (s : State) (r shadow : Nat) : State :=
  let uses := (s.csq.circuits.filter (fun c => (c.2.state == 1 || c.2.state == 2) && c.2.img.rings.contains r)).map (·.1)
  let s := (s.psm.runs.filter (fun x => (psmRings x.1 x.2.e).contains r)).foldl (fun s x => s.psmFail x.1 9) s
  uses.foldl (fun s c =>
    if (s.circuit c).img.path = 1 then s.circuitDown c 3
    else
      let p := r % 144 / 9
      let k := r % 9
      let s := s.lineFenced c p k
      if shadow < 8 ∧ shadow / 2 ≠ k / 2 then s.lineFenced c p shadow else s) s

/-- A heater short or open (R136, R413): the heater is off, the ring fenced. -/
def State.heaterFault (s : State) (r kind : Nat) : State :=
  let sh := shadowOf (s.ring r).events
  let s := s.offRing r 5
  let s := s.setRing r { s.ring r with htrFault := true, shadow := sh, htrSeen := some false }
  let s := ({ s with rcu := { s.rcu with acqs := s.rcu.acqs.filter (· != r), acqWait := s.rcu.acqWait.filter (· != r) } } : State).ringFailed r
  let s := ((s.wr F.ENV_HTR_STAT_RING r).wr F.ENV_HTR_STAT_KIND kind).inc F.ENV_HTR_FAULTS_COUNT
  ((s.cause0 0x05 3).fault 20 0 0 r).csqFenced r sh

/-- The bank sensor of a ring (R134). -/
def bankSensor (r : Nat) : Nat :=
  if r < 288 then r % 144 / 9
  else 16 + 6 * ((r - 288) / 256) + (16 * ((r - 288) % 256 / 16) + (r - 288) % 16) * 6 / 256

/-- The feed-forward sensor of a ring (R134): whether one is selected, and its temperature in 1/64 °C where it reads valid. An input that is OPEN or
REVERSED reads VALID = 0 (R410 to R412). -/
def State.ffSensor (s : State) (r : Nat) : Option (Option Int) :=
  let n := (s.ring r).ffSrc
  let read (v t : Fld) : Option Int := if s.on v then some (toSigned 16 (s.rd t)) else none
  if s.on F.RCU_LOOP_CFG_FF_EN = false then none
  else if n = 0 then some (read (F.ENV_DIE_TEMP_VALID (bankSensor r)) (F.ENV_DIE_TEMP_TEMP (bankSensor r)))
  else if n ≤ 4 then some (read (F.ENV_EXT_TEMP_VALID (n - 1)) (F.ENV_EXT_TEMP_TEMP (n - 1)))
  else none

/-- What feed-forward adds for a change of the sensor by d 1/64 K (R134): d × TO_COEF × PARK_OFS / 200 GHz codes, and the fraction of a code left over,
carried to the next update (DESIGN CHOICE: log entry 96). -/
def ffCodes (d : Int) (coef ofs : Nat) (carry : Int) : Int × Int :=
  let t := d * coef * ofs + carry
  (t / 1280000, t % 1280000)

/-- Feed-forward of a ring (R134): its codes go to the heater; a sensor that reads invalid puts the ring on the pilot loop alone, with FF_FALLBACK, until
the sensor has delivered one valid conversion. -/
def State.feedForward (s : State) (r : Nat) : State :=
  let x := s.ring r
  match s.ffSensor r with
  | none => s.setRing r { x with ffLast := none, fallback := false }
  | some none => if x.fallback then s else ((s.setRing r { x with fallback := true, ffLast := none }).cause0 0x05 7).fault 21
  | some (some t) =>
    let c := ffCodes (t - x.ffLast.getD t) (s.rd F.RCU_FF_CFG_TO_COEF) x.parkOfs x.ffRem
    s.setRing r { x with fallback := false, ffLast := some t, ff := x.ff + c.1, ffRem := c.2, live := clampCode ((x.live : Int) + c.1) }

/-- The pilot of a ring's heater (R128, R132, R135): its frequency in 0.1 Hz, and its peak in codes, 0 where the loop adds no dither. -/
def State.pilot (s : State) (r : Nat) : Nat × Nat :=
  (200000 + 85 * r, if (s.ring r).loop = 2 ∨ (s.ring r).loop = 3 then s.rd F.RCU_LOOP_CFG_PILOT_AMP else 0)

/-- A loop's own update (R132, R133, R135, R157). -/
def State.loopRing (s : State) (u : RingUpdate) : State :=
  let r := u.ring.val
  let x := s.ring r
  if u.overRange then
    s.setRing r { x with prior := if x.loop = 4 then x.prior else x.loop, loop := 4, hold := 3 }
  else if x.hold ≠ 0 then
    s.setRing r { x with hold := x.hold - 1, loop := if x.hold = 1 then x.prior else 4 }
  else
    let s := (s.setRing r { x with live := clampCode ((x.live : Int) + u.ctl) }).feedForward r
    let x := s.ring r
    let win := s.rd F.RCU_LOOP_CFG_LOCK_WIN
    let a := u.detune.natAbs
    let x := { x with lockErr := ofSigned 16 u.detune, inWin := if a ≤ win then x.inWin + 1 else 0,
                      outWin := if 4 * win < a then x.outWin + 1 else 0 }
    let s := s.setRing r x
    let s :=
      if x.loop = 2 ∧ 8 ≤ x.inWin then (s.setRing r { x with loop := 3, inWin := 0, unlocked := false }).ringLocked r
      else if x.loop = 3 ∧ 4 ≤ x.outWin then
        ((((s.setRing r { x with loop := 2, inWin := 0, outWin := 0, unlocked := true, unlocks := min (x.unlocks + 1) 0xFFFF }).ringUnlocked r).stat
          7).cause0 0x05 2).fault 19 0 0 r
      else s.setRing r { x with inWin := min x.inWin 8, outWin := min x.outWin 4 }
    let y := s.ring r
    let far : Bool := y.loop == 3 && decide (y.live < 1024 ∨ 64511 < y.live)
    if far = y.headroom then s
    else if far then ((s.setRing r { y with headroom := true }).cause0 0x05 6).fault 23 0 0 r
    else s.setRing r { y with headroom := false }

/-- The heater report of a ring that stands (R413): supply HTR reading LOW, or a code below 1,024, keeps a heater from being declared open. -/
def State.heaterOpen (s : State) (r : Nat) : Bool := !s.on (F.ENV_SUP_LOW 3) && decide (1024 ≤ s.liveCode r)

/-- A ring's monitor code at one step of its group's sweep (R126): a resonance event is recorded at the code where the monitor has risen to a maximum
from which it then falls. Of equal codes at the top the first counts (R126 does not speak of them; DESIGN CHOICE: log entry 101). -/
def Ring.sweepMon (x : Ring) (code mon : Nat) : Ring :=
  match x.monLast with
  | none => { x with monLast := some mon }
  | some last =>
    if last < mon then { x with monLast := some mon, rise := some code }
    else if mon < last then { x with monLast := some mon, rise := none, events := match x.rise with | some c => x.events ++ [c] | none => x.events }
    else x

/-- One ring's update (R126, R132 to R136, R413). -/
def State.updateRing (s : State) (u : RingUpdate) : State :=
  let r := u.ring.val
  let x := s.ring r
  let bad : Option Nat := match u.htr with
    | .short => some 1
    | .openHeater => if s.heaterOpen r then some 2 else none
    | .sound => none
  if s.swept r then
    match bad with
    | some k => if x.loop = 5 then s.setRing r { x with htrSeen := some false } else s.heaterFault r k
    | none =>
      let x := if x.loop = 5 ∧ x.htrSeen = none ∧ u.htr = .sound ∧ 1024 ≤ s.liveCode r then { x with htrSeen := some true } else x
      if s.rcu.sweepHold ≠ 0 then s.setRing r x
      else if u.overRange then s.setRing r { x with repeats := x.repeats + 1 }
      else s.setRing r (x.sweepMon (s.rd F.RCU_SEARCH_CODE_CODE) u.mon.toNat)
  else if x.loop = 5 then s
  else match bad with
    | some k => s.heaterFault r k
    | none =>
      if x.loop = 0 ∨ x.loop = 6 then s
      else if x.loop = 1 then s.feedForward r
      else s.loopRing u

/-- The sweep goes on by one step of 16 codes; an over-range slot of a ring of its group holds the step for 4 updates and repeats it (R126, R131, R135,
R151). -/
def State.sweepStep (s : State) (u : List RingUpdate) : State :=
  if s.searchIn 3 then
    let hold (n : Nat) : State := { s with rcu := { s.rcu with sweepHold := n } }
    if u.any (fun x => x.overRange && groupOf x.ring == s.rcu.group) then hold 3
    else if s.rcu.sweepHold ≠ 0 then hold (s.rcu.sweepHold - 1)
    else
      let c := min (s.rd F.RCU_SEARCH_CODE_CODE + 16) 65520
      (s.wr F.RCU_SEARCH_CODE_CODE c).wr F.RCU_SEARCH_STAT_PCT (3 + 30 * s.rcu.group + 30 * (c / 16) / 4096)
  else s

/-- One step from a towards b. -/
def step1 (a b : Int) : Int := if a < b then a + 1 else if b < a then a - 1 else a

/-- The state with a channel's entry set. -/
def State.setChan (s : State) (c : Nat) (x : Chan) : State := { s with rcu := { s.rcu with chans := Tbl.set {} s.rcu.chans c x } }

/-- The items of a channel's entry (R138, R158). -/
def Chan.items (x : Chan) : CalItems :=
  { th0 := x.th0, th1 := x.th1, th2 := x.th2, cdrPh := x.cdrPh, pre := toSigned 6 x.pre, main := x.main, post := toSigned 6 x.post,
    modBias := toSigned 12 x.modBias, dropOfs := toSigned 12 x.dropOfs }

/-- A channel's entry with its items set. -/
def Chan.setItems (x : Chan) (m : CalItems) : Chan :=
  { x with th0 := ofSigned 8 m.th0, th1 := ofSigned 8 m.th1, th2 := ofSigned 8 m.th2, cdrPh := ofSigned 6 m.cdrPh, pre := ofSigned 6 m.pre,
           main := ofSigned 6 m.main, post := ofSigned 6 m.post, modBias := ofSigned 12 m.modBias, dropOfs := ofSigned 12 m.dropOfs }

/-- The items of classes (bit 0 RX, 1 TX, 2 RING) taken from b, the others from a (R138). -/
def itemsTake (a b : CalItems) (classes : Nat) : CalItems :=
  let a := if bitOf classes 0 then { a with th0 := b.th0, th1 := b.th1, th2 := b.th2, cdrPh := b.cdrPh } else a
  let a := if bitOf classes 1 then { a with pre := b.pre, main := b.main, post := b.post } else a
  if bitOf classes 2 then { a with modBias := b.modBias, dropOfs := b.dropOfs } else a

/-- Every item one step nearer (R139). -/
def itemsGlide (a b : CalItems) : CalItems :=
  { th0 := step1 a.th0 b.th0, th1 := step1 a.th1 b.th1, th2 := step1 a.th2 b.th2, cdrPh := step1 a.cdrPh b.cdrPh, pre := step1 a.pre b.pre,
    main := step1 a.main b.main, post := step1 a.post b.post, modBias := step1 a.modBias b.modBias, dropOfs := step1 a.dropOfs b.dropOfs }

/-- Values that glide move by one step each; GLIDE pauses under FREEZE (R139, R156). A host write's glide ends at its target. -/
def State.glideStep (s : State) : State :=
  if s.frozen 0x05 then s
  else
    let s := s.rcu.glides.foldl (fun s g => s.setChan g.1 ((s.chan g.1).setItems (itemsGlide (s.chan g.1).items g.2))) s
    { s with rcu := { s.rcu with glides := s.rcu.glides.filter (fun g => (s.chan g.1).items != g.2 ||
      s.rcu.attempts.any (fun a => a.ch == g.1)) } }

/-- LOOP_UPDATE (R126, R132 to R136, R139, R157, R413): the loops run through FREEZE and stop only with RING off. -/
def execLoopUpdate (u : List RingUpdate) (s : State) : Host.Outcome State Fault Refusal :=
  .next (if s.domOn 2 then ((u.foldl State.updateRing s).sweepStep u).glideStep.csqSettle else s)

/-! ## Calibration (R138 to R149, R155) -/

/-- The lane of a channel is trained for a TERMINATE or RELAY circuit, or is λS of an open port (R138). -/
def State.chanTrained (s : State) (ch : Nat) : Bool :=
  let u := chanUnit ch
  if ch % 9 = 8 then s.rd (F.PORT_SHUT_STAT_STATE (ch / 9)) == 1 && s.unitSt u == 7
  else (s.unitSt u == 7 || s.rcu.attempts.any (fun a => a.ch == ch && a.out)) && (s.unit u).circ.isSome

/-- The channel is named by a CAL_RUN that has still to settle it. -/
def State.inCalRun (s : State) (ch : Nat) : Bool := s.rcu.calRuns.any (fun r => r.left.contains ch)

/-- A CAL_RUN whose channels are all settled completes (R149). -/
def State.calRunsDone (s : State) : State :=
  (s.rcu.calRuns.filter (fun r => r.left.isEmpty)).foldl (fun s r =>
    let s := { s with rcu := { s.rcu with calRuns := s.rcu.calRuns.filter (fun x => x.id != r.id) } }
    match s.cmd? r.id with
    | none => s
    | some c =>
      let ports := byteField c.e 16 0 16
      let st := if (upTo 16).any (fun p => bitOf ports p && s.portFenced p) then 2 else 0
      s.complete r.id { status := st, result := r.done + r.suspect * 2 ^ 32 + r.deferred * 2 ^ 64 + r.skipped * 2 ^ 96 }) s

/-- A channel is settled for every CAL_RUN that names it: how is 0 calibrated, 1 SUSPECT, 2 deferred, 3 skipped, 4 not
processed because its port has been fenced since the command started, which counts as nothing (R149). -/
def State.settleChan (s : State) (ch how : Nat) : State :=
  let upd (r : CalRunState) : CalRunState :=
    if r.left.contains ch then
      { r with left := r.left.filter (· != ch), done := r.done + b2n (how == 0), suspect := r.suspect + b2n (how == 1),
               deferred := r.deferred + b2n (how == 2), skipped := r.skipped + b2n (how == 3) }
    else r
  { s with rcu := { s.rcu with calRuns := s.rcu.calRuns.map upd } }.calRunsDone

/-- CAL_RUN (R148, R149). -/
def execCalRun (f : Fn) (e : Block64) (s : State) : Host.Outcome State Fault Refusal :=
  .next (s.command 0x40 0x05 f e (fun c s =>
    let ports := byteField e 16 0 16
    let lines := byteField e 18 0 9
    let classes := byteField e 20 0 3
    let force : Bool := byteField e 20 4 1 == 1
    if ports = 0 ∨ lines = 0 then s.complete c.id { status := 4, detail := 0x10 }
    else if classes = 0 then s.complete c.id { status := 4, detail := 0x11 }
    else if !s.rcu.everDone then s.complete c.id { status := 4, detail := 0x12 }
    else
      let chs := (upTo 144).filter (fun ch => bitOf ports (ch / 9) && bitOf lines (ch % 9) && !s.portFenced (ch / 9))
      let ready := chs.filter s.chanTrained
      let force1 (a : Attempt) : Attempt :=
        if force ∧ ready.contains a.ch = true ∧ a.step = .waitGap then { a with step := .switchOut, spare := false } else a
      let s := s.setWait c.id .cal
      ({ s with rcu := { s.rcu with attempts := s.rcu.attempts.map force1, calRuns := s.rcu.calRuns ++
        [{ id := c.id, left := ready, force := force, classes := classes, done := 0, suspect := 0, deferred := 0,
           skipped := chs.length - ready.length }] } } : State).calRunsDone))

/-- SPARE is available to a channel's attempt (R140). -/
def State.spareMode (s : State) (ch : Nat) : Bool :=
  let p := ch / 9
  bitOf (s.rd F.RCU_CAL_PORTMODE_SPARE) p && ch % 9 != 8 && s.spareFree p && s.unitSt (p * 5 + 4) == 7 &&
    !(s.rd (F.PORT_SHUT_STAT_STATE p) == 4 && s.rd (F.PORT_SHUT_STAT_REASON p) == 6)

/-- The channel the scheduler takes next (R141, R144): one named by a CAL_RUN, else the highest DRIFT_PCT, ties to the lower index. -/
def State.nextChan (s : State) : Option Nat :=
  let free (ch : Nat) : Bool :=
    s.chanTrained ch && !s.portFenced (ch / 9) && !s.rcu.attempts.any (fun a => a.ch / 9 == ch / 9)
  match (upTo 144).find? (fun ch => s.inCalRun ch && free ch) with
  | some ch => some ch
  | none => ((upTo 144).filter (fun ch => s.chanDue ch && free ch)).foldl (fun best ch =>
      match best with
      | none => some ch
      | some b => if s.drift b < s.drift ch then some ch else some b) none

/-- CAL_SELECT (R140, R143, R144, R155): the scheduler starts an attempt on the channel that comes next. Channels of a CAL_RUN whose lane is
no longer trained are skipped, those of a port fenced since are not processed. -/
def execCalSelect (s : State) : Host.Outcome State Fault Refusal :=
  .next (
    if s.live 0x05 then
      let s := ((upTo 144).filter (fun ch => s.inCalRun ch && (!s.chanTrained ch || s.portFenced (ch / 9)) && !s.rcu.attempts.any (fun a => a.ch == ch))).foldl
        (fun s ch => s.settleChan ch (if s.portFenced (ch / 9) then 4 else 3)) s
      match s.nextChan with
      | none => s
      | some ch =>
        if s.rcu.attempts.length < s.rd F.RCU_CAL_CTRL_CAL_PAR then
          let run := s.rcu.calRuns.find? (fun r => r.left.contains ch)
          let force := (run.map (·.force)).getD false
          let spare := !force && s.spareMode ch
          let a : Attempt := { ch := ch, spare := spare, step := if spare || force then .switchOut else .waitGap,
                               classes := (run.map (·.classes)).getD 7, again := (run.map (·.classes)).getD 7, retry := 0, a := none, acc := none }
          let s := { s with rcu := { s.rcu with attempts := s.rcu.attempts ++ [a] } }
          (s.setChan ch { s.chan ch with retries := 0 }).wr F.RCU_CAL_STAT_LAST_CH ch
        else s
    else s)

/-- The attempt on a channel. -/
def State.attempt? (s : State) (ch : Nat) : Option Attempt := s.rcu.attempts.find? (fun a => a.ch == ch)

/-- Change the attempt on a channel. -/
def State.updAttempt (s : State) (ch : Nat) (f : Attempt → Attempt) : State :=
  { s with rcu := { s.rcu with attempts := updFirst (fun a => a.ch == ch) f s.rcu.attempts } }

/-- CAL_GAP_FOUND (R145): the lane pair has carried no data flit for 200 µs. -/
def execCalGapFound (ch : ChanIx) (s : State) : Host.Outcome State Fault Refusal :=
  .next (match s.attempt? ch.val with
    | some a => if a.step = .waitGap ∧ s.live 0x05 = true then s.updAttempt ch.val (fun a => { a with step := .switchOut }) else s
    | none => s)

/-- CAL_DEFER (R145): the wait has run to CAL_DEFER_MAX: forced at 100 % drift, else deferred. -/
def execCalDefer (ch : ChanIx) (s : State) : Host.Outcome State Fault Refusal :=
  .next (match s.attempt? ch.val with
    | some a =>
      if a.step = .waitGap ∧ s.live 0x05 = true then
        if 100 ≤ s.drift ch.val then
          (s.updAttempt ch.val (fun a => { a with step := .switchOut })).inc F.RCU_CAL_FORCED_COUNT
        else
          let s := s.event { page := 0x05, code := 2, sev := 1, arg := 2336 + ch.val }
          let s := s.setChan ch.val { s.chan ch.val with defers := min ((s.chan ch.val).defers + 1) 0xFFF }
          (((s.inc F.RCU_CAL_DEFERRALS_COUNT).stat 9).cause0 0x05 5).settleChan ch.val 2
      else s
    | none => s)

/-- The difference of two results stays within a tolerance (R141). -/
def within (tol : Nat) (a b : Int) : Bool := decide ((a - b).natAbs ≤ tol)

/-- The classes among cl whose two results disagree (R141). -/
def disagree (tap htr cl : Nat) (a b : CalItems) : Nat :=
  (if bitOf cl 0 ∧ (within tap a.th0 b.th0 && within tap a.th1 b.th1 && within tap a.th2 b.th2 && within tap a.cdrPh b.cdrPh) = false then 1 else 0) +
  (if bitOf cl 1 ∧ (within tap a.pre b.pre && within tap a.main b.main && within tap a.post b.post) = false then 2 else 0) +
  (if bitOf cl 2 ∧ (within htr a.modBias b.modBias && within htr a.dropOfs b.dropOfs) = false then 4 else 0)

/-- The mean of two results, to the nearest integer, a tie to the second (R141). -/
def meanOf (a b : Int) : Int := if (a + b) % 2 = 0 then (a + b) / 2 else if b < a then (a + b) / 2 else (a + b) / 2 + 1

/-- The mean of each item. -/
def itemsMean (a b : CalItems) : CalItems :=
  { th0 := meanOf a.th0 b.th0, th1 := meanOf a.th1 b.th1, th2 := meanOf a.th2 b.th2, cdrPh := meanOf a.cdrPh b.cdrPh, pre := meanOf a.pre b.pre,
    main := meanOf a.main b.main, post := meanOf a.post b.post, modBias := meanOf a.modBias b.modBias, dropOfs := meanOf a.dropOfs b.dropOfs }

/-- Words W0 to W2 of a channel entry (R158). -/
def Chan.words (x : Chan) : List Word :=
  [BitVec.ofNat 32 (x.th0 % 256 + x.th1 % 256 * 2 ^ 8 + x.th2 % 256 * 2 ^ 16 + x.cdrPh % 64 * 2 ^ 24),
   BitVec.ofNat 32 (x.pre % 64 + x.main % 64 * 2 ^ 8 + x.post % 64 * 2 ^ 16), BitVec.ofNat 32 (x.modBias % 4096 + x.dropOfs % 4096 * 2 ^ 16)]

/-- The classes that a SPARE attempt or a host write applies by GLIDE (R139). -/
def State.glideClasses (s : State) : Nat :=
  s.rd F.RCU_CAL_CTRL_MODE_RX + 2 * s.rd F.RCU_CAL_CTRL_MODE_TX + 4 * s.rd F.RCU_CAL_CTRL_MODE_RING

/-- An attempt is accepted (R139, R141, R142): the values go to JNL, STEP classes are applied, the lane switches back. -/
def State.acceptCal (s : State) (a : Attempt) (v : CalItems) : State :=
  let x := s.chan a.ch
  let s := s.append (.cal (BitVec.ofNat 16 (2336 + a.ch)) 1 true (x.setItems v).words)
  let glide := if a.spare then s.glideClasses else 0
  let s := s.setChan a.ch (x.setItems (itemsTake x.items v (a.classes &&& (7 - glide % 8))))
  s.updAttempt a.ch (fun a => { a with step := .switchBack, acc := some v, again := 0 })

/-- CAL_MEASURE_DONE (R141, R155): the first result, or the second and COMPARE. -/
def execCalMeasureDone (ch : ChanIx) (m : CalItems) (s : State) : Host.Outcome State Fault Refusal :=
  .next (match s.attempt? ch.val with
    | none => s
    | some at0 =>
      if !s.live 0x05 then s
      else match at0.step, at0.a with
        | .measA, _ => s.updAttempt ch.val (fun a => { a with step := .measB, a := some m })
        | .measB, some first =>
          let acc := itemsTake (at0.acc.getD (s.chan ch.val).items) (itemsMean first m) at0.again
          let bad := disagree (s.rd F.RCU_CAL_DEFER_CAL_TOL_TAP) (s.rd F.RCU_CAL_DEFER_CAL_TOL_HTR) at0.again first m
          if bad = 0 then s.acceptCal at0 acc
          else if at0.retry < 3 then
            let s := (s.inc F.RCU_CAL_RETRIES_COUNT).setChan ch.val { s.chan ch.val with retries := at0.retry + 1 }
            s.updAttempt ch.val (fun a => { a with step := .measA, retry := a.retry + 1, again := bad, a := none, acc := some acc })
          else
            let s := s.setChan ch.val { s.chan ch.val with suspect := true }
            let s := (s.updAttempt ch.val (fun a => { a with step := .switchBack, acc := none, again := 0 })).cause0 0x05 4
            (s.fault 22 0 0 ch.val).settleChan ch.val 1
        | _, _ => s)

/-- A channel's values have been applied (R142, R149). -/
def State.calApplied (s : State) (ch : Nat) : State :=
  let x := s.chan ch
  let s := { s with rcu := { s.rcu with attempts := s.rcu.attempts.filter (fun a => a.ch != ch), glides := s.rcu.glides.filter (fun g => g.1 != ch) } }
  let s := s.setChan ch { x with count := (x.count + 1) % 2 ^ 32, last := s.time.now.toNat, base := toSigned 16 (s.rd (F.ENV_DIE_TEMP_TEMP (ch / 9))),
                                 suspect := false, never := false, defers := 0 }
  (s.stat 8).settleChan ch 0

/-- CAL_SWITCH_DONE (R140, R142, R155, R183): the lane is out of service, or back in service and the values applied or gliding. -/
def execCalSwitchDone (ch : ChanIx) (s : State) : Host.Outcome State Fault Refusal :=
  .next (match s.attempt? ch.val with
    | none => s
    | some a =>
      if !s.live 0x05 then s
      else match a.step with
        | .switchOut =>
          let s := s.updAttempt ch.val (fun a => { a with step := .measA })
          if a.spare then s.substitute (ch.val / 9) (ch.val % 9)
          else s.setUnitSt (chanUnit ch.val) 3 0
        | .switchBack =>
          let s := s.returnLane a
          match a.acc with
          | none => { s with rcu := { s.rcu with attempts := s.rcu.attempts.filter (fun x => x.ch != ch.val) } }
          | some v =>
            let t := itemsTake (s.chan ch.val).items v a.classes
            if (s.chan ch.val).items = t then s.calApplied ch.val
            else { s.updAttempt ch.val (fun a => { a with step := .glide }) with
                   rcu := { (s.updAttempt ch.val (fun a => { a with step := .glide })).rcu with
                            glides := s.rcu.glides.filter (fun g => g.1 != ch.val) ++ [(ch.val, t)] } }
        | _ => s)

/-- CAL_GLIDE_DONE (R139, R142): every item has reached its target, by one code or tap per loop update; nothing before that. -/
def execCalGlideDone (ch : ChanIx) (s : State) : Host.Outcome State Fault Refusal :=
  .next (match s.attempt? ch.val with
    | none => s
    | some a =>
      if a.step = .glide ∧ s.live 0x05 = true then
        if s.rcu.glides.any (fun g => g.1 == ch.val && g.2 != (s.chan ch.val).items) then s else s.calApplied ch.val
      else s)

/-- RCU freezes (R153, R156): INTERRUPT attempts are abandoned and their lanes return; SPARE attempts stop in place. -/
def State.rcuFreeze (s : State) : State := s.abandon (fun a => !a.spare && a.step != .glide)

/-- RCU's FREEZE ends (R153): a sweep's group restarts at code 0, a VERIFY round repeats. -/
def State.rcuThaw (s : State) : State :=
  if s.rd F.RCU_SEARCH_STAT_STATE = 3 then s.sweepGroup s.rcu.group
  else if s.rd F.RCU_SEARCH_STAT_STATE = 6 then s.verifyRound s.rcu.round else s

end Sys2Proof.Machine
end

