-- ==== Sys2Proof/Machine/Lnk.lean ====
section
/-! DEFINITION. The Felilo link: codewords and lock (R160 to R162, R170, R171), slots (R163, R164, R167 to R169), flits, replay and credits (R165 to
R178), framing (R179 to R181), substitution (R183), training (R188 to R193), beacons and the rate of fabric time (R184 to R186, R350, R351), the wake
pattern (R187). -/

namespace Sys2Proof.Machine

/-- Port p's link runs: LNK and the port are enabled, LANE is on (R338, R425, R426). -/
def State.portOn (s : State) (p : Nat) : Bool := s.en 0x06 && s.en (0x10 + p) && s.domOn 3

/-- A unit is ACTIVE on a port whose link runs. -/
def State.unitUp (s : State) (u : Nat) : Bool := s.portOn (u / 5) && s.unitSt u == 7

/-- The unit of a line. -/
def unitOf (p k : Nat) : Nat := p * 5 + k / 2

/-- A port number as an operand. -/
def portIx (p : Nat) : Port := Fin.ofNat 16 p

/-- A line number as an operand. -/
def lineIx (k : Nat) : LineIx := Fin.ofNat 9 k

/-! ## Slots that are sent (R160, R161, R163, R164, R167, R182, R183) -/

/-- The two halves of a flit: H0 on the even line, H1 on the odd one (R163). -/
def flitHalves (f : Flit) : Burst × Burst := let b := f.bytes; (.data (b.take 128), .data (b.drop 128))

/-- Slot ix of a codeword with a CWSEQ is a lane pair's control slot (R164). -/
def ctlSlot (cw ix : Nat) : Bool := ix == 0 && cw % 5 == 0

/-- A pair's slots for one codeword: what has filled them, a skip pair in a control slot and idle flits elsewhere (R164). -/
def padPair (cw : Nat) (fill : List (Burst × Burst)) : List (Burst × Burst) :=
  let fill := if fill = [] ∧ ctlSlot cw 0 = true then [(.skip, .skip)] else fill
  fill ++ List.replicate (5 - fill.length) (flitHalves idleFlit)

/-- What slot 0 of a λS codeword holds (R167, R182): an IDLE burst, and in every 80th codeword a skip. -/
def LinkUnit.spareSlot0 (x : LinkUnit) : Burst := if 79 ≤ x.sinceSkip then .skip else .data idleBurst

/-- λS's slots for one codeword: what has filled them, IDLE bursts elsewhere (R182). -/
def padSpare (x : LinkUnit) : List Burst :=
  let l := if x.fill = [] then [x.spareSlot0] else x.fill.map (·.1)
  l ++ List.replicate (5 - l.length) (.data idleBurst)

/-- The line whose bursts λS of port p carries now (R161, R183): 8 unless it substitutes. -/
def State.spareLine (s : State) (p : Nat) : Nat :=
  match (s.plink p).tx with
  | some t => if (t.on && t.done) || (!t.on) then t.line else 8
  | none => 8

/-- The bursts that line k of port p sends in the codeword being filled, if its unit is ACTIVE. -/
def State.lineBursts (s : State) (p k : Nat) : Option (List Burst) :=
  let u := unitOf p k
  if s.unitSt u ≠ 7 then none
  else if k = 8 then some (padSpare (s.unit u))
  else some ((padPair (s.plink p).cw (s.unit u).fill).map (fun x => if k % 2 = 0 then x.1 else x.2))

/-- Active bits of the drive converters of a unit's modulators, as its last training found them (R107, R108). -/
def State.activeBits (s : State) (u : Nat) : Nat := 8 - 2 * min 2 (s.unit u).bits

/-- A drive code with the low-order bits that are not active forced to 0 (R107). -/
def driveCode (active v : Nat) : Nat := v / 2 ^ (8 - active) * 2 ^ (8 - active)

/-- The codewords of port p leave, with one CWSEQ on every lane (R161), and the next ones begin; a substitution whose changeover CWSEQ is reached
begins or ends (R183). -/
def State.sendCodewords (s : State) (p : Nat) : State :=
  let x := s.plink p
  let lanes := (upTo 9).filterMap (fun k =>
    let line := if k = 8 then s.spareLine p else k
    (s.lineBursts p line).map (fun b => Output.codeword (portIx p) (lineIx k) (s.activeBits (unitOf p k)) (encodeCw line x.cw b)))
  let s := lanes.foldl State.send s
  let s := (upTo 5).foldl (fun s j =>
    let u := p * 5 + j
    let y := s.unit u
    let n := if y.fill ≠ [] then y.sinceSkip
      else if j = 4 then (if 79 ≤ y.sinceSkip then 0 else y.sinceSkip + 1)
      else if ctlSlot x.cw 0 then 0 else y.sinceSkip
    s.setUnit u { y with fill := [], sinceSkip := n }) s
  let cw := (x.cw + 1) % 125
  s.setPlink p { x with cw := cw, tx := match x.tx with
    | some t => if t.told ∧ t.done = false ∧ t.cw = cw then (if t.on then some { t with done := true } else none) else some t
    | none => none }

/-- The next slot of a unit is open: the codewords leave once the unit's five slots are filled. -/
def State.openSlot (s : State) (u : Nat) : State := if 5 ≤ (s.unit u).fill.length then s.sendCodewords (u / 5) else s

/-- The open slot of a lane pair is its control slot (R164). -/
def State.atControl (s : State) (u : Nat) : Bool := ctlSlot (s.plink (u / 5)).cw (s.unit u).fill.length

/-- Fill the open slot of a unit. -/
def State.fillSlot (s : State) (u : Nat) (x : Burst × Burst) : State := s.setUnit u { s.unit u with fill := (s.unit u).fill ++ [x] }

/-- A service burst goes into the next slot of λS of port p from slot first on (R182); slot 0 holds none. -/
def State.placeSpare (s : State) (p first : Nat) (b : List Byte) : State :=
  let u := p * 5 + 4
  let s := if first < (s.unit u).fill.length ∧ first ≠ 0 then s.sendCodewords p else s.openSlot u
  let x := s.unit u
  let s := if x.fill = [] then
      s.setUnit u { x with fill := [(x.spareSlot0, .skip)], sinceSkip := if 79 ≤ x.sinceSkip then 0 else x.sinceSkip + 1 }
    else s
  s.fillSlot u (.data b, .skip)

/-! ## Codewords that arrive (R160 to R163, R170, R171, R183) -/

/-- A loss is repaired by replay: NAK goes out with the next control flit (R173). -/
def State.wantNak (s : State) (u : Nat) : State := if u % 5 = 4 then s else s.setUnit u { s.unit u with nak := true }

/-- The receiver asks for the retraining of an ACTIVE pair: a control flit with RETRAIN_REQ leaves before it (R172; DESIGN CHOICE: log entry 105). -/
def State.askRetrain (s : State) (u : Nat) : State :=
  if u % 5 = 4 ∨ s.unitSt u ≠ 7 then s
  else
    let x := s.unit u
    let c : CtlFlit :=
      { ackV := true, nakV := false, retrainReq := true, substV := false, ack := BitVec.ofNat 16 (x.exp + 2 ^ 16 - 1), nak := 0,
        credit := BitVec.ofNat 32 x.given, substLine := 0, substOn := false, substCw := 0 }
    s.send (.ctlFlit (portIx (u / 5)) (Fin.ofNat 4 (u % 5)) c)

/-- A loss event of a lane pair (R170): more than 8 within 1 ms retrain it. -/
def State.lossEvent (s : State) (u : Nat) : State :=
  if u % 5 = 4 then s
  else
    let now := s.time.now.toNat
    let l := (s.unit u).losses.filter (fun t => decide (now < t + 1000000 * 65536)) ++ [now]
    let s := s.setUnit u { s.unit u with losses := l }
    if 8 < l.length then (s.askRetrain u).retrain u else s

/-- A codeword loses its bursts (R162): it is uncorrectable, or its MARK is wrong. -/
def Codeword.lost (c : Codeword) : Bool := c.quality == .uncorrectable || c.mark != 9

/-- A codeword meets the conditions of R162 at a lane: decoded, marked, and in sequence. -/
def Lane.meets (x : Lane) (c : Codeword) : Bool := !c.lost && c.cwseq == (x.cw + 1) % 125

/-- A lane's lock after a codeword (R162): 8 good ones in a row lock it, 4 bad ones in a row lose the lock. -/
def Lane.step (x : Lane) (c : Codeword) : Lane :=
  let cw := (if c.quality = .uncorrectable then x.cw + 1 else c.cwseq) % 125
  if x.lock then
    if x.meets c then { x with bad := 0, cw := cw }
    else if x.bad + 1 < 4 then { x with bad := x.bad + 1, cw := cw }
    else { cw := cw }
  else if c.lost then { cw := cw }
  else
    let n := if x.meets c ∧ x.good ≠ 0 then x.good + 1 else 1
    if n < 8 then { good := n, cw := cw } else { lock := true, cw := cw }

/-- Codeword cw of a port comes at or after the changeover of a substitution (R183), counted from shortly before its announcement. -/
def Subst.past (x : Subst) (cw : Nat) : Bool := decide ((x.cw + 125 - x.base) % 125 ≤ (cw + 125 - x.base) % 125)

/-- Line k's bursts with CWSEQ cw are taken from λS (R183). -/
def State.fromSpare (s : State) (p k cw : Nat) : Bool :=
  match (s.plink p).rx with
  | some x => x.line == k && (if x.on then x.done || x.past cw else !x.past cw)
  | none => false

/-- The lane that line k arrives on. -/
def State.carrier (s : State) (p k : Nat) : Nat :=
  match (s.plink p).rx with
  | some x => if x.line = k ∧ x.on = true ∧ x.done = true then 8 else k
  | none => k

/-- Every lane of a unit holds codeword lock. -/
def State.unitLocked (s : State) (u : Nat) : Bool := (unitLines u).all (fun k => (s.lane (u / 5) (s.carrier (u / 5) k)).lock)

/-- A substitution is settled ten codewords after its changeover, by when neither lane lags behind it (R163). -/
def State.settleSubst (s : State) (p cw : Nat) : State :=
  match (s.plink p).rx with
  | some x =>
    let d := (cw + 125 - x.cw) % 125
    if x.done = false ∧ x.past cw = true ∧ 10 ≤ d ∧ d < 62 then s.setPlink p { s.plink p with rx := if x.on then some { x with done := true } else none }
    else s
  | none => s

/-- One half of a slot is filled. -/
def RxSlot.put (x : RxSlot) (half : Nat) (b : Burst) (bad : Bool) : RxSlot :=
  if half = 0 then { x with h0 := some b, bad0 := bad } else { x with h1 := some b, bad1 := bad }

/-- The half of a slot. -/
def RxSlot.half (x : RxSlot) (half : Nat) : Option Burst := if half = 0 then x.h0 else x.h1

/-- A slot whose other half is more than 2 codewords behind has lost it (R163). -/
def RxSlot.expire (x : RxSlot) (half cw : Nat) : RxSlot :=
  let d := (cw + 125 - x.cw) % 125
  if (x.half (1 - half)).isNone ∧ 2 < d ∧ d < 62 then x.put (1 - half) .lost false else x

/-- The bursts of a codeword with CWSEQ cw go into the slots of line k's unit (R163); λS keeps what it is to deliver: TRAIN bursts while it trains, else
beacons and twin bursts (R182). -/
def State.deposit (s : State) (p k cw : Nat) (bad : Bool) (bs : List Burst) (t : DWord) : State :=
  let u := unitOf p k
  let half := k % 2
  let st := s.unitSt u
  if st < 4 ∨ 7 < st then s
  else
    let keep (b : Burst) : Bool := k != 8 || (match b with | .data x => if st = 7 then isBurst 0x11 x || isBurst 0x13 x else isBurst 0x10 x | _ => false)
    let place (l : List RxSlot) (y : Nat × Burst) : List RxSlot :=
      if !keep y.2 then l
      else
        let here (x : RxSlot) : Bool := x.cw == cw && x.ix == y.1 && (x.half half).isNone
        if l.any here then updFirst here (fun x => x.put half y.2 bad) l
        else l ++ [({ cw := cw, ix := y.1, time := t } : RxSlot).put half y.2 bad]
    let x := s.unit u
    let l := ((upTo 5).zip bs).foldl place x.slots
    let l := if k = 8 then l else l.map (fun y => y.expire half cw)
    s.setUnit u { x with slots := l }

/-- A lane's run of failing codewords has ended: what came with it stands (R171). -/
def State.unmark (s : State) (p k : Nat) : State :=
  let u := unitOf p k
  let x := s.unit u
  if x.slots.all (fun y => !y.bad0 && !y.bad1) then s
  else s.setUnit u { x with slots := x.slots.map (fun y => if k % 2 = 0 then { y with bad0 := false } else { y with bad1 := false }) }

/-- A substitution ends because λS lost lock (R171): the line goes back to its own lane, or its pair fails. -/
def State.endSubst (s : State) (p : Nat) : State :=
  if s.on (F.PORT_LNK_STAT_SUBST p) ∨ (s.plink p).rx.isSome then
    let k := match (s.plink p).rx with | some x => x.line | none => s.rd (F.PORT_LNK_STAT_SUBST_LINE p)
    let s := s.abandon (fun a => a.spare && a.ch / 9 == p)
    let s := s.dropSubst p
    let u := unitOf p k
    let s := (s.setUnit u { s.unit u with slots := (s.unit u).slots.takeWhile (fun y => !y.bad0 && !y.bad1) }).wantNak u
    if (s.lane p k).lock then s else s.degrade u
  else s

/-- A lane loses codeword lock (R171): of an ACTIVE unit every burst from the first failing codeword on is discarded, and the unit retrains. -/
def State.lockLoss (s : State) (p k : Nat) : State :=
  let u := unitOf p k
  let s := s.inc (F.PORT_LOCK_LOSS_COUNT p k)
  let x := s.unit u
  let s := (s.setUnit u { x with slots := x.slots.takeWhile (fun y => !y.bad0 && !y.bad1) }).wantNak u
  let s := if k = 8 then s.endSubst p else s
  (s.askRetrain u).retrain u

/-- The identity a lane has received. -/
def State.peerOf (s : State) (p k : Nat) : Option PeerId := if k % 2 = 0 then (s.unit (unitOf p k)).peer0 else (s.unit (unitOf p k)).peer1

/-- The TRAIN burst that line k of port p sends (R188): its own identity, the echo of what it receives, LSEQ, credit and time. -/
def State.trainBurst (s : State) (p k : Nat) : TrainBurst :=
  let x := s.unit (unitOf p k)
  let e := (s.peerOf p k).getD { node := 0, port := 0, line := 0 }
  { state := BitVec.ofNat 4 (s.unitSt (unitOf p k)), node := BitVec.ofNat 14 (s.rd F.GLB_NODE_ID_NODE_ID), port := BitVec.ofNat 4 p,
    line := BitVec.ofNat 4 k, echoNode := BitVec.ofNat 14 e.node, echoPort := BitVec.ofNat 4 e.port, echoLine := BitVec.ofNat 4 e.line,
    echoV := (s.peerOf p k).isSome, nextLseq := BitVec.ofNat 16 x.exp, creditInit := BitVec.ofNat 32 x.given, tSend := s.time.now }

/-- A unit's TRAIN bursts are sent as they now are (R188, R189): from CW_LOCK on. -/
def State.sendTrain (s : State) (u : Nat) : State :=
  if 3 ≤ s.unitSt u ∧ s.unitSt u ≤ 6 then
    (unitLines u).foldl (fun s k => s.send (.trainBurst (portIx (u / 5)) (lineIx k) (s.trainBurst (u / 5) k))) s
  else s

/-- A unit's training moves to a state, which its TRAIN bursts show (R188, R189). -/
def State.trainTo (s : State) (u st : Nat) : State := (s.setUnitSt u st 0).sendTrain u

/-- The receiver of lane k listens for codewords: its unit is in CW_LOCK or beyond (R189), or it is λS and carries a line of such a unit. -/
def State.listens (s : State) (p k : Nat) : Bool :=
  let up (u : Nat) : Bool := decide (3 ≤ s.unitSt u ∧ s.unitSt u ≤ 7)
  s.portOn p && (up (unitOf p k) || (k == 8 && (match (s.plink p).rx with | some x => up (unitOf p x.line) | none => false)))

/-- The line whose bursts a codeword on lane k carries (R161): what its header says, and of one that is lost, the line that the lane carries. A data lane
whose codeword names another line has lost its bursts (DESIGN CHOICE: log entry 106). -/
def State.lineOn (s : State) (p k : Nat) (c : Codeword) (cw : Nat) : Nat :=
  if k ≠ 8 then k
  else if !c.lost then c.line
  else match (s.plink p).rx with
    | some x => if s.fromSpare p x.line cw then x.line else 8
    | none => 8

/-- A codeword's bursts are stored, where the lane is the source of its line (R163, R171, R183). -/
def State.takeSlots (s : State) (p k : Nat) (c : Codeword) (cw : Nat) (bad : Bool) (t : DWord) : State :=
  let line := s.lineOn p k c cw
  let bs := if c.lost || (k != 8 && c.line != k) then List.replicate 5 Burst.lost else c.slots
  let here : Bool := if line = 8 then k == 8 else line < 8 && (s.fromSpare p line cw == (k == 8))
  let s := if here then s.deposit p line cw bad bs t else s
  let s := if here && !bad then s.unmark p line else s
  let s := if here ∧ c.quality = .uncorrectable ∧ line ≠ 8 ∧ s.unitSt (unitOf p line) = 7 then s.lossEvent (unitOf p line) else s
  s.settleSubst p cw

/-- What a unit in CW_LOCK does once its lanes are locked (R189, R191): on to ID, or back into service from calibration. -/
def State.afterLock (s : State) (u : Nat) : State :=
  if s.unitSt u ≠ 3 ∨ s.unitLocked u = false then s
  else if (s.unit u).back then (s.setUnit u { s.unit u with back := false }).setUnitSt u 7 0
  else if s.calOut u then s
  else s.trainTo u 4

/-- CODEWORD_RECEIVE (R160 to R163, R170, R171, R183, R189): t is the fabric time at which the codeword's first symbol arrived. -/
def execCodewordReceive (p : Port) (k : LineIx) (levels : List (Fin 4)) (t : DWord) (s : State) : Host.Outcome State Fault Refusal :=
  .next (
    if !s.listens p k then s
    else
      let c := decodeCw levels
      let old := s.lane p k
      let new := old.step c
      let s := s.setLane p k new
      let s := if c.lost then (s.inc (F.PORT_CW_UNCORR_COUNT p k)).stat 13 else s
      let s := if c.quality = .corrected then s.inc (F.PORT_CW_CORR_COUNT p k) else s
      let s := s.takeSlots p k c new.cw (old.lock && !old.meets c) t
      if old.lock && !new.lock then
        (if s.unitSt (unitOf p k) = 7 then s.lockLoss p k else if k.val = 8 then (s.inc (F.PORT_LOCK_LOSS_COUNT p k)).endSubst p else s)
      else
        match (s.plink p).rx with
        | some x => (s.afterLock (unitOf p k)).afterLock (unitOf p x.line)
        | none => s.afterLock (unitOf p k))

/-! ## Sequence numbers, flits and their framing (R165, R166, R176 to R181) -/

/-- Bytes of a flit that AES-256-GCM covers as additional data (R179): CSEQ[63:32], then flit bytes 0–1 and 4–11. -/
def flitAad (cseqHi : Nat) (f : Flit) : List Nat := beBytes 4 cseqHi ++ natBytes (f.head.take 2 ++ f.head.drop 4)

/-- The IV of a flit (R179): SALT, DIR, CSEQ[31:0]. -/
def flitIv (salt : Nat) (dir : Bool) (cseq : Nat) : List Nat :=
  leBytes 4 (BitVec.ofNat 32 salt) ++ [if dir then 128 else 0, 0, 0, 0] ++ beBytes 4 (cseq % 2 ^ 32)

/-- The bytes of a key, in the order of FIPS 197. -/
def keyBytes (k : BitVec 256) : List Nat := beBytes 32 k.toNat

/-- The 64-bit CSEQ nearest to the one expected, from its low 32 bits (R177). -/
def rebuild (lo e : Nat) : Nat :=
  let base := e / 2 ^ 32 * 2 ^ 32 + lo
  if base + 2 ^ 31 < e then base + 2 ^ 32 else if e + 2 ^ 31 ≤ base ∧ 2 ^ 32 ≤ base then base - 2 ^ 32 else base

/-- A flit of a circuit, its CSEQ given; encrypted where the circuit has a key (R165, R179). DIR is 0 from the end with the lower node ID. -/
def State.makeFlit (s : State) (i : Image) (cseq client : Nat) (body : List Byte) : Flit :=
  let k := s.keySlot i.keySlot
  let f : Flit := { typ := 1, enc := i.keyEn, len := body.length, lseq := 0, cseq := BitVec.ofNat 32 cseq, client := BitVec.ofNat 4 client, body := [] }
  if i.keyEn then
    let r := gcmSeal (keyBytes k.key) (flitIv k.salt (decide (i.peerA < s.rd F.GLB_NODE_ID_NODE_ID)) cseq) (flitAad (cseq / 2 ^ 32) f)
      (natBytes (padTo 224 body))
    { f with body := (r.1 ++ r.2).map (BitVec.ofNat 8) }
  else { f with body := padTo 240 body }

/-- CSEQ that a circuit's next data flit takes (R177, R180). -/
def State.txCseq (s : State) (c : Nat) : Nat :=
  let i := (s.circuit c).img
  if i.keyEn then (s.keySlot i.keySlot).tx else (s.circLink c).tx

/-- A circuit's CSEQ advances (R177, R180). -/
def State.stepTxCseq (s : State) (c : Nat) : State :=
  let i := (s.circuit c).img
  if i.keyEn then s.setKeySlot i.keySlot { s.keySlot i.keySlot with tx := (s.keySlot i.keySlot).tx + 1 }
  else s.setCircLink c { s.circLink c with tx := (s.circLink c).tx + 1 }

/-- Queue one data flit on a circuit. -/
def State.queueFlit (s : State) (c client : Nat) (body : List Byte) : State :=
  s.setCircLink c { s.circLink c with txq := (s.circLink c).txq ++ [(client, body)] }

/-- The body bytes of a message cut into flits of at most m bytes, n flits at most. -/
def flitBodies (m : Nat) (l : List Byte) : Nat → List (List Byte)
  | 0 => []
  | n + 1 => if l = [] then [] else l.take m :: flitBodies m (l.drop m) n

/-- A message of client classes first and rest, whole, into a circuit's transmit queue (R275, R279). -/
def State.queueMessage (s : State) (c first rest : Nat) (bytes : List Byte) : State :=
  let m := if (s.circuit c).img.keyEn then 224 else 240
  match flitBodies m bytes (bytes.length + 1) with
  | [] => s
  | b :: bs => bs.foldl (fun s b => s.queueFlit c rest b) (s.queueFlit c first b)

/-- Flits a message of n bytes takes on a circuit. -/
def State.flitsFor (s : State) (c n : Nat) : Nat := let m := if (s.circuit c).img.keyEn then 224 else 240; (n + m - 1) / m

/-- Flits for which a circuit's transmit queue still has room (R275): 64 KiB for each lane pair it holds. A pair that is lost is still held, so the queue
of a DOWN circuit keeps its room (DEDUCED: log entry 119). -/
def State.queueFree (s : State) (c : Nat) : Nat := 256 * (s.circuit c).img.units.length - (s.circLink c).txq.length

/-- The first flit of a request message with this tag (R280), as a queue holds it. -/
def isRequest (tag : Nat) (x : Nat × List Byte) : Bool := x.1 == 1 && decide (numAt x.2 0 1 < 0x80) && numAt x.2 4 2 % 2 ^ 13 == tag

/-- A queue without the request message with this tag. -/
def withoutRequest (tag : Nat) : List (Nat × List Byte) → List (Nat × List Byte)
  | [] => []
  | x :: t => if isRequest tag x then t.dropWhile (fun y => y.1 == 2) else x :: withoutRequest tag t

/-- A request message that has not left leaves its circuit's queue (R277, R282). -/
def State.unqueue (s : State) (c tag : Nat) : State := s.setCircLink c { s.circLink c with txq := withoutRequest tag (s.circLink c).txq }

/-! ## Receiving data flits (R169, R173, R177, R181) -/

/-- CSEQ that a circuit expects next (R177, R180). -/
def State.rxCseq (s : State) (c : Nat) : Nat :=
  let i := (s.circuit c).img
  if i.keyEn then (s.keySlot i.keySlot).rx else (s.circLink c).rx

/-- Set the CSEQ that a circuit expects next. -/
def State.setRxCseq (s : State) (c n : Nat) : State :=
  let i := (s.circuit c).img
  if i.keyEn then s.setKeySlot i.keySlot { s.keySlot i.keySlot with rx := n } else s.setCircLink c { s.circLink c with rx := n }

/-- A client has taken a flit of a unit (R176): the receiver raises the unit's credit by one, but not beyond the share the unit now has. -/
def State.giveCredit (s : State) (u : Nat) : State :=
  let x := s.unit u
  s.setUnit u { x with taken := x.taken + 1, given := if x.given < x.taken + 1 + s.creditShare (u / 5) then x.given + 1 else x.given }

/-- A CLIENT value begins a message (R279, R291). -/
def isFirst (client : Nat) : Bool := client == 1 || client == 3

/-- A flit of a circuit is handed to its clients: not the rest of a message that has lost a flit (R280, R292). -/
def State.toInbox (s : State) (c : Nat) (e u : Nat) (f : Flit) : State :=
  let x := s.circLink c
  if isFirst f.client.toNat then s.setCircLink c { x with inbox := x.inbox ++ [(e, u, f)], broken := false }
  else if x.broken then s.giveCredit u
  else s.setCircLink c { x with inbox := x.inbox ++ [(e, u, f)] }

/-- The flits of the message that arrived last. -/
def lastMessage (l : List (Nat × Nat × Flit)) : List (Nat × Nat × Flit) :=
  let r := l.reverse
  let tail := r.takeWhile (fun x => !isFirst x.2.2.client.toNat)
  (r.take (tail.length + 1)).reverse

/-- A LOST indication for a flit of CLIENT (R181): the client discards the message that the flit belongs to (R280, R292). -/
def State.lostFlit (s : State) (c u client : Nat) : State :=
  let x := s.circLink c
  let gone := if isFirst client then [] else lastMessage x.inbox
  let s := s.setCircLink c { x with inbox := x.inbox.take (x.inbox.length - gone.length), broken := true }
  (gone.foldl (fun s y => s.giveCredit y.2.1) s).giveCredit u

/-- Deliver the flits whose turn has come, in CSEQ order (R177); a lost one becomes a LOST indication (R181). -/
def State.deliver (s : State) (c : Nat) : Nat → State
  | 0 => s
  | n + 1 =>
    let e := s.rxCseq c
    let x := s.circLink c
    match x.early.find? (fun y => y.cseq == e) with
    | none => s
    | some y =>
      let s := s.setCircLink c { x with early := x.early.filter (fun z => z.cseq != e) }
      let s := match y.flit with
        | some f => s.toInbox c e y.unit f
        | none => s.lostFlit c y.unit y.client
      (s.setRxCseq c (e + 1)).deliver c n

/-- An authentication failure (R181): counted, reported, and a fault. -/
def State.authFail (s : State) (p : Nat) : State :=
  ((s.inc (F.PORT_AUTH_FAIL_COUNT p)).cause0 (0x10 + p) 11).fault 25 1 p

/-- The flit with its body decrypted, where its tag verifies (R179). -/
def State.openFlit (s : State) (i : Image) (cseq : Nat) (f : Flit) : Option Flit :=
  let k := s.keySlot i.keySlot
  let b := natBytes f.body
  if !k.loaded || s.secGated then none
  else (gcmOpen (keyBytes k.key) (flitIv k.salt (decide (s.rd F.GLB_NODE_ID_NODE_ID < i.peerA)) cseq)
    (flitAad (cseq / 2 ^ 32) f) (b.take 224) (b.drop 224)).map (fun t => { f with body := t.map (BitVec.ofNat 8) })

/-- An accepted data flit at a TERMINATE end (R177, R181). -/
def State.terminateFlit (s : State) (u c : Nat) (f : Flit) : State :=
  let i := (s.circuit c).img
  let p := u / 5
  let e := s.rxCseq c
  let n := rebuild f.cseq.toNat e
  let put (s : State) (o : Option Flit) : State :=
    let x := s.circLink c
    (s.setCircLink c { x with early := x.early ++ [{ cseq := n, unit := u, client := f.client.toNat, flit := o }] }).deliver c (x.early.length + 1)
  if n < e ∨ (s.circLink c).early.any (fun y => y.cseq == n) = true then (s.inc (F.PORT_REPLAY_REJ_COUNT p)).giveCredit u
  else if f.enc then
    match (if i.keyEn then s.openFlit i n f else none) with
    | some g => put s (some g)
    | none => put (s.authFail p) none
  else if i.keyEn then (s.inc (F.PORT_AUTH_FAIL_COUNT p)).giveCredit u
  else put s (some f)

/-- An accepted data flit (R173, R176 to R178): forwarded by a RELAY node to its other side, or taken in CSEQ order by a TERMINATE end. -/
def State.acceptFlit (s : State) (u : Nat) (f : Flit) : State :=
  let x := s.unit u
  let s := (s.setUnit u { x with exp := (x.exp + 1) % 2 ^ 16, nak := false, nakOut := false }).stat 16
  match x.circ with
  | none => s.giveCredit u
  | some c =>
    let y := s.circuit c
    let s := s.statPart y.owner 7
    if y.img.path = 2 then
      s.setCircLink c { s.circLink c with relay := (s.circLink c).relay ++ [{ side := x.side, unit := some u, flit := f }] }
    else s.terminateFlit u c f

/-- The oldest slot of a lane pair whose halves have both come, if none of them may yet have to be discarded (R163, R171). -/
def LinkUnit.ready (x : LinkUnit) : Option RxSlot :=
  match x.slots with
  | y :: _ => if y.h0.isSome && y.h1.isSome && !y.bad0 && !y.bad1 then some y else none
  | [] => none

/-- The bytes of a slot's flit, H0 first (R163). -/
def RxSlot.flitBytes (y : RxSlot) : Option (List Byte) :=
  match y.h0, y.h1 with
  | some (.data a), some (.data b) => some (a ++ b)
  | _, _ => none

/-- A slot holds TRAIN bursts of a peer that is not yet ACTIVE, no flit (DESIGN CHOICE: log entry 107). -/
def trainSlot (l : List Byte) : Bool := isBurst 0x10 (l.take 128) && isBurst 0x10 (l.drop 128)

/-- One of a slot's halves is a skip and the other is a flit's (R169). -/
def RxSlot.bubble (y : RxSlot) : Bool :=
  match y.h0, y.h1 with
  | some (.data _), some .skip => true
  | some .skip, some (.data _) => true
  | _, _ => false

/-- A half of the slot was in a codeword that was lost (R162, R169). -/
def RxSlot.uncorr (y : RxSlot) : Bool := y.h0 == some .lost || y.h1 == some .lost

/-- The flit's CRC holds and its TYPE is not reserved (R166). -/
def flitOk (l : List Byte) : Bool := crcHolds l && (let t := numAt l 0 1 % 16; t == 1 || t == 2 || t == 3)

/-- A bubble in a slot of a pair (R169): counted as a half lost. -/
def State.halfLoss (s : State) (u : Nat) : State := ((s.inc (F.PORT_HALF_LOSS_COUNT (u / 5) (u % 5))).stat 12).lossEvent u

/-- The oldest slot of a unit is taken. -/
def State.popSlot (s : State) (u : Nat) : State := s.setUnit u { s.unit u with slots := (s.unit u).slots.drop 1 }

/-- DATA_FLIT_RECEIVE (R21, R166, R169, R173): the pair's oldest slot, unless it is a control slot. A port fence stops the port's traffic: nothing is
accepted, and the flits are asked for again (DESIGN CHOICE: log entry 108). -/
def execDataFlitReceive (p : Port) (j : PairIx) (s : State) : Host.Outcome State Fault Refusal :=
  .next (
    let u := p.val * 5 + j.val
    if !s.unitUp u then s
    else match (s.unit u).ready with
      | none => s
      | some y =>
        if ctlSlot y.cw y.ix then s
        else
          let s := s.popSlot u
          if y.uncorr then s.wantNak u
          else if y.bubble then (s.wantNak u).halfLoss u
          else match y.flitBytes with
            | none => s
            | some l =>
              let f := flitOf l
              if trainSlot l then s
              else if !flitOk l then (s.inc (F.PORT_CRC_ERR_COUNT p)).wantNak u
              else if f.typ ≠ 1 then s
              else if s.portFenced p then s.wantNak u
              else if f.lseq.toNat = (s.unit u).exp then s.acceptFlit u f
              else s)

/-! ## Control flits (R167, R172, R173, R176, R183) -/

/-- a comes at or before b, as 16-bit sequence numbers. -/
def seqLe (a b : Nat) : Bool := decide ((b + 2 ^ 16 - a % 2 ^ 16) % 2 ^ 16 < 2 ^ 15)

/-- An announcement of a substitution has arrived in codeword cw (R183); the same one again says nothing new. -/
def State.hearSubst (s : State) (p cw line c : Nat) (on : Bool) : State :=
  let x := s.plink p
  let new : Subst := { line := line, on := on, cw := c, base := (cw + 122) % 125, told := true }
  match x.rx with
  | none => if on then s.setPlink p { x with rx := some new } else s
  | some r => if r.line = line ∧ r.on = on then s else s.setPlink p { x with rx := some new }

/-- A control flit's values are applied (R172, R173, R176, R183). -/
def State.controlFlit (s : State) (u cw : Nat) (c : CtlFlit) : State :=
  let x := s.unit u
  let kept := if c.ackV then x.resend.filter (fun f => !seqLe f.lseq.toNat c.ack.toNat) else x.resend
  let again := if c.nakV then kept.filter (fun f => seqLe c.nak.toNat f.lseq.toNat) else x.replay.filter (fun f => kept.contains f)
  let s := s.setUnit u { x with resend := kept, replay := again, credit := c.credit.toNat, eye0 := c.eye0, eye1 := c.eye1 }
  let s := if c.nakV then s.inc (F.PORT_REPLAYS_COUNT (u / 5)) else s
  let s := if c.substV ∧ c.substLine.toNat / 2 = u % 5 then s.hearSubst (u / 5) cw c.substLine.toNat c.substCw.toNat c.substOn else s
  if c.retrainReq then s.retrain u else s

/-- CONTROL_FLIT_RECEIVE (R166, R169, R172): the pair's oldest slot, if it is a control slot. A control flit that is lost asks for nothing. -/
def execControlFlitReceive (p : Port) (j : PairIx) (s : State) : Host.Outcome State Fault Refusal :=
  .next (
    let u := p.val * 5 + j.val
    if !s.unitUp u then s
    else match (s.unit u).ready with
      | none => s
      | some y =>
        if !ctlSlot y.cw y.ix then s
        else
          let s := s.popSlot u
          if y.bubble then s.halfLoss u
          else match y.flitBytes with
            | none => s
            | some l =>
              if trainSlot l then s
              else if !flitOk l then s.inc (F.PORT_CRC_ERR_COUNT p)
              else if (flitOf l).typ = 2 then s.controlFlit u y.cw (ctlOf (flitOf l))
              else s)

/-- The lanes of a pair whose transmit FIFO is at its low mark, where this part lets it fall so low: around a change of the operating point (R168). -/
def State.lowLanes (s : State) (low : BitVec 2) : BitVec 2 := if s.rd F.CPM_OP_OPSTATE = 0 then 0 else low

/-- A lane whose FIFO is low sends a skip in place of its half (R168). -/
def bubbled (low : BitVec 2) (x : Burst × Burst) : Burst × Burst :=
  (if low.getLsbD 0 then .skip else x.1, if low.getLsbD 1 then .skip else x.2)

/-- A measured EYE value of a lane: free values (DESIGN CHOICE: log entry 5). -/
def State.measureEye (s : State) : Eye × State :=
  let (v, s) := s.free
  let b (i : Nat) : Byte := BitVec.ofNat 8 (v.toNat / 256 ^ i)
  ({ m0 := b 0, m1 := b 1, m2 := b 2, cdr := b 3, snr := b 4, report := BitVec.ofNat 16 (v.toNat / 2 ^ 40) }, s)

/-- The substitution that a pair's control flits announce (R183): the changeover lies 4 to 61 codewords ahead, by a free value (DESIGN CHOICE: log
entry 5). -/
def State.announce (s : State) (u : Nat) : Option Subst × State :=
  let p := u / 5
  let x := s.plink p
  match x.tx with
  | none => (none, s)
  | some t =>
    if t.line / 2 ≠ u % 5 ∨ t.done = true then (none, s)
    else if t.told then (some t, s)
    else
      let (v, s) := s.free
      let t := { t with told := true, cw := (x.cw + 4 + v.toNat % 58) % 125 }
      (some t, s.setPlink p { x with tx := some t })

/-- CONTROL_FLIT_SEND (R164, R167, R168, R172, R183): in a control slot, a control flit, or a skip pair once in every 80 control slots; low says which
lanes' transmit FIFOs are at their low mark. -/
def execControlFlitSend (p : Port) (j : PairIx) (low : BitVec 2) (s : State) : Host.Outcome State Fault Refusal :=
  .next (
    let u := p.val * 5 + j.val
    if !s.unitUp u then s
    else
      let s := s.openSlot u
      if !s.atControl u then s
      else
        let x := s.unit u
        if 79 ≤ x.sinceSkip ∨ s.lowLanes low = 3 then ((s.setUnit u { x with sinceSkip := 0 }).fillSlot u (.skip, .skip)).send (.skipPair p j)
        else
          let (sub, s) := s.announce u
          let (e0, s) := s.measureEye
          let (e1, s) := s.measureEye
          let t := sub.getD { line := 0, on := false }
          let c : CtlFlit :=
            { ackV := true, nakV := x.nak, retrainReq := false, substV := sub.isSome, ack := BitVec.ofNat 16 (x.exp + 2 ^ 16 - 1),
              nak := BitVec.ofNat 16 x.exp, credit := BitVec.ofNat 32 x.given, substLine := BitVec.ofNat 4 t.line, substOn := t.on,
              substCw := BitVec.ofNat 7 t.cw, eye0 := e0, eye1 := e1 }
          let s := s.setUnit u { s.unit u with sinceSkip := x.sinceSkip + 1, nak := false, nakOut := x.nak || x.nakOut }
          (s.fillSlot u (bubbled (s.lowLanes low) (flitHalves c.flit))).send (.ctlFlit p j c))

/-! ## Sending data flits (R17, R164, R168, R173, R175 to R180) -/

/-- Pairs of a port that are ACTIVE, at least one (R175). -/
def State.trainedPairs (s : State) (p : Nat) : Nat := max 1 ((pairsOf (s.rd (F.PORT_LNK_STAT_PAIR_UP p))).length)

/-- A unit holds a credit (R176): the peer's limit lies ahead of what it has sent. -/
def State.hasCredit (s : State) (u : Nat) : Bool :=
  let x := s.unit u
  decide (1 ≤ (x.credit + 2 ^ 32 - x.sent % 2 ^ 32) % 2 ^ 32 ∧ (x.credit + 2 ^ 32 - x.sent % 2 ^ 32) % 2 ^ 32 < 2 ^ 31)

/-- A unit may send a new data flit (R175, R176): credit, the limit of unacknowledged flits, its replay share under the REPLAY_ALLOC its last training
found. -/
def State.maySend (s : State) (u : Nat) : Bool :=
  let x := s.unit u
  s.hasCredit u && decide (x.resend.length < 16384) && decide (256 * (x.resend.length + 1) ≤ x.alloc * 65536 / s.trainedPairs (u / 5))

/-- A new data flit leaves on a unit (R165, R176). -/
def State.emitFlit (s : State) (u owner : Nat) (f : Flit) : State × Flit :=
  let x := s.unit u
  let f := { f with lseq := BitVec.ofNat 16 x.next }
  let s := s.setUnit u { x with next := (x.next + 1) % 2 ^ 16, sent := x.sent + 1, resend := x.resend ++ [f] }
  ((s.stat 15).statPart owner 6, f)

/-- The first flit of a request message has left with a CSEQ: the operation that holds its tag is sent (R276, R280). -/
def State.noteSent (s : State) (c client cseq : Nat) (body : List Byte) : State :=
  let b (i : Nat) : Nat := (body.getD i 0).toNat
  if client = 1 ∧ b 0 < 0x80 then
    let tag := (b 4 + 256 * b 5) % 2 ^ 13
    let mine (o : RmeOp) : Bool := o.tag == some tag && o.circ == some c && o.stage != .quarantined
    let ops := updFirst mine (fun o => { o with cseq := cseq % 2 ^ 32, stage := .sent }) s.rme.ops
    { s with rme := { s.rme with ops := ops } }
  else s

/-- The circuit of a unit places new flits on it: in service, and one of the active image's pairs (R204, R217). -/
def State.placesOn (s : State) (c u : Nat) : Bool :=
  let x := s.circuit c
  (x.state == 1 || x.state == 2) && x.img.units.contains u && !x.lost.contains u

/-- The flit that a RELAY node sends next on a unit: the first that came on its other side (R17, R178). -/
def State.nextRelay (s : State) (u c : Nat) : Option (State × Flit) :=
  let l := s.circLink c
  let own := (s.circuit c).owner
  let other (r : RelayFlit) : Bool := r.side != (s.unit u).side
  (l.relay.find? other).map (fun r =>
    let s := s.setCircLink c { l with relay := dropFirst other l.relay }
    let s := match r.unit with | some v => s.giveCredit v | none => s
    s.emitFlit u own r.flit)

/-- The flit that a TERMINATE end sends next on a unit: one to be sent again with its CSEQ, else the circuit's next (R177, R180, R193). -/
def State.nextOwn (s : State) (u c : Nat) : Option (State × Flit) :=
  let l := s.circLink c
  let own := (s.circuit c).owner
  match l.again, l.txq with
  | f :: rest, _ => if f.enc && s.secGated then none else some ((s.setCircLink c { l with again := rest }).emitFlit u own f)
  | [], [] => none
  | [], (client, body) :: rest =>
    let n := s.txCseq c
    let i := (s.circuit c).img
    if 2 ^ 64 - 1 ≤ n || (i.keyEn && (s.secGated || !(s.keySlot i.keySlot).loaded)) then none
    else
      let f := s.makeFlit i n client body
      let r := ((s.setCircLink c { l with txq := rest }).stepTxCseq c).emitFlit u own f
      some (r.1.noteSent c client n body, r.2)

/-- The data flit a unit sends next (R173, R176): a replayed flit first, which needs no credit; none on a fenced port (R21), and no encrypted one while
the GCM engines are stopped (R328). -/
def State.nextFlit (s : State) (u : Nat) : Option (State × Flit) :=
  let x := s.unit u
  if s.portFenced (u / 5) then none
  else match x.replay, x.circ with
    | f :: rest, _ => if f.enc && s.secGated then none else some ((s.setUnit u { x with replay := rest }).stat 14, f)
    | [], none => none
    | [], some c =>
      if !s.maySend u || !s.placesOn c u then none
      else if (s.circuit c).img.path = 2 then s.nextRelay u c else s.nextOwn u c

/-- DATA_FLIT_SEND (R164, R168, R173, R176): in a slot that is no control slot, the pair's next data flit, or an idle flit when nothing is ready; low
says which lanes' transmit FIFOs are at their low mark. With both low the slot is a skip pair, and the flit waits. -/
def execDataFlitSend (p : Port) (j : PairIx) (low : BitVec 2) (s : State) : Host.Outcome State Fault Refusal :=
  .next (
    let u := p.val * 5 + j.val
    if !s.unitUp u then s
    else
      let s := s.openSlot u
      if s.atControl u then s
      else if s.lowLanes low = 3 then s.fillSlot u (.skip, .skip)
      else match s.nextFlit u with
        | none => s.fillSlot u (bubbled (s.lowLanes low) (flitHalves idleFlit))
        | some (t, f) => (t.fillSlot u (bubbled (s.lowLanes low) (flitHalves f))).send (.flit p j f))

/-- NAK_REPEAT (R173): the expected LSEQ has not come within RTT plus 4 µs. -/
def execNakRepeat (p : Port) (j : PairIx) (s : State) : Host.Outcome State Fault Refusal :=
  .next (
    let u := p.val * 5 + j.val
    if s.unitUp u ∧ (s.unit u).nakOut = true then s.wantNak u else s)

/-! ## Training (R171, R188 to R193) -/

/-- SPARE_RETRY (R171): λS that failed is tried again while the shutter is OPEN. -/
def execSpareRetry (p : Port) (s : State) : Host.Outcome State Fault Refusal :=
  .next (
    let u := p.val * 5 + 4
    if s.unitSt u = 0 ∧ s.on (F.PORT_TRAIN_FAIL p 4) = true ∧ s.rd (F.PORT_SHUT_STAT_STATE p) = 1 then s.train u else s)

/-- CDR_LOCK (R189): training moves to CW_LOCK. -/
def execCdrLock (p : Port) (u : UnitIx) (s : State) : Host.Outcome State Fault Refusal :=
  .next (
    let n := p.val * 5 + u.val
    if s.portOn p ∧ s.unitSt n = 2 then ((unitLines n).foldl (fun s k => s.setLane p (s.carrier p k) {}) s).trainTo n 3 else s)

/-- The result of the identity exchange (R122): 1 MATCH, 2 SWAPPED, 3 SPLIT. Where the received identity differs from PORT_PEER_EXP and the echo is
not this port's either, SWAPPED stands (R122 gives no order; DESIGN CHOICE: log entry 99). -/
def State.identity (s : State) (p : Nat) (lanes : List TrainBurst) : Nat :=
  let ok (b : TrainBurst) : Bool :=
    b.node.toNat == s.rd (F.PORT_PEER_EXP_NODE p) && b.port.toNat == s.rd (F.PORT_PEER_EXP_PORT p)
  let echo (b : TrainBurst) : Bool := b.echoNode.toNat == s.rd F.GLB_NODE_ID_NODE_ID && b.echoPort.toNat == p
  if lanes.all ok then (if lanes.all echo then 1 else 3) else if lanes.any ok then 3 else 2

/-- A training reaches ACTIVE (R189, R191, R193, R201): the peer's credit limit, its NEXT_LSEQ, and CSQ's change that needs the pair. -/
def State.trained (s : State) (u : Nat) (b : TrainBurst) : State :=
  let x := s.unit u
  let kept := x.resend.filter (fun f => seqLe b.nextLseq.toNat f.lseq.toNat)
  let s := s.setUnit u { x with credit := b.creditInit.toNat, resend := kept, replay := kept, tries := 0,
                                next := if kept = [] then b.nextLseq.toNat else x.next }
  let s := (s.trainTo u 7).stat 10
  if u % 5 = 4 then s
  else
    let s := s.setBit (F.PORT_LNK_STAT_PAIR_FAILED (u / 5)) (u % 5) false
    (s.setChanges (s.csq.changes.map (fun c =>
      if c.st = 5 ∧ c.units.contains u = true ∧ c.active.contains u = false then { c with active := c.active ++ [u] } else c))).csqSettle

/-- What each lane of a unit brings in a slot: the TRAIN bursts whose CRC holds (R182, R188). -/
def RxSlot.trainBursts (y : RxSlot) (u : Nat) : List TrainBurst :=
  let of (h : Option Burst) : Option TrainBurst := match h with | some (.data l) => trainOf l | _ => none
  (if u % 5 = 4 then [y.h0] else [y.h0, y.h1]).filterMap of

/-- The lanes of a unit received codewords whose CWSEQ agree within 2 (R189). -/
def State.aligned (s : State) (u : Nat) : Bool :=
  match (unitLines u).map (fun k => (s.lane (u / 5) (s.carrier (u / 5) k)).cw) with
  | [a, b] => decide ((a + 125 - b) % 125 ≤ 2 ∨ (b + 125 - a) % 125 ≤ 2)
  | _ => true

/-- RTT in ns from T_SEND (R189): twice the time from the burst's sending to its receipt, as fabric time counts it (the spec gives no formula; DESIGN
CHOICE: log entry 109). -/
def rttOf (t tSend : DWord) : Nat := min 65535 (2 * (t - tSend).toNat / 65536)

/-- The identities that a unit's TRAIN bursts bring (R188). -/
def LinkUnit.meet (x : LinkUnit) (l : List TrainBurst) : LinkUnit :=
  let id (b : TrainBurst) : PeerId := { node := b.node.toNat, port := b.port.toNat, line := b.line.toNat }
  { x with peer0 := (l[0]?).map id, peer1 := (l[1]?).map id }

/-- The TRAIN bursts of one slot advance a unit's training (R122, R188, R189, R191): ID records the identity of the first lane and answers with the
echo, ALIGN measures RTT, ACTIVATE waits for STATE 6 from every lane. -/
def State.trainStep (s : State) (n : Nat) (t : DWord) (lanes : List TrainBurst) (b : TrainBurst) : State :=
  let p := n / 5
  if s.unitSt n = 4 then
    let x := s.unit n
    let y := x.meet lanes
    let s := if x = y then s else (s.setUnit n y).sendTrain n
    if lanes.all (fun b => b.echoV) then
      let s := (s.wr (F.PORT_PEER_SEEN_NODE p) b.node.toNat).wr (F.PORT_PEER_SEEN_PORT p) b.port.toNat
      if s.on (F.PORT_PEER_EXP_CHECK p) then
        let r := s.identity p lanes
        let s := s.wr (F.PORT_PEER_SEEN_RESULT p) r
        if r = 1 then s.trainTo n 5 else ((s.cause0 (0x10 + p) 2).fault 18 1 p).trainFailed n 4
      else s.trainTo n 5
    else s
  else if s.unitSt n = 5 then
    if s.aligned n then (s.wr (F.PORT_LNK_STAT_RTT p) (rttOf t b.tSend)).trainTo n 6 else s
  else if s.unitSt n = 6 ∧ lanes.all (fun b => decide (6 ≤ b.state.toNat)) = true then s.trained n b
  else s

/-- TRAIN_BURST_RECEIVE (R122, R188, R189, R191): the unit's oldest slot, one burst of each lane. -/
def execTrainBurstReceive (p : Port) (u : UnitIx) (s : State) : Host.Outcome State Fault Refusal :=
  .next (
    let n := p.val * 5 + u.val
    if !s.portOn p ∨ s.unitSt n < 4 ∨ 6 < s.unitSt n then s
    else match (s.unit n).slots with
      | [] => s
      | y :: _ =>
        if y.h0.isNone ∨ (u.val ≠ 4 ∧ y.h1.isNone = true) then s
        else
          let lanes := y.trainBursts n
          let s := s.popSlot n
          match lanes with
          | [] => s
          | b :: _ => if lanes.length = (unitLines n).length then s.trainStep n y.time lanes b else s)

/-- TRAIN_TIMEOUT (R190): the attempt ends FAILED with TIMEOUT; a pair out of service for calibration is in no attempt. -/
def execTrainTimeout (p : Port) (u : UnitIx) (s : State) : Host.Outcome State Fault Refusal :=
  .next (
    let n := p.val * 5 + u.val
    if 1 ≤ s.unitSt n ∧ s.unitSt n ≤ 6 ∧ s.calOut n = false then s.trainFailed n 6
    else s)

/-! ## Beacons and fabric time (R184 to R186, R214, R349 to R351) -/

/-- The states of TIME_STATE that follow from the configuration and the parent (R351). ESTIMATED stays until one of its exits. -/
def State.evalTime (s : State) : State :=
  if s.rd F.CPM_TIME_STAT_TIME_STATE = 5 then s
  else
    let st :=
      if s.on F.LNK_TIME_CTRL_ROOT then 1
      else if !s.on F.LNK_TIME_CTRL_PARENT_EN then 0
      else if s.on F.LNK_TIME_STAT_SYNCED then 3
      else if s.time.lossAt.isSome then 4 else 2
    s.wr F.CPM_TIME_STAT_TIME_STATE st

/-- The root's stratum (R184, R185). -/
def State.rootStratum (s : State) : State := (s.wr F.LNK_TIME_STAT_STRATUM 0).wr F.LNK_TIME_STAT_ROOT_NODE 0

/-- A write of LNK_TIME_CTRL has changed its fields (R184, R185, R351): the root is stratum 0, and no parent names its root (DEDUCED: log entry 27); a
node that stops being the root is at stratum 0xFF until it has taken θ from its parent. -/
def State.timeCtrlWritten (s : State) : State :=
  let s := if s.on F.LNK_TIME_CTRL_ROOT then s.rootStratum
    else if s.on F.LNK_TIME_CTRL_PARENT_EN then (if s.rd F.LNK_TIME_STAT_STRATUM = 0 then s.wr F.LNK_TIME_STAT_STRATUM 0xFF else s)
    else ({ s with time := { s.time with good := 0, lossAt := none } }.wr F.LNK_TIME_STAT_STRATUM 0xFF).wr F.LNK_TIME_STAT_SYNCED 0
  s.evalTime

/-- Fabric time steps to t (R185, R350): counted where LNK steps it, and marked in the statistics period (R402). -/
def State.stepTime (s : State) (t : DWord) : State :=
  let s := { s with time := { s.time with now := t, sub := 0 }, sta := { s.sta with since := t.toNat } }
  if s.en 0x20 then s.setBit F.STA_FLAGS_FLAGS 2 else s

/-- A port's beacon state. -/
def State.beaconSt (s : State) (p : Nat) : BeaconSt := Tbl.get {} s.lnk.beacons p

/-- The state with a port's beacon state set. -/
def State.setBeacon (s : State) (p : Nat) (x : BeaconSt) : State := { s with lnk := { s.lnk with beacons := Tbl.set {} s.lnk.beacons p x } }

/-- BEACON_SEND (R184): on an open span with λS ACTIVE and not substituting. -/
def execBeaconSend (p : Port) (s : State) : Host.Outcome State Fault Refusal :=
  .next (
    if s.unitUp (p.val * 5 + 4) ∧ s.on (F.PORT_LNK_CFG_BEACON_EN p) = true ∧ s.rd (F.PORT_SHUT_STAT_STATE p) = 1 ∧
        s.on (F.PORT_LNK_STAT_SUBST p) = false then
      let x := s.beaconSt p
      let b : Beacon :=
        { bseq := BitVec.ofNat 16 x.bseq, tTxPrev := BitVec.ofNat 64 x.tPrev, tRxLast := BitVec.ofNat 64 x.rxLast,
          peerBseq := BitVec.ofNat 16 x.peerBseq, stratum := BitVec.ofNat 8 (s.rd F.LNK_TIME_STAT_STRATUM),
          rootNode := BitVec.ofNat 14 (if s.on F.LNK_TIME_CTRL_ROOT then s.rd F.GLB_NODE_ID_NODE_ID else s.rd F.LNK_TIME_STAT_ROOT_NODE) }
      ((s.setBeacon p { x with bseq := (x.bseq + 1) % 2 ^ 16, tPrev := s.time.now.toNat, tPrev2 := x.tPrev }).placeSpare p 0 b.bytes).send
        (.beacon p b)
    else s)

/-- The difference of two fabric times, signed. -/
def timeDiff (a b : Nat) : Int := toSigned 64 ((a + 2 ^ 64 - b % 2 ^ 64) % 2 ^ 64)

/-- θ from a parent's beacon (R185), in 2^-16 ns: its T_TX_PREV and the receive time of that beacon, its T_RX_LAST and the send time of this
end's beacon with PEER_BSEQ; none where a beacon between is missing. Half a unit is rounded down (DESIGN CHOICE: log entry 16). -/
def State.theta (s : State) (p : Nat) (b : Beacon) : Option Int :=
  let x := s.beaconSt p
  let t1 := if b.peerBseq.toNat = (x.bseq + 2 ^ 16 - 1) % 2 ^ 16 then some x.tPrev
    else if b.peerBseq.toNat = (x.bseq + 2 ^ 16 - 2) % 2 ^ 16 then some x.tPrev2 else none
  match t1 with
  | none => none
  | some t1 =>
    if x.seen ∧ b.bseq.toNat = (x.peerBseq + 1) % 2 ^ 16 then
      let asym := toSigned 16 (s.rd (F.PORT_TIME_ASYM_ASYM p)) * 4096
      some ((timeDiff b.tRxLast.toNat t1 - timeDiff x.rxLast b.tTxPrev.toNat - asym) / 2)
    else none

/-- θ is applied (R185, R351): a step above 1 µs, else a rate of at most 500 ppm towards it, whose size is a free value (DESIGN CHOICE: log entry 5). -/
def State.applyTheta (s : State) (d : Int) (b : Beacon) : State :=
  let (v, s) := if d.natAbs < 2 ^ 31 then (ofSigned 32 d, s) else (s.free.1.toNat, s.free.2)
  let s := { s with time := { s.time with theta := d } }
  let s := s.wrs [(F.LNK_TIME_OFS_THETA, v), (F.LNK_TIME_STAT_STRATUM, min 255 (b.stratum.toNat + 1)),
    (F.LNK_TIME_STAT_ROOT_NODE, b.rootNode.toNat)]
  let s := if 65536000 < d.natAbs then
      ((s.stepTime (s.time.now + BitVec.ofInt 64 d)).inc F.LNK_TIME_STEPS_COUNT).cause0 0x06 0
    else
      let (v, s) := s.free
      let r : Int := (v.toNat % 500001 : Nat)
      { s with time := { s.time with rate := if 0 < d then r else if d < 0 then -r else 0 } }
  let n := if d.natAbs < 131072 then s.time.good + 1 else 0
  let s := { s with time := { s.time with good := min n 16, lossAt := none } }
  let s := if s.rd F.CPM_TIME_STAT_TIME_STATE = 5 then s.wr F.CPM_TIME_STAT_TIME_STATE 2 else s
  let s := if 16 ≤ n ∧ s.on F.LNK_TIME_STAT_SYNCED = false then (s.wr F.LNK_TIME_STAT_SYNCED 1).cause0 0x06 2 else s
  s.evalTime

/-- The first burst of a type that λS of port p has received, and the state without it. -/
def State.takeBurst (s : State) (p typ : Nat) : Option (List Byte × DWord × State) :=
  let u := p * 5 + 4
  let x := s.unit u
  let is (y : RxSlot) : Bool := match y.h0 with | some (.data l) => !y.bad0 && isBurst typ l | _ => false
  match x.slots.find? is with
  | some y => match y.h0 with
    | some (.data l) => some (l, y.time, s.setUnit u { x with slots := dropFirst is x.slots })
    | _ => none
  | none => none

/-- BEACON_RECEIVE (R182, R184, R185): the first beacon that λS has received. -/
def execBeaconReceive (p : Port) (s : State) : Host.Outcome State Fault Refusal :=
  .next (
    if s.unitUp (p.val * 5 + 4) then
      match s.takeBurst p 0x11 with
      | none => s
      | some (l, t, s) =>
        let b := beaconOf l
        let d := if s.on F.LNK_TIME_CTRL_ROOT ∨ s.on F.LNK_TIME_CTRL_PARENT_EN = false ∨ s.rd F.LNK_TIME_CTRL_PARENT ≠ p.val then none
          else s.theta p b
        let s := s.setBeacon p { s.beaconSt p with rxLast := t.toNat, peerBseq := b.bseq.toNat, seen := true }
        match d with
        | some d => s.applyTheta d b
        | none => s
    else s)

/-- PARENT_LOSS (R186, R351): the parent's beacons have stopped for 16 intervals. -/
def execParentLoss (s : State) : Host.Outcome State Fault Refusal :=
  .next (
    if s.on F.LNK_TIME_CTRL_PARENT_EN ∧ s.on F.LNK_TIME_CTRL_ROOT = false then
      let was := s.on F.LNK_TIME_STAT_SYNCED
      let s := { s with time := { s.time with good := 0, lossAt := if was then some s.time.now.toNat else s.time.lossAt } }
      let p := s.rd F.LNK_TIME_CTRL_PARENT
      let s := s.setBeacon p { s.beaconSt p with seen := false }
      (((s.wr F.LNK_TIME_STAT_SYNCED 0).cause0 0x06 1).cause0 (0x10 + p) 13).evalTime
    else s)

/-! ## The wake pattern (R187) -/

/-- LP0 of a port carries a circuit. -/
def State.lp0Used (s : State) (p : Nat) : Bool := s.csq.circuits.any (fun c => c.2.holds && c.2.img.channels.any (fun ch => ch.1 == p && ch.2 < 2))

/-- WAKE_TX written 1 (R187): the pattern starts, or none where the write is refused with BADVAL. -/
def State.wakeTxStart (s : State) (p : Port) : Option State :=
  if s.lp0Used p then none else some ((s.wr (F.PORT_LNK_CFG_WAKE_TX p) 1).send (.wakePattern p))

/-- WAKE_TX_END (R187): after 500 µs WAKE_TX clears. -/
def execWakeTxEnd (p : Port) (s : State) : Host.Outcome State Fault Refusal := .next (s.wr (F.PORT_LNK_CFG_WAKE_TX p) 0)

end Sys2Proof.Machine
end

