-- ==== Sys2Proof/Machine/Sec.lean ====
section
/-! DEFINITION. Partitions, memory windows, key slots, tamper and erasure (R314 to R331). -/

namespace Sys2Proof.Machine

/-! ## Memory windows (R315, R316) -/

/-- Window w admits a request of node s, partition part, for len bytes from offset a, a write where wr. -/
def State.winAdmits (s : State) (node part a len : Nat) (wr : Bool) (w : Nat) : Bool :=
  s.on (F.SEC_WIN_W0_VALID w) &&
    (node &&& s.rd (F.SEC_WIN_W0_SRC_MASK w)) == (s.rd (F.SEC_WIN_W0_SRC_NODE w) &&& s.rd (F.SEC_WIN_W0_SRC_MASK w)) &&
    (s.rd (F.SEC_WIN_W1_REQ_PART w) == part || s.rd (F.SEC_WIN_W1_REQ_PART w) == 0x7F) &&
    decide (s.rd (F.SEC_WIN_W2_BASE w) * 2 ^ 26 ≤ a ∧ a + len ≤ (s.rd (F.SEC_WIN_W2_LIMIT w) + 1) * 2 ^ 26) &&
    (!wr || s.on (F.SEC_WIN_W1_WR w))

/-- The answer of the windows to a request (R315, R316), as its RCODE (R280): 0 proceeds, 2 FENCED, 3 DENIED. -/
def State.windowCheck (s : State) (node part a len : Nat) (wr : Bool) : Nat :=
  if node = s.rd F.GLB_NODE_ID_NODE_ID ∧ part = 0 then 0
  else match (upTo 128).find? (s.winAdmits node part a len wr) with
    | none => 3
    | some w => if s.partFenced (s.rd (F.SEC_WIN_W1_OWNER w)) then 2 else 0

/-! ## Key slots (R318 to R324) -/

/-- The owner of a key slot: the partition whose range holds it, else the device (R319). -/
def State.slotOwner (s : State) (n : Nat) : Nat :=
  match (upTo 65).find? (fun p => p != 0 && decide (s.rd (F.SEC_KEYRANGE_BASE p) ≤ n ∧
      n < s.rd (F.SEC_KEYRANGE_BASE p) + s.rd (F.SEC_KEYRANGE_COUNT p))) with
  | some p => p
  | none => 0

/-- A write of a key range is accepted (R319): no overlap, no slot past 1,023, no LOADED slot removed. -/
def State.keyrangeOk (s : State) (p base count : Nat) : Bool :=
  decide (base + count ≤ 1024) &&
    (upTo 65).all (fun q => q == 0 || q == p || count == 0 || s.rd (F.SEC_KEYRANGE_COUNT q) == 0 ||
      decide (base + count ≤ s.rd (F.SEC_KEYRANGE_BASE q) ∨ s.rd (F.SEC_KEYRANGE_BASE q) + s.rd (F.SEC_KEYRANGE_COUNT q) ≤ base)) &&
    s.sec.slots.all (fun x => !x.2.loaded || s.slotOwner x.1 != p || decide (base ≤ x.1 ∧ x.1 < base + count))

/-- The SALT of a blob, as LAST_SALT holds it (R318). -/
def blobSalt (b : Block64) : Nat := byteField b 4 0 32

/-- The data key of a blob, where its tag verifies under the KEK (R318). -/
def State.unwrap (s : State) (b : Block64) : Option (BitVec 256) :=
  let l := leBytes 64 b
  match s.sec.kek with
  | none => none
  | some k => (gcmOpen (keyBytes k) ((l.drop 4).take 12) (l.take 4) ((l.drop 16).take 32) (l.drop 48)).map (fun t => BitVec.ofNat 256 (beNat t))

/-- The checks of R320 on a blob that has arrived, in order: status and DETAIL of the first that fails. -/
def State.keyLoadFails (s : State) (f : Fn) (slot : Nat) (b : Block64) : Option (Nat × Nat) :=
  let owner := s.slotOwner slot
  if s.on F.SEC_STAT_ROOT_LOCKED then some (4, 0x16)
  else if byteField b 3 0 8 ≠ 1 ∨ byteField b 0 0 16 ≠ slot then some (4, 0x12)
  else if owner ≠ f.val ∨ byteField b 2 0 8 ≠ owner then some (5, 0)
  else if (s.keySlot slot).loaded then some (4, 0x13)
  else if blobSalt b = (s.keySlot slot).lastSalt then some (4, 0x14)
  else if (s.unwrap b).isNone then some (4, 0x15)
  else if s.on F.SEC_STAT_FENCE ∨ s.partFenced owner = true then some (2, 0)
  else none

/-- KEY_LOAD's blob has arrived (R320, R431). -/
def State.keyBlob (s : State) (c : Cmd) (d : HostData) : State :=
  let slot := byteField c.e 24 0 10
  match d with
  | .error => s.complete c.id { status := 4, detail := 0x11 }
  | .data bs =>
    let b := bs.getD 0 0
    match s.keyLoadFails c.fn slot b with
    | some (st, x) =>
      let s := if x = 0x15 then s.cause0 0x0D 2 else s
      s.complete c.id { status := st, detail := x }
    | none =>
      let s := s.setKeySlot slot { loaded := true, owner := byteField b 2 0 7, key := (s.unwrap b).getD 0, salt := blobSalt b, lastSalt := blobSalt b,
                                   tx := 0, rx := 0, blob := b }
      (s.sideGroup [keymetaOf slot true b]).completeDurable c.id {}

/-- KEY_LOAD (R320): the blob is read from the host. -/
def execKeyLoad (f : Fn) (e : Block64) (s : State) : Host.Outcome State Fault Refusal :=
  .next (s.command 0x30 0x0D f e (fun c s =>
    let a := byteField e 16 0 64
    if a % 64 ≠ 0 then s.complete c.id { status := 4, detail := 0x10 }
    else (s.setWait c.id .hostRead).hostAcc f (.hostRead f (cmdId e) (BitVec.ofNat 64 a) 64)))

/-- Encrypted flits of a circuit that are sent and not acknowledged, or to be sent again, are discarded (R22, R328). -/
def State.dropKeyed (s : State) (c : Nat) : State :=
  let s := s.setCircLink c { s.circLink c with again := (s.circLink c).again.filter (fun f => !f.enc) }
  let clean (x : LinkUnit) : LinkUnit := { x with resend := x.resend.filter (fun f => !f.enc), replay := x.replay.filter (fun f => !f.enc) }
  { s with lnk := { s.lnk with units := Tbl.mapIf {} (fun _ x => x.circ == some c) clean s.lnk.units } }

/-- Circuits with an image in force, DOWN ones among them, that are bound to a key slot satisfying p, in ascending order (R22). -/
def State.keyedBy (s : State) (p : Nat → Bool) : List Nat :=
  (s.csq.circuits.filter (fun x => (x.2.state == 1 || x.2.state == 2 || x.2.state == 3) && x.2.img.path == 0 && x.2.img.keyEn && p x.2.img.keySlot)).map (·.1)

/-- The keys of the slots that satisfy p are gone (R22, R217, R322): circuits go DOWN, changes that name them fail. -/
def State.keyErased (s : State) (p : Nat → Bool) : State :=
  let s := (s.keyedBy p).foldl (fun s c => (s.dropKeyed c).circuitDown c 4) s
  (s.failChanges (fun x => match x.key with | some n => p n | none => false) 5).csqSettle

/-- A slot without its key: owner, LAST_SALT and blob stay (R322). -/
def KeySlot.emptied (k : KeySlot) : KeySlot := { owner := k.owner, lastSalt := k.lastSalt, blob := k.blob }

/-- KEY_CLEAR (R63, R322, R326, R431): from PF0 with OWNER = 0 the slot of a partition that does not exist counts as the device's own. -/
def execKeyClear (f : Fn) (e : Block64) (s : State) : Host.Outcome State Fault Refusal :=
  .next (s.command 0x31 0x0D f e (fun c s =>
    let slot := byteField e 24 0 10
    let owner := s.slotOwner slot
    if ¬ (owner = f.val ∨ (f.val = 0 ∧ ownerField e = 0 ∧ s.partExists owner = false)) then s.complete c.id { status := 5 }
    else if s.on F.SEC_STAT_FENCE then s.complete c.id { status := 2 }
    else if !(s.keySlot slot).loaded then s.complete c.id { result := 2 ^ 32 }
    else
      let k := s.keySlot slot
      let s := (s.setKeySlot slot k.emptied).keyErased (· == slot)
      (s.sideGroup [keymetaOf slot false k.blob]).completeDurable c.id {}))

/-- Replay sets a slot's owner and LAST_SALT from a blob's header and leaves it EMPTY (R250, R324). -/
def State.restoreKey (s : State) (n : Nat) (b : Block64) : State :=
  s.setKeySlot n { owner := byteField b 2 0 7, lastSalt := blobSalt b, blob := b }

/-- Takeover does so too, but for a slot that is LOADED (R235, R324). -/
def State.takeoverKey (s : State) (n : Nat) (b : Block64) : State :=
  if (s.keySlot n).loaded then s.inc F.SEC_TKO_SKIPPED_COUNT else s.restoreKey n b

/-! ## Tamper and erasure (R325 to R330) -/

/-- SEC enters FENCE (R326): keyed TERMINATE circuits go DOWN, keys and flits stay. An erase under way is stronger (R327). -/
def State.secFence (s : State) : State :=
  if 1 ≤ s.rd F.SEC_STAT_ERASE ∧ s.rd F.SEC_STAT_ERASE ≤ 4 then s
  else (s.keyedBy (fun _ => true)).foldl (fun s c => s.circuitDown c 2) (s.wr F.SEC_STAT_FENCE 1)

/-- An erase starts at GATE (R328, R329): KEY_LOAD and KEY_CLEAR under way complete ABORTED. -/
def State.eraseStart (s : State) : State :=
  if s.rd F.SEC_STAT_ERASE ≠ 0 then s
  else
    let s := (s.wr F.SEC_STAT_ERASE 1).wr F.SEC_ERASE_TIME_TIME s.time.now.toNat
    (s.que.inflight.filter (fun c => (opcode c.e == 0x30 || opcode c.e == 0x31) && c.wait != .unstarted)).foldl
      (fun s c => s.complete c.id { status := 6 }) s

/-- A tamper source latches (R326, R327). -/
def State.tamper (s : State) (src : Fin 5) : State :=
  let pol := s.tamperPolicy src
  let s := (s.setBit F.SEC_TAMPER_STAT_ACTIVE src).setBit F.SEC_TAMPER_STAT_LATCHED src
  let s := (s.inc F.SEC_TAMPER_CNT_COUNT).cause0 0x0D 0
  let s := s.event { page := 0x0D, code := 1, sev := 3, arg := src.val + pol * 2 ^ 4 }
  let s := s.fault (45 + src.castLE (by decide))
  if pol = 1 then s.secFence else if pol = 2 then s.eraseStart else s

/-- TAMPER_LATCH (R325 to R327, R330): with HOST off only TAMPER_N is watched, and acted on at wake. -/
def execTamperLatch (src : Fin 5) (s : State) : Host.Outcome State Fault Refusal :=
  .next (
    if s.domOn 1 then s.tamper src
    else if src.val = 3 then { s with cpm := { s.cpm with tamperHeld := true } }
    else s)

/-- TAMPER_DEASSERT (R326). -/
def execTamperDeassert (src : Fin 5) (s : State) : Host.Outcome State Fault Refusal := .next (s.setBit F.SEC_TAMPER_STAT_ACTIVE src false)

/-- The lasting effect of an erase: slots and KEK are zero, the root is locked (R328). -/
def State.eraseKeys (s : State) : State := ({ s with sec := { slots := [], kek := none } } : State).wr F.SEC_STAT_ROOT_LOCKED 1

/-- The circuits that hold a key at this node (R22, R328). -/
def State.keyed (s : State) : List Nat := s.keyedBy (fun _ => true)

/-- The step of the erase that is under way ends and the next begins (R328): ZERO after GATE, which stops the engines at the latch; keys gone; modulators in
BLOCK and replay buffers without encrypted flits; circuits DOWN, next images failed, ERASE_DONE and the alert. -/
def State.eraseStep (s : State) : State :=
  match s.rd F.SEC_STAT_ERASE with
  | 1 => s.wr F.SEC_STAT_ERASE 2
  | 2 => s.eraseKeys.wr F.SEC_STAT_ERASE 3
  | 3 =>
    let s := (s.keyed.flatMap (fun c => (s.circuit c).img.channels.map (fun ch => modRing ch.1 ch.2))).foldl State.restRing s
    (s.keyed.foldl State.dropKeyed s).wr F.SEC_STAT_ERASE 4
  | 4 => (((s.keyErased (fun _ => true)).wr F.SEC_STAT_ERASE 5).cause0 0x0D 1).alert 0
  | _ => s

/-- ERASE_DONE (R328): the steps that are left, up to DONE. -/
def execEraseDone (s : State) : Host.Outcome State Fault Refusal := .next s.eraseStep.eraseStep.eraseStep.eraseStep

/-- UNFENCE written 1 (R326): none where the write is refused with BADVAL. -/
def State.unfence (s : State) : Option State :=
  if (upTo 5).any (fun i => bitOf (s.rd F.SEC_TAMPER_STAT_ACTIVE) i && s.tamperPolicy i != 0) then none
  else some (s.wr F.SEC_STAT_FENCE 0)

end Sys2Proof.Machine
end

