-- ==== Sys2Proof/Machine/Jnl.lean ====
section
/-! DEFINITION. The persistent journal: programs and erases (R241, R246, R247), compaction (R248, R249, R254), replay (R242, R245, R250 to
R252, R255, R430). -/

namespace Sys2Proof.Machine

/-! ## Regions and bytes -/

/-- Base address of region n. -/
def State.regionBase (s : State) (n : Nat) : Nat := n * s.regionSize

/-- A flash region. -/
def State.region (s : State) (n : Nat) : Region := if n = 0 then s.jnl.regA else s.jnl.regB

/-- Set a flash region. -/
def State.setRegion (s : State) (n : Nat) (x : Region) : State :=
  s.setJnl (if n = 0 then { s.jnl with regA := x } else { s.jnl with regB := x })

/-- Bytes of a flash page: 256 before a part is accepted. -/
def State.pageSize (s : State) : Nat := match s.jnl.part with | some x => 2 ^ x.pageLog2.toNat | none => 256

/-- The first block of region n is erased (R241, R248): nothing of it is programmed, and what was erased of an empty region stays so. -/
def State.eraseFirst (s : State) (n : Nat) : State :=
  let x := s.region n
  s.setRegion n { erased := if x.bytes = [] then max 65536 x.erased else 65536 }

/-- The block of region n at the end of what is erased is erased. -/
def State.eraseAhead (s : State) (n : Nat) : State :=
  let x := s.region n
  s.setRegion n { x with erased := min s.regionSize (x.erased + 65536) }

/-- n bytes of a list of records are programmed, h of its first already: the records that are whole, those left, and bytes of the first of
them. -/
def takeBytes : List JRec → Nat → Nat → List JRec × List JRec × Nat
  | [], _, _ => ([], [], 0)
  | r :: t, h, n =>
    if h + n < recBytes r then ([], r :: t, h + n)
    else
      let x := takeBytes t 0 (h + n - recBytes r)
      (r :: x.1, x.2.1, x.2.2)

/-- Up to n bytes of a list of records from byte h of the first on. -/
def pageBytes (l : List JRec) (h n : Nat) : List Byte := ((l.flatMap JRec.bytes).drop h).take n

/-- Bytes of which nothing is known: a program was cut off while it wrote them, or ended with an error (R247; DESIGN CHOICE: log entry 116). -/
def State.freeBytes (s : State) (n : Nat) : List Byte × State :=
  let k := (n + 15) / 16
  (((upTo k).flatMap (fun i => numBytes 16 (Config.freeValue (s.freeCtr + i)).toNat)).take n, { s with freeCtr := s.freeCtr + k })

/-- The region that the program under way writes. -/
def State.progRegion (s : State) : Nat :=
  if s.jnl.progComp then 1 - s.rd F.JNL_STAT_REGION else s.rd F.JNL_STAT_REGION

/-- The program under way does not end well: its bytes hold free values. -/
def State.tearProgram (s : State) : State :=
  if s.jnl.prog = [] then s
  else
    let n := s.progRegion
    let x := s.region n
    let t := s.freeBytes s.jnl.prog.length
    let s := t.2.setRegion n { x with bytes := x.bytes ++ t.1 }
    s.setJnl { s.jnl with prog := [], progComp := false }

/-- What a reset or a loss of power leaves of the journal's state: the flash. -/
def JnlState.kept (j : JnlState) : JnlState := { regA := j.regA, regB := j.regB }

/-- The region that compaction writes. -/
def State.otherRegion (s : State) : Nat := 1 - s.rd F.JNL_STAT_REGION

/-- Compaction starts, at ERASE0 (R248, R254). -/
def State.startCompact (s : State) : State :=
  if s.rd F.JNL_STAT_CSTATE ≠ 0 then s
  else
    let s := s.setJnl { s.jnl with comp := [], compDone := 0, compRecs := 0, compBytes := 0, compTotal := 0, catchup := [], background := false }
    let s := if s.jnl.recover = 0 then s.wrs [(F.JNL_STAT_CSTATE, 1), (F.JNL_STAT_PCT, 0)] else s.wr F.JNL_STAT_CSTATE 1
    s.send (.flashErase s.otherRegion)

/-- JNL_COMPACT and what has waited for JNL start a compaction once appends may be written (R242, R249). -/
def State.compactWaiting (s : State) : State :=
  if s.jnl.ready ∧ s.que.inflight.any (fun c => c.wait == .compact) = true then s.startCompact else s

/-- The valid region is more than 75 % used while AUTO_COMPACT = 1 (R248). -/
def State.autoCompact (s : State) : State :=
  if s.jnl.ready ∧ s.jnlThrough = false ∧ s.on F.JNL_CFG_AUTO_COMPACT = true ∧ 3 * s.regionSize < 4 * s.rd F.JNL_USED_BYTES then s.startCompact else s

/-! ## Replay's end (R250, R255) -/

/-- Replay ends FAILED (R255). -/
def State.replayFail (s : State) : State :=
  if s.replayHolds then ((s.wr F.JNL_STAT_RSTATE 6).setJnl { s.jnl with failedBefore := true, recover := 0 }).cause0 0x09 6 |>.resumePrepare
  else s

/-- SEQ values for records that are written one after the other, from n (R243). -/
def numberFrom (n : Nat) : List JRec → List JRec
  | [] => []
  | r :: t => { r with seq := n } :: numberFrom (n + 1) t

/-- The later of two epoch numbers; 0 is none (R207). -/
def laterOf (a b : Nat) : Nat := if a = 0 ∨ later b a = true then b else a

/-- The epoch floor is raised to an epoch (R207); 0 is none. -/
def State.raiseFloor (s : State) (e : Nat) : State :=
  if e = 0 then s else s.setCsq { s.csq with floor := some (laterOf (s.csq.floor.getD 0) e) }

/-- Replay reaches DONE (R207, R242, R250, R428, R430): waiting records are appended, and the erases of R430 come first. -/
def State.replayDone (s : State) (truncated : Bool) : State :=
  let e := s.rd F.JNL_REPLAY_EPOCH_EPOCH
  let s := s.wrs [(F.JNL_STAT_RSTATE, 5), (F.JNL_STAT_PCT, 100)]
  let s := if e = 0 then s else (s.raiseFloor e).wr F.CSQ_LAST_DURABLE_EPOCH e
  let s := s.setJnl { s.jnl with ready := true, recover := 0, firstErases := s.rd F.JNL_CFG_ERASE_AHEAD }
  let s := s.appendWaiting.cause0 0x09 0
  (s.event { page := 0x09, code := 1, sev := 0, arg := e + b2n truncated * 2 ^ 32 }).resumePrepare.compactWaiting.autoCompact

/-! ## Compaction (R248, R249, R254) -/

/-- A FULL group of the device's own tables (R239). -/
def State.fullGroup (s : State) : List RecPay :=
  (s.csq.circuits.filter (fun c => c.2.state != 0)).map (fun c => deltaOf c.1 c.2) ++
    (s.csq.slots.filter (fun x => x.2.st != 0)).map (fun x => schedOf x.1 x.2) ++
    (s.sec.slots.filter (fun k => k.2.loaded)).map (fun k => keymetaOf k.1 true k.2.blob)

/-- Words of a mirror circuit: W0 to W2, EPOCH, LABEL (R228). -/
def mirrorDelta (c : Nat) (l : List Nat) : RecPay :=
  .circuitDelta (BitVec.ofNat 10 c).toFin (BitVec.ofNat 32 (l.getD 3 0)) (BitVec.ofNat 32 (l.getD 0 0)) (BitVec.ofNat 32 (l.getD 1 0))
    (BitVec.ofNat 32 (l.getD 2 0)) (BitVec.ofNat 32 (l.getD 4 0))

/-- A FULL group of the mirror (R248). -/
def Mirror.fullGroup (m : Mirror) : List RecPay :=
  m.circs.map (fun c => mirrorDelta c.1 c.2) ++ m.slots.map (fun x => schedOf x.1 x.2) ++ m.keys.map (fun k => keymetaOf k.1 k.2.1 k.2.2)

/-- The mirror is empty. -/
def Mirror.isEmpty (m : Mirror) : Bool := m.circs.isEmpty && m.slots.isEmpty && m.keys.isEmpty

/-- W0 of a ring's entry (R158). -/
def Ring.word0 (x : Ring) : Word := BitVec.ofNat 32 (x.onCode % 2 ^ 16 + x.parkOfs % 2 ^ 16 * 2 ^ 16)

/-- CAL_SNAPSHOT records of all 2,480 entries (R244, R248): 16 rings or 6 channels each. -/
def State.calRecords (s : State) : List RecPay :=
  (upTo 146).map (fun i => .cal (BitVec.ofNat 16 (16 * i)) 16 false ((upTo 16).map (fun j => (s.ring (16 * i + j)).word0))) ++
    (upTo 24).map (fun i => .cal (BitVec.ofNat 16 (2336 + 6 * i)) 6 true ((upTo 6).flatMap (fun j => (s.chan (6 * i + j)).words)))

/-- A commit record that closes n records of a FULL group. -/
def fullCommit (epoch n : Nat) : RecPay := .commit (BitVec.ofNat 32 epoch) n false true false 0

/-- Records without SEQ yet. -/
def unnumbered (mirror : Bool) (l : List RecPay) : List JRec := l.map (fun p => { seq := 0, mirror := mirror, pay := p })

/-- What compaction copies after START (R248). -/
def State.compRecords (s : State) : List JRec :=
  let own := s.fullGroup
  let mir := s.twn.mirror.fullGroup
  unnumbered false (own ++ [fullCommit (s.rd F.CSQ_LAST_EPOCH_EPOCH) own.length]) ++
    (if s.twn.mirror.isEmpty then [] else unnumbered true (mir ++ [fullCommit (s.rd F.TWN_MIRROR_EPOCH_EPOCH) mir.length])) ++
    unnumbered false s.calRecords

/-- Records for the new region, with the SEQ values that follow there (R243; DEDUCED: log entry 117). -/
def State.toCompact (s : State) (l : List JRec) : State :=
  s.setJnl { s.jnl with comp := s.jnl.comp ++ numberFrom s.jnl.compNext l, compNext := s.jnl.compNext + l.length }

/-- Compaction is abandoned (R254): the old region stays valid; JNL_COMPACT commands that wait complete ABORTED (DEDUCED: log entry 17), once the
freeze is released where FORCE_FREEZE abandons it (R447). -/
def State.abandonCompact (s : State) (force : Bool := false) : State :=
  if s.rd F.JNL_STAT_CSTATE = 0 ∨ s.rd F.JNL_STAT_CSTATE = 6 then s.wr F.JNL_STAT_CSTATE 0
  else
    let s := if s.jnl.progComp then s.tearProgram else s
    let s := (s.wr F.JNL_STAT_CSTATE 0).setJnl { s.jnl with comp := [], compDone := 0, catchup := [] }
    let s := if s.rd F.JNL_STAT_RSTATE = 5 then s.wr F.JNL_STAT_PCT 100 else s
    ((s.que.inflight.filter (fun c => c.wait == .compact)).foldl
      (fun s c => if force then s.setWait c.id (.released { status := 6 }) else s.complete c.id { status := 6 }) s).appendWaiting

/-- RESULT of JNL_COMPACT (R249): GEN, the bytes and the records written. -/
def State.compResult (s : State) : Nat := s.rd F.JNL_GEN_GEN + s.jnl.compBytes % 2 ^ 32 * 2 ^ 32 + s.jnl.compRecs * 2 ^ 64

/-- END is durable (R242, R248, R249, R251): the new region is valid, the commands complete, what was held is appended there, and a replay that recovered is
DONE. A format has erased the first block of each region already, so it has nothing to retire (DEDUCED: log entry 28). -/
def State.compactDone (s : State) : State :=
  let other := s.otherRegion
  let gen := (s.rd F.JNL_GEN_GEN + 1) % 2 ^ 32
  let bytes := s.jnl.compBytes
  let again := s.jnl.recover
  let s := s.wrs [(F.JNL_STAT_REGION, other), (F.JNL_GEN_GEN, gen), (F.JNL_USED_BYTES, bytes), (F.JNL_POS_POS, s.regionBase other + bytes),
    (F.JNL_STAT_FULL, 0), (F.JNL_STAT_CSTATE, if again = 2 then 0 else 6), (F.JNL_STAT_PCT, 100), (F.JNL_SEQ_SEQ, s.jnl.compNext)]
  let s := s.setJnl { s.jnl with comp := [], compDone := 0, catchup := [] }
  let s := (s.cause0 0x09 2).event { page := 0x09, code := 2, sev := 0, arg := gen }
  let s := if again = 2 then s else s.send (.flashErase (1 - other))
  let s := (s.que.inflight.filter (fun c => c.wait == .compact)).foldl (fun s c => s.complete c.id { result := s.compResult }) s
  if again = 2 then ((s.wr F.JNL_STAT_BLANK 1).cause0 0x09 7).replayDone false
  else if again = 1 then s.replayDone true
  else s.appendWaiting

/-- JNL_COMPACT (R249, R431): it starts a compaction or joins the one that runs, whose END is durable already in RETIRE. -/
def execJnlCompact (f : Fn) (e : Block64) (s : State) : Host.Outcome State Fault Refusal :=
  .next (s.command 0x41 0x09 f e (fun c s =>
    if s.jnl.noFlash ∨ s.jnl.stopped ∨ s.on F.JNL_CFG_BYPASS = true then s.complete c.id { status := 4, detail := 0x10 }
    else if s.rd F.JNL_STAT_CSTATE = 6 then s.complete c.id { result := s.compResult }
    else (s.setWait c.id .compact).compactWaiting))

/-! ## Flash errors, BYPASS (R247, R427) -/

/-- Every pending append counts as durable and is not written (R247, R427); a program under way still ends in the flash. The records that no program has
begun leave their SEQ to later ones. -/
def State.jnlFlush (s : State) : State :=
  let begun := if s.jnl.progComp then s.jnl.headDone else s.jnl.headDone + s.jnl.prog.length
  let (_, rest, h) := takeBytes s.jnl.queue 0 begun
  let s := s.wr F.JNL_SEQ_SEQ (s.rd F.JNL_SEQ_SEQ - (rest.length - b2n (h != 0)))
  let n := s.jnl.taken
  let l := s.jnl.held
  let s := (upTo l.length).foldl (fun s i => s.stream (n + i + 1) (l.getD i { seq := 0, mirror := true, pay := .mark 0 false 0 })) s
  (s.setJnl { s.jnl with queue := [], headDone := 0, held := [], taken := s.jnl.asked, durable := s.jnl.asked }).durableNow

/-- A program or erase ends with an error (R247, R255): JNL stops. -/
def State.flashError (s : State) : State :=
  let s := s.tearProgram
  let s := (s.setJnl { s.jnl with stopped := true }).cause0 0x09 4
  (s.fault 33).replayFail

/-- NO_FLASH is set (R240, R427). -/
def State.noFlash (s : State) : State :=
  let s := (s.setJnl { s.jnl with noFlash := true }).wr F.JNL_FLASH_PRESENT 0
  ((s.cause0 0x09 5).fault 35).jnlFlush.replayFail

/-! ## Programs and erases (R241, R246, R248) -/

/-- JNL may access the flash: enabled, a part accepted, no error, pads of group Q released (R347). -/
def State.flashOk (s : State) : Bool :=
  s.en 0x09 && s.on F.JNL_FLASH_PRESENT && !s.jnl.noFlash && !s.jnl.stopped && !bitOf (s.rd F.CPM_PAD_HOLD_HELD) 0

/-- What compaction writes next, if it may go on (R248, R254): START, the copy, the catch-up, END. -/
def State.compGo (s : State) : State :=
  let st := s.rd F.JNL_STAT_CSTATE
  let gen : Word := BitVec.ofNat 32 (s.rd F.JNL_GEN_GEN + 1)
  let one (p : RecPay) : List JRec := [{ seq := 0, mirror := false, pay := p }]
  if s.jnl.comp ≠ [] then s
  else if st = 2 then
    let l := s.compRecords
    let n := s.rd F.JNL_SEQ_SEQ
    (s.setJnl { s.jnl with compTotal := l.length + 1, compSeq := n, compNext := n }).toCompact (one (.mark gen false 0) ++ l)
  else if st = 3 ∨ st = 4 then
    if s.jnl.catchup = [] then (s.toCompact (one (.mark gen true (BitVec.ofNat 64 s.jnl.compSeq)))).wr F.JNL_STAT_CSTATE 5
    else
      let l := s.jnl.catchup
      ((s.setJnl { s.jnl with catchup := [] }).toCompact l).wr F.JNL_STAT_CSTATE 4
  else s

/-- A program starts: its bytes are on their way to the flash. -/
def State.startProgram (s : State) (addr : Nat) (l : List Byte) (comp : Bool) : State :=
  if l = [] then s else (s.setJnl { s.jnl with prog := l, progComp := comp }).send (.flashProgram addr l)

/-- JNL_PROGRAM_START (R241, R246, R248, R249): waiting appends first, up to the end of the page; else compaction. Neither passes what is erased. -/
def execJnlProgramStart (s : State) : Host.Outcome State Fault Refusal :=
  .next (
    if !s.flashOk || s.jnl.prog != [] then s
    else
      let st := s.rd F.JNL_STAT_CSTATE
      if s.jnl.ready ∧ s.jnl.queue ≠ [] ∧ st ≠ 5 then
        let n := s.rd F.JNL_STAT_REGION
        let used := s.rd F.JNL_USED_BYTES
        let len := min (s.pageSize - used % s.pageSize) ((s.region n).erased - used)
        if s.jnl.firstErases ≠ 0 then s
        else (s.startProgram (s.regionBase n + used) (pageBytes s.jnl.queue s.jnl.headDone len) false).wr F.JNL_POS_POS (s.regionBase n + used)
      else if st < 2 ∨ 5 < st ∨ s.frozen 0x09 = true then s
      else
        let s := s.compGo
        let used := s.jnl.compBytes
        let len := min (s.pageSize - used % s.pageSize) ((s.region s.otherRegion).erased - used)
        s.startProgram (s.regionBase s.otherRegion + used) (pageBytes s.jnl.comp s.jnl.compDone len) true)

/-- The last durable epoch that appends of this device closed (R222). -/
def lastEpoch (l : List JRec) : Option Nat :=
  l.foldl (fun acc r => match r.pay with | .commit e _ side _ _ _ => if side || r.mirror then acc else some e.toNat | _ => acc) none

/-- The program under way has ended well: its bytes are in the flash. -/
def State.programmed (s : State) : State :=
  let n := s.progRegion
  let x := s.region n
  let s := s.setRegion n { x with bytes := x.bytes ++ s.jnl.prog }
  s.setJnl { s.jnl with prog := [], progComp := false }

/-- An append program of len bytes has ended well (R246): its records are durable, more may be appended, and the region may be due for compaction (R248). -/
def State.appendsProgrammed (s : State) (len : Nat) : State :=
  let (dn, rest, h) := takeBytes s.jnl.queue s.jnl.headDone len
  let st := s.rd F.JNL_STAT_CSTATE
  let s := s.setJnl { s.jnl with queue := rest, headDone := h, durable := min s.jnl.asked (s.jnl.durable + dn.length),
                                 catchup := if 2 ≤ st ∧ st ≤ 4 then s.jnl.catchup ++ dn else s.jnl.catchup }
  let s := s.wr F.JNL_USED_BYTES (s.rd F.JNL_USED_BYTES + len)
  let s := match lastEpoch dn with | some e => s.wr F.CSQ_LAST_DURABLE_EPOCH e | none => s
  s.autoCompact.appendWaiting.durableNow

/-- A compaction program of len bytes has ended well (R248, R252). -/
def State.compProgrammed (s : State) (len : Nat) : State :=
  let (dn, rest, h) := takeBytes s.jnl.comp s.jnl.compDone len
  let s := s.setJnl { s.jnl with comp := rest, compDone := h, compRecs := s.jnl.compRecs + dn.length, compBytes := s.jnl.compBytes + len }
  let s := s.wrs [(F.JNL_STAT_PCT, min 99 (100 * s.jnl.compRecs / max 1 s.jnl.compTotal)), (F.JNL_POS_POS, s.regionBase s.otherRegion + s.jnl.compBytes)]
  let st := s.rd F.JNL_STAT_CSTATE
  if st = 5 ∧ rest = [] then s.compactDone
  else if st = 2 ∧ dn ≠ [] then s.wr F.JNL_STAT_CSTATE 3
  else s

/-- JNL_PROGRAM_DONE (R246 to R249). -/
def execJnlProgramDone (ok : Bool) (s : State) : Host.Outcome State Fault Refusal :=
  .next (
    let len := s.jnl.prog.length
    if len = 0 then s
    else if !ok then s.flashError
    else if s.jnl.progComp then (s.programmed.stat 28 len).compProgrammed len
    else (s.programmed.stat 28 len).appendsProgrammed len)

/-- JNL_ERASE_DONE (R241, R242, R248, R254, R430): the erases of R430 come first, then a compaction's ERASE0, of both regions for a format, or RETIRE, then
one block ahead of the write pointers, then the rest of the old region. -/
def execJnlEraseDone (ok : Bool) (s : State) : Host.Outcome State Fault Refusal :=
  .next (
    if !s.flashOk then s
    else if !ok then s.flashError
    else
      let st := s.rd F.JNL_STAT_CSTATE
      let reg := s.rd F.JNL_STAT_REGION
      let other := s.otherRegion
      let ahead := s.rd F.JNL_CFG_ERASE_AHEAD
      let short (n used : Nat) : Bool := decide ((s.region n).erased < min s.regionSize (used + ahead * 65536))
      if s.jnl.firstErases ≠ 0 then
        let x := s.region reg
        let firstEnd := (s.rd F.JNL_USED_BYTES + 65535) / 65536 * 65536 + (ahead + 1 - s.jnl.firstErases) * 65536
        let s := s.setRegion reg { x with erased := max x.erased (min s.regionSize firstEnd) }
        s.setJnl { s.jnl with firstErases := s.jnl.firstErases - 1 }
      else if st = 1 ∧ s.frozen 0x09 = false then
        if s.jnl.recover = 2 ∧ (s.region reg).erased = 0 then s.eraseFirst reg
        else (s.eraseFirst other).wr F.JNL_STAT_CSTATE 2
      else if st = 6 then
        let s := (s.eraseFirst other).wr F.JNL_STAT_CSTATE 0
        (s.setJnl { s.jnl with background := true }).compactWaiting.autoCompact
      else if s.jnl.ready ∧ short reg (s.rd F.JNL_USED_BYTES) = true then s.eraseAhead reg
      else if 2 ≤ st ∧ st ≤ 5 ∧ short other s.jnl.compBytes = true then s.eraseAhead other
      else if s.jnl.background ∧ (s.region other).erased < s.regionSize then s.eraseAhead other
      else s)

/-! ## Replay (R240, R242, R245, R250 to R252, R255) -/

/-- REPLAY written 1 (R250, R251, R255, R425): none where the write is refused with BADVAL. Nothing is appended until this replay is DONE. -/
def State.replayStart (s : State) : Option State :=
  if s.en 0x09 && s.en 0x07 && s.en 0x0D && s.en 0x05 && s.csq.circuits.all (fun c => c.2.state == 0 || c.2.state == 4) && s.csq.epochs.isEmpty &&
      s.rd F.JNL_STAT_CSTATE == 0 then
    if s.replayHolds then some s
    else
      let s := if s.jnl.failedBefore then
          { s with csq := { s.csq with circuits := s.csq.circuits.filter (fun c => c.2.state != 4) } } else s
      let s := s.setJnl { s.jnl with failedBefore := false, recover := 0, ready := false }
      some (s.wrs [(F.JNL_STAT_RSTATE, 1), (F.JNL_STAT_PCT, 0), (F.JNL_STAT_BLANK, 0), (F.JNL_POS_POS, 0), (F.JNL_REPLAY_RECS_COUNT, 0),
        (F.JNL_DISCARDED_COUNT, 0), (F.JNL_REPLAY_EPOCH_EPOCH, 0)])
  else none

/-- JNL accepts a part (R240): within the size range, with erase suspend. -/
def sfdpOk (x : Sfdp) : Bool := x.eraseSuspend && decide (23 ≤ x.sizeLog2 ∧ x.sizeLog2 ≤ 26)

/-- REPLAY_PROBE_DONE (R240, R255): SFDP has been read, when JNL is enabled or by replay. -/
def execReplayProbeDone (part : Option Sfdp) (s : State) : Host.Outcome State Fault Refusal :=
  .next (
    if !s.en 0x09 then s
    else match part.filter sfdpOk with
      | none => s.noFlash
      | some x =>
        let s := s.setJnl { s.jnl with noFlash := false, part := some x }
        let s := s.wrs [(F.JNL_FLASH_SIZE_LOG2, x.sizeLog2), (F.JNL_FLASH_PRESENT, 1), (F.JNL_FLASH_ADDR4, b2n (decide (24 < x.sizeLog2)))]
        if s.rd F.JNL_STAT_RSTATE = 1 then s.wr F.JNL_STAT_RSTATE 2 else s)

/-- A slot in which every byte is 0xFF (R245). -/
def blankSlot (l : List Byte) : Bool := l.all (· == 0xFF)

/-- The records of a region from byte o on, l being what is programmed there, the one before them having SEQ prev; with where the journal ends and whether that is
the clean end (R245). Past what is programmed an erased slot is the clean end, and so is the region's own end. -/
def readRecs (size erased : Nat) : Nat → Option Nat → Nat → List Byte → List JRec × Nat × Bool
  | 0, _, o, _ => ([], o, false)
  | k + 1, prev, o, l =>
    if l = [] then ([], o, decide (o + 16 ≤ erased ∨ size ≤ o))
    else if blankSlot (l.take 16) then ([], o, true)
    else match recordAt l with
      | none => ([], o, false)
      | some r =>
        if (match prev with | some n => r.seq == n + 1 | none => true) then
          let x := readRecs size erased k (some r.seq) (o + recBytes r) (l.drop (recBytes r))
          (r :: x.1, x.2)
        else ([], o, false)

/-- The journal of region n: its records, the offset of its end, and whether that is the clean end (R245). -/
def State.journal (s : State) (n : Nat) : List JRec × Nat × Bool :=
  let x := s.region n
  readRecs s.regionSize x.erased (x.bytes.length / 16 + 2) none 0 x.bytes

/-- GEN of a region that starts with START and holds the END that names it (R241, R244). -/
def regionGen (l : List JRec) : Option Nat :=
  match l with
  | { pay := .mark g false _, seq := n, .. } :: t =>
    if t.any (fun r => match r.pay with | .mark h true q => h == g && q.toNat == n | _ => false) then some g.toNat else none
  | _ => none

/-- REPLAY_SELECT_DONE (R241, R242, R255): the valid region, or the part is formatted. -/
def execReplaySelectDone (s : State) : Host.Outcome State Fault Refusal :=
  .next (
    if s.rd F.JNL_STAT_RSTATE = 2 ∧ s.flashOk = true then
      let pick (n g : Nat) (s : State) : State :=
        s.wrs [(F.JNL_STAT_REGION, n), (F.JNL_GEN_GEN, g), (F.JNL_STAT_RSTATE, 3), (F.JNL_STAT_PCT, 0), (F.JNL_POS_POS, s.regionBase n)]
      match regionGen (s.journal 0).1, regionGen (s.journal 1).1 with
      | some a, some b => if a < b then pick 1 b s else pick 0 a s
      | some a, none => pick 0 a s
      | none, some b => pick 1 b s
      | none, none =>
        let s := s.setJnl { s.jnl with regA := {}, regB := {}, recover := 2 }
        ((s.wrs [(F.JNL_STAT_RSTATE, 4), (F.JNL_STAT_REGION, 1), (F.JNL_GEN_GEN, 0), (F.JNL_SEQ_SEQ, 0), (F.JNL_STAT_PCT, 0)]).send (.flashErase 1)).startCompact
    else s)

/-- One record of a committed group is applied to the device's own tables (R250). -/
def State.applyOwn (s : State) (r : JRec) : State :=
  match r.pay with
  | .circuitDelta c e w0 w1 w2 label =>
    if w0.toNat % 8 = 0 then s.setCircuit c {}
    else s.setCircuit c { state := 4, owner := w0.toNat / 2 ^ 8 % 128, img := imageOf w0.toNat w1.toNat w2.toNat, epoch := e.toNat, label := label.toNat }
  | .sched n st e act => s.setSlot n (if st = 1 then { st := 1, act := act.toNat, epoch := e.toNat } else {})
  | .keymeta n _ b => s.restoreKey n b
  | _ => s

/-- One record of a committed group is applied to a mirror (R228, R232, R250). -/
def Mirror.apply (m : Mirror) (r : JRec) : Mirror :=
  match r.pay with
  | .circuitDelta c e w0 w1 w2 label =>
    if w0.toNat % 8 = 0 then { m with circs := m.circs.filter (fun x => x.1 != c.val) }
    else { m with circs := Tbl.set [] m.circs c.val [w0.toNat, w1.toNat, w2.toNat, e.toNat, label.toNat] }
  | .sched n st e act => { m with slots := Tbl.set {} m.slots n.val { st := st.toNat, act := if st = 0 then 0 else act.toNat,
                                                                      epoch := if st = 0 then 0 else e.toNat } }
  | .keymeta n ld b => { m with keys := Tbl.set (false, 0) m.keys n.val (ld, b) }
  | _ => m

/-- The highest epoch of a mirror's circuits (R207, R228); 0 is none. -/
def Mirror.epoch (m : Mirror) : Nat := m.circs.foldl (fun a c => laterOf a (c.2.getD 3 0)) 0

/-- A CAL_SNAPSHOT record goes to the calibration window (R150, R250). -/
def State.applyCal (s : State) (first n : Nat) (channel : Bool) (w : List Word) : State :=
  (upTo n).foldl (fun s i =>
    if channel then
      let v (j : Nat) : Nat := (w.getD (3 * i + j) 0).toNat
      let c := first + i - 2336
      s.setChan c { s.chan c with th0 := v 0 % 256, th1 := v 0 / 2 ^ 8 % 256, th2 := v 0 / 2 ^ 16 % 256, cdrPh := v 0 / 2 ^ 24 % 64, pre := v 1 % 64,
                                  main := v 1 / 2 ^ 8 % 64, post := v 1 / 2 ^ 16 % 64, modBias := v 2 % 4096, dropOfs := v 2 / 2 ^ 16 % 4096 }
    else
      let v := (w.getD i 0).toNat
      s.setRing (first + i) { s.ring (first + i) with onCode := v % 2 ^ 16, parkOfs := v / 2 ^ 16 }) s

/-- What a scan has read so far: the machine, the open groups, and the highest epochs of the device and of the mirror. -/
structure Scan where
  s : State
  own : List JRec := []
  mir : List JRec := []
  epoch : Nat := 0
  mirEpoch : Nat := 0

/-- A scan reads one record (R250). -/
def Scan.step (x : Scan) (r : JRec) : Scan :=
  match r.pay with
  | .commit e _ _ full _ _ =>
    if r.mirror then
      let m := if full then {} else x.s.twn.mirror
      { x with s := ({ x.s with twn := { x.s.twn with mirror := x.mir.foldl Mirror.apply m } } : State).inc F.JNL_REPLAY_RECS_COUNT (x.mir.length + 1),
               mir := [], mirEpoch := laterOf (laterOf (if full then 0 else x.mirEpoch) e.toNat) (x.mir.foldl Mirror.apply m).epoch }
    else
      { x with s := (x.own.foldl State.applyOwn x.s).inc F.JNL_REPLAY_RECS_COUNT (x.own.length + 1), own := [], epoch := laterOf x.epoch e.toNat }
  | .cal first n channel w => { x with s := (x.s.applyCal first.toNat n channel w).inc F.JNL_REPLAY_RECS_COUNT }
  | .mark _ _ _ => x
  | _ => if r.mirror then { x with mir := x.mir ++ [r] } else { x with own := x.own ++ [r] }

/-- Records that were appended and not programmed wait again, for the SEQ that the scan finds to be next (R242, R251). -/
def State.unappend (s : State) : State :=
  s.setJnl { s.jnl with held := s.jnl.queue ++ s.jnl.held, queue := [], headDone := 0, taken := s.jnl.taken - s.jnl.queue.length }

/-- REPLAY_SCAN_DONE (R245, R250 to R252): every record of the valid region is read up to the clean or the truncated end; uncommitted groups are discarded. -/
def execReplayScanDone (s : State) : Host.Outcome State Fault Refusal :=
  .next (
    if s.rd F.JNL_STAT_RSTATE = 3 ∧ s.flashOk = true ∧ s.frozen 0x09 = false ∧ s.jnl.prog = [] then
      let s := s.unappend
      let reg := s.rd F.JNL_STAT_REGION
      let (recs, used, clean) := s.journal reg
      let x := recs.foldl Scan.step { s := s }
      let s := x.s.inc F.JNL_DISCARDED_COUNT (b2n (!x.own.isEmpty) + b2n (!x.mir.isEmpty))
      let next := (recs.getLast?.map (fun r => r.seq + 1)).getD 0
      let s := s.wrs [(F.JNL_REPLAY_EPOCH_EPOCH, x.epoch), (F.TWN_MIRROR_EPOCH_EPOCH, x.mirEpoch), (F.JNL_SEQ_SEQ, next), (F.JNL_USED_BYTES, used),
        (F.JNL_POS_POS, s.regionBase reg + used), (F.JNL_STAT_PCT, 99 * used / s.regionSize)]
      let x := s.region reg
      if clean then (s.setRegion reg { x with bytes := (x.bytes ++ List.replicate (used - x.bytes.length) 0xFF).take used }).replayDone false
      else
        let s := ((s.wr F.JNL_TAIL_SEQ_SEQ next).cause0 0x09 1).wrs [(F.JNL_STAT_RSTATE, 4), (F.JNL_STAT_PCT, 0)]
        (s.setJnl { s.jnl with recover := 1 }).startCompact
    else s)

/-- ABORT written 1 (R255): replay FAILED, or compaction abandoned. -/
def State.jnlAbort (s : State) : State := if s.replayHolds then s.abandonCompact.replayFail else s.abandonCompact

end Sys2Proof.Machine
end

