-- ==== Sys2Proof/Machine/Twn.lean ====
section
/-! DEFINITION. Twin pairing: roles and generations (R226, R227, R237, R238), twin bursts (R229 to R234, R239), takeover and handover (R235,
R236, R253). -/

namespace Sys2Proof.Machine

/-- Change the twin mirroring state. -/
def State.setTwn (s : State) (t : TwnState) : State := { s with twn := t }

/-- This device's role (R226). -/
def State.role (s : State) : Nat := s.rd F.TWN_STAT_ROLE

/-- Bit i of TWN's INT_CAUSE, each of which raises a fault (08 Registers, source 32 of R382). -/
def State.twnInt (s : State) (i : Nat) : State := (s.cause0 0x08 i).fault 32 0 0 i

/-- λS of the twin channel (R226). -/
def State.twnUnit (s : State) : Nat := s.rd F.TWN_CFG_PORT * 5 + 4

/-- Pairing runs: TWN is enabled and paired, and the twin channel is ACTIVE (R226). -/
def State.twnUp (s : State) : Bool := s.en 0x08 && s.on F.TWN_CFG_EN && s.role != 0 && s.unitUp s.twnUnit

/-- A TWIN burst can leave: no substitution holds λS (R183). -/
def State.twnCanSend (s : State) : Bool := s.twnUp && !s.on (F.PORT_LNK_STAT_SUBST (s.rd F.TWN_CFG_PORT))

/-- Send a TWIN burst on the twin channel: it takes slot 1 of a codeword of λS, so that there is one in 5 slots at most (R182, R230;
DESIGN CHOICE: log entry 110). -/
def State.twnSend (s : State) (kind tseq epoch : Nat) (rcd : Option JRec) (pullReq : Bool) (total : Nat) : State :=
  let b : TwinBurst :=
    { kind := BitVec.ofNat 4 kind, role := BitVec.ofNat 4 s.role, node := BitVec.ofNat 14 (s.rd F.GLB_NODE_ID_NODE_ID), tseq := BitVec.ofNat 32 tseq,
      gen := BitVec.ofNat 32 (s.rd F.TWN_GEN_GEN), epoch := BitVec.ofNat 32 epoch, rcd := rcd, pullReq := pullReq, total := BitVec.ofNat 32 total }
  (s.placeSpare (s.rd F.TWN_CFG_PORT) 1 b.bytes).send (.twin (BitVec.ofNat 4 (s.rd F.TWN_CFG_PORT)).toFin b)

/-- A burst that carries no record: TSEQ is the last one sent (R230). -/
def State.twnPlain (s : State) (kind : Nat) (epoch : Nat) (pullReq : Bool) : State :=
  s.twnSend kind (s.rd F.TWN_SENT_TSEQ_TSEQ) epoch none pullReq 0

/-- Nothing is left to send or to be acknowledged. -/
def TwnState.dropStream (t : TwnState) : TwnState := { t with sendq := [], buf := [], resend := [] }

/-- The device becomes PULLING (R227, R236 to R238): it learns the TSEQ to expect from the answer to its PULL (DEDUCED: log entry 18). -/
def State.toPulling (s : State) : State :=
  let t := s.twn.dropStream
  let s := s.setTwn { t with handing := false, held := [], total := 0, exp := none, group := [], gap := false, pulled := 0, needFull := false, deferred := false }
  s.wrs [(F.TWN_STAT_ROLE, 3), (F.TWN_STAT_TKO, 0), (F.TWN_STAT_PCT, 0)]

/-- DESYNC: nothing is sent until a PULL, which a FULL group answers (R233, R238). A handover goes on to wait for its ACK (R236). -/
def State.desync (s : State) : State :=
  let t := s.twn.dropStream
  ((s.setTwn { t with needFull := true }).wr F.TWN_STAT_DESYNC 1).twnInt 3

/-! ## Takeover (R235, R253) -/

/-- Takeover starts: DISCARD, then LOAD; under FREEZE it waits (R253). -/
def State.startTakeover (s : State) : State :=
  if s.role ≠ 2 ∨ 4 ≤ s.rd F.TWN_STAT_TKO then s
  else if s.frozen 0x08 then
    ((s.setTwn { s.twn with deferred := true }).wr (F.PAGE_STAT_FREEZE_PEND 0x8000) 1).setBit F.DBG_PEND_PEND 4
  else
    let n := s.twn.group.length
    let s := if n = 0 then s
      else (s.wrs [(F.TWN_PARTIAL_EPOCH, s.twn.groupEpoch), (F.TWN_PARTIAL_CNT_COUNT, n)]).twnInt 1
    let s := s.setTwn { s.twn with group := [], gap := false, deferred := false }
    s.wrs [(F.TWN_STAT_TKO, 5), (F.TWN_STAT_PCT, 0)]

/-- A mirror circuit goes into the device's own table as RESTORED, or counts as a conflict (R235). The pair lists the circuits copied. -/
def State.loadCircuit (x : State × List Nat) (c : Nat × List Nat) : State × List Nat :=
  let w (i : Nat) : Nat := c.2.getD i 0
  if (x.1.circuit c.1).state ≠ 0 then (x.1.inc F.TWN_TKO_CONFLICTS_COUNT, x.2)
  else (x.1.setCircuit c.1 { state := 4, owner := w 0 / 2 ^ 8 % 128, img := imageOf (w 0) (w 1) (w 2), epoch := w 3, label := w 4 }, x.2 ++ [c.1])

/-- An ARMED mirror slot goes into an EMPTY schedule slot, or counts as a conflict (R235). -/
def State.loadSlot (s : State) (x : Nat × Slot) : State :=
  if x.2.st ≠ 1 then s
  else if (s.slot x.1).st ≠ 0 then s.inc F.TWN_TKO_CONFLICTS_COUNT
  else s.setSlot x.1 { st := 1, act := x.2.act, epoch := x.2.epoch }

/-- TAKEOVER_LOAD_DONE (R235 steps 3 to 8). -/
def execTakeoverLoadDone (s : State) : Host.Outcome State Fault Refusal :=
  .next (
    if s.rd F.TWN_STAT_TKO = 5 ∧ s.en 0x08 = true then
      let m := s.twn.mirror
      let x := m.circs.foldl State.loadCircuit (s, [])
      let s := m.slots.foldl State.loadSlot x.1
      let s := m.keys.foldl (fun s k => s.takeoverKey k.1 k.2.2) s
      let s := s.raiseFloor (laterOf (s.rd F.TWN_MIRROR_EPOCH_EPOCH) m.epoch)
      let s := s.wrs [(F.TWN_STAT_ROLE, 1), (F.TWN_GEN_GEN, s.rd F.TWN_GEN_GEN + 1), (F.TWN_STAT_TKO, 6), (F.TWN_STAT_PCT, 100)]
      let s := s.twnInt 0
      let s := s.appendGroup (x.2.map (fun c => deltaOf c (s.circuit c))) (s.rd F.CSQ_LAST_EPOCH_EPOCH) 0 true false true
      if s.on (F.PAGE_STAT_FREEZE_PEND 0x8000) then s.freezeNow 0x08 4 else s
    else s)

/-- TAKEOVER written 1 (R236). -/
def State.takeoverWritten (s : State) : State := s.startTakeover

/-- FORCE_FREEZE breaks a takeover in DISCARD or LOAD (R253); the flag says that it did. -/
def State.twnForce (s : State) : State × Bool :=
  if s.rd F.TWN_STAT_TKO = 4 ∨ s.rd F.TWN_STAT_TKO = 5 then (s.wrs [(F.TWN_STAT_TKO, 1), (F.TWN_STAT_TKO_BROKEN, 1)], true) else (s, false)

/-- TWN's FREEZE ends: a takeover that waited starts (R253). -/
def State.twnThaw (s : State) : State := if s.twn.deferred then s.startTakeover else s

/-! ## Pairing and handover (R227, R236) -/

/-- A write of TWN_CFG (R227): none where it is refused as a whole with BADVAL. With EN = 0 the unlisted ROLE_REQ 3 leaves that field as it is, and the rest of
the write takes effect (R33). -/
def State.twnCfg (s : State) (v : Word) : Option State :=
  let n := v.toNat
  let en := n % 2
  let role := n / 2 % 4
  let port := n / 2 ^ 4 % 16
  let peer := n / 2 ^ 16 % 2 ^ 14
  let was := s.rd F.TWN_CFG_EN
  let same : Bool := role == s.rd F.TWN_CFG_ROLE_REQ && port == s.rd F.TWN_CFG_PORT && peer == s.rd F.TWN_CFG_PEER
  if (en = 1 ∧ (role = 0 ∨ role = 3)) ∨ (was = 1 ∧ same = false) then none
  else
    let s := s.wrs [(F.TWN_CFG_EN, en), (F.TWN_CFG_ROLE_REQ, if role = 3 then s.rd F.TWN_CFG_ROLE_REQ else role), (F.TWN_CFG_PORT, port), (F.TWN_CFG_PEER, peer)]
    if en = was then some s
    else if en = 0 then
      some ((s.setTwn {}).wrs [(F.TWN_STAT_ROLE, 0), (F.TWN_STAT_TKO, 0), (F.TWN_STAT_MISSES, 0), (F.TWN_STAT_PCT, 0), (F.TWN_STAT_DESYNC, 0),
        (F.TWN_MIRROR_EPOCH_EPOCH, 0)])
    else if role = 1 then some (s.wrs [(F.TWN_STAT_ROLE, 1), (F.TWN_GEN_GEN, 1)])
    else some ((s.wr F.TWN_GEN_GEN 0).toPulling)

/-- A handover whose last commit record is acknowledged sends HANDOVER (R236). -/
def State.handOver (s : State) : State :=
  if s.twn.handing ∧ s.role = 1 ∧ s.twnCanSend = true ∧ s.twn.needFull = false ∧ s.twn.sendq = [] ∧ s.twn.resend = [] ∧ s.twn.buf = [] then
    (s.twnPlain 6 s.twn.lastEpoch false).toPulling
  else s

/-- SWITCHOVER written 1 (R236). -/
def State.switchoverWritten (s : State) : State := if s.role = 1 then (s.setTwn { s.twn with handing := true }).handOver else s

/-- SWITCH_FAIL (R236): what was held back is mirrored after all. -/
def execSwitchFail (s : State) : Host.Outcome State Fault Refusal :=
  .next (
    if s.twn.handing then
      ((s.setTwn { s.twn with handing := false, sendq := s.twn.sendq ++ s.twn.held, held := [] }).wr F.TWN_STAT_SWITCH_FAIL 1).twnInt 6
    else s)

/-! ## Sending (R229, R231, R233, R234, R239) -/

/-- HEARTBEAT_SEND (R234, R238). -/
def execHeartbeatSend (s : State) : Host.Outcome State Fault Refusal :=
  .next (if s.twnCanSend then s.twnPlain 1 s.twn.lastEpoch (s.role == 1 && s.on F.TWN_STAT_DESYNC) else s)

/-- PULL_SEND (R239). -/
def execPullSend (s : State) : Host.Outcome State Fault Refusal :=
  .next (if s.twnCanSend ∧ s.role = 3 then s.twnPlain 5 (s.rd F.TWN_MIRROR_EPOCH_EPOCH) false else s)

/-- The epoch of the group that the first of these records belongs to (R230). -/
def nextGroupEpoch (l : List TwinOut) : Nat :=
  (l.findSome? (fun x => match x.rcd.pay with | .commit e _ _ _ _ _ => some e.toNat | _ => none)).getD 0

/-- The record closes a group. -/
def recCloses (r : JRec) : Bool := match r.pay with | .commit .. => true | _ => false

/-- A RECORD burst leaves under its TSEQ, with the TOTAL of the answer it belongs to (R230, R231, R239). -/
def State.sendRecord (s : State) (x : TwinOut) (epoch : Nat) : State :=
  let s := s.twnSend 2 x.n epoch (some x.rcd) false x.total
  s.setTwn { s.twn with lastEpoch := epoch }

/-- TWIN_RECORD_SEND (R229, R231, R233): a record to be sent again, else the next one; a commit record only once it is durable. -/
def execTwinRecordSend (s : State) : Host.Outcome State Fault Refusal :=
  .next (
    if !s.twnCanSend ∨ s.role ≠ 1 ∨ s.twn.needFull = true then s
    else match s.twn.resend, s.twn.sendq with
      | x :: rest, q => (s.setTwn { s.twn with resend := rest }).sendRecord x (nextGroupEpoch (x :: rest ++ q))
      | [], [] => s
      | [], x :: q =>
        if recCloses x.rcd ∧ s.jnl.durable < x.n then s
        else if 262144 < 128 * (s.twn.buf.length + 1) then s.desync
        else
          let y := { x with n := (s.rd F.TWN_SENT_TSEQ_TSEQ + 1) % 2 ^ 32 }
          let s := (s.wr F.TWN_SENT_TSEQ_TSEQ y.n).setTwn { s.twn with sendq := q, buf := s.twn.buf ++ [y] }
          s.sendRecord y (nextGroupEpoch (x :: q)))

/-- TWIN_NAK_REPEAT (R231). -/
def execTwinNakRepeat (s : State) : Host.Outcome State Fault Refusal :=
  .next (match s.twn.exp with
    | some n => if s.twnCanSend ∧ s.twn.gap = true ∧ (s.role = 2 ∨ s.role = 3) then s.twnSend 4 n s.twn.lastEpoch none false 0 else s
    | none => s)

/-- TWIN_MISS (R234, R253). -/
def execTwinMiss (s : State) : Host.Outcome State Fault Refusal :=
  .next (
    if s.en 0x08 ∧ s.on F.TWN_CFG_EN = true ∧ s.role ≠ 0 then
      let n := s.rd F.TWN_STAT_MISSES
      let s := s.wr F.TWN_STAT_MISSES (min 3 (n + 1))
      if s.role = 2 then
        let t := s.rd F.TWN_STAT_TKO
        if t = 1 ∨ t = 2 then s.wr F.TWN_STAT_TKO (t + 1) else if t = 3 then s.startTakeover else s
      else if s.role = 1 ∧ n = 2 then
        let t := s.twn.dropStream
        ((s.setTwn { t with needFull := false }).wr F.TWN_STAT_ROLE 4).twnInt 2
      else s
    else s)

/-! ## Receiving (R230 to R232, R236 to R239) -/

/-- What every valid burst does (R234, R237, R238, R253). -/
def State.validBurst (s : State) (b : TwinBurst) : State :=
  let s := s.wr F.TWN_STAT_MISSES 0
  let s := if s.rd F.TWN_STAT_TKO = 2 ∨ s.rd F.TWN_STAT_TKO = 3 then s.wr F.TWN_STAT_TKO 1 else s
  let r := b.role.toNat
  let gen := s.rd F.TWN_GEN_GEN
  if (s.role = 1 ∨ s.role = 4) ∧ (r = 1 ∨ r = 4) then
    if gen < b.gen.toNat then s.toPulling.twnInt 5
    else if gen = b.gen.toNat then ((s.setTwn s.twn.dropStream).wr F.TWN_STAT_ROLE 5).twnInt 4
    else s
  else if s.role = 4 ∧ (r = 2 ∨ r = 3) then ((s.wr F.TWN_STAT_ROLE 1).twnInt 5).desync
  else s

/-- The first TWIN burst of a listed kind that the twin channel has received, and the state without it and the reserved ones before it (R230). -/
def State.takeTwin (s : State) : Nat → Option (TwinBurst × State)
  | 0 => none
  | k + 1 => match s.takeBurst (s.rd F.TWN_CFG_PORT) 0x13 with
    | none => none
    | some (l, _, t) =>
      let b := twinOf l
      if 1 ≤ b.kind.toNat ∧ b.kind.toNat ≤ 6 then some (b, t) else t.takeTwin k

/-- A TWIN burst of a kind arrives: the first that the twin channel has received, where it is of that kind (R182, R226, R230). body runs where pairing runs and
the burst is valid; one whose CRC fails has not been received. -/
def State.twinBurst (s : State) (kind : Nat) (body : TwinBurst → State → State) : State :=
  match s.takeTwin ((s.unit s.twnUnit).slots.length + 1) with
  | none => s
  | some (b, t) =>
    if b.kind.toNat ≠ kind then s
    else if !s.twnUp then t
    else if b.node.toNat ≠ s.rd F.TWN_CFG_PEER then t.inc F.TWN_BAD_COUNT
    else body b (t.validBurst b)

/-- HEARTBEAT (R234, R238): a STANDBY that is asked to pull becomes PULLING; a PULLING device keeps pulling. -/
def execHeartbeat (s : State) : Host.Outcome State Fault Refusal :=
  .next (s.twinBurst 1 (fun b s =>
    if b.pullReq ∧ s.role = 2 ∧ s.rd F.TWN_STAT_TKO < 4 then
      let s := s.toPulling
      if s.twnCanSend then s.twnPlain 5 (s.rd F.TWN_MIRROR_EPOCH_EPOCH) false else s
    else s))

/-- A complete group applies to the mirror, goes into the journal, and is acknowledged (R232, R239, R244). -/
def State.applyGroup (s : State) (b : TwinBurst) (recs : List JRec) (epoch : Nat) (full : Bool) (commit : JRec) : State :=
  let m := recs.foldl Mirror.apply (if full then {} else s.twn.mirror)
  let me := laterOf (laterOf (if full then 0 else s.rd F.TWN_MIRROR_EPOCH_EPOCH) epoch) m.epoch
  let s := s.setTwn { s.twn with mirror := m, group := [], lastEpoch := epoch }
  let s := s.wrs [(F.TWN_MIRROR_EPOCH_EPOCH, me), (F.TWN_STAT_DESYNC, 0)]
  let s := (recs ++ [commit]).foldl (fun s r => s.append r.pay true) s
  let s := if s.role = 3 then
      (s.setTwn { s.twn with pulled := 0, total := 0 }).wrs [(F.TWN_STAT_ROLE, 2), (F.TWN_STAT_TKO, 1), (F.TWN_GEN_GEN, b.gen.toNat)]
    else s
  if s.twnCanSend then s.twnSend 3 b.tseq.toNat epoch none false 0 else s

/-- The expected record has arrived (R231, R232, R239). -/
def State.takeRecord (s : State) (b : TwinBurst) (r : JRec) : State :=
  let g := s.twn.group
  let k := s.twn.pulled + 1
  let total := if b.total = 0 then s.twn.total else b.total.toNat
  let s := if s.role = 3 ∧ total ≠ 0 then s.wr F.TWN_STAT_PCT (min 100 (100 * k / total)) else s
  let s := s.setTwn { s.twn with exp := some ((b.tseq.toNat + 1) % 2 ^ 32), gap := false, pulled := k, total := total, group := g ++ [r],
                                 groupEpoch := b.epoch.toNat }
  match r.pay with
  | .commit e n _ full _ _ =>
    if n ≤ g.length then s.applyGroup b (g.drop (g.length - n)) e.toNat full r else s.setTwn { s.twn with group := [] }
  | _ => s

/-- RECORD (R231, R232, R239). -/
def execTwinRecord (s : State) : Host.Outcome State Fault Refusal :=
  .next (s.twinBurst 2 (fun b s =>
    if (s.role = 2 ∨ s.role = 3) ∧ s.rd F.TWN_STAT_TKO < 4 then
      match b.rcd, s.twn.exp with
      | none, _ => s
      | some r, none => if s.role = 3 ∧ b.total ≠ 0 then s.takeRecord b r else s
      | some r, some n =>
        if b.tseq.toNat = n then s.takeRecord b r
        else if later b.tseq.toNat n ∧ s.twn.gap = false then
          let s := s.setTwn { s.twn with gap := true }
          if s.twnCanSend then s.twnSend 4 n s.twn.lastEpoch none false 0 else s
        else s
    else s))

/-- ACK (R231, R236): frees the buffer up to the TSEQ acknowledged. -/
def execTwinAck (s : State) : Host.Outcome State Fault Refusal :=
  .next (s.twinBurst 3 (fun b s =>
    if s.role = 1 then
      let acked (x : TwinOut) : Bool := !later x.n b.tseq.toNat
      let e := nextGroupEpoch (s.twn.buf.filter acked).reverse
      let s := s.setTwn { s.twn with buf := s.twn.buf.filter (fun x => !acked x), resend := s.twn.resend.filter (fun x => !acked x),
                                     ackEpoch := if e = 0 then s.twn.ackEpoch else e }
      let s := s.wr F.TWN_ACKED_TSEQ_TSEQ b.tseq.toNat
      (if s.twn.needFull then s else s.wr F.TWN_STAT_DESYNC 0).handOver
    else s))

/-- NAK (R231): the active resends from the named TSEQ. -/
def execTwinNak (s : State) : Host.Outcome State Fault Refusal :=
  .next (s.twinBurst 4 (fun b s =>
    if s.role = 1 then s.setTwn { s.twn with resend := s.twn.buf.filter (fun x => !later b.tseq.toNat x.n) } else s))

/-- What the buffer holds after the groups up to epoch e: everything that follows the last commit record of such an epoch. -/
def afterEpoch (e : Nat) (l : List TwinOut) : List TwinOut :=
  l.foldl (fun acc x =>
    match x.rcd.pay with
    | .commit n _ side _ _ _ => if !side && e != 0 && !later n.toNat e then [] else acc ++ [x]
    | _ => acc ++ [x]) []

/-- Records of no journal: each SEQ is a free value (DESIGN CHOICE: log entry 115). -/
def State.unjournaled (s : State) (l : List RecPay) : List JRec × State :=
  ((upTo l.length).map (fun i => { seq := (Config.freeValue (s.freeCtr + i)).toNat % 2 ^ 64, mirror := false, pay := l.getD i (.mark 0 false 0) }),
   { s with freeCtr := s.freeCtr + l.length })

/-- PULL (R231, R233, R238, R239): the groups the peer lacks out of the buffer, or a FULL group. What is sent and not acknowledged stays in the buffer. A PULL while
records of an answer are still to be sent changes nothing (DEDUCED: log entry 118). -/
def execPull (s : State) : Host.Outcome State Fault Refusal :=
  .next (s.twinBurst 5 (fun b s =>
    if s.role ≠ 1 ∨ (s.twn.sendq ++ s.twn.resend).any (·.total != 0) = true then s
    else
      let e := b.epoch.toNat
      let l := afterEpoch e s.twn.buf
      let a := s.twn.ackEpoch
      if b.gen.toNat = s.rd F.TWN_GEN_GEN ∧ s.twn.needFull = false ∧ (a = 0 ∨ a = e ∨ (e ≠ 0 ∧ later e a = true)) ∧ l ≠ [] then
        let n := l.length
        let out (x : TwinOut) : TwinOut := if l.contains x then { x with total := n } else x
        s.setTwn { s.twn with resend := l.map out, buf := s.twn.buf.map out }
      else
        let full := s.fullGroup
        let (q, s) := s.unjournaled (full ++ [fullCommit (s.rd F.CSQ_LAST_EPOCH_EPOCH) full.length])
        s.setTwn { s.twn with sendq := q.map (fun r => { n := s.jnl.asked, rcd := r, total := q.length }), resend := [], needFull := false }))

/-- HANDOVER (R236): a STANDBY takes over at once. -/
def execHandover (s : State) : Host.Outcome State Fault Refusal := .next (s.twinBurst 6 (fun _ s => s.startTakeover))

end Sys2Proof.Machine
end

