-- ==== Sys2Proof/Machine/Mss.lean ====
section
/-! DEFINITION. The stacked memory: layout (R256), protection and poison (R258, R259), patrol scrub (R261), demand accesses (R262), training
(R281). -/

namespace Sys2Proof.Machine

/-! ## The stored bytes -/

/-- A byte of the stacks; one nothing has written reads 0 (DESIGN CHOICE: log entry 9). -/
def Memory.read (m : List Host.Cell) (a : Nat) : Byte := Tbl.get 0 m a

/-- The stacks with a byte written, in canonical form. -/
def Memory.write (m : List Host.Cell) (a : Nat) (b : Byte) : List Host.Cell := Tbl.set 0 m a b

/-- The canonical form of the stacks' memory: rising addresses, and no byte that reads as an unlisted one does. -/
def Memory.wf (m : List Host.Cell) : Bool := Tbl.wf 0 m

/-- Stack and address within it of a local offset (R256). -/
def State.stackOf (s : State) (off : Nat) : Nat × Nat :=
  if s.rd F.MSS_CFG_INTLV = 0 then (off / 2 ^ 12 % 2, off / 2 ^ 13 % 2 ^ 22 * 2 ^ 12 + off % 2 ^ 12) else (off / 2 ^ 34 % 2, off % 2 ^ 34)

/-- The local offset of a stack's address (R256). -/
def State.offsetOf (s : State) (k a : Nat) : Nat :=
  if s.rd F.MSS_CFG_INTLV = 0 then a / 2 ^ 12 * 2 ^ 13 + k * 2 ^ 12 + a % 2 ^ 12 else k * 2 ^ 34 + a

/-- The key of a local offset in the stored bytes. -/
def State.memKey (s : State) (off : Nat) : Nat := (s.stackOf off).1 * 2 ^ 34 + (s.stackOf off).2

/-- Change the stacked memory's state. -/
def State.setMss (s : State) (m : MssState) : State := { s with mss := m }

/-- The byte at a local offset. -/
def State.memByte (s : State) (off : Nat) : Byte := Memory.read s.mss.mem (s.memKey off)

/-- A byte stored at a local offset. -/
def State.setMemByte (s : State) (off : Nat) (b : Byte) : State := s.setMss { s.mss with mem := Memory.write s.mss.mem (s.memKey off) b }

/-- Bytes stored from a local offset on; none leaves a byte as it is. -/
def State.setMemBytes (s : State) (off : Nat) : List (Option Byte) → State
  | [] => s
  | none :: t => s.setMemBytes (off + 1) t
  | some b :: t => (s.setMemByte off b).setMemBytes (off + 1) t

/-- The bytes at a local offset. -/
def State.memBytes (s : State) (off len : Nat) : List Byte := (upTo len).map (fun i => s.memByte (off + i))

/-! ## Poison (R259) -/

/-- The granules of a range of offsets. -/
def granules (off len : Nat) : List Nat := if len = 0 then [] else (upTo ((off + len - 1) / 64 - off / 64 + 1)).map (· + off / 64)

/-- The granule of offset g × 64 is poisoned. -/
def State.poisoned (s : State) (g : Nat) : Bool := s.mss.poison.contains (s.memKey (64 * g) / 64)

/-- A granule is poisoned, or its poison cleared. -/
def State.setPoison (s : State) (g : Nat) (on : Bool) : State :=
  let k := s.memKey (64 * g) / 64
  let rest := s.mss.poison.filter (· != k)
  s.setMss { s.mss with poison := if on then k :: rest else rest }

/-- The poisoned granules of a range. -/
def State.poisonIn (s : State) (off len : Nat) : List Nat := (granules off len).filter s.poisoned

/-- A store covers granule g with every byte written. -/
def coversGranule (off : Nat) (bytes : List (Option Byte)) (g : Nat) : Bool :=
  decide (off ≤ 64 * g ∧ 64 * g + 64 ≤ off + bytes.length) && ((bytes.drop (64 * g - off)).take 64).all (·.isSome)

/-- A store (R259): a granule it covers whole loses its poison, any other keeps it. -/
def State.store (s : State) (off : Nat) (bytes : List (Option Byte)) : State :=
  let full := (s.poisonIn off bytes.length).filter (coversGranule off bytes)
  full.foldl (fun s g => s.setPoison g false) (s.setMemBytes off bytes)

/-- The stacks a range lies in: 0 they answer, 1 they are not ready, 2 one of them is fenced (R282, DEDUCED: log entry 19). -/
def State.stackCheck (s : State) (off len : Nat) : Nat :=
  let ks := (granules off len).map (fun g => (s.stackOf (64 * g)).1)
  let ready (k : Nat) : Bool := s.rd (if k = 0 then F.MSS_STAT_TSTATE0 else F.MSS_STAT_TSTATE1) == 4
  if ks.any s.stackFenced then 2 else if s.en 0x0A && s.domOn 4 && ks.all ready then 0 else 1

/-- An uncorrectable word is found (R259): the granule is poisoned, counted, recorded and raised. -/
def State.memUe (s : State) (off : Nat) (scrub : Bool) : State :=
  let k := (s.stackOf off).1
  if s.poisoned (off / 64) then s
  else
    let s := (s.setPoison (off / 64) true).inc F.MSS_UE_COUNT_COUNT
    let s := if s.on F.MSS_UE_ADDR_HI_VALID then s
      else s.wrs [(F.MSS_UE_ADDR_LO_OFFSET, off), (F.MSS_UE_ADDR_HI_OFFSET, off / 2 ^ 32), (F.MSS_UE_ADDR_HI_SRC, b2n scrub), (F.MSS_UE_ADDR_HI_VALID, 1)]
    (s.cause0 0x0A 0).fault 38 3 k

/-- What the check of a read finds (R258, R259). -/
def State.eccSeen (s : State) (off : Nat) (scrub : Bool) (res : EccResult) : State :=
  let k := (s.stackOf off).1
  match res with
  | .clean => s
  | .corrected => ((s.inc (F.MSS_CE_COUNT_COUNT k)).stat 27).fault 36 3 k
  | .onDie => (s.inc (F.MSS_ODECC_COUNT k)).fault 37 3 k
  | .uncorrectable => s.memUe off scrub

/-- MEMORY_ACCESS_DONE (R258, R259, R262): one 64 B access. A write of the whole granule reads nothing. -/
def execMemoryAccessDone (_cl : MemClass) (offset : BitVec 35) (op : MemOp) (ecc : EccResult) (s : State) : Host.Outcome State Fault Refusal :=
  .next (
    let off := offset.toNat / 64 * 64
    if s.stackCheck off 64 ≠ 0 then s
    else match op with
      | .read => s.eccSeen off false ecc
      | .write bytes =>
        let s := if coversGranule off bytes (off / 64) then s else s.eccSeen off false ecc
        s.store off (bytes.take 64))

/-! ## Scrub (R261) -/

/-- Scrub of a stack runs: enabled, not frozen, the stack trained and not fenced. -/
def State.scrubRuns (s : State) (k : Nat) : Bool :=
  s.live 0x0A && s.on F.MSS_CFG_SCRUB_EN && s.domOn 4 && s.rd (if k = 0 then F.MSS_STAT_TSTATE0 else F.MSS_STAT_TSTATE1) == 4 && !s.stackFenced k

/-- The actual position of a stack's scrub has reached its schedule position. -/
def State.scrubCaughtUp (s : State) (k pos : Nat) : Bool :=
  let t := (s.time.now.toNat + 2 ^ 64 - Tbl.get 0 s.mss.passStart k) % 2 ^ 64
  decide (2 ^ 28 * t ≤ pos * (s.rd F.MSS_CFG_SCRUB_PERIOD * 3600 * 10 ^ 9 * 65536))

/-- The scrub of a stack is behind (R261): the schedule position exceeds the actual one by more than 2^28 / SCRUB_PERIOD granules, one hour of work. -/
def State.scrubLags (s : State) (k : Nat) : Bool :=
  let t := (s.time.now.toNat + 2 ^ 64 - Tbl.get 0 s.mss.passStart k) % 2 ^ 64
  let hour := 3600 * 10 ^ 9 * 65536
  decide ((s.rd (F.MSS_SCRUB_POS_POS k) * s.rd F.MSS_CFG_SCRUB_PERIOD + 2 ^ 28) * hour < 2 ^ 28 * t)

/-- SCRUB_ACCESS (R258, R259, R261). -/
def execScrubAccess (st : StackIx) (res : EccResult) (s : State) : Host.Outcome State Fault Refusal :=
  .next (
    let k := st.val
    if !s.scrubRuns k then s
    else
      let pos := s.rd (F.MSS_SCRUB_POS_POS k)
      let s := s.eccSeen (s.offsetOf k (64 * pos)) true res
      let s := (s.stat 26).wr (F.MSS_SCRUB_POS_POS k) (pos + 1)
      let s := if pos + 1 = 2 ^ 28 then
          (s.setMss { s.mss with passStart := Tbl.set 0 s.mss.passStart k s.time.now.toNat }).inc (F.MSS_SCRUB_PASS_COUNT k)
        else s
      if s.scrubCaughtUp k ((pos + 1) % 2 ^ 28) then s.setBit F.MSS_STAT_BEHIND k false else s)

/-- SCRUB_BEHIND (R261): of a stack whose scrub is behind. -/
def execScrubBehind (st : StackIx) (s : State) : Host.Outcome State Fault Refusal :=
  .next (if s.scrubRuns st.val && s.scrubLags st.val then (s.setBit F.MSS_STAT_BEHIND st).cause0 0x0A 1 else s)

/-! ## Training (R281) -/

/-- TSTATE of a stack. -/
def tstate (k : Nat) : Fld := if k = 0 then F.MSS_STAT_TSTATE0 else F.MSS_STAT_TSTATE1

/-- TRAIN_PCT at the start of a training state (R281). -/
def trainPct (st : Nat) : Nat := match st with | 2 => 5 | 3 => 50 | 4 => 100 | _ => 0

/-- TRAIN_PCT: the lower stack's value; a FAILED stack counts only with the other. -/
def State.showTrainPct (s : State) : State :=
  let a := s.rd F.MSS_STAT_TSTATE0
  let b := s.rd F.MSS_STAT_TSTATE1
  s.wr F.MSS_STAT_TRAIN_PCT (if a = 5 then trainPct b else if b = 5 then trainPct a else min (trainPct a) (trainPct b))

/-- Training of both stacks starts, at RESET, unless it is under way. -/
def State.startTrain (s : State) (noZero : Bool) : State :=
  let busy (k : Nat) : Bool := decide (1 ≤ s.rd (tstate k) ∧ s.rd (tstate k) ≤ 3)
  if busy 0 || busy 1 then s
  else (s.setMss { s.mss with noZero := noZero }).wrs [(tstate 0, 1), (tstate 1, 1), (F.MSS_STAT_TRAIN_PCT, 0), (F.MSS_CTRL_TRAIN, 0)]

/-- TRAIN written 1 (R281): held while MSS is disabled (R425). -/
def State.trainWritten (s : State) : State := if s.live 0x0A && s.domOn 4 then s.startTrain false else s.wr F.MSS_CTRL_TRAIN 1

/-- A TRAIN that waited for MSS starts (R425). -/
def State.resumeTrain (s : State) : State := if s.on F.MSS_CTRL_TRAIN then s.trainWritten else s

/-- The contents of a stack are zero, with valid check bits (R281). -/
def State.zeroStack (s : State) (k : Nat) : State :=
  s.setMss { s.mss with mem := s.mss.mem.filter (fun c => c.1 / 2 ^ 34 != k), poison := s.mss.poison.filter (fun g => g / 2 ^ 28 != k) }

/-- A stack's training fails (R281): TRAIN_FAIL and the fault, which fences the stack. -/
def State.trainFail (s : State) (k : Nat) : State :=
  (((s.wr (tstate k) 5).cause0 0x0A 3).fault 39 3 k).showTrainPct

/-- MSS_TRAIN_STAGE_END (R281). Under FREEZE a step that ends holds. -/
def execMssTrainStageEnd (st : StackIx) (ok : Bool) (s : State) : Host.Outcome State Fault Refusal :=
  .next (
    let k := st.val
    let t := s.rd (tstate k)
    if !s.live 0x0A || !s.domOn 4 || t < 1 || 3 < t then s
    else if !ok then s.trainFail k
    else
      let s := if t = 3 then s.zeroStack k else s
      let n := if t = 1 then 2 else if t = 2 ∧ s.on F.MSS_CFG_ZERO = true ∧ s.mss.noZero = false then 3 else 4
      let s := (s.wr (tstate k) n).showTrainPct
      if n = 4 then (s.setMss { s.mss with passStart := Tbl.set 0 s.mss.passStart k s.time.now.toNat, barred := s.mss.barred.filter (· != k) }).cause0 0x0A 2 else s)

/-- FORCE_FREEZE ends training in FAILED without a fence (R281); the flag says that it broke one. -/
def State.mssForce (s : State) : State × Bool :=
  let busy (s : State) (k : Nat) : Bool := decide (1 ≤ s.rd (tstate k) ∧ s.rd (tstate k) ≤ 3)
  let stop (s : State) (k : Nat) : State := if busy s k then (s.wr (tstate k) 5).cause0 0x0A 3 else s
  ((stop (stop s 0) 1), busy s 0 || busy s 1)

end Sys2Proof.Machine
end

