-- ==== Sys2Proof/Machine/Operands.lean ====
section
/-! DEFINITION. The operands of the reduction engine (R284, R285): its formats, and the value that the bits of an element stand for. -/

namespace Sys2Proof.Machine

/-- A floating-point value, exact: NaN, an infinity, or (−1)^neg × m × 2^e. -/
inductive FVal where
  | nan
  | inf (neg : Bool)
  | fin (neg : Bool) (m : Nat) (e : Int)
  deriving DecidableEq, Repr

/-- An element's value in its accumulator: a float or an int32. -/
inductive Val where
  | flt (v : FVal)
  | int (i : Int)
  deriving DecidableEq, Repr

/-- Shape of a float format: exponent bits, fraction bits, and whether it is E4M3, which has no infinities (R284). -/
structure FmtShape where
  ew : Nat
  mw : Nat
  e4m3 : Bool := false
  deriving DecidableEq, Repr

/-- The float formats of R284; none for the integers. -/
def fmtShape (fmt : Nat) : Option FmtShape :=
  match fmt with
  | 0 => some { ew := 8, mw := 23 }
  | 1 => some { ew := 8, mw := 7 }
  | 2 => some { ew := 5, mw := 10 }
  | 3 => some { ew := 4, mw := 3, e4m3 := true }
  | 4 => some { ew := 5, mw := 2 }
  | _ => none

/-- FMT is listed (R284). -/
def fmtOk (fmt : Nat) : Bool := decide (fmt ≤ 6)

/-- Bytes of an element: 4 in the accumulator format, else by FMT (R284). -/
def elemSize (fmt : Nat) (wide : Bool) : Nat :=
  if wide then 4 else match fmt with | 0 => 4 | 1 => 2 | 2 => 2 | 5 => 4 | _ => 1

/-- The format a buffer holds: the accumulator's with WIDE, else FMT (R285). -/
def bufFmt (fmt : Nat) (wide : Bool) : Nat := if wide then (if fmt ≤ 4 then 0 else 5) else fmt

/-- Bias of a float format. -/
def FmtShape.bias (f : FmtShape) : Nat := 2 ^ (f.ew - 1) - 1

/-- The value of a float's bits (R284, R285): subnormals are kept. -/
def FmtShape.decode (f : FmtShape) (w : Nat) : FVal :=
  let m := w % 2 ^ f.mw
  let e := w / 2 ^ f.mw % 2 ^ f.ew
  let neg := bitOf w (f.mw + f.ew)
  let low : Int := 1 - (f.bias : Int) - (f.mw : Int)
  if e = 2 ^ f.ew - 1 ∧ f.e4m3 = false then (if m = 0 then .inf neg else .nan)
  else if f.e4m3 ∧ e = 15 ∧ m = 7 then .nan
  else if e = 0 then .fin neg m low
  else .fin neg (m + 2 ^ f.mw) (low + (e - 1 : Nat))

/-- The value of an element's bits in format fmt (R284, R285). -/
def readElem (fmt w : Nat) : Val :=
  match fmtShape fmt with
  | some f => .flt (f.decode w)
  | none => .int (toSigned (if fmt = 5 then 32 else 8) w)

/-! ## Fields of a REDUCE command and of a step (R287, R288) -/

/-- COLL_ID of a REDUCE. -/
def RCmd.coll (c : RCmd) : Nat := byteField c.e 28 0 32
/-- NSTEPS of a REDUCE. -/
def RCmd.nsteps (c : RCmd) : Nat := byteField c.e 24 0 32
/-- FMT of a REDUCE. -/
def RCmd.fmt (c : RCmd) : Nat := byteField c.e 32 0 4
/-- OP of a REDUCE. -/
def RCmd.op (c : RCmd) : Nat := byteField c.e 32 4 2

/-- KIND of a step: 0 NOP, 1 SEND, 2 RECV_REDUCE, 3 RECV_COPY, 4 LOCAL_REDUCE. -/
def stepKind (e : StepEntry) : Nat := byteField e 0 0 3
/-- CIRCUIT of a step. -/
def stepCirc (e : StepEntry) : Nat := byteField e 4 0 10
/-- TAG of a step. -/
def stepTag (e : StepEntry) : Nat := byteField e 6 0 16
/-- LEN of a step. -/
def stepLen (e : StepEntry) : Nat := byteField e 8 0 25
/-- Offset of operand A (0) or B (1). -/
def stepOff (e : StepEntry) (i : Nat) : Nat := byteField e (16 + 8 * i) 0 35
/-- A_WIDE or B_WIDE. -/
def stepWide (e : StepEntry) (i : Nat) : Bool := byteField e 3 i 1 == 1
/-- The step is a SEND or a RECV. -/
def onCircuit (e : StepEntry) : Bool := decide (1 ≤ stepKind e ∧ stepKind e ≤ 3)
/-- The step is a RECV. -/
def isRecv (e : StepEntry) : Bool := decide (2 ≤ stepKind e ∧ stepKind e ≤ 3)
/-- The step reads operand A: SEND, RECV_REDUCE, LOCAL_REDUCE. -/
def usesA (e : StepEntry) : Bool := decide (stepKind e ∈ [1, 2, 4])
/-- The step writes B, the destination. -/
def usesB (e : StepEntry) : Bool := decide (2 ≤ stepKind e)
/-- Bytes of operand A (0) or B (1). -/
def stepBytes (fmt : Nat) (e : StepEntry) (i : Nat) : Nat := stepLen e * elemSize fmt (stepWide e i)
/-- Elements of a SEND's next message, which holds at most 4,096 B of data (R291): got have gone. -/
def RCmd.nextElems (c : RCmd) (x : RStep) : Nat := min (4096 / elemSize c.fmt (stepWide x.e 0)) (stepLen x.e - x.got)

end Sys2Proof.Machine
end

