-- ==== Sys2Proof/Machine/Flags.lean ====
section
/-! DEFINITION. The results of the reduction engine and what they count (R285, R286): rounding, overflow, saturation, NaN. -/

namespace Sys2Proof.Machine

/-- What one result counts: a saturation, a float overflow, a NaN (R286). -/
structure Flags where
  sat : Bool := false
  ovf : Bool := false
  nan : Bool := false
  deriving DecidableEq, Repr

/-- Either of two results' counts. -/
def Flags.or (a b : Flags) : Flags := { sat := a.sat || b.sat, ovf := a.ovf || b.ovf, nan := a.nan || b.nan }

/-- m / 2^d to the nearest, ties to even. -/
def roundEven (m d : Nat) : Nat :=
  let q := m / 2 ^ d
  let r := m % 2 ^ d
  if 2 * r > 2 ^ d ∨ (2 * r = 2 ^ d ∧ q % 2 = 1) then q + 1 else q

/-- The canonical NaN of a format (R285). -/
def FmtShape.nan (f : FmtShape) : Nat :=
  if f.e4m3 then 0x7F else (2 ^ f.ew - 1) * 2 ^ f.mw + 2 ^ (f.mw - 1)

/-- The bits of an overflow (R285): an infinity, or ±448 in E4M3. -/
def FmtShape.overflowCode (f : FmtShape) (neg : Bool) : Nat :=
  b2n neg * 2 ^ (f.mw + f.ew) + (if f.e4m3 then 0x7E else (2 ^ f.ew - 1) * 2 ^ f.mw)

/-- A value rounded to nearest even into a float format (R285): its bits and what it counts. -/
def FmtShape.encode (f : FmtShape) (v : FVal) : Nat × Flags :=
  match v with
  | .nan => (f.nan, { nan := true })
  | .inf neg => (f.overflowCode neg, { ovf := f.e4m3 })
  | .fin neg m e =>
    let sgn := b2n neg * 2 ^ (f.mw + f.ew)
    if m = 0 then (sgn, {})
    else
      let low : Int := 1 - (f.bias : Int) - (f.mw : Int)
      let q : Int := max low (e + (Nat.log2 m : Int) - (f.mw : Int))
      let r := if q ≤ e then m * 2 ^ (e - q).toNat else roundEven m (q - e).toNat
      let (r, q) := if r = 2 ^ (f.mw + 1) then (2 ^ f.mw, q + 1) else (r, q)
      let ex := (q - low).toNat + (if r < 2 ^ f.mw then 0 else 1)
      let top := if f.e4m3 then 16 else 2 ^ f.ew - 1
      if top ≤ ex ∨ (f.e4m3 ∧ ex = 15 ∧ r = 15) then (f.overflowCode neg, { ovf := true })
      else (sgn + ex * 2 ^ f.mw + r % 2 ^ f.mw, {})

/-- An integer saturated to w bits (R285). -/
def saturate (w : Nat) (i : Int) : Nat × Flags :=
  let top : Int := 2 ^ (w - 1)
  if i < -top then (ofSigned w (-top), { sat := true })
  else if top ≤ i then (ofSigned w (top - 1), { sat := true })
  else (ofSigned w i, {})

/-- A result written to a buffer of format fmt (R285). -/
def writeElem (fmt : Nat) (v : Val) : Nat × Flags :=
  match fmtShape fmt, v with
  | some f, .flt x => f.encode x
  | _, .int i => saturate (if fmt = 6 then 8 else 32) i
  | none, .flt _ => (0, {})

/-- Float a is below float b, with −0 below +0 (R285). -/
def FVal.lt (a b : FVal) : Bool :=
  match a, b with
  | .inf true, .inf true => false
  | .inf true, _ => true
  | _, .inf true => false
  | .inf false, _ => false
  | _, .inf false => true
  | .fin na ma ea, .fin nb mb eb =>
    let low := min ea eb
    let x := ma * 2 ^ (ea - low).toNat
    let y := mb * 2 ^ (eb - low).toNat
    if na != nb then na else if na then decide (y < x) else decide (x < y)
  | _, _ => false

/-- The exact sum of two floats; −0 only from two −0 (R285). -/
def FVal.add (a b : FVal) : FVal :=
  match a, b with
  | .nan, _ => .nan
  | _, .nan => .nan
  | .inf x, .inf y => if x = y then .inf x else .nan
  | .inf x, _ => .inf x
  | _, .inf y => .inf y
  | .fin na ma ea, .fin nb mb eb =>
    let low := min ea eb
    let sg (n : Bool) (v : Nat) : Int := if n then -(v : Int) else v
    let t := sg na (ma * 2 ^ (ea - low).toNat) + sg nb (mb * 2 ^ (eb - low).toNat)
    if t = 0 then .fin (na && nb) 0 low else .fin (decide (t < 0)) t.natAbs low

/-- A float rounded to the accumulator, fp32 (R285). -/
def FVal.toAcc (v : FVal) : FVal × Flags :=
  let f : FmtShape := { ew := 8, mw := 23 }
  let r := f.encode v
  (f.decode r.1, { ovf := r.2.ovf })

/-- Two operands combined by OP in the accumulator format (R285): 0 SUM, 1 MAX, 2 MIN. -/
def combine (op : Nat) (a b : Val) : Val × Flags :=
  match a, b with
  | .flt x, .flt y =>
    match op with
    | 0 => let r := (x.add y).toAcc; (.flt r.1, r.2)
    | 1 => (.flt (if x = .nan ∨ y = .nan then .nan else if x.lt y then y else x), {})
    | _ => (.flt (if x = .nan ∨ y = .nan then .nan else if x.lt y then x else y), {})
  | .int x, .int y =>
    match op with
    | 0 => let r := saturate 32 (x + y); (.int (toSigned 32 r.1), r.2)
    | 1 => (.int (max x y), {})
    | _ => (.int (min x y), {})
  | v, _ => (v, {})

/-- One element of a reduction (R285, R286): the operands' formats and bits, the result's format; its bits and what it counts. -/
def reduceElem (op fa a fb b fo : Nat) : Nat × Flags :=
  let c := combine op (readElem fa a) (readElem fb b)
  let r := writeElem fo c.1
  (r.1, c.2.or r.2)

/-- One element converted to another format (R285); unchanged bits where the formats are equal. -/
def convertElem (fa a fo : Nat) : Nat × Flags := if fa = fo then (a, {}) else writeElem fo (readElem fa a)

end Sys2Proof.Machine
end

