-- ==== Sys2Proof/Machine/Rme.lean ====
section
/-! DEFINITION. The remote memory engine: messages (R279, R280), operations at their target (R259, R267, R315, R316), routing and windows (R263 to
R265, R316), issue and ordering (R271 to R273, R275, R276), outcomes (R266, R268, R277), MEM_COPY (R269, R270), fences and freezes (R282, R283). -/

namespace Sys2Proof.Machine

/-- Change the remote memory engine's state. -/
def State.setRme (s : State) (r : RmeState) : State := { s with rme := r }

/-- Change its operations. -/
def State.setOps (s : State) (l : List RmeOp) : State := s.setRme { s.rme with ops := l }

/-! ## Messages (R276, R279, R280) -/

/-- A message of a receive buffer: its flits, each with its CSEQ and the lane pair it came on. -/
abbrev InMsg := List (Nat × Nat × Flit)

/-- The messages of a receive buffer, in the order they came (R279): each begins with a flit of CLIENT 1 or 3. -/
def messages : InMsg → List InMsg
  | [] => []
  | x :: t =>
    match messages t with
    | (y :: g) :: rest => if isFirst y.2.2.client.toNat then [x] :: (y :: g) :: rest else (x :: y :: g) :: rest
    | _ => [[x]]

/-- CLIENT of a message's first flit. -/
def InMsg.client (m : InMsg) : Nat := ((m.head?).map (fun x => x.2.2.client.toNat)).getD 0

/-- CSEQ of a message's first flit. -/
def InMsg.cseq (m : InMsg) : Nat := ((m.head?).map (·.1)).getD 0

/-- The header and data of a message: what its flits' LEN counts (R279). -/
def InMsg.bytes (m : InMsg) : List Byte := m.flatMap (fun x => x.2.2.valid)

/-- A message leaves its circuit's receive buffer, and its flits' credit is given (R176, R276). -/
def State.takeMessage (s : State) (c : Nat) (m : InMsg) : State :=
  let gone := m.map (·.1)
  let s := s.setCircLink c { s.circLink c with inbox := (s.circLink c).inbox.filter (fun x => !gone.contains x.1) }
  m.foldl (fun s x => s.giveCredit x.2.1) s

/-- MTYPE of an RME message (R280). -/
def mtypeOf (l : List Byte) : Nat := numAt l 0 1

/-- The header of an RME message (R280). -/
def memMsgOf (l : List Byte) : MemMsg :=
  let w := numAt l 8 8
  { part := BitVec.ofNat 7 (numAt l 2 1), aop := BitVec.ofNat 2 (numAt l 3 1), a64 := (numAt l 3 1).testBit 2, tag := BitVec.ofNat 13 (numAt l 4 2),
    len := BitVec.ofNat 13 (numAt l 6 2), offset := BitVec.ofNat 35 w, srcNode := BitVec.ofNat 14 (w / 2 ^ 35), rcode := BitVec.ofNat 8 (numAt l 1 1),
    reqCseq := BitVec.ofNat 32 w }

/-- Every flit of an RME message has come: LEN counts its data bytes, except for a READ_REQ and a WRITE_ACK, which have none (R280). -/
def wholeRme (l : List Byte) : Bool :=
  decide (16 + (if mtypeOf l = 1 ∨ mtypeOf l = 0x82 then 0 else (memMsgOf l).len.toNat) ≤ l.length)

/-- The first RME message of a circuit's receive buffer that satisfies p, where it has come whole. -/
def State.nextRme (s : State) (c : Nat) (p : List Byte → Bool) : Option InMsg :=
  ((messages (s.circLink c).inbox).find? (fun m => m.client == 1 && p m.bytes)).filter (fun m => wholeRme m.bytes)

/-- The header of a request (R280). -/
def reqHeader (mtype part aop : Nat) (a64 : Bool) (tag len off node : Nat) : List Byte :=
  numBytes 1 mtype ++ numBytes 1 0 ++ numBytes 1 part ++ numBytes 1 (aop + 4 * b2n a64) ++ numBytes 2 tag ++ numBytes 2 len ++
    numBytes 8 (off + node * 2 ^ 35)

/-- The header of a response (R280). -/
def rspHeader (mtype rcode : Nat) (m : MemMsg) (len cseq : Nat) : List Byte :=
  numBytes 1 mtype ++ numBytes 1 rcode ++ numBytes 1 m.part.toNat ++ numBytes 1 (m.aop.toNat + 4 * b2n m.a64) ++ numBytes 2 m.tag.toNat ++
    numBytes 2 len ++ numBytes 4 cseq ++ numBytes 4 0

/-! ## Operations at their target (R259, R267, R280) -/

/-- What a target answers: RCODE (R280), data, poisoned granules of a load. -/
structure Answer where
  rcode : Nat
  data : List Byte := []
  pois : List Nat := []
  deriving DecidableEq, Repr

/-- The new value of an atomic (R267). -/
def atomicNew (aop w old opa opb : Nat) : Nat :=
  match aop with
  | 0 => (old + opa) % 2 ^ (8 * w)
  | 1 => if old = opa % 2 ^ (8 * w) then opb % 2 ^ (8 * w) else old
  | _ => opa % 2 ^ (8 * w)

/-- A load, store or atomic on the stacks, once it is admitted (R259, R267). -/
def State.perform (s : State) (kind off len : Nat) (data : List (Option Byte)) (aop opa opb : Nat) : State × Answer :=
  let pois := s.poisonIn off len
  let rc := if pois = [] then 0 else 1
  match kind with
  | 0 => (s, { rcode := rc, data := s.memBytes off len, pois := pois })
  | 1 => (s.store off data, { rcode := 0 })
  | _ =>
    let old := s.memBytes off len
    (s.store off ((numBytes len (atomicNew aop len (bytesNum old) opa opb)).map some), { rcode := rc, data := old, pois := pois })

/-- An access as its target answers it (R256, R263, R267, R280, R282, R315): BAD_ADDR, the windows, the stacks' fences. -/
def State.target (s : State) (node part kind off len : Nat) (data : List (Option Byte)) (aop opa opb : Nat) : State × Answer :=
  if 2 ^ 35 < off + len ∨ (kind = 2 ∧ off % len ≠ 0) then (s, { rcode := 4 })
  else
    let w := s.windowCheck node part off len (kind != 0)
    if w ≠ 0 then (s, { rcode := w })
    else if s.stackCheck off len = 2 then (s, { rcode := 2 })
    else s.perform kind off len data aop opa opb

/-! ## Requests that arrive (R276, R280, R283) -/

/-- A request at its target (R280): CSEQ of its first flit, MTYPE, header, data, operands, and the message it came in. -/
structure MemReq where
  cseq : Nat
  mtype : Nat
  m : MemMsg
  data : List Byte
  opa : Nat
  opb : Nat
  msg : InMsg
  deriving DecidableEq, Repr

/-- A request message: MTYPE 1, 2 or 3, and a listed AOP. One with another MTYPE or AOP is taken by nobody (DESIGN CHOICE: log entry 120). -/
def isRequestMsg (l : List Byte) : Bool :=
  mtypeOf l == 1 || mtypeOf l == 2 || (mtypeOf l == 3 && (memMsgOf l).aop != 3)

/-- The first request that a circuit's receive buffer holds, once it has come whole (R276). -/
def State.nextRequest (s : State) (c : Nat) : Option MemReq :=
  (s.nextRme c isRequestMsg).map (fun g =>
    let l := g.bytes
    let m := memMsgOf l
    let w := if m.a64 then 8 else 4
    { cseq := g.cseq % 2 ^ 32, mtype := mtypeOf l, m := m, data := (l.drop 16).take m.len.toNat, opa := numAt l 16 w, opb := numAt l (16 + w) w, msg := g })

/-- Bytes a request's range covers at the target. -/
def MemReq.len (h : MemReq) : Nat := if h.mtype = 3 then (if h.m.a64 then 8 else 4) else h.m.len.toNat

/-- A circuit ends here and carries flits to this end. -/
def State.endsHere (s : State) (c : Nat) : Bool := (s.circuit c).img.path == 0 && (s.circuit c).holds

/-- A circuit holds a pair on a fenced port (R282). -/
def State.circFenced (s : State) (c : Nat) : Bool := (s.circuit c).img.ports.any s.portFenced

/-- A request on circuit c can be answered now: the circuit ends here and no fence of a port or of its partition stops it (R21), RME and MSS run, the
stacks answer or are fenced, and the circuit's queue has room for the response (R276). -/
def State.canAnswer (s : State) (c : Nat) (h : MemReq) : Bool :=
  let n := if h.mtype = 2 then 0 else h.len
  s.endsHere c && !s.circFenced c && !s.partFenced (s.circuit c).owner && s.runs 0x0B && s.en 0x0A && s.stackCheck h.m.offset.toNat h.len != 1 &&
    decide (s.flitsFor c (16 + n) ≤ s.queueFree c)

/-- A request is performed, its flits leave the receive buffer, and its response enters the circuit's queue (R264, R276, R280). -/
def State.answer (s : State) (c : Nat) (h : MemReq) : State :=
  let r := s.target h.m.srcNode.toNat h.m.part.toNat (h.mtype - 1) h.m.offset.toNat h.len (h.data.map some) h.m.aop.toNat h.opa h.opb
  let data := if r.2.rcode ≤ 1 then r.2.data else []
  (r.1.takeMessage c h.msg).queueMessage c 1 2 (rspHeader (0x80 + h.mtype) r.2.rcode h.m data.length h.cseq ++ data)

/-- The circuit's first request is answered, where it satisfies p and can be; else it stays in the receive buffer and holds its credit (R276). -/
def State.serve (s : State) (c : Nat) (p : MemReq → Bool) : State :=
  match s.nextRequest c with
  | some h => if p h && s.canAnswer c h then s.answer c h else s
  | none => s

/-- READ_REQ (R276, R280): the circuit's first request, a READ_REQ. -/
def execReadReq (c : CircIx) (s : State) : Host.Outcome State Fault Refusal := .next (s.serve c (fun h => h.mtype == 1))

/-- WRITE_REQ (R276, R280): the circuit's first request, a WRITE_REQ. -/
def execWriteReq (c : CircIx) (s : State) : Host.Outcome State Fault Refusal := .next (s.serve c (fun h => h.mtype == 2))

/-- ATOMIC_REQ (R267, R276, R280): the circuit's first request, an ATOMIC_REQ. -/
def execAtomicReq (c : CircIx) (s : State) : Host.Outcome State Fault Refusal := .next (s.serve c (fun h => h.mtype == 3))

/-- RME_TARGET_RESPOND (R276): the circuit's first request, once it can be answered. -/
def execRmeTargetRespond (c : CircIx) (s : State) : Host.Outcome State Fault Refusal := .next (s.serve c (fun _ => true))

/-! ## Routing (R263, R264) -/

/-- A partition may use a circuit (R264): not FREE, not RESTORED. -/
def State.mayUse (s : State) (part c : Nat) : Bool :=
  (s.circuit c).holds && (part == 0 || (s.circuit c).owner == part || (s.circuit c).owner == 0)

/-- The circuit to a remote node (R264). -/
def State.routeTo (s : State) (part d : Nat) : Option Nat :=
  match s.csq.circuits.find? (fun x => x.2.img.path == 0 && x.2.img.peerA == d && s.mayUse part x.1) with
  | some x => some x.1
  | none =>
    ((upTo 64).find? (fun r => s.on (F.RME_ROUTE_W0_VALID r) &&
      (d &&& s.rd (F.RME_ROUTE_W0_MASK r)) == (s.rd (F.RME_ROUTE_W0_NODE r) &&& s.rd (F.RME_ROUTE_W0_MASK r)) &&
      s.mayUse part (s.rd (F.RME_ROUTE_W1_CIRCUIT r)))).map (fun r => s.rd (F.RME_ROUTE_W1_CIRCUIT r))

/-- This device's node ID. -/
def State.nodeId (s : State) : Nat := s.rd F.GLB_NODE_ID_NODE_ID

/-- The parts of a global address (R263): node and offset, none with a reserved bit set. -/
def gaParts (ga : Nat) : Option (Nat × Nat) := if ga / 2 ^ 35 % 2 ^ 15 ≠ 0 then none else some (ga / 2 ^ 50, ga % 2 ^ 35)

/-- The global address of a node's offset. -/
def gaOf (node off : Nat) : Nat := node * 2 ^ 50 + off

/-! ## Outcomes (R266, R268, R277)

Outcome codes are 0 to 4 as RCODE has them, 5 NOROUTE and 6 CONGESTED. -/

/-- STATUS and DETAIL of an outcome (R266). -/
def outcomeCpl (o : Nat) : Cpl :=
  match o with
  | 2 => { status := 2 }
  | 3 => { status := 4, detail := 0x14 }
  | 4 => { status := 4, detail := 0x12 }
  | 5 => { status := 4, detail := 0x13 }
  | 6 => { status := 1 }
  | _ => {}

/-- RME_LAST_ERR.CODE of an outcome. -/
def outcomeErr (o : Nat) : Nat := match o with | 1 => 6 | 2 => 2 | 3 => 3 | 4 => 4 | 5 => 5 | _ => 1

/-- An outcome is counted and raised (R264, R266, R277). -/
def State.countOutcome (s : State) (f : Fn) (o : Nat) : State :=
  let vf (s : State) (i : Nat) : State := if f.val = 0 then s else s.cause f 2 i
  match o with
  | 1 => ((s.inc F.RME_POISON_COUNT).cause0 0x0B 3).fault 41 2 f
  | 3 => vf ((s.inc F.RME_DENIED_COUNT).cause0 0x0B 2) 2
  | 4 => s.inc F.RME_BAD_ADDR_COUNT
  | 5 => vf ((s.inc F.RME_NOROUTE_COUNT).cause0 0x0B 1) 3
  | 6 =>
    let s := ((s.inc F.RME_CONGESTED_COUNT).cause0 0x0B 0).fault 40 2 f
    vf (if f.val = 0 then s else s.inc (F.VF_RME_CONGESTED_COUNT (pageBase f 2))) 0
  | _ => s

/-- An error of a store is logged (R266). -/
def State.logErr (s : State) (f : Fn) (o ga : Nat) : State :=
  s.wrs [(F.RME_LAST_ERR_GA_GA, ga), (F.RME_LAST_ERR_CODE, outcomeErr o), (F.RME_LAST_ERR_PART, f)]

/-- A BAR2 read completes (R266): 0 successful, 1 Unsupported Request, 4 Completer Abort; AER records the last two with the function's requester
ID, its function number (R55, R60). -/
def State.bar2Done (s : State) (f : Fn) (o : Nat) (data : List Byte) : State :=
  if o ≤ 1 then s.send (.bar2Cpl f 0 (o == 1) data)
  else
    let st := if o = 4 ∨ o = 5 then 1 else 4
    (s.send (.bar2Cpl f st false [])).send (.aer f st)

/-- Base of function f's atomic slots (R268). -/
def atmBase (f : Nat) : Nat := pageBase f (if f = 0 then 0x0B else 2)

/-- An atomic slot ends (R268). RESULT of one that failed is a free value (DESIGN CHOICE: log entry 5); its high half reads zero for a 4 B atomic. -/
def State.atomicDone (s : State) (f : Fn) (n o : Nat) (data : List Byte) : State :=
  let b := atmBase f
  let w := if s.on (F.ATM_CTRL_SIZE64 b n) then 64 else 32
  let (v, s) := if o ≤ 1 then (bytesNum data, s) else (s.free.1.toNat % 2 ^ w, s.free.2)
  let s := s.wrs [(F.ATM_STAT_BUSY b n, 0), (F.ATM_STAT_STATUS b n, (outcomeCpl o).status), (F.ATM_STAT_POISON b n, b2n (o == 1)),
    (F.ATM_RESULT_RESULT b n, v)]
  if f.val = 0 then s.cause0 0x0B 5 else s.cause f 2 1

/-- The granules of a copy's destination that hold a byte of a poisoned source granule (R270). -/
def movePoison (src len dst : Nat) (pois : List Nat) : List Nat :=
  pois.flatMap (fun g =>
    let a := max src (64 * g)
    let b := min (src + len) (64 * g + 64)
    granules (dst + a - src) (b - a))

/-- Change a DMA channel. -/
def State.updDma (s : State) (ch : Nat) (f : Dma → Dma) : State := s.setRme { s.rme with dma := updFirst (fun d => d.ch == ch) f s.rme.dma }

/-- An operation of a MEM_COPY ends (R270). -/
def State.dmaOp (s : State) (ch pos len o npois : Nat) : State :=
  s.updDma ch (fun d =>
    let d := { d with inflight := d.inflight - 1, poisoned := d.poisoned + npois }
    if o ≤ 1 then { d with okTo := d.okTo ++ [(pos, len)] }
    else { d with fail := if d.fail.isNone then some (outcomeCpl o) else d.fail })

/-- A MEM_COPY side is a host address (R269): 0 the source, 1 the destination. -/
def hostSide (e : Block64) (i : Nat) : Bool := byteField e 36 i 1 == 1

/-- A MEM_COPY side's address. -/
def copyAddr (e : Block64) (i : Nat) : Nat := byteField e (16 + 8 * i) 0 64

/-- LEN of a MEM_COPY. -/
def copyLen (e : Block64) : Nat := byteField e 32 0 32

/-- The node of a MEM_COPY side, for a global address. -/
def copyNode (e : Block64) (i : Nat) : Nat := copyAddr e i / 2 ^ 50

/-- The length of the operation at pos (R269): at most 4,096 B, up to a 4 KiB boundary of either global-address side. -/
def copyChunk (e : Block64) (pos : Nat) : Nat :=
  let room (i : Nat) : Nat := if hostSide e i then 4096 else 4096 - (copyAddr e i + pos) % 4096
  min (min (room 0) (room 1)) (copyLen e - pos)

/-- Data that a MEM_COPY has read goes to its local destination (R269, R270): the outcome of the operation. -/
def State.copyOut (s : State) (f : Fn) (e : Block64) (pos : Nat) (o : Nat) (data : List Byte) (pois : List Nat) (srcOff : Nat) : State × Nat :=
  let dst := copyAddr e 1 + pos
  if 1 < o then (s, o)
  else if hostSide e 1 then (s.hostWriteAt f dst data (o == 1), o)
  else
    let off := dst % 2 ^ 35
    let r := s.target s.nodeId f 1 off data.length (data.map some) 0 0 0
    if r.2.rcode ≠ 0 then (r.1, r.2.rcode)
    else ((movePoison srcOff data.length off pois).foldl (fun s g => s.setPoison g true) r.1, o)

/-- An operation that ends is counted (R400, R401). -/
def State.countOp (s : State) (op : RmeOp) (o : Nat) : State :=
  let n := if o ≤ 1 then op.len else 0
  let s := ((s.stat 18).stat 19 n).statPart op.fn 2 |>.statPart op.fn 3 n
  if o = 6 then (s.stat 20).statPart op.fn 4 else s

/-- An operation ends with an outcome, reported to its source (R266, R268, R270). A load of a copy whose response says POISON counts every
granule of the load (DESIGN CHOICE: log entry 20). -/
def State.opDone (s : State) (op : RmeOp) (o : Nat) (data : List Byte) (pois : List Nat) : State :=
  let s := s.countOp op o
  match op.src with
  | .read => (s.countOutcome op.fn o).bar2Done op.fn o data
  | .write =>
    let s := s.countOutcome op.fn o
    if o ≤ 1 then s else s.logErr op.fn o (gaOf op.node op.offset)
  | .atomic n => (s.countOutcome op.fn o).atomicDone op.fn n o data
  | .dma ch =>
    match s.rme.dma.find? (fun d => d.ch == ch) with
    | none => s
    | some d =>
      let r := if op.kind = 0 then s.copyOut op.fn d.e op.pos o data pois op.offset else (s, o)
      (r.1.countOutcome op.fn r.2).dmaOp ch op.pos op.len r.2 (if o = 1 then pois.length else 0)

/-! ## Tags and order (R271 to R273) -/

/-- The lowest free tag. -/
def State.freeTag (s : State) : Option Nat := (upTo 8192).find? (fun t => !s.rme.ops.any (fun o => o.tag == some t))

/-- A function holds fewer tags than its quota (R273). -/
def State.quotaOk (s : State) (f : Nat) : Bool := decide (s.tagsHeld f < s.rd (F.RME_TAG_QUOTA_QUOTA f))

/-- An operation may take a tag (R273). -/
def State.tagFree (s : State) (op : RmeOp) : Bool :=
  s.quotaOk op.fn && decide (s.tagsUsed < 8192) && (op.src != .read || decide (s.robUsed + robBytes op.len ≤ 524288))

/-- Two operations touch one granule. -/
def RmeOp.overlaps (a b : RmeOp) : Bool := a.node == b.node && (granules a.offset a.len).any ((granules b.offset b.len).contains ·)

/-- An operation must wait for an earlier one of its function (R271). -/
def State.mustWait (s : State) (op e : RmeOp) : Bool :=
  if e.stage == .quarantined || e.flr then false
  else
    let behind : Bool := op.overlaps e &&
      (match e.stage with
      | .queued | .sent => s.routeTo op.part op.node != e.circ
      | _ => true)
    behind || (op.src == .read && e.src == .write && (!op.relaxed || op.overlaps e)) ||
      ((match op.src with | .atomic _ => true | _ => false) && e.src == .write)

/-- No earlier operation holds this one back (R271). -/
def State.orderOk (s : State) (earlier : List RmeOp) (op : RmeOp) : Bool := !(earlier.filter (fun e => e.fn == op.fn)).any (s.mustWait op)

/-- The operations of a list, each with those before it. -/
def withEarlier : List RmeOp → List RmeOp → List (List RmeOp × RmeOp)
  | _, [] => []
  | before, o :: t => (before, o) :: withEarlier (before ++ [o]) t

/-- The partition an operation acts for exists; for one that does not, nothing new is issued (R63). -/
def State.partThere (s : State) (n : Nat) : Bool := n == 0 || s.partExists n

/-! ## A circuit's transmit queue (R275, R276, R280) -/

/-- The bytes of an operation's request message (R280). The bytes that a store leaves unwritten have a free value in the message (DESIGN CHOICE: log entry 5). -/
def RmeOp.message (op : RmeOp) (node fill : Nat) : List Byte :=
  let w := if op.a64 then 8 else 4
  let body := match op.kind with
    | 0 => []
    | 1 => op.data.map (fun b => b.getD (BitVec.ofNat 8 fill))
    | _ => numBytes w op.opa ++ (if op.aop = 1 then numBytes w op.opb else [])
  reqHeader (op.kind + 1) op.fn op.aop op.a64 (op.tag.getD 0) (if op.kind = 0 then op.len else body.length) op.offset node ++ body

/-- Bytes of an operation's request message. -/
def RmeOp.msgLen (op : RmeOp) : Nat :=
  16 + (match op.kind with | 0 => 0 | 1 => op.len | _ => (if op.a64 then 8 else 4) * (if op.aop = 1 then 2 else 1))

/-- Flits of an operation's request on circuit c. -/
def State.reqFlits (s : State) (c : Nat) (op : RmeOp) : Nat := s.flitsFor c op.msgLen

/-- Request flits of a circuit sent and unanswered, or in its queue (R276). -/
def State.unanswered (s : State) (c : Nat) : Nat :=
  ((s.rme.ops.filter (fun o => o.circ == some c && (o.stage == .queued || o.stage == .sent || o.stage == .quarantined))).map (s.reqFlits c)).sum

/-- A circuit's limit of request flits sent and unanswered allows n more (R276). It is kept where a request enters the queue (DEDUCED: log entry 119). -/
def State.answerable (s : State) (c n : Nat) : Bool := decide (s.unanswered c + n ≤ 256 * (s.circuit c).img.units.length)

/-- The circuit on which an operation's request goes: none for one that is local, or that ends without a request. -/
def State.circFor (s : State) (op : RmeOp) : Option Nat :=
  if s.partFenced op.part || op.node == s.nodeId then none
  else match s.routeTo op.part op.node with
    | some c => if s.circFenced c then none else some c
    | none => none

/-- The operation that a channel issues next, where it issues one (R269): a load of its source, or a store to its destination of what the host or the
local stacks hold. -/
def State.dmaNext (s : State) (d : Dma) : Option RmeOp :=
  if !s.live 0x0B || d.fail.isSome || copyLen d.e ≤ d.next then none
  else
    let e := d.e
    let side := if (hostSide e 0 || copyNode e 0 == s.nodeId) && !hostSide e 1 then 1 else 0
    some { fn := d.fn, part := d.owner, src := .dma d.ch, kind := side, node := copyNode e side, offset := (copyAddr e side + d.next) % 2 ^ 35,
           len := copyChunk e d.next, pos := d.next }

/-- Nothing but room and turn holds an operation back from its issue (R63, R271, R273); one whose host data has come is issued already. -/
def State.mayIssue (s : State) (earlier : List RmeOp) (op : RmeOp) : Bool :=
  op.stage == .waiting || (op.stage == .stalled && s.partThere op.part && s.orderOk earlier op && s.tagFree op)

/-- The operations that nothing but room and turn holds back, with the next one of each channel that reads no host data. -/
def State.issuable (s : State) : List RmeOp :=
  if !s.runs 0x0B then []
  else ((withEarlier [] s.rme.ops).filter (fun x => s.mayIssue x.1 x.2)).map (·.2) ++
    (s.rme.dma.filter (fun d => !hostSide d.e 0)).filterMap (fun d => (s.dmaNext d).filter (s.mayIssue s.rme.ops))

/-- A SEND in flight can put its next message into its circuit's queue, but for room and turn (R63, R289). -/
def State.sendReady (s : State) (c : RCmd) (x : RStep) : Bool :=
  x.st == 1 && stepKind x.e == 1 && decide (x.got < stepLen x.e) && s.partThere c.owner &&
    s.stackCheck (stepOff x.e 0) (stepBytes c.fmt x.e 0) == 0

/-- The messages that wait for a circuit's transmit queue: partition and flits (R275). -/
def State.queueWaiters (s : State) (c : Nat) : List (Nat × Nat) :=
  let ops := (s.issuable.filter (fun o => s.circFor o == some c && s.answerable c (s.reqFlits c o))).map (fun o => (o.part, s.reqFlits c o))
  let sends (r : RCmd) : List (Nat × Nat) := (r.steps.filter (fun x => stepCirc x.e == c && s.sendReady r x)).map
    (fun x => (r.owner, s.flitsFor c (16 + r.nextElems x * elemSize r.fmt (stepWide x.e 0))))
  ops ++ (if s.runs 0x0C then s.rdx.cmds.flatMap sends else [])

/-- A message of a partition may enter a circuit's queue now (R275): there is room, and where several partitions wait, it is this one's turn by deficit
round robin, with the device's own messages first (DESIGN CHOICE: log entry 43). The state after has counted it. -/
def State.enterTurn (s : State) (c part n : Nat) : Option State :=
  if s.queueFree c < n then none
  else
    let l := s.queueWaiters c
    if l.all (fun x => x.1 == part) then some s
    else match Drr.choose s.weight (fun q => if q = part then some n else (l.find? (fun x => x.1 == q)).map (·.2)) (s.circLink c).drr with
      | some (q, d) => if q = part then some (s.setCircLink c { s.circLink c with drr := d }) else none
      | none => none

/-! ## Issue (R263, R264, R267, R273, R275, R282) -/

/-- An operation could go now: it is local and the stacks answer, it ends without a request, or its request may enter its circuit's queue. -/
def State.canGo (s : State) (op : RmeOp) : Bool :=
  match s.circFor op with
  | some c => s.answerable c (s.reqFlits c op) && (s.enterTurn c op.part (s.reqFlits c op)).isSome
  | none => s.partFenced op.part || op.node != s.nodeId || s.stackCheck op.offset op.len != 1

/-- An operation of the list issues, where it can go: a local one ends at once, a remote one's request enters its circuit's queue under a tag. -/
def State.issue (s : State) (op : RmeOp) : State :=
  let out (o : Nat) : State := (s.setOps (dropFirst (· == op) s.rme.ops)).opDone op o [] []
  if !s.canGo op then s
  else if s.partFenced op.part then out 2
  else if op.node = s.nodeId then
    let r := s.target op.node op.fn op.kind op.offset op.len op.data op.aop op.opa op.opb
    (r.1.setOps (dropFirst (· == op) s.rme.ops)).opDone op r.2.rcode r.2.data r.2.pois
  else match s.routeTo op.part op.node with
    | none => out 5
    | some c =>
      if s.circFenced c then out 2
      else match s.enterTurn c op.part (s.reqFlits c op), (if op.tag.isSome then op.tag else s.freeTag) with
        | some s, some t =>
          let (v, s) := if op.data.any (·.isNone) then s.free else (0, s)
          let op' := { op with tag := some t, circ := some c, stage := .queued }
          (s.setOps (updFirst (· == op) (fun _ => op') s.rme.ops)).queueMessage c 1 2 (op'.message s.nodeId v.toNat)
        | _, _ => s

/-- The first operation of a function that can go now, in the order it was made. -/
def State.nextOp (s : State) (f : Nat) : Option RmeOp :=
  ((withEarlier [] s.rme.ops).find? (fun x => x.2.fn.val == f && s.mayIssue x.1 x.2 && s.canGo x.2)).map (·.2)

/-- A channel's next operation issues, where it may (R269 to R271, R273, R283): a host read is made, a local source is read at once. -/
def State.dmaStep (s : State) (d : Dma) : Option State :=
  match s.dmaNext d with
  | none => none
  | some op =>
    let e := d.e
    let n := op.len
    let src := (copyAddr e 0 + op.pos) % 2 ^ 35
    let near : Bool := !hostSide e 0 && copyNode e 0 == s.nodeId
    let far : Bool := !hostSide e 1 && copyNode e 1 != s.nodeId
    if !s.mayIssue s.rme.ops op || (near && s.stackCheck src n == 1) then none
    else
      let next := s.updDma d.ch (fun d => { d with next := d.next + n, inflight := d.inflight + 1, issued := d.issued + 1 })
      if hostSide e 0 then
        let op := { op with tag := s.freeTag, stage := .hostRead }
        some ((next.setOps (s.rme.ops ++ [op])).hostAcc d.fn (.hostRead d.fn (cmdId e) (BitVec.ofNat 64 (copyAddr e 0 + op.pos)) n))
      else if !s.canGo op then none
      else if near && far then
        let r := s.target s.nodeId d.fn 0 src n [] 0 0 0
        if 1 < r.2.rcode then some ((next.countOutcome d.fn r.2.rcode).dmaOp d.ch op.pos n r.2.rcode 0)
        else
          let op := { op with data := r.2.data.map some }
          let next := if r.2.rcode = 1 then (next.countOutcome d.fn 1).updDma d.ch (fun d => { d with poisoned := d.poisoned + r.2.pois.length }) else next
          some ((next.setOps (s.rme.ops ++ [op])).issue op)
      else if near then
        let r := s.target s.nodeId d.fn 0 src n [] 0 0 0
        some (next.opDone { op with kind := 0, node := s.nodeId, offset := src } r.2.rcode r.2.data r.2.pois)
      else some ((next.setOps (s.rme.ops ++ [op])).issue op)

/-! ## Tags at the global bound (R273) -/

/-- The operations that would take a tag now, if there were tags and buffer space for all. -/
def State.tagWaiters (s : State) : List RmeOp :=
  (((withEarlier [] s.rme.ops).filter (fun x => x.2.stage == .stalled && s.partThere x.2.part && s.orderOk x.1 x.2 && s.quotaOk x.2.fn)).map (·.2)) ++
    s.rme.dma.filterMap (fun d => (s.dmaNext d).filter (fun o => s.quotaOk o.fn))

/-- Tags or reorder-buffer space do not last for every operation that waits for them (R273). -/
def State.tagsScarce (s : State) : Bool :=
  let l := s.tagWaiters
  decide (8192 < s.tagsUsed + l.length) ||
    decide (524288 < s.robUsed + ((l.filter (fun o => o.src == .read)).map (fun o => robBytes o.len)).sum)

/-- What function f issues next: an operation that waits, or the next one of a copy. -/
def State.issueNext (s : State) (f : Nat) : Option State :=
  match s.nextOp f with
  | some o => some (s.issue o)
  | none => (s.rme.dma.filter (fun d => d.fn.val == f)).findSome? s.dmaStep

/-- Function f issues its next operation (R273): where tags or buffer space are scarce, only in its turn by deficit round robin, PF0 first. -/
def State.issueTurn (s : State) (f : Nat) : Option State :=
  if !s.tagsScarce then s.issueNext f
  else match Drr.choose s.weight (fun q => if (s.issueNext q).isSome then some 1 else none) s.rme.drr with
    | some (q, d) => if q = f then (s.setRme { s.rme with drr := d }).issueNext f else none
    | none => none

/-- A new operation of a BAR2 access or an atomic slot: issued, or stalled without error (R273, R425). -/
def State.newOp (s : State) (op : RmeOp) : State :=
  let ok : Bool := s.runs 0x0B && s.mayIssue s.rme.ops op
  let s := s.setOps (s.rme.ops ++ [op])
  if ok && !s.tagsScarce then s.issue op else s

/-- A channel issues as many as n operations, while tags are not scarce. -/
def State.dmaRun (s : State) (ch : Nat) : Nat → State
  | 0 => s
  | n + 1 =>
    if s.tagsScarce then s
    else match (s.rme.dma.find? (fun d => d.ch == ch)).bind s.dmaStep with
      | some t => t.dmaRun ch n
      | none => s

/-! ## MEM_COPY (R269, R270, R283) -/

/-- The longest run of completed operations, from n. -/
def prefixFrom (l : List (Nat × Nat)) (n : Nat) : Nat → Nat
  | 0 => n
  | k + 1 => match l.find? (fun x => x.1 == n && x.2 != 0) with | some x => prefixFrom l (n + x.2) k | none => n

/-- RESULT of MEM_COPY (R270). -/
def Dma.result (d : Dma) : Nat := prefixFrom d.okTo 0 d.okTo.length + d.poisoned % 2 ^ 32 * 2 ^ 64 + d.issued % 2 ^ 32 * 2 ^ 96

/-- A channel has nothing further to issue and nothing in flight. -/
def Dma.ended (d : Dma) : Bool := d.inflight == 0 && (d.fail.isSome || decide (copyLen d.e ≤ d.next))

/-- The lowest free DMA channel (R269). -/
def State.freeChannel (s : State) : Option Nat := (upTo 64).find? (fun n => !s.rme.dma.any (fun d => d.ch == n))

/-- A MEM_COPY starts on a channel; one that finds none waits, in the order of starting (R269). -/
def State.startCopy (s : State) (c : Cmd) : State :=
  match s.freeChannel with
  | none => s
  | some ch =>
    ((s.setWait c.id .running).setRme { s.rme with dma := s.rme.dma ++ [{ ch := ch, id := c.id, fn := c.fn, owner := c.owner, e := c.e }] }).dmaRun ch
      (copyLen c.e / 4096 + 3 + copyLen c.e / 4096)

/-- Channels that have ended complete their commands, and commands that wait start (R269, R270). -/
def State.rmeSettle (s : State) : Nat → State
  | 0 => s
  | n + 1 =>
    match s.rme.dma.find? Dma.ended with
    | some d =>
      let x := d.fail.getD { detail := b2n (d.poisoned != 0) }
      ((s.setRme { s.rme with dma := dropFirst (fun y => y.ch == d.ch) s.rme.dma }).complete d.id { x with result := d.result }).rmeSettle n
    | none =>
      match s.que.inflight.find? (fun c => c.wait == .dma) with
      | some c => if s.freeChannel.isSome && s.live 0x0B then (s.startCopy c).rmeSettle n else s
      | none => s

/-- Enough rounds for everything that may end or start. -/
def State.rmeGo (s : State) : State := s.rmeSettle (2 * (s.rme.dma.length + s.que.inflight.length))

/-- No window admits a range of local offsets for the function (R316). -/
def State.noWindow (s : State) (f : Nat) (off len : Nat) (wr : Bool) : Bool := s.windowCheck s.nodeId f off len wr == 3

/-- The check of R270 on a MEM_COPY: the DETAIL of the first condition that holds. -/
def State.copyBad (s : State) (f : Fn) (e : Block64) : Option Nat :=
  let n := copyLen e
  let isLocal (i : Nat) : Bool := hostSide e i || copyNode e i == s.nodeId
  let shut (i : Nat) : Bool := isLocal i && s.noWindow f (copyAddr e i % 2 ^ 35) n (i == 1)
  let badGa (i : Nat) : Bool := !hostSide e i && ((gaParts (copyAddr e i)).isNone || decide (2 ^ 35 < copyAddr e i % 2 ^ 35 + n) || shut i)
  let noRoute (i : Nat) : Bool := !isLocal i && (s.routeTo (effOwner f e) (copyNode e i)).isNone
  if n = 0 ∨ 2 ^ 30 < n then some 0x10
  else if (hostSide e 0 ∧ hostSide e 1) ∨ (isLocal 0 = false ∧ isLocal 1 = false) then some 0x11
  else if badGa 0 ∨ badGa 1 then some 0x12
  else if noRoute 0 ∨ noRoute 1 then some 0x13
  else none

/-- MEM_COPY (R269, R270). -/
def execMemCopy (f : Fn) (e : Block64) (s : State) : Host.Outcome State Fault Refusal :=
  .next (s.command 0x20 0x0B f e (fun c s =>
    match s.copyBad f e with
    | some d => s.complete c.id { status := 4, detail := d }
    | none => (s.setWait c.id .dma).rmeGo))

/-- The host data of a MEM_COPY's host read of address a has arrived, or an error (R269); an operation that has ended takes none (R277). The spec states no status for an error: a free value among the
error statuses (DESIGN CHOICE: log entry 5). -/
def State.copyData (s : State) (d : Dma) (a : Nat) (x : HostData) : State :=
  match s.rme.ops.find? (fun o => o.src == .dma d.ch && o.stage == .hostRead && (copyAddr d.e 0 + o.pos) % 2 ^ 64 == a) with
  | none => s
  | some op =>
    match x with
    | .error =>
      let (v, s) := s.free
      let bad : Cpl := { status := 1 + v.toNat % 6, detail := v.toNat / 2 ^ 8 % 2 ^ 64 }
      ((s.setOps (dropFirst (· == op) s.rme.ops)).updDma d.ch (fun d =>
        { d with inflight := d.inflight - 1, fail := if d.fail.isNone then some bad else d.fail })).rmeGo
    | .data bs =>
      let bytes := (bs.flatMap (fun b => numBytes 64 b.toNat)).take op.len
      let op' := { op with data := bytes.map some, stage := .waiting }
      let s := s.setOps (updFirst (· == op) (fun _ => op') s.rme.ops)
      (s.issue op').rmeGo

/-! ## BAR2 and atomic slots (R265, R266, R268) -/

/-- The global address of a BAR2 access: node and offset, none where the segment is not mapped, a write not permitted, or the offset beyond
GA[34:0] (R265). -/
def State.bar2Addr (s : State) (f : Fn) (x len : Nat) (wr : Bool) : Option (Nat × Nat) :=
  if f.val = 0 then
    let g := x / 2 ^ 28 % 64
    let off := s.rd (F.RME_MAP0_BASE g) * 2 ^ 26 + x % 2 ^ 28
    if !s.on (F.RME_MAP0_VALID g) || (wr && !s.on (F.RME_MAP0_WR g)) || decide (2 ^ 35 < off + len) then none
    else some (s.rd (F.RME_MAP0_NODE g), off)
  else
    let g := 4 * (f.val - 1) + x / 2 ^ 26 % 4
    let off := s.rd (F.RME_MAPV_BASE g) * 2 ^ 26 + x % 2 ^ 26
    if !s.on (F.RME_MAPV_VALID g) || (wr && !s.on (F.RME_MAPV_WR g)) || decide (2 ^ 35 < off + len) then none
    else some (s.rd (F.RME_MAPV_NODE g), off)

/-- Function f's BAR2 answers an access of n bytes at x (R57, R61, R62): HOST is on, the function exists and is in D0, and the BAR reaches that far. -/
def State.inBar2 (s : State) (f : Fn) (x n : Nat) : Bool :=
  s.domOn 1 && s.fnExists f.val && s.inD0 f.val && decide (x + n ≤ if f.val = 0 then 2 ^ 34 else 2 ^ 28)

/-- BAR2_READ (R265, R266, R271 to R273). -/
def execBar2Read (f : Fn) (x : BitVec 34) (len : Nat) (relaxed : Bool) (s : State) : Host.Outcome State Fault Refusal :=
  if len = 0 ∨ 4096 < len then .refused (.illFormed "BAR2_READ")
  else .next (
    if !s.inBar2 f x.toNat len then s
    else match s.bar2Addr f x.toNat len false with
    | none => (s.countOutcome f 4).bar2Done f 4 []
    | some (node, off) => s.newOp { fn := f, part := f.val, src := .read, kind := 0, node := node, offset := off, len := len, relaxed := relaxed })

/-- BAR2_WRITE (R260, R265, R266). The address a failed translation logs is the access's offset in BAR2 (DESIGN CHOICE: log entry 21). -/
def execBar2Write (f : Fn) (x : BitVec 34) (bytes : List (Option Byte)) (poisoned : Bool) (s : State) : Host.Outcome State Fault Refusal :=
  if bytes.length = 0 ∨ 4096 < bytes.length then .refused (.illFormed "BAR2_WRITE")
  else .next (
    if !s.inBar2 f x.toNat bytes.length then s
    else match s.bar2Addr f x.toNat bytes.length true with
    | none =>
      if poisoned then (s.countOutcome f 1).logErr f 1 x.toNat else (s.countOutcome f 4).logErr f 4 x.toNat
    | some (node, off) =>
      if poisoned then (s.countOutcome f 1).logErr f 1 (gaOf node off)
      else s.newOp { fn := f, part := f.val, src := .write, kind := 1, node := node, offset := off, len := bytes.length, data := bytes })

/-- GO written 1 on function f's atomic slot n, which is not BUSY (R263, R267, R268). -/
def State.atomicStart (s : State) (f : Fn) (n : Nat) : State :=
  let b := atmBase f
  let s := s.wr (F.ATM_STAT_BUSY b n) 1
  let a64 := s.on (F.ATM_CTRL_SIZE64 b n)
  let w := if a64 then 8 else 4
  let cut (v : Nat) : Nat := v % 2 ^ (8 * w)
  let ga := s.rd (F.ATM_GA_GA b n)
  match gaParts ga with
  | none => (s.countOutcome f 4).atomicDone f n 4 []
  | some (node, off) =>
    if off % w ≠ 0 then (s.countOutcome f 4).atomicDone f n 4 []
    else
      s.newOp { fn := f, part := f.val, src := .atomic n, kind := 2, node := node, offset := off, len := w, aop := s.rd (F.ATM_CTRL_OP b n), a64 := a64,
                opa := cut (s.rd (F.ATM_OPA_OPA b n)), opb := cut (s.rd (F.ATM_OPB_OPB b n)) }

/-- RME_ISSUE (R271, R273, R275): function f issues its next operation, where it is its turn. -/
def execRmeIssue (f : Fn) (s : State) : Host.Outcome State Fault Refusal :=
  .next (if s.runs 0x0B then ((s.issueTurn f.val).getD s).rmeGo else s)

/-! ## Responses (R277, R280) -/

/-- The first response of a kind that a circuit's receive buffer holds (R280): 0 to a load, 1 to a store, 2 to an atomic. -/
def State.nextResponse (s : State) (c kind : Nat) : Option InMsg := s.nextRme c (fun l => mtypeOf l == 0x81 + kind)

/-- A response arrives on circuit c (R92, R277): the operation it answers ends, or it is discarded. -/
def State.response (s : State) (c kind : Nat) : State :=
  match s.nextResponse c kind with
  | none => s
  | some g =>
    if !s.endsHere c || !s.runs 0x0B then s
    else
      let m := memMsgOf g.bytes
      let data := (g.bytes.drop 16).take (if kind = 1 then 0 else m.len.toNat)
      let s := s.takeMessage c g
      let late (s : State) : State := (s.inc F.RME_LATE_RSP_COUNT).cause0 0x0B 4
      match s.rme.ops.find? (fun o => o.tag == some m.tag.toNat && o.circ == some c && o.cseq == m.reqCseq.toNat && o.kind == kind &&
          (o.stage == .sent || o.stage == .quarantined)) with
      | none => late s
      | some op =>
        let s := s.setOps (dropFirst (· == op) s.rme.ops)
        if op.flr then s
        else if op.stage == .quarantined then late s
        else
          let o := min m.rcode.toNat 4
          let s := s.opDone op o data (if o = 1 then granules op.offset op.len else [])
          (match op.src with | .dma ch => s.dmaRun ch 1 | _ => s).rmeGo

/-- READ_RSP (R266, R280): the first READ_RSP of the circuit's receive buffer. -/
def execReadRsp (c : CircIx) (s : State) : Host.Outcome State Fault Refusal := .next (s.response c 0)

/-- WRITE_ACK (R266, R280): the first WRITE_ACK of the circuit's receive buffer. -/
def execWriteAck (c : CircIx) (s : State) : Host.Outcome State Fault Refusal := .next (s.response c 1)

/-- ATOMIC_RSP (R266, R268, R280): the first ATOMIC_RSP of the circuit's receive buffer. -/
def execAtomicRsp (c : CircIx) (s : State) : Host.Outcome State Fault Refusal := .next (s.response c 2)

/-! ## Ageing, fences, freezes, resets (R92, R277, R282, R283) -/

/-- An operation ends early (R277, R282): its tag is quarantined where its request has been sent; a request still in the queue leaves it, and its tag is
free (DEDUCED: log entry 119). -/
def State.endOp (s : State) (o : Nat) (op : RmeOp) : State :=
  let s := match op.stage, op.circ, op.tag with
    | .queued, some c, some t => s.unqueue c t
    | _, _, _ => s
  let s := if op.stage == .sent then s.setOps (updFirst (· == op) (fun x => { x with stage := .quarantined }) s.rme.ops)
    else s.setOps (dropFirst (· == op) s.rme.ops)
  if op.flr then s else s.opDone op o [] []

/-- REQ_AGE_EXPIRE (R277). -/
def execReqAgeExpire (tag : Fin 8192) (s : State) : Host.Outcome State Fault Refusal :=
  .next (match s.rme.ops.find? (fun o => o.tag == some tag.val && o.stage != .quarantined && !o.flr) with
    | some op => (s.endOp 6 op).rmeGo
    | none => s)

/-- TAG_QUARANTINE_EXPIRE (R277): also for the tag of an operation whose function was reset (R92). -/
def execTagQuarantineExpire (tag : Fin 8192) (s : State) : Host.Outcome State Fault Refusal :=
  .next (s.setOps (s.rme.ops.filter (fun o => !(o.tag == some tag.val && (o.stage == .quarantined || o.flr)))))

/-- The operations that satisfy p end FENCED (R282). -/
def State.fenceOps (s : State) (p : RmeOp → Bool) : State :=
  ((s.rme.ops.filter (fun o => o.stage != .quarantined && p o)).foldl (fun s o => s.endOp 2 o) s)

/-- A port fence (R282). -/
def State.rmePortFence (s : State) (p : Nat) : State :=
  (s.fenceOps (fun o => match o.circ with | some c => (s.circuit c).img.ports.contains p | none => false)).rmeGo

/-- A partition fence (R282): its operations, slots and copies end FENCED. -/
def State.rmePartFence (s : State) (n : Nat) : State :=
  let s := s.fenceOps (fun o => o.part == n)
  let stop (d : Dma) : Dma := if d.owner == n && d.fail.isNone then { d with fail := some { status := 2 } } else d
  let s := s.setRme { s.rme with dma := s.rme.dma.map stop }
  ((s.que.inflight.filter (fun c => c.owner == n && c.wait == .dma)).foldl (fun s c => s.complete c.id { status := 2 }) s).rmeGo

/-- A request whose flits stand in its circuit's queue or have been sent: it leaves, or has left, and a response comes back. -/
def RmeOp.onWay (o : RmeOp) : Bool := o.stage == .queued || o.stage == .sent || o.stage == .quarantined

/-- The copies that satisfy p leave the machine: the responses of operations on their way are discarded when they return, the others go. -/
def State.dropCopies (s : State) (p : Dma → Bool) : State :=
  let mine (o : RmeOp) : Bool := match o.src with | .dma ch => s.rme.dma.any (fun d => d.ch == ch && p d) | _ => false
  let ops := (s.rme.ops.filter (fun o => !mine o || o.onWay)).map
    (fun o => if mine o then { o with flr := true } else o)
  s.setRme { s.rme with ops := ops, dma := s.rme.dma.filter (fun d => !p d) }

/-- FORCE_FREEZE ends every running MEM_COPY; the flag says that there was one (R283, R447). -/
def State.rmeForce (s : State) : State × Bool :=
  let l := s.rme.dma
  let s' := l.foldl (fun s d => s.setWait d.id (.released { status := 6, result := d.result })) (s.dropCopies (fun _ => true))
  (s', !l.isEmpty)

/-- A function level reset (R92): copies stop, the responses to operations on their way are discarded and their tags released when they return, the
rest goes. -/
def State.rmeFlr (s : State) (f : Nat) : State :=
  let s := s.dropCopies (fun d => d.fn == f)
  let ops := (s.rme.ops.filter (fun o => o.fn != f || o.onWay)).map
    (fun o => if o.fn == f then { o with flr := true } else o)
  s.setRme { s.rme with ops := ops }

/-- An operation waits in an RME stall (R278): for its function's quota, for a tag or buffer space, or for room in its circuit's queue. -/
def State.opStalled (s : State) (earlier : List RmeOp) (op : RmeOp) : Bool :=
  let full : Bool := match s.circFor op with | some c => decide (s.queueFree c < s.reqFlits c op) | none => false
  (op.stage == .waiting && full) || (op.stage == .stalled && s.orderOk earlier op && (!s.tagFree op || full))

/-- The operations that wait in an RME stall, those that a copy is to issue next included (R278). -/
def State.stalledOps (s : State) : List RmeOp :=
  ((withEarlier [] s.rme.ops).filter (fun x => s.opStalled x.1 x.2)).map (·.2) ++
    s.rme.dma.filterMap (fun d => (s.dmaNext d).filter (s.opStalled s.rme.ops))

/-- An RME stall holds (R278). -/
def State.rmeStalled (s : State) : Bool := !s.stalledOps.isEmpty

end Sys2Proof.Machine
end

