-- ==== Sys2Proof/Machine/Rdx.lean ====
section
/-! DEFINITION. The reduction engine: step lists and REDUCE (R287 to R290, R293), collective messages (R291, R292), poison and counts (R286),
fences and freezes (R293, R312). -/

namespace Sys2Proof.Machine

/-- Change the reduction engine's state. -/
def State.setRdx (s : State) (r : RdxState) : State := { s with rdx := r }

/-! ## Commands (R287, R290, R293) -/

/-- Change a running command. -/
def State.updR (s : State) (id : Nat) (f : RCmd → RCmd) : State := s.setRdx { s.rdx with cmds := updFirst (fun c => c.id == id) f s.rdx.cmds }

/-- Change a step of a running command. -/
def State.updStep (s : State) (id ix : Nat) (f : RStep → RStep) : State :=
  s.updR id (fun c => { c with steps := updFirst (fun x => x.ix == ix) f c.steps })

/-- The running command of a function with a COLL_ID. -/
def State.rcmd? (s : State) (f : Fn) (coll : Nat) : Option RCmd := s.rdx.cmds.find? (fun c => c.fn == f && c.coll == coll)

/-- A step of a command. -/
def RCmd.step? (c : RCmd) (ix : Nat) : Option RStep := c.steps.find? (fun x => x.ix == ix)

/-- The oldest step not complete; NSTEPS where every step is. -/
def RCmd.oldest (c : RCmd) : Nat := ((c.steps.find? (fun x => x.st != 2)).map (·.ix)).getD c.steps.length

/-- Entries of the step list that the next read covers: at most 128, within the 256 oldest steps (R290). -/
def RCmd.toAsk (c : RCmd) : Nat := min (min 128 (c.nsteps - c.asked)) (c.oldest + 256 - c.asked)

/-- The next read of a command's step list is made (R287, R471), once the previous one has returned. -/
def State.askSteps (s : State) (id : Nat) : State :=
  match s.rdx.cmds.find? (fun c => c.id == id) with
  | none => s
  | some c =>
    let n := c.toAsk
    if c.fail.isSome || c.asked != c.steps.length || n == 0 then s
    else (s.updR id (fun c => { c with asked := c.asked + n })).hostAcc c.fn
      (.hostRead c.fn (cmdId c.e) (BitVec.ofNat 64 (byteField c.e 16 0 64 + 32 * c.asked)) (32 * n))

/-- RESULT of REDUCE (R293). -/
def RCmd.result (c : RCmd) : Nat :=
  c.done + c.poisoned % 2 ^ 32 * 2 ^ 32 + c.sat % 2 ^ 32 * 2 ^ 64 +
    (match c.fail with | some (_, _, ix) => ix % 2 ^ 32 | none => 0xFFFFFFFF) * 2 ^ 96

/-- A command has ended: all its steps are complete, or it failed and none is in flight (R293). -/
def RCmd.ended (c : RCmd) : Bool :=
  match c.fail with
  | some _ => c.steps.all (fun x => x.st != 1)
  | none => decide (c.nsteps ≤ c.done)

/-- What a command that has ended completes with (R293). -/
def RCmd.cpl (c : RCmd) : Cpl :=
  match c.fail with
  | some (st, d, ix) => { status := st, detail := d + ix % 2 ^ 16 * 2 ^ 16, result := c.result }
  | none => { result := c.result }

/-- A REDUCE starts, where one of the 16 places is free; else it waits (R290). -/
def State.startReduce (s : State) (c : Cmd) : State :=
  (s.setRdx { s.rdx with cmds := s.rdx.cmds ++ [{ id := c.id, fn := c.fn, e := c.e, owner := c.owner }] }).askSteps c.id

/-- Commands that have ended complete, and commands that wait start, while RDX runs (R290, R293). -/
def State.rdxSettle (s : State) : Nat → State
  | 0 => s
  | n + 1 =>
    match s.rdx.cmds.find? RCmd.ended with
    | some c => ((s.setRdx { s.rdx with cmds := dropFirst (fun x => x.id == c.id) s.rdx.cmds }).complete c.id c.cpl).rdxSettle n
    | none =>
      match s.rdx.waiting with
      | [] => s
      | id :: rest =>
        if s.rdx.cmds.length < 16 ∧ s.runs 0x0C = true then
          match s.cmd? id with
          | some c => ((s.setRdx { s.rdx with waiting := rest }).startReduce c).rdxSettle n
          | none => (s.setRdx { s.rdx with waiting := rest }).rdxSettle n
        else s

/-- Enough rounds for everything that may end or start. -/
def State.rdxGo (s : State) : State := s.rdxSettle (2 * (s.rdx.cmds.length + s.rdx.waiting.length))

/-- REDUCE (R287, R290, R293). -/
def execReduce (f : Fn) (e : Block64) (s : State) : Host.Outcome State Fault Refusal :=
  .next (s.command 0x28 0x0C f e (fun c s =>
    let n := byteField e 24 0 32
    let bad (d : Nat) : State := s.complete c.id { status := 4, detail := d, result := 0xFFFFFFFF * 2 ^ 96 }
    if byteField e 16 0 64 % 32 ≠ 0 ∨ n = 0 ∨ 65536 < n then bad 0x10
    else if fmtOk (byteField e 32 0 4) = false ∨ 2 < byteField e 32 4 2 then bad 0x11
    else if (s.rcmd? f (byteField e 28 0 32)).isSome then bad 0x14
    else (s.setRdx { s.rdx with waiting := s.rdx.waiting ++ [c.id] }).rdxGo))

/-- A step of a command fails: the first failure of the command stands (R293). -/
def State.failStep (s : State) (id ix st detail : Nat) : State :=
  s.updR id (fun c =>
    { c with steps := updFirst (fun x => x.ix == ix) (fun x => { x with st := 3 }) c.steps,
             fail := if c.fail.isNone then some (st, detail, ix) else c.fail })

/-- A circuit qualifies for a SEND or RECV of a command (R289). -/
def State.qualifies (s : State) (part c : Nat) : Bool := (s.circuit c).img.path == 0 && s.mayUse part c

/-- The check of a step as it is read (R293, R316): the DETAIL of the first case. -/
def State.stepBad (s : State) (c : RCmd) (ix : Nat) (e : StepEntry) : Option Nat :=
  let beyond (i : Nat) (wr : Bool) : Bool :=
    let n := stepBytes c.fmt e i
    decide (2 ^ 35 < stepOff e i + n) || s.noWindow c.fn (stepOff e i) n wr
  if 4 < stepKind e ∨ ix < byteField e 1 0 8 ∨ ix < byteField e 2 0 8 ∨ stepLen e = 0 ∨ 2 ^ 24 < stepLen e ∨
      (usesA e && beyond 0 false) = true ∨ (usesB e && beyond 1 true) = true then some 0x12
  else if (onCircuit e && !s.qualifies c.owner (stepCirc e)) = true then some 0x13
  else none

/-- A step that has been read is checked and held. -/
def State.readStep (s : State) (id : Nat) (e : StepEntry) : State :=
  match s.rdx.cmds.find? (fun c => c.id == id) with
  | none => s
  | some c =>
    let ix := c.steps.length
    let bad := s.stepBad c ix e
    let s := s.updR id (fun c => { c with steps := c.steps ++ [{ ix := ix, e := e }] })
    match bad with
    | some d => s.failStep id ix 4 d
    | none => s

/-- STEP_LIST_READ_DONE (R287, R293, R471): of a read that has been made. -/
def execStepListReadDone (f : Fn) (coll : Word) (first : Nat) (entries : Option (List StepEntry)) (s : State) : Host.Outcome State Fault Refusal :=
  .next (match s.rcmd? f coll.toNat with
    | none => s
    | some c =>
      if c.asked = c.steps.length ∨ first ≠ c.steps.length then s
      else match s.readBack f (fun o => o == .hostRead f (cmdId c.e) (BitVec.ofNat 64 (byteField c.e 16 0 64 + 32 * first)) (32 * (c.asked - first))) with
      | none => s
      | some s =>
        match entries with
        | none => ((s.updR c.id (fun c => { c with asked := c.steps.length })).failStep c.id first 4 0x15).rdxGo
        | some l =>
          let s := (l.take (c.asked - c.steps.length)).foldl (fun s e => s.readStep c.id e) s
          (s.updR c.id (fun c => { c with asked := c.steps.length })).askSteps c.id |>.rdxGo)

/-! ## Elements (R285, R286) -/

/-- Element i of a buffer. -/
def State.elem (s : State) (off size i : Nat) : Nat := bytesNum (s.memBytes (off + i * size) size)

/-- Element i of a list of bytes. -/
def elemOf (l : List Byte) (size i : Nat) : Nat := bytesNum ((l.drop (i * size)).take size)

/-- A list without its repeats. -/
def distinct (l : List Nat) : List Nat := l.foldl (fun acc x => if acc.contains x then acc else acc ++ [x]) []

/-- The results of a command's elements are written from element k of a buffer on: counts, and poison where the element's operands are poisoned
(R285, R286). -/
def State.writeResults (s : State) (c : RCmd) (off size k : Nat) (r : List (Nat × Flags)) (pois : Nat → Bool) : State :=
  let base := off + k * size
  let s := s.store base ((r.flatMap (fun x => numBytes size x.1)).map some)
  let bad := distinct (((upTo r.length).filter pois).flatMap (fun i => granules (base + i * size) size))
  let s := bad.foldl (fun s g => s.setPoison g true) s
  let n (p : Flags → Bool) : Nat := (r.filter (fun x => p x.2)).length
  let s := ((s.inc F.RDX_SAT_COUNT (n (·.sat))).inc F.RDX_OVF_COUNT (n (·.ovf))).inc F.RDX_NAN_COUNT (n (·.nan))
  let v := Tbl.get 0 s.rdx.satV c.fn.val
  let s := if c.fn.val = 0 then s else s.setRdx { s.rdx with satV := Tbl.set 0 s.rdx.satV c.fn.val (min (v + n (·.sat)) (2 ^ 32 - 1)) }
  s.updR c.id (fun c => { c with sat := c.sat + n (·.sat), poisoned := c.poisoned + bad.length })

/-- LOCAL_REDUCE: B ← A OP B (R289). -/
def State.localReduce (s : State) (c : RCmd) (e : StepEntry) : State :=
  let za := elemSize c.fmt (stepWide e 0)
  let zb := elemSize c.fmt (stepWide e 1)
  let fa := bufFmt c.fmt (stepWide e 0)
  let fb := bufFmt c.fmt (stepWide e 1)
  let a := stepOff e 0
  let b := stepOff e 1
  let r := (upTo (stepLen e)).map (fun i => reduceElem c.op fa (s.elem a za i) fb (s.elem b zb i) fb)
  let pois (i : Nat) : Bool := s.poisonIn (a + i * za) za != [] || s.poisonIn (b + i * zb) zb != []
  (s.stat 22 (stepLen e * (za + zb))).writeResults c b zb 0 r pois

/-- A message's elements go into a RECV step (R286, R289, R291). -/
def State.recvMessage (s : State) (c : RCmd) (x : RStep) (m : CollMsg) : State :=
  let e := x.e
  let zm := elemSize c.fmt m.wide
  let fm := bufFmt c.fmt m.wide
  let za := elemSize c.fmt (stepWide e 0)
  let zb := elemSize c.fmt (stepWide e 1)
  let fb := bufFmt c.fmt (stepWide e 1)
  let k := m.elemOfs
  let n := min (m.data.length / zm) (stepLen e - k)
  let a := stepOff e 0 + k * za
  let red : Bool := stepKind e == 2
  let r := (upTo n).map (fun i =>
    if red then reduceElem c.op fm (elemOf m.data zm i) (bufFmt c.fmt (stepWide e 0)) (s.elem a za i) fb
    else convertElem fm (elemOf m.data zm i) fb)
  let pois (i : Nat) : Bool := m.poison || (red && s.poisonIn (a + i * za) za != [])
  let s := if red then s.stat 22 (n * (zm + za)) else s
  (s.writeResults c (stepOff e 1) zb k r pois).updStep c.id x.ix (fun y => { y with got := y.got + n })

/-! ## Collective messages (R291, R292) -/

/-- The RECV step in flight that a message matches: the oldest that still lacks elements (R292, Corners). -/
def State.matchRecv (s : State) (circ : Nat) (m : CollMsg) : Option (RCmd × RStep) :=
  s.rdx.cmds.findSome? (fun c =>
    if c.coll = m.coll.toNat then
      (c.steps.find? (fun x => x.st == 1 && isRecv x.e && stepCirc x.e == circ && stepTag x.e == m.tag.toNat &&
        decide (x.got < stepLen x.e))).map (fun x => (c, x))
    else none)

/-- The stacks answer for the elements that a message brings. -/
def State.recvReady (s : State) (c : RCmd) (x : RStep) : Bool :=
  s.stackCheck (stepOff x.e 1) (stepBytes c.fmt x.e 1) == 0 &&
    (stepKind x.e != 2 || s.stackCheck (stepOff x.e 0) (stepBytes c.fmt x.e 0) == 0)

/-- A message meets its step: applied, or discarded for its FMT (R292). -/
def State.meet (s : State) (c : RCmd) (x : RStep) (m : CollMsg) : State :=
  if m.fmt.toNat ≠ c.fmt then (s.inc F.RDX_BADMSG_COUNT).cause0 0x0C 0 else s.recvMessage c x m

/-- Messages held as unexpected that a step now matches are applied, at most n of them (R292). -/
def State.meetHeld (s : State) : Nat → State
  | 0 => s
  | n + 1 =>
    match s.rdx.unexp.find? (fun y => match s.matchRecv y.1 y.2 with | some z => s.recvReady z.1 z.2 | none => false) with
    | none => s
    | some y =>
      match s.matchRecv y.1 y.2 with
      | some z => ((s.setRdx { s.rdx with unexp := dropFirst (· == y) s.rdx.unexp }).meet z.1 z.2 y.2).meetHeld n
      | none => s

/-- A collective message of R291: header and data. -/
def collMsgOf (l : List Byte) : CollMsg :=
  let b := numAt l 6 1
  { coll := BitVec.ofNat 32 (numAt l 0 4), tag := BitVec.ofNat 16 (numAt l 4 2), fmt := BitVec.ofNat 4 b, wide := b.testBit 4, poison := b.testBit 5,
    part := BitVec.ofNat 7 (numAt l 7 1), elemOfs := numAt l 8 3, data := (l.drop 16).take (numAt l 12 2 % 2 ^ 13) }

/-- The first collective message of a circuit's receive buffer, where it has come whole (R279, R291). -/
def State.nextColl (s : State) (c : Nat) : Option InMsg :=
  ((messages (s.circLink c).inbox).find? (fun m => m.client == 3)).filter
    (fun m => decide (16 + numAt m.bytes 12 2 % 2 ^ 13 ≤ m.bytes.length))

/-- COLLECTIVE_MESSAGE (R21, R279, R291, R292): the circuit's first one. With no step to apply it to, it is held as unexpected; where there is no room it
stays in the link's buffer. -/
def execCollectiveMessage (c : CircIx) (s : State) : Host.Outcome State Fault Refusal :=
  .next (match s.nextColl c with
    | none => s
    | some g =>
      if !s.endsHere c || s.circFenced c || s.partFenced (s.circuit c).owner || !s.runs 0x0C then s
      else
        let m := collMsgOf g.bytes
        let hold : State := if s.unexpUsed + msgBytes m ≤ 2097152 then
            let s := s.takeMessage c g
            s.setRdx { s.rdx with unexp := s.rdx.unexp ++ [(c.val, m)] }
          else s.cause0 0x0C 2
        match s.matchRecv c m with
        | some z => if s.recvReady z.1 z.2 then (s.takeMessage c g).meet z.1 z.2 m else hold
        | none => hold)

/-- RDX_ORPHAN (R292). -/
def execRdxOrphan (c : CircIx) (coll : Word) (tag : BitVec 16) (s : State) : Host.Outcome State Fault Refusal :=
  .next (match s.rdx.unexp.find? (fun y => y.1 == c.val && y.2.coll == coll && y.2.tag == tag) with
    | none => s
    | some y => (((s.setRdx { s.rdx with unexp := dropFirst (· == y) s.rdx.unexp }).inc F.RDX_ORPHAN_COUNT).cause0 0x0C 1).fault 42)

/-! ## Steps start and complete (R289, R290) -/

/-- The dependencies of a step have completed (R288, R290). -/
def RCmd.depsDone (c : RCmd) (x : RStep) : Bool :=
  [byteField x.e 1 0 8, byteField x.e 2 0 8].all (fun d => d == 0 || (match c.step? (x.ix - d) with | some y => y.st == 2 | none => false))

/-- A step's circuit, partition or operand stack is fenced (R293). -/
def State.stepFenced (s : State) (c : RCmd) (e : StepEntry) : Bool :=
  s.partFenced c.owner || (onCircuit e && s.circFenced (stepCirc e)) ||
    (usesA e && s.stackCheck (stepOff e 0) (stepBytes c.fmt e 0) == 2) || (usesB e && s.stackCheck (stepOff e 1) (stepBytes c.fmt e 1) == 2)

/-- A step completes (R289, R290): counted, and the list is read on. -/
def State.stepDone (s : State) (c : RCmd) (ix : Nat) : State :=
  let s := s.updR c.id (fun c =>
    { c with steps := updFirst (fun x => x.ix == ix) (fun x => { x with st := 2 }) c.steps, done := c.done + 1 })
  ((((s.inc F.RDX_STEPS_DONE_COUNT).stat 21).statPart c.fn 5).askSteps c.id).rdxGo

/-- The header of a collective message (R291). -/
def collHeader (c : RCmd) (e : StepEntry) (poison : Bool) (ofs bytes : Nat) : List Byte :=
  numBytes 4 c.coll ++ numBytes 2 (stepTag e) ++ numBytes 1 (c.fmt + 16 * b2n (stepWide e 0) + 32 * b2n poison) ++ numBytes 1 c.fn ++
    numBytes 4 ofs ++ numBytes 2 bytes ++ numBytes 2 0

/-- A SEND's messages of at most 4,096 B enter the circuit's queue while there is room and it is the partition's turn, n of them at most (R275, R286,
R291). -/
def State.sendMore (s : State) (c : RCmd) (x : RStep) : Nat → State × RStep
  | 0 => (s, x)
  | n + 1 =>
    let z := elemSize c.fmt (stepWide x.e 0)
    let k := c.nextElems x
    let circ := stepCirc x.e
    if k = 0 then (s, x)
    else match s.enterTurn circ c.owner (s.flitsFor circ (16 + k * z)) with
      | none => (s, x)
      | some s =>
        let off := stepOff x.e 0 + x.got * z
        let head := collHeader c x.e (s.poisonIn off (k * z) != []) x.got (k * z)
        let y := { x with got := x.got + k }
        ((s.queueMessage circ 3 4 (head ++ s.memBytes off (k * z))).updStep c.id x.ix (fun _ => y)).sendMore c y n

/-- A SEND in flight goes on sending: not for a partition that does not exist (R63). -/
def State.sendStep (s : State) (c : RCmd) (x : RStep) : State :=
  if s.sendReady c x then (s.sendMore c x (stepLen x.e / 1024 + 1)).1 else s

/-- A step may start (R63, R288, R290, R312): RDX runs and is not frozen, the command has not failed, the step is one of the 256 oldest and its dependencies
have completed; no SEND for a partition that does not exist. -/
def State.startable (s : State) (c : RCmd) (x : RStep) : Bool :=
  s.live 0x0C && c.fail.isNone && x.st == 0 && c.depsDone x && decide (x.ix < c.oldest + 256) && (stepKind x.e != 1 || s.partThere c.owner)

/-- Function f has a step that may start. -/
def State.hasStart (s : State) (f : Nat) : Bool := s.rdx.cmds.any (fun c => c.fn.val == f && c.steps.any (s.startable c))

/-- Function f may start a step (R290): there is a place, and where the places do not last for every step that may start, it is its turn by deficit
round robin, PF0 first. The state after has counted it. -/
def State.placeTurn (s : State) (f : Nat) : Option State :=
  if 256 ≤ s.stepsInFlight then none
  else if s.stepsInFlight + (s.rdx.cmds.map (fun c => (c.steps.filter (s.startable c)).length)).sum ≤ 256 then some s
  else match Drr.choose s.weight (fun q => if s.hasStart q then some 1 else none) s.rdx.drr with
    | some (q, d) => if q = f then some (s.setRdx { s.rdx with drr := d }) else none
    | none => none

/-- A step that may start starts (R289, R293): FENCED where a fence covers it; a NOP completes at once. -/
def State.startStep (s : State) (c : RCmd) (x : RStep) : State :=
  if s.stepFenced c x.e then (s.failStep c.id x.ix 2 0).rdxGo
  else
    let y := { x with st := 1 }
    let s := s.updStep c.id x.ix (fun _ => y)
    match stepKind x.e with
    | 0 => s.stepDone c x.ix
    | 1 => s.sendStep c y
    | 4 => s
    | _ => s.meetHeld s.rdx.unexp.length

/-- RDX_STEP_START (R289, R290, R312): one of the 256 oldest steps whose dependencies have completed, where it is its function's turn. -/
def execRdxStepStart (f : Fn) (coll : Word) (step : Nat) (s : State) : Host.Outcome State Fault Refusal :=
  .next (match s.rcmd? f coll.toNat with
    | none => s
    | some c =>
      match c.step? step with
      | none => s
      | some x =>
        if !s.startable c x then s
        else match s.placeTurn f.val with
          | some s => s.startStep c x
          | none => s)

/-- RDX_STEP_DONE (R289): a SEND whose last flit is queued, a RECV whose elements are all written, a LOCAL_REDUCE. -/
def execRdxStepDone (f : Fn) (coll : Word) (step : Nat) (s : State) : Host.Outcome State Fault Refusal :=
  .next (match s.rcmd? f coll.toNat with
    | none => s
    | some c =>
      match c.step? step with
      | none => s
      | some x =>
        if !s.runs 0x0C || x.st != 1 then s
        else if stepKind x.e = 4 then
          if s.stackCheck (stepOff x.e 0) (stepBytes c.fmt x.e 0) = 0 ∧ s.stackCheck (stepOff x.e 1) (stepBytes c.fmt x.e 1) = 0 then
            (s.localReduce c x.e).stepDone c step
          else s
        else if stepKind x.e = 1 ∧ x.got < stepLen x.e then
          let s := s.sendStep c x
          match (s.rcmd? f coll.toNat).bind (fun c => c.step? step) with
          | some y => if y.got < stepLen y.e then s else s.stepDone c step
          | none => s
        else if stepLen x.e ≤ x.got then s.stepDone c step
        else s)

/-- RDX_STEP_AGE_EXPIRE (R293). -/
def execRdxStepAgeExpire (f : Fn) (coll : Word) (step : Nat) (s : State) : Host.Outcome State Fault Refusal :=
  .next (match s.rcmd? f coll.toNat with
    | none => s
    | some c =>
      match c.step? step with
      | none => s
      | some x => if x.st = 1 then (s.failStep c.id step 1 0).rdxGo else s)

/-! ## Fences, freezes, resets (R92, R293, R312) -/

/-- A fence has been set: the steps in flight that it hits fail FENCED (R293). -/
def State.rdxFence (s : State) : State :=
  (s.rdx.cmds.foldl (fun s c => (c.steps.filter (fun x => x.st == 1 && s.stepFenced c x.e)).foldl (fun s x => s.failStep c.id x.ix 2 0) s) s).rdxGo

/-- FORCE_FREEZE stops every REDUCE command; the flag says that there was one (R312, R447). -/
def State.rdxForce (s : State) : State × Bool :=
  let stop (s : State) (c : RCmd) : State := s.setWait c.id (.released { status := 6, result := c.result })
  (s.rdx.cmds.foldl stop (s.setRdx { s.rdx with cmds := [] }), !s.rdx.cmds.isEmpty)

/-- A function level reset stops its REDUCE commands (R92). -/
def State.rdxFlr (s : State) (f : Nat) : State :=
  s.setRdx { s.rdx with cmds := s.rdx.cmds.filter (fun c => c.fn != f),
                        waiting := s.rdx.waiting.filter (fun id => !s.que.inflight.any (fun c => c.id == id && c.fn == f)) }

/-- Every running command of the engine ends as FORCE_FREEZE would end it, for a reset of RDX (R365, R470); unexpected messages stay. -/
def State.rdxStop (s : State) (x : Cpl) : State :=
  let l := s.rdx.cmds
  let s := s.setRdx { s.rdx with cmds := [] }
  (l.foldl (fun s c => s.complete c.id { x with result := c.result }) s).rdxGo

end Sys2Proof.Machine
end

