-- ==== Sys2Proof/Machine/Psm.lean ====
section
/-! DEFINITION. Photonic summation: admission and claims (R295 to R297), linearisation (R298), alignment (R299 to R301), the stream and its result
words (R302 to R306), repair and completion (R307, R308), freezes, fences and resets (R92, R310, R311). -/

namespace Sys2Proof.Machine

/-! ## Admission (R295 to R298) -/

/-- Whether modulator ring r needs LINEARISE (R298): no table yet, older than LIN_AGE, or its bank sensor moved by more than LIN_DT. -/
def State.needsLin (s : State) (p k : Nat) : Bool :=
  match s.psm.lin.find? (fun x => x.1 == modRing p k) with
  | none => true
  | some (_, t, c) =>
    decide (s.rd F.PSM_CFG_LIN_AGE * 10 ^ 9 * 65536 < s.time.now.toNat - t) ||
      decide (s.rd F.PSM_CFG_LIN_DT * 32 < (toSigned 16 (s.rd (F.ENV_DIE_TEMP_TEMP (bankSensor (modRing p k)))) - c).natAbs)

/-- Bytes of ADDR's range (R296). -/
def psmBytes (e : Block64) : Nat := if psmSummer e then 2 * psmCount e else psmCount e

/-- The first case of R297 that holds (R316): STATUS and DETAIL. -/
def State.psmBad (s : State) (f : Fn) (owner : Nat) (e : Block64) : Option (Nat × Nat) :=
  let p := psmPort e
  let n := psmCount e
  let lines := (psmLineList e).length
  let free (ch : Nat × Nat) : Bool :=
    !s.csq.circuits.any (fun x => x.2.holds && x.2.img.channels.contains ch) &&
      !s.csq.changes.any (fun x => x.pending && !x.isClear && x.img.channels.contains ch) && !s.draining ch
  let lead := if !psmSummer e && s.needsLin p ((psmLineList e).headD 0) then 600000 else 60000
  if n = 0 ∨ 2 ^ 24 < n then some (4, 0x10)
  else if lines = 0 ∨ (psmSummer e = false ∧ lines ≠ 1) then some (4, 0x11)
  else if (s.prun? p).isSome ∨ (psmClaimed e).all (fun k => free (p, k)) = false then some (4, 0x12)
  else if s.rd (F.PORT_MOD_CFG_BITS p) ≠ 0 ∨ s.rd (F.PORT_SHUT_STAT_STATE p) ≠ 1 ∨ (s.on F.TWN_CFG_EN ∧ s.rd F.TWN_CFG_PORT = p) then some (4, 0x13)
  else if 2 ^ 35 < psmAddr e + psmBytes e ∨ s.noWindow f (psmAddr e) (psmBytes e) (psmSummer e) = true then some (4, 0x14)
  else if psmStart e < (after s.time.now lead).toNat then some (4, 0x15)
  else if s.portFenced p ∨ s.partFenced owner = true ∨ s.stackCheck (psmAddr e) (psmBytes e) = 2 then some (2, 0)
  else none

/-- PSM_REDUCE (R296, R297, R310): the run is in CLAIM, and its rings start to move (R295). -/
def execPsmReduce (f : Fn) (e : Block64) (s : State) : Host.Outcome State Fault Refusal :=
  .next (s.command 0x29 0x23 f e (fun c s =>
    match s.psmBad f c.owner e with
    | some (st, d) => s.complete c.id { status := st, detail := d }
    | none =>
      let p := psmPort e
      let s := s.setPsm { s.psm with runs := s.psm.runs ++ [(p, { id := c.id, fn := f, e := e, owner := c.owner })] }
      let s := s.wrs [(F.PSM_STAT_STATE p, 1), (F.PSM_STAT_ROLE p, b2n (psmSummer e)), (F.PSM_STAT_LINES p, psmLines e), (F.PSM_STAT_PCT p, 0),
        (F.PSM_STAT_REASON p, 0), (F.PSM_TRIM_F p, 0)]
      if psmSummer e then (upTo 8).foldl (fun s k => s.clr [F.PSM_ALIGN_W0_F (8 * p + k), F.PSM_ALIGN_W1_ATTEN (8 * p + k), F.PSM_ALIGN_W1_SEEN (8 * p + k)]) s else s))

/-- A claimed ring takes the setting of R295, but a FENCED or UNIDENT one takes none (R127, R154): ON, but for a summer's modulators of lines not in LINES, which are in BLOCK. -/
def State.claimRing (s : State) (r : Nat) (on : Bool) : State :=
  if s.ringBad r then s
  else if on then s.setRing r { (s.ring r).acquiring with loop := 3 } else s.restRing r

/-- PSM_CLAIM_DONE (R295, R310). -/
def execPsmClaimDone (p : Port) (s : State) : Host.Outcome State Fault Refusal :=
  .next (match s.prun? p with
    | none => s
    | some r =>
      if s.psmState p ≠ 1 ∨ s.live 0x23 = false then s
      else
        let s := (psmClaimed r.e).foldl (fun s k => s.claimRing (modRing p k) (bitOf (psmLines r.e) k)) s
        let s := (psmClaimed r.e).foldl (fun s k => s.claimRing (dropRing p k) true) s
        let cells := (psmClaimed r.e).flatMap (fun k => (upTo 16).flatMap (fun x => [cellRing p x k, cellRing x p k]))
        let s := cells.foldl State.restRing s
        s.wr (F.PSM_STAT_STATE p) (if psmSummer r.e = false ∧ s.needsLin p ((psmLineList r.e).headD 0) = true then 2 else 3))

/-- LINEARISE_DONE (R298, R310). -/
def execLineariseDone (p : Port) (s : State) : Host.Outcome State Fault Refusal :=
  .next (match s.prun? p with
    | none => s
    | some r =>
      if s.psmState p ≠ 2 ∨ s.live 0x23 = false then s
      else
        let ring := modRing p ((psmLineList r.e).headD 0)
        let x := (ring, (s.time.now.toNat, toSigned 16 (s.rd (F.ENV_DIE_TEMP_TEMP (bankSensor ring)))))
        (s.setPsm { s.psm with lin := s.psm.lin.filter (fun y => y.1 != ring) ++ [x] }).wr (F.PSM_STAT_STATE p) 3)

/-! ## Alignment (R299 to R301) -/

/-- PSM_ALIGN_START (R299, R310, R311): T_START has come; a run that has not reached WAIT is LATE. -/
def execPsmAlignStart (p : Port) (s : State) : Host.Outcome State Fault Refusal :=
  .next (match s.prun? p with
    | none => s
    | some r =>
      let st := s.psmState p
      if st = 0 ∨ 3 < st then s
      else
        let s := s.advanceTo (BitVec.ofNat 64 (psmStart r.e))
        if s.frozen 0x23 then s.updRun p (fun r => { r with late := true })
        else if st = 3 then s.wr (F.PSM_STAT_STATE p) 4
        else s.psmFail p 4)

/-- A summer sends a downstream frame on its line (R301). -/
def State.sendFrame (s : State) (p : Port) (x : PsmFrame) : State := s.send (.psmFrame p x.line x.bits)

/-- The frame of a type that a contributor receives on a line; none where SYNC is not there or the CRC fails (R301). -/
def frameFor (typ : Nat) (b : BitVec 128) : Option PsmFrame := (psmFrameOf b).filter (fun x => x.typ == typ)

/-- PSM_TRIM_SEND (R299, R300): for each line measured its flight time and its power at full scale in 0.1 dBm. A line below −18.0 dBm is not
SEEN; each ATTEN brings its line to the weakest one's power. -/
def execPsmTrimSend (p : Port) (lines : List (Fin 8 × Word × Int)) (s : State) : Host.Outcome State Fault Refusal :=
  .next (match s.prun? p with
    | none => s
    | some r =>
      if !psmSummer r.e ∨ s.psmState p ≠ 4 then s
      else
        let s := s.advanceTo (after (BitVec.ofNat 64 (psmStart r.e)) 320000)
        let seen := lines.filter (fun x => bitOf (psmLines r.e) x.1 && decide (-180 ≤ x.2.2))
        match seen with
        | [] => s.psmFail p 1
        | x0 :: _ =>
          let low := seen.foldl (fun m x => min m x.2.2) x0.2.2
          let s := seen.foldl (fun s x =>
            let n := 8 * p.val + x.1.val
            (s.wrs [(F.PSM_ALIGN_W0_F n, x.2.1.toNat), (F.PSM_ALIGN_W1_ATTEN n, (x.2.2 - low).toNat), (F.PSM_ALIGN_W1_SEEN n, 1)]).sendFrame p
              { typ := 2, line := x.1, payload := x.2.1.toNat * 2 ^ 40 }) s
          if (psmLineList r.e).all (fun k => seen.any (fun x => x.1 == k)) then s else s.psmFail p 1)

/-- TRIM (R300, R301): the contributor applies the flight time of a TRIM frame. -/
def execTrim (p : Port) (frame : BitVec 128) (s : State) : Host.Outcome State Fault Refusal :=
  .next (match s.prun? p, frameFor 2 frame with
    | some r, some x =>
      if psmSummer r.e ∨ s.psmState p ≠ 4 then s
      else (s.wr (F.PSM_TRIM_F p) (x.payload / 2 ^ 40)).updRun p (fun r => { r with trimmed := true })
    | _, _ => s)

/-- DOWNSTREAM_LOSS (R301). -/
def execDownstreamLoss (p : Port) (s : State) : Host.Outcome State Fault Refusal :=
  .next (match s.prun? p with
    | none => s
    | some r => if !psmSummer r.e ∧ 4 ≤ s.psmState p ∧ s.psmState p ≤ 6 then s.psmFail p 3 else s)

/-! ## The stream (R298, R302 to R306) -/

/-- The intensity code of a byte as an int8 (R298). -/
def intensity (b : Byte) : Nat := (toSigned 8 b.toNat + 128).toNat

/-- A guard block follows data index i of n (R302). -/
def guardAfter (n i : Nat) : Bool := (i + 1) % 65536 == 0 && decide (i + 1 < n)

/-- The codes a contributor streams (R298, R302): preamble, values, guard blocks. -/
def streamCodes (vals : List Byte) : List Nat :=
  List.replicate 1024 128 ++
    (vals.zipIdx.flatMap (fun x => intensity x.1 :: (if guardAfter vals.length x.2 then List.replicate 64 128 else [])))

/-- Intensity codes leave on the run's line, under the active bits of its modulator's drive converter (R107). -/
def State.launch (s : State) (p : Port) (r : PRun) (codes : List Nat) : State :=
  s.send (.psmLaunch p (s.activeBits (unitOf p.val ((psmLineList r.e).headD 0))) codes)

/-- PSM_STREAM_START (R300, R302, R310): at T_S; a contributor without a TRIM fails. One whose function was reset sends code 128 (R311). -/
def execPsmStreamStart (p : Port) (s : State) : Host.Outcome State Fault Refusal :=
  .next (match s.prun? p with
    | none => s
    | some r =>
      if s.psmState p ≠ 4 then s
      else
        let s := s.advanceTo (after (BitVec.ofNat 64 (psmStart r.e)) 400000)
        if !psmSummer r.e && !r.trimmed then s.psmFail p 2
        else
          let s := s.wr (F.PSM_STAT_STATE p) 5
          if psmSummer r.e then s
          else s.launch p r (if r.flr then List.replicate (psmSamples r.e) 128 else streamCodes (s.memBytes (psmAddr r.e) (psmCount r.e))))

/-- PSM_OVER_RANGE (R305): data sample index over-ranges. -/
def execPsmOverRange (p : Port) (index : BitVec 24) (s : State) : Host.Outcome State Fault Refusal :=
  .next (match s.prun? p with
    | none => s
    | some r =>
      if psmSummer r.e ∧ s.psmState p = 5 ∧ index.toNat < psmCount r.e then
        ((s.updRun p (fun r => { r with ovr := if r.ovr.contains index.toNat then r.ovr else r.ovr ++ [index.toNat] })).inc (F.PSM_OVR_COUNT p)).cause0 0x23 2
      else s)

/-- Codes of one raw step for n contributors (R299). -/
def psmLsb (n : Nat) : Nat := if n ≤ 4 then 1 else 2

/-- Data sample i is DIRTY (R303, R305): one of the 2 samples after an over-range, and none itself; guard samples take a DIRTY's place where one
follows the over-range. -/
def PRun.isDirty (r : PRun) (i : Nat) : Bool :=
  let n := psmCount r.e
  let hit (d : Nat) : Bool := decide (d ≤ i) && r.ovr.contains (i - d)
  !r.ovr.contains i &&
    ((hit 1 && !guardAfter n (i - 1)) || (hit 2 && !guardAfter n (i - 1) && !guardAfter n (i - 2)))

/-- The result word of data sample i (R303). -/
def PRun.word (r : PRun) (i raw : Nat) : Nat :=
  let n := (psmLineList r.e).length
  if r.isDirty i then 2 ^ 13
  else
    let ovr := r.ovr.contains i
    let v := if ovr then 0x3FF else raw
    ofSigned 12 (v * psmLsb n - 128 * n) + b2n ovr * 2 ^ 12

/-- The summer writes the result words of the next samples (R303). -/
def State.writeWords (s : State) (p : Nat) (r : PRun) (samples : List (BitVec 10)) : State :=
  let l := (samples.take (psmCount r.e - r.done)).zipIdx.map (fun x => (r.done + x.2, x.1.toNat))
  let s := s.store (psmAddr r.e + 2 * r.done) ((l.flatMap (fun x => numBytes 2 (r.word x.1 x.2))).map some)
  s.updRun p (fun r => { r with done := r.done + l.length, dirty := r.dirty + (l.filter (fun x => r.isDirty x.1)).length })

/-- PSM_GUARD_CHECK (R303, R304, R306): the samples since the previous block have come, and the mean of this one, in 1/1024 raw codes, must lie
within the bound 0.3 × N + LSB of 128N. -/
def execPsmGuardCheck (p : Port) (meanRaw : Nat) (samples : List (BitVec 10)) (s : State) : Host.Outcome State Fault Refusal :=
  .next (match s.prun? p with
    | none => s
    | some r =>
      if !psmSummer r.e ∨ s.psmState p ≠ 5 then s
      else
        let n := (psmLineList r.e).length
        let lsb := psmLsb n
        let first : Bool := r.done == 0 && samples == []
        let s := (s.stat 23 (if first then 1024 else 64 + samples.length)).writeWords p r samples
        let done := r.done + samples.length
        let s := s.wr (F.PSM_STAT_PCT p) (min 100 (100 * (1024 + done + 64 * (done / 65536)) / psmSamples r.e))
        if (3 * n + 10 * lsb) * 1024 < ((10 * meanRaw * lsb : Nat) - (1280 * n * 1024 : Nat) : Int).natAbs then s.psmFail p 5 else s)

/-! ## The end of the stream and repair (R307, R308) -/

/-- The data indices a summer lists for repair, 4,096 at most (R307). -/
def PRun.repairList (r : PRun) : List Nat :=
  (((sortBy (fun i => i) r.ovr).flatMap (fun i => [i, i + 1, i + 2])).filter (fun i => decide (i < psmCount r.e) && (r.ovr.contains i || r.isDirty i))).foldl
    (fun acc i => if acc.contains i then acc else acc ++ [i]) [] |>.take 4096

/-- PSM_STREAM_END (R302, R307): at T_E; a summer that repairs sends its list. -/
def execPsmStreamEnd (p : Port) (samples : List (BitVec 10)) (s : State) : Host.Outcome State Fault Refusal :=
  .next (match s.prun? p with
    | none => s
    | some r =>
      if s.psmState p ≠ 5 then s
      else
        let s := s.advanceTo (after (BitVec.ofNat 64 (psmStart r.e)) (400000 + psmSamples r.e * 2 / 5))
        let s := s.wrs [(F.PSM_STAT_STATE p, 6), (F.PSM_STAT_PCT p, 100)]
        if psmSummer r.e then
          let s := (s.stat 23 samples.length).writeWords p r samples
          let l := if psmRepair r.e then r.repairList else []
          let s := s.updRun p (fun r => { r with listed := l })
          if l = [] then s else (psmLineList r.e).foldl (fun s k => (repairFrames k l).foldl (fun s x => s.sendFrame p x) s) s
        else s.stat 23 (psmSamples r.e))

/-- REPAIR (R301, R307): a contributor takes the indices of a REPAIR frame. -/
def execRepair (p : Port) (frame : BitVec 128) (s : State) : Host.Outcome State Fault Refusal :=
  .next (match s.prun? p, frameFor 3 frame with
    | some r, some x =>
      if psmSummer r.e ∨ s.psmState p ≠ 6 then s else s.updRun p (fun r => { r with listed := r.listed ++ x.indices })
    | _, _ => s)

/-- The codes that carry a value bit by bit, most significant first (R307). -/
def bitCodes (b : Byte) : List Nat := (upTo 8).map (fun i => if bitOf b.toNat (7 - i) then 255 else 0)

/-- PSM_REPAIR_WINDOW (R307, R311). -/
def execPsmRepairWindow (p : Port) (s : State) : Host.Outcome State Fault Refusal :=
  .next (match s.prun? p with
    | none => s
    | some r =>
      if psmSummer r.e ∨ s.psmState p ≠ 6 ∨ r.listed = [] then s
      else
        let s := s.inc (F.PSM_REPAIR_COUNT p) r.listed.length
        s.launch p r (r.listed.flatMap (fun i => if r.flr then List.replicate 8 0 else bitCodes (s.memByte (psmAddr r.e + i)))))

/-- A run is over: its command completes and it goes to RELEASE (R308, R310). -/
def State.psmEnd (s : State) (p st : Nat) : State := (s.psmComplete p st true).wr (F.PSM_STAT_STATE p) 7

/-- PSM_STATUS_SEND (R303, R307, R308): the exact sum of each listed sample, none where a bit read was in doubt (Corners); words are rewritten,
STATUS is sent, and the summer completes. -/
def execPsmStatusSend (p : Port) (sums : List (Option Int)) (s : State) : Host.Outcome State Fault Refusal :=
  .next (match s.prun? p with
    | none => s
    | some r =>
      if !psmSummer r.e ∨ s.psmState p ≠ 6 then s
      else
        let fixed := (r.listed.zip sums).filterMap (fun x => x.2.map (fun v => (x.1, v)))
        let s := fixed.foldl (fun s x => s.store (psmAddr r.e + 2 * x.1) ((numBytes 2 (ofSigned 12 x.2 + 2 ^ 14)).map some)) s
        let s := (s.inc (F.PSM_REPAIR_COUNT p) fixed.length).updRun p (fun r => { r with repaired := fixed.length })
        ((psmLineList r.e).foldl (fun s k => s.sendFrame p { typ := 4, line := k, payload := 0 }) s).psmEnd p 0)

/-- STATUS (R301, R308): the contributor completes with the status that a STATUS frame carries. -/
def execStatus (p : Port) (frame : BitVec 128) (s : State) : Host.Outcome State Fault Refusal :=
  .next (match s.prun? p, frameFor 4 frame with
    | some r, some x => if psmSummer r.e ∨ s.psmState p ≠ 6 then s else s.psmEnd p (x.payload / 2 ^ 68)
    | _, _ => s)

/-- PSM_STATUS_TIMEOUT (R308). -/
def execPsmStatusTimeout (p : Port) (s : State) : Host.Outcome State Fault Refusal :=
  .next (match s.prun? p with
    | none => s
    | some r => if psmSummer r.e ∨ s.psmState p ≠ 6 then s else s.psmEnd p 3)

/-- PSM_RELEASE_DONE (R310): rings rest, the claim is free; a run that did not fail is DONE. -/
def execPsmReleaseDone (p : Port) (s : State) : Host.Outcome State Fault Refusal :=
  .next (match s.prun? p with
    | none => s
    | some r =>
      let st := s.psmState p
      if st ≠ 7 ∧ st ≠ 9 then s
      else
        let s := (psmRings p r.e).foldl State.restRing s
        let s := s.setPsm { s.psm with runs := s.psm.runs.filter (fun x => x.1 != p.val) }
        let s := if st = 9 then s
          else
            let s := (s.wr (F.PSM_STAT_STATE p) 8).cause0 0x23 0
            if h : r.owner < 65 then (if r.owner = 0 then s else s.cause ⟨r.owner, h⟩ 3 0) else s
        s.psmUnfreeze)

/-! ## Fences, freezes, resets (R92, R297, R311) -/

/-- The runs that satisfy p fail with a reason. -/
def State.failRuns (s : State) (reason : Nat) (p : Nat × PRun → Bool) : State := (s.psm.runs.filter p).foldl (fun s r => s.psmFail r.1 reason) s

/-- A port fence (R311). -/
def State.psmPortFence (s : State) (p : Nat) : State := s.failRuns 8 (fun r => r.1 == p)

/-- A partition fence (R311). -/
def State.psmPartFence (s : State) (n : Nat) : State := s.failRuns 8 (fun r => r.2.owner == n)

/-- FORCE_FREEZE fails every run; the flag says that there was one (R311, R447). -/
def State.psmForce (s : State) : State × Bool :=
  let live := s.psm.runs.filter (fun r => !r.2.failed && decide (s.psmState r.1 < 7))
  (s.failRuns 6 (fun _ => true), !live.isEmpty)

/-- FREEZE ends: a run whose T_START passed meanwhile is LATE (R311). -/
def State.psmThaw (s : State) : State := s.failRuns 4 (fun r => r.2.late)

/-- A function level reset (R92, R311): no completion; a contributor under way goes on, any other run fails. PSM_STATn.REASON of a run that fails here
reads 0: R310 lists no reason for it (DESIGN CHOICE: log entry 94). -/
def State.psmFlr (s : State) (f : Nat) : State :=
  let mine := s.psm.runs.filter (fun r => r.2.fn == f)
  mine.foldl (fun s r =>
    let s := s.updRun r.1 (fun r => { r with flr := true })
    if psmSummer r.2.e ∨ s.psmState r.1 < 4 then s.psmFail r.1 0 else s) s

end Sys2Proof.Machine
end

