-- ==== Sys2Proof/Machine/Attach.lean ====
section
/-! DEFINITION. The host attach: what waits for the host, function level resets, the host link, queues and fetch, and what the host's reads
return (R62 to R94, R471). -/

namespace Sys2Proof.Machine

/-! ## What waits for the host (R70, R471) -/

/-- The function of a waiting access. -/
def HostWait.fn : HostWait → Fn
  | .cpl f _ _ => f
  | .acc f _ => f

/-- The pending vectors of function f that can be sent are sent (R471). -/
def State.sendPending (s : State) (f : Fn) : State :=
  (s.hostFn f.val).pba.foldl (fun s v =>
    if s.canVector f.val v then
      let h := s.hostFn f.val
      (s.setHostFn f.val { h with pba := h.pba.filter (· != v) }).sendVector f v
    else s) s

/-- Function f's waiting accesses, pending vectors and held alert go out as far as they can (R70, R471). -/
def State.releaseHost (s : State) (f : Fn) : State := ((s.releaseWaiting).sendPending f).alertHeld f

/-! ## Function level resets (R92, R93, R471) -/

/-- What the reset of a function drops: accesses, vectors and the alert that wait, and its configuration-space state but for the maximum payload size
(R93, R471, PRESUMED: log entry 7). -/
def State.dropHost (s : State) (f : Fn) : State :=
  let s := { s with host := { s.host with waiting := s.host.waiting.filter (fun w => w.fn != f) } }
  (s.setHostFn f.val { mps := (s.hostFn f.val).mps }).setBit (nmaFld f.val).1 (nmaFld f.val).2 false

/-- The commands of PF0 whose host read still waits at its reset leave with that read, without completion (R93, R471; DEDUCED: log entry 92): a key
load, a schedule load, a copy, a reduction. -/
def State.dropReaders (s : State) : State :=
  let waits (e : Block64) : Bool :=
    s.host.waiting.any (fun w => match w with | .acc g o => g == 0 && o.isReadOf (cmdId e) | .cpl .. => false)
  let copies := (s.rme.dma.filter (fun d => d.fn == 0 && waits d.e)).map (·.id)
  let sums := (s.rdx.cmds.filter (fun c => c.fn == 0 && waits c.e)).map (·.id)
  let s1 := s.dropCopies (fun d => copies.contains d.id)
  let s2 := s1.setRdx { s1.rdx with cmds := s1.rdx.cmds.filter (fun c => !sums.contains c.id) }
  s2.setCmds (s2.que.inflight.filter (fun c =>
    !(copies.contains c.id || sums.contains c.id || (c.fn == 0 && c.wait == .hostRead && waits c.e))))

/-- Queue registers at offsets 0x040 to 0x070 return to reset (R93). -/
def State.queueRegs (s : State) (b : Nat) : State :=
  s.clr [F.CMDQ_BASE_BASE b, F.CMDQ_SIZE_SIZE b, F.CMDQ_TAIL_TAIL b, F.CMDQ_HEAD_HEAD b, F.CPLQ_BASE_BASE b, F.CPLQ_SIZE_SIZE b,
    F.CPLQ_HEAD_HEAD b, F.CPLQ_TAIL_TAIL b, F.CPLQ_TAIL_PHASE b, F.Q_CTRL_CMD_EN b, F.Q_CTRL_CPL_EN b, F.Q_STAT_DB_OVR b, F.Q_STAT_CPL_DB_OVR b,
    F.Q_STAT_FETCH_ERR b, F.Q_STAT_HALTED b, F.CPL_COAL_COUNT b, F.CPL_COAL_TIME b]

/-- A function's fetch reads, coalescing count and deficit are forgotten. -/
def State.stopFetch (s : State) (f : Fn) : State :=
  { s with que := { s.que with fetches := s.que.fetches.filter (fun x => x.fn != f), coal := Tbl.set 0 s.que.coal f.val 0,
                               deficit := Tbl.set 0 s.que.deficit f.val 0 } }

/-- PF0's queues are reset (R93, R470): fetch stops, commands in flight complete without writing completions. -/
def State.resetQueues0 (s : State) : State :=
  let s := (s.stopFetch 0).queueRegs (qBase 0)
  s.setCmds (s.que.inflight.map (fun c => if c.fn == 0 then { c with noEntry := true, gone := true } else c))

/-- The opcodes whose running commands an FLR of their VF stops (R92). -/
def flrStops (op : Nat) : Bool := op == 0x20 || op == 0x28 || op == 0x29

/-- A VF FLR (R92): fetch stops, queued commands go without completing, its copies, reductions and summations stop, its pages and its cursor
reset; FLR_COMPLETE follows. A key command that has started in SEC completes there without an entry. -/
def State.flrVf (s : State) (f : Fn) : State :=
  let s := ((s.rmeFlr f.val).rdxFlr f.val).psmFlr f.val
  let started (c : Cmd) : Bool := match c.wait with
    | .hostRead => !s.host.waiting.any (fun w => w.fn == f)
    | .durable _ _ => true
    | _ => false
  let s := s.setCmds ((s.que.inflight.filter (fun c => c.fn != f || (started c && !flrStops (opcode c.e)))).map
    (fun c => if c.fn == f then { c with noEntry := true, gone := true } else c))
  let lo := pageBase f.val 0
  let s := (s.stopFetch f).dropHost f
  let s := { s with regs := s.regs.filter (fun x => decide (x.1 / 32 < lo ∨ lo + 0x10000 ≤ x.1 / 32)) }
  let s := (s.setReq f.val {}).setRdx { s.rdx with satV := Tbl.set 0 s.rdx.satV f.val 0 }
  { s with host := { s.host with flr := if s.host.flr.contains f.val then s.host.flr else s.host.flr ++ [f.val] } }

/-- VF Enable and NumVFs change (R63): partitions that stop existing are reset first. -/
def State.setVfs (s : State) (n : Nat) (en : Bool) : State :=
  let keep := if en then n else 0
  let s := (s.functions.filter (fun f => f.val != 0 && decide (keep < f.val))).foldl State.flrVf s
  (s.wr F.HIF_VF_STAT_NUM_VFS keep).wr F.HIF_VF_STAT_VF_EN (b2n en)

/-- A PF0 FLR (R93). -/
def State.flrPf0 (s : State) : State :=
  let t := (((s.setVfs 0 false).resetQueues0).dropReaders).dropHost 0
  (t.settle t.que.inflight.length).rmeGo

/-- VF_FLR (R92): of a VF that exists. -/
def execVfFlr (f : Fn) (s : State) : Host.Outcome State Fault Refusal :=
  .next (if f.val ≠ 0 ∧ s.partExists f.val = true then s.flrVf f else s)

/-- PF0_FLR (R93). -/
def execPf0Flr (s : State) : Host.Outcome State Fault Refusal := .next s.flrPf0

/-- FLR_COMPLETE (R92): VF_FLR_DONE. -/
def execFlrComplete (f : Fn) (s : State) : Host.Outcome State Fault Refusal :=
  .next (if s.host.flr.contains f.val then
      ({ s with host := { s.host with flr := s.host.flr.filter (· != f.val) } }).cause0 0x02 2
    else s)

/-- VF_ENABLE_CHANGE (R63). -/
def execVfEnableChange (en : Bool) (num : Fn) (s : State) : Host.Outcome State Fault Refusal := .next (s.setVfs num.val en)

/-! ## The host link (R55, R58, R471) -/

/-- The host link goes down: LINK_DOWN and HOST_LINK where it was up; SPEED and what is up read 0. -/
def State.linkDown (s : State) : State :=
  if s.on F.HIF_LINK_STAT_UP then
    ((s.wrs [(F.HIF_LINK_STAT_SPEED, 0), (F.HIF_LINK_STAT_UP, 0), (F.HIF_UCIE_STAT_SB_UP, 0), (F.HIF_UCIE_STAT_MB_UP, 0)]).cause0 0x02 0).fault 11
  else s

/-- HOST_LINK_DOWN (R471): on the -M and -P forms DL_Down resets every function as a PF0 FLR does. -/
def execHostLinkDown (dlDown : Bool) (s : State) : Host.Outcome State Fault Refusal :=
  .next (let s := s.linkDown
    if dlDown ∧ s.rd F.GLB_FORM_FORM ≠ 0 then s.flrPf0 else s)

/-- A link the form supports: its modules and rate on the -C form (R58), where a single module of C2 stays single until a reset, its speed, width and flit
mode on the others (R55). -/
def State.linkOk (s : State) (l : LinkParams) : Bool :=
  if s.rd F.GLB_FORM_FORM = 0 then
    decide (l.rate ≠ 0) && (l.modules == 1 || (l.modules == 2 && s.rd F.GLB_FORM_STRAP == 1 && !s.host.lone))
  else decide (1 ≤ l.speed.toNat ∧ l.speed.toNat ≤ 6) && [1, 2, 4, 8, 16].contains l.width.toNat && (l.speed != 6 || l.flit)

/-- The host link comes up (R55, R58, R470, R471): its parameters, LINK_CHG where they changed or a module is missing, and what waits. -/
def State.linkUp (s : State) (l : LinkParams) : State :=
  let c : Bool := s.rd F.GLB_FORM_FORM == 0
  let vals := if c then
      [(F.HIF_LINK_STAT_SPEED, 0), (F.HIF_LINK_STAT_WIDTH, 0), (F.HIF_LINK_STAT_FLIT, 0), (F.HIF_LINK_STAT_REVERSED, 0),
       (F.HIF_UCIE_STAT_MODULES, l.modules.toNat), (F.HIF_UCIE_STAT_RATE, l.rate.toNat), (F.HIF_UCIE_STAT_REPAIRED, l.repaired.toNat)]
    else
      [(F.HIF_LINK_STAT_SPEED, l.speed.toNat), (F.HIF_LINK_STAT_WIDTH, l.width.toNat), (F.HIF_LINK_STAT_FLIT, b2n l.flit),
       (F.HIF_LINK_STAT_REVERSED, b2n l.reversed), (F.HIF_UCIE_STAT_MODULES, 0), (F.HIF_UCIE_STAT_RATE, 0), (F.HIF_UCIE_STAT_REPAIRED, 0)]
  let was : Bool := s.rd F.HIF_LINK_STAT_WIDTH != 0 || s.rd F.HIF_UCIE_STAT_MODULES != 0
  let watched := [F.HIF_LINK_STAT_WIDTH, F.HIF_UCIE_STAT_MODULES] ++
    (if s.on F.HIF_LINK_STAT_UP then [F.HIF_LINK_STAT_SPEED, F.HIF_UCIE_STAT_RATE] else [])
  let chg : Bool := was && vals.any (fun x => watched.contains x.1 && s.rd x.1 != x.2)
  let s := (s.wrs vals).wrs [(F.HIF_LINK_STAT_UP, 1), (F.HIF_UCIE_STAT_SB_UP, b2n c), (F.HIF_UCIE_STAT_MB_UP, b2n c)]
  let s := if chg then s.cause0 0x02 1 else s
  let s := if c ∧ s.rd F.GLB_FORM_STRAP = 1 ∧ l.modules = 1 then
      { ((s.cause0 0x02 1).fault 11) with host := { s.host with lone := true } }
    else s
  s.functions.foldl State.releaseHost s

/-- HOST_LINK_UP (R471): with HOST on and start-up past LINK, a link the form supports; unassigned straps bring up no link (R54). -/
def execHostLinkUp (l : LinkParams) (s : State) : Host.Outcome State Fault Refusal :=
  .next (if (s.rd F.CPM_BOOT_STAGE = 8 ∨ s.rd F.CPM_BOOT_STAGE = 10) ∧ s.rd F.GLB_FORM_FORM ≠ 3 ∧ bitOf (s.rd F.CPM_PWR_STAT_DOM_ON) 1 = true ∧
      s.linkOk l = true then s.linkUp l else s)

/-- NON_MASKABLE_ALERT (R70): function f's held alert. -/
def execNonMaskableAlert (f : Fn) (s : State) : Host.Outcome State Fault Refusal := .next (s.alertHeld f)

/-- The SR-IOV constants of R55. -/
def totalVfs : Nat := 64
/-- First VF Offset (R55). -/
def firstVfOffset : Nat := 1
/-- VF Stride (R55). -/
def vfStride : Nat := 1

/-- The requester ID, within the device, of function f (R55, R60): its function number under ARI, its ASID on the -C form. -/
def requesterId (f : Nat) : Nat := if f = 0 then 0 else firstVfOffset + (f - 1) * vfStride

/-- The mask bit of vector v is written (R61, R471). -/
def HostFn.mask (h : HostFn) (v : Nat) (on : Bool) : HostFn :=
  { h with unmasked := if on then h.unmasked.filter (· != v) else if h.unmasked.contains v then h.unmasked else h.unmasked ++ [v] }

/-- Word k of function f's BAR4 (R61): the MSI-X table from 0x0000, the PBA from 0x1000. -/
def HostFn.bar4 (h : HostFn) (f k : Nat) : Nat :=
  if k < 4 * vecCount f then (if k % 4 = 3 then b2n (!h.unmasked.contains (k / 4)) else Tbl.get 0 h.table k)
  else if 0x400 ≤ k ∧ k < 0x402 then (upTo 32).foldl (fun m i => m + b2n (h.pba.contains (32 * (k - 0x400) + i)) * 2 ^ i) 0
  else 0

/-- A write of word k of BAR4 (R61): the PBA is read only. -/
def HostFn.bar4Write (h : HostFn) (f k v : Nat) : HostFn :=
  if 4 * vecCount f ≤ k then h
  else if k % 4 = 3 then h.mask (k / 4) (bitOf v 0)
  else { h with table := Tbl.set 0 h.table k v }

/-- What a host access to configuration space or BAR4 makes of a function's state (R55, R57, R61, R471). Payload and read request sizes are PF0's, and a
code outside R55's range changes nothing (PRESUMED: log entry 88). BAR4 answers in D0 alone. -/
def HostFn.access (h : HostFn) (f : Nat) (d0 : Bool) : VecWrite → HostFn
  | .busMaster on => { h with bme := on }
  | .msixEnable on => { h with msix := on }
  | .funcMask on => { h with fmask := on }
  | .vecMask v on => if vecCount f ≤ v.val || !d0 then h else h.mask v.val on
  | .powerState d3 => { h with d3 := d3 }
  | .maxPayload c => if f = 0 ∧ c.toNat ≤ 2 then { h with mps := c.toNat } else h
  | .maxReadRequest c => if f = 0 ∧ c.toNat ≤ 5 then { h with mrrs := c.toNat } else h
  | .bar4Write off v => if d0 then h.bar4Write f (off.toNat / 4) v.toNat else h
  | .bar4Read _ => h
  | .sideband _ => h

/-- VECTOR_MASK_OR_ENABLE_WRITE (R55, R57, R60, R61, R70, R471): a function's configuration space or BAR4 is accessed, and what that lets go goes.
An unassigned ASID is answered with an unsupported request (R60). -/
def execVectorMaskOrEnableWrite (f : Fn) (w : VecWrite) (s : State) : Host.Outcome State Fault Refusal :=
  .next (
    let d0 : Bool := s.inD0 f.val && s.domOn 1
    match w with
    | .sideband asid => if s.rd F.GLB_FORM_FORM = 0 ∧ 65 ≤ asid.toNat then s.send (.sbUnsupported asid.toNat) else s
    | .bar4Read off =>
      if s.fnExists f.val && d0 then s.send (.bar4Data f off.toNat (BitVec.ofNat 32 ((s.hostFn f.val).bar4 f.val (off.toNat / 4)))) else s
    | _ =>
      if s.fnExists f.val then
        let t := (s.setHostFn f.val ((s.hostFn f.val).access f.val d0 w)).releaseHost f
        if f = 0 then s.functions.foldl State.releaseHost t else t
      else s)

/-! ## Doorbells and queue configuration (R73, R74, R90, R91) -/

/-- A command doorbell of value t (R73); BAR2 writes of the function that are under way now precede it (R271). INT_CAUSE's DB_OVR, like CPL_DB_OVR and
FETCH_ERR, is set with its Q_STAT bit as an event: clearing either bit leaves the other as it is (R94 says that the causes follow the Q_STAT bits;
DESIGN CHOICE: log entry 93). -/
def State.cmdDoorbell (s : State) (f : Fn) (t : Nat) : State :=
  let b := qBase f.val
  let n := depth s (F.CMDQ_SIZE_SIZE b)
  let head := s.rd (F.CMDQ_HEAD_HEAD b)
  let tail := s.rd (F.CMDQ_TAIL_TAIL b)
  if t < n ∧ modSub n t tail ≤ modSub n (head + n - 1) tail then
    let mark (o : RmeOp) : RmeOp := if o.fn == f && o.kind == 1 && o.src == .write then { o with bell := true } else o
    if t = tail then s else (s.wr (F.CMDQ_TAIL_TAIL b) t).setOps (s.rme.ops.map mark)
  else (s.wr (F.Q_STAT_DB_OVR b) 1).cause f (qPage f.val) 0

/-- A completion doorbell of value h (R74); its cause as cmdDoorbell's (log entry 93). -/
def State.cplDoorbell (s : State) (f : Fn) (h : Nat) : State :=
  let b := qBase f.val
  let n := depth s (F.CPLQ_SIZE_SIZE b)
  let tail := s.rd (F.CPLQ_TAIL_TAIL b)
  let head := s.rd (F.CPLQ_HEAD_HEAD b)
  if h < n ∧ modSub n h head ≤ modSub n tail head then s.wr (F.CPLQ_HEAD_HEAD b) h
  else (s.wr (F.Q_STAT_CPL_DB_OVR b) 1).cause f (qPage f.val) 1

/-- A write of a command queue's BASE or SIZE may take effect (R90). -/
def State.cmdqOpen (s : State) (f : Fn) : Bool :=
  !s.on (F.Q_CTRL_CMD_EN (qBase f.val)) && s.inflight f.val == 0 && !s.que.fetches.any (fun x => x.fn == f)

/-- A write of BASE or SIZE (R90); none where it is refused with BADVAL (R33, R34). -/
def State.queueCfg (s : State) (f : Fn) (q : QReg) (v : Nat) : Option State :=
  let b := qBase f.val
  let cmd (s : State) : State := s.wrs [(F.CMDQ_HEAD_HEAD b, 0), (F.CMDQ_TAIL_TAIL b, 0)]
  let cpl (s : State) : State := s.wrs [(F.CPLQ_HEAD_HEAD b, 0), (F.CPLQ_TAIL_TAIL b, 0), (F.CPLQ_TAIL_PHASE b, 1)]
  let okSize : Bool := decide (4 ≤ v % 16 ∧ v % 16 ≤ 12)
  match q with
  | .cmdBase => if s.cmdqOpen f then some (cmd (s.wr (F.CMDQ_BASE_BASE b) (v / 2 ^ 12))) else none
  | .cmdSize => if s.cmdqOpen f && okSize then some (cmd (s.wr (F.CMDQ_SIZE_SIZE b) v)) else none
  | .cplBase => if s.on (F.Q_CTRL_CPL_EN b) then none else some (cpl (s.wr (F.CPLQ_BASE_BASE b) (v / 2 ^ 12)))
  | .cplSize => if s.on (F.Q_CTRL_CPL_EN b) || !okSize then none else some (cpl (s.wr (F.CPLQ_SIZE_SIZE b) v))

/-- A write of Q_CTRL (R89, R91): with CPL_EN = 0 the commands in flight complete without entries, whatever CPL_EN becomes before they do. -/
def State.qCtrl (s : State) (f : Fn) (v : Nat) : State :=
  let b := qBase f.val
  let s := s.wrs [(F.Q_CTRL_CMD_EN b, v % 2), (F.Q_CTRL_CPL_EN b, v / 2 % 2)]
  let s := if v / 2 % 2 = 0 then s.setCmds (s.que.inflight.map (fun c => if c.fn == f then { c with noEntry := true } else c)) else s
  if v % 2 = 0 then s.wr (F.Q_STAT_HALTED b) 0 else s

/-! ## Fetch (R82 to R89) -/

/-- Change the queue manager's state. -/
def State.setQue (s : State) (q : QueState) : State := { s with que := q }

/-- A fetch read of function f is outstanding. -/
def State.fetching (s : State) (f : Fn) : Bool := s.que.fetches.any (fun x => x.fn == f)

/-- Entries that function f's outstanding fetch reads cover. -/
def State.covered (s : State) (f : Fn) : Nat := ((s.que.fetches.filter (fun x => x.fn == f)).map (·.n)).sum

/-- The number of entries QUE can fetch for function f: none while it is HALTED, disabled, full, stopped or asleep, and none for a weight of 0 (R82,
R84, R86, R89, R370, R373). The entries of an outstanding read count as in flight. -/
def State.fetchable (s : State) (f : Fn) : Nat :=
  let b := qBase f.val
  let lim := if f.val = 0 then 256 else 64
  let stopped : Bool := !s.live 0x03 || s.terminal || !s.on (F.Q_CTRL_CMD_EN b) || s.on (F.Q_STAT_HALTED b) || !s.fnExists f.val ||
    s.rd F.CPM_PWR_STAT_PSTATE != 0 || (f.val != 0 && (s.partFenced f.val || s.rd (F.QUE_WEIGHT_WEIGHT f.val) == 0)) ||
    s.host.flr.contains f.val || (f.val == 0 && s.que.inflight.any (fun c => c.fn == 0 && opcode c.e == 2))
  let k := s.covered f
  if stopped then 0 else min (min 8 (s.waitingEntries f.val - k)) (min (lim - s.inflight f.val - k) (s.cplRoom f.val - k))

/-- QUE issues a fetch read of n entries for function f. -/
def State.fetchFor (s : State) (f : Fn) (n : Nat) : State :=
  let slot := s.rd (F.CMDQ_HEAD_HEAD (qBase f.val))
  (s.setQue { s.que with fetches := s.que.fetches ++ [{ fn := f, slot := slot, n := n }] }).hostAcc f (.fetchRead f slot n)

/-- Deficit round robin (R82): the visit stays at a partition while its deficit is at least 1 and it can be fetched, and then goes on to the next. A
function's next fetch read waits until its last has returned, as in the worked example of the chapter, and the visit waits with it (DEDUCED: log entry
22). -/
def State.drr (s : State) : Nat → State
  | 0 => s
  | k + 1 =>
    let p := s.que.visit
    let move (s : State) : State := s.setQue { s.que with visit := if 64 ≤ p then 1 else p + 1, inVisit := false }
    if h : p < 65 then
      let can := s.fetchable ⟨p, h⟩
      if can = 0 then (move s).drr k
      else
        let w := s.rd (F.QUE_WEIGHT_WEIGHT p)
        let d := min (Tbl.get 0 s.que.deficit p + (if s.que.inVisit then 0 else w)) (2 * w)
        let s := s.setQue { s.que with inVisit := true, deficit := Tbl.set 0 s.que.deficit p d }
        if d = 0 then (move s).drr k
        else if s.fetching ⟨p, h⟩ then s
        else
          let n := min can d
          (s.setQue { s.que with deficit := Tbl.set 0 s.que.deficit p (d - n) }).fetchFor ⟨p, h⟩ n
    else (move s).drr k

/-- FETCH_READ_ISSUE (R82): PF0 first, else the VFs by deficit round robin. -/
def execFetchReadIssue (s : State) : Host.Outcome State Fault Refusal :=
  .next (let n := s.fetchable 0
    if n ≠ 0 ∧ s.fetching 0 = false then s.fetchFor 0 n else s.drr 66)

/-- The entries of a fetch read that QUE takes: those before the first failed one (R89), and on PF0 none behind SLEEP_WAIT (R86). -/
def takenEntries (f : Fn) : List (Option Block64) → List Block64
  | some e :: t => if f.val = 0 ∧ opcode e = 2 then [e] else e :: takenEntries f t
  | _ => []

/-- Entries become commands in flight (R75). -/
def State.takeEntries (s : State) (f : Fn) (l : List Block64) : State :=
  l.foldl (fun s e =>
    { s with que := { s.que with inflight := s.que.inflight ++ [{ id := s.que.nextId, fn := f, e := e, owner := effOwner f e, wait := .unstarted }],
                                 nextId := s.que.nextId + 1 } }) s

/-- FETCH_READ_DONE (R75, R89): the function's fetch read returns. -/
def execFetchReadDone (f : Fn) (entries : List (Option Block64)) (s : State) : Host.Outcome State Fault Refusal :=
  .next (match s.que.fetches.find? (fun x => x.fn == f) with
    | none => s
    | some x =>
      match s.readBack f (fun o => o == .fetchRead f x.slot x.n) with
      | none => s
      | some s =>
        let b := qBase f.val
        let l := entries.take x.n
        let failed : Bool := decide (l.length < x.n) || l.any (fun e => e.isNone)
        let taken := takenEntries f l
        let s := { s with que := { s.que with fetches := s.que.fetches.filter (fun y => y.fn != f) } }
        let head := (x.slot + taken.length) % depth s (F.CMDQ_SIZE_SIZE b)
        let s := (s.takeEntries f taken).wr (F.CMDQ_HEAD_HEAD b) head
        let s := if s.waitingEntries f.val = 0 then { s with que := { s.que with deficit := Tbl.set 0 s.que.deficit f.val 0 } } else s
        let s := if failed then
            ((s.wrs [(F.Q_STAT_FETCH_ERR b, 1), (F.Q_STAT_HALTED b, 1)]).cause f (qPage f.val) 2).fault 12 2 f.val
          else s
        s.settle s.que.inflight.length)

/-- CPL_COAL_TIMER (R88): the oldest counted entry has waited TIME µs. -/
def execCplCoalTimer (f : Fn) (s : State) : Host.Outcome State Fault Refusal :=
  .next (if s.rd (F.CPL_COAL_TIME (qBase f.val)) = 0 ∨ Tbl.get 0 s.que.coal f.val = 0 then s
    else ({ s with que := { s.que with coal := Tbl.set 0 s.que.coal f.val 0 } }).vector f 1)

/-! ## NOP, FENCE, host reads (R77, R212, R269, R320) -/

/-- NOP (R77). -/
def execNop (f : Fn) (e : Block64) (s : State) : Host.Outcome State Fault Refusal :=
  .next (s.command 0x00 0x03 f e (fun c s => s.complete c.id {}))

/-- FENCE (R77): completes once every earlier command of the function has. -/
def execFence (f : Fn) (e : Block64) (s : State) : Host.Outcome State Fault Refusal :=
  .next (s.command 0x01 0x03 f e (fun c s => s.setWait c.id .fence))

/-- HOST_READ_DONE (R212, R269, R320): the oldest host read of a command returns. -/
def execHostReadDone (f : Fn) (cmd : BitVec 16) (d : HostData) (s : State) : Host.Outcome State Fault Refusal :=
  .next (
    let a := s.oldestRead f (fun o => o.isReadOf cmd.toNat)
    match s.readBack f (fun o => o.isReadOf cmd.toNat) with
    | none => s
    | some s => match s.que.inflight.find? (fun c => c.fn == f && cmdId c.e == cmd.toNat && c.wait == .hostRead) with
      | some c => if opcode c.e = 0x12 then s.schedImage c d else s.keyBlob c d
      | none =>
        match s.rme.dma.find? (fun x => x.fn == f && cmdId x.e == cmd.toNat) with
        | some x => s.copyData x a d
        | none => s)

end Sys2Proof.Machine
end

