-- ==== Sys2Proof/Machine/Env.lean ====
section
/-! DEFINITION. Environment monitoring: on-die sensors, external inputs, supply monitors (R403 to R419). -/

namespace Sys2Proof.Machine

/-! ## Temperature from resistance (R406 to R408) -/

/-- Full-scale resistance in Ω by EXC (R406). -/
def fullScale : Nat → Nat
  | 0 => 120000
  | 1 => 12000
  | _ => 2400

/-- The Callendar–Van Dusen ratio R / R0 at n / 64 °C, in units of 10^-15 / 64^4 (R408). -/
def cvd (n : Int) : Int :=
  64 ^ 4 * 1000000000000000 + 3908300000000 * n * 64 ^ 3 - 577500000 * n ^ 2 * 64 ^ 2 - (if n < 0 then 4183 * (n - 6400) * n ^ 3 else 0)

/-- R / R0 of a RAW code, in the units of cvd times 2^23 times R0 (R406). -/
def rtdSide (raw : Int) (exc : Nat) : Int := raw * fullScale exc * 64 ^ 4 * 1000000000000000

/-- The fixed-point series of e^(p / q) with 2^256 as 1: the sum of the terms from term k on. -/
def expSum (p q : Nat) (k : Nat) (term : Nat) : Nat → Nat
  | 0 => 0
  | f + 1 => if term = 0 then 0 else term + expSum p q (k + 1) (term * p / (q * (k + 1))) f

/-- The thermistor's exponent BETA (1/T − 1/298.15 K) at n / 64 °C, as numerator and denominator (R408). -/
def thmExp (beta : Nat) (n : Int) : Int × Nat :=
  let d := (100 * n + 1748160).toNat
  ((beta : Int) * (6400 * 29815 - 100 * (d : Int)), d * 29815)

/-- The sign of R − R25 e^x at n / 64 °C, for a RAW code: negative, zero or positive (R406, R408). -/
def thmSide (raw : Int) (exc r25 beta : Nat) (n : Int) : Int :=
  let x := thmExp beta n
  let e := expSum x.1.natAbs x.2 0 (2 ^ 256) 600
  let r := raw * fullScale exc
  let r0 : Int := (r25 * 10 * 2 ^ 23 : Nat)
  if 0 ≤ x.1 then r * 2 ^ 256 - r0 * e else r * e - r0 * 2 ^ 256

/-- The largest k below the bound of the search, from lo, that satisfies a falling predicate; b bits remain. -/
def searchUp (p : Nat → Bool) : Nat → Nat → Nat
  | 0, lo => lo
  | b + 1, lo => if p (lo + 2 ^ b) then searchUp p b (lo + 2 ^ b) else searchUp p b lo

/-- The temperature in 1/64 °C from the sign of (measured − temperature at n): none outside the range lo to hi. up says how to round what lies
between two codes. -/
def tempOf (cmp : Int → Int) (lo hi : Int) (up : Bool) : Option Int :=
  if cmp lo < 0 ∨ 0 < cmp hi then none
  else
    let n := lo + (searchUp (fun k => decide (lo + k ≤ hi) && decide (0 ≤ cmp (lo + k))) 17 0 : Nat)
    some (if cmp n = 0 ∨ up = false then n else n + 1)

/-- The temperature an input's RAW code stands for (R408): none where it lies outside the mode's range or R reaches full scale (R412). -/
def State.extTemp (s : State) (n : Nat) (raw : Int) : Option Int :=
  let exc := s.rd (F.ENV_EXT_CFG0_EXC n)
  let up := Config.tempRoundUp raw.toNat
  if 2 ^ 23 - 1 ≤ raw then none
  else if s.rd (F.ENV_EXT_CFG0_MODE n) = 3 then
    if raw ≤ 0 then none
    else tempOf (fun t => -(thmSide raw exc (s.rd (F.ENV_EXT_CFG1_R25 n)) (s.rd (F.ENV_EXT_CFG1_BETA n)) t)) (-3520) 9600 up
  else
    let r0 : Int := if s.on (F.ENV_EXT_CFG0_ELEM n) then 1000 else 100
    tempOf (fun t => rtdSide raw exc - cvd t * r0 * 2 ^ 23) (-12800) 54400 up

/-- R408 gives a thermistor with BETA or R25 zero no temperature. -/
def State.extNoValue (s : State) (n : Nat) : Bool :=
  s.rd (F.ENV_EXT_CFG0_MODE n) == 3 && (s.rd (F.ENV_EXT_CFG1_R25 n) == 0 || s.rd (F.ENV_EXT_CFG1_BETA n) == 0)

/-! ## Sensors and inputs -/

/-- DIE_SENSOR_CONVERSION (R403, R404): sensor n's new value, and its flags while ENV is enabled. -/
def execDieSensorConversion (n : Fin 64) (temp : BitVec 16) (s : State) : Host.Outcome State Fault Refusal :=
  .next (
    let s1 := (s.wr (F.ENV_DIE_TEMP_TEMP n) temp.toNat).wr (F.ENV_DIE_TEMP_VALID n) 1
    if !s.domOn 1 then s
    else if !s.en 0x21 then s1
    else
      let s := s1
      let t := temp.toInt
      let hi := toSigned 16 (s.rd F.ENV_CFG_TEMP_HI)
      let lo := toSigned 16 (s.rd F.ENV_CFG_TEMP_LO)
      let raise (s : State) (f : Fld) : State := if s.on f then s else ((s.wr f 1).cause0 0x21 3).fault 53
      let s := if hi < t then raise s (F.ENV_DIE_TEMP_HI n) else if t ≤ hi - 128 then s.wr (F.ENV_DIE_TEMP_HI n) 0 else s
      if t < lo then raise s (F.ENV_DIE_TEMP_LO n) else if lo + 128 ≤ t then s.wr (F.ENV_DIE_TEMP_LO n) 0 else s)

/-- Input n converts (R409, R418): ENV enabled, a mode set, pad group S not held. -/
def State.extRuns (s : State) (n : Nat) : Bool :=
  s.en 0x21 && s.rd (F.ENV_EXT_CFG0_MODE n) != 0 && !bitOf (s.rd F.CPM_PAD_HOLD_HELD) 3

/-- RAW and TEMP of input n read VALID = 0. -/
def State.extInvalid (s : State) (n : Nat) : State := (s.wr (F.ENV_EXT_RAW_VALID n) 0).wr (F.ENV_EXT_TEMP_VALID n) 0

/-- RAW of a conversion of input n before its limits (R406, R407): round(R × I / VREFX × 2^23), where R × I is V_BC − V_AB in RTD3, and V_AC less the
voltage of LEAD in RTD2 and THM2. up says which way a tie goes. -/
def State.extRaw (s : State) (n : Nat) (x : ExtConv) (up : Bool) : Int :=
  let fs : Int := 100 * fullScale (s.rd (F.ENV_EXT_CFG0_EXC n))
  let num : Int := if s.rd (F.ENV_EXT_CFG0_MODE n) = 2 then fs * (x.vbc - x.vab) else fs * x.vac - (s.rd (F.ENV_EXT_CFG2_LEAD n) : Int) * 2 ^ 40
  let den : Int := fs * 2 ^ 17
  if 2 * (num % den) = den then (if up then num / den + 1 else num / den) else if den < 2 * (num % den) then num / den + 1 else num / den

/-- EXT_CONVERSION_DONE (R406 to R412): a conversion of input n completes. Which way RAW rounds a tie is a free value (DESIGN CHOICE: log entry 5). -/
def execExtConversionDone (n : Fin 4) (x : ExtConv) (s : State) : Host.Outcome State Fault Refusal :=
  .next (
    if !s.extRuns n then s
    else
      let (v, s) := s.free
      let raw := max (-(2 ^ 23)) (min (s.extRaw n x (bitOf v.toNat 17)) (2 ^ 23 - 1))
      let s := ((s.inc (F.ENV_EXT_CONV_COUNT n)).extInvalid n).wrs
        [(F.ENV_EXT_RAW_CODE n, ofSigned 24 raw), (F.ENV_EXT_RAW_OPEN n, 0), (F.ENV_EXT_RAW_WIRE n, 0), (F.ENV_EXT_RAW_RANGE n, 0)]
      if raw < -41943 then
        if s.on (F.ENV_EXT_RAW_REVERSED n) then s else ((s.wr (F.ENV_EXT_RAW_REVERSED n) 1).cause0 0x21 1).fault 51 0 0 n
      else
        let s := s.wr (F.ENV_EXT_RAW_REVERSED n) 0
        let good (s : State) (t : Nat) : State :=
          s.wrs [(F.ENV_EXT_RAW_VALID n, 1), (F.ENV_EXT_TEMP_TEMP n, t), (F.ENV_EXT_TEMP_VALID n, 1)]
        if s.extNoValue n ∧ raw < 2 ^ 23 - 1 then
          let (v, s) := s.free
          if bitOf v.toNat 16 then s.wr (F.ENV_EXT_RAW_RANGE n) 1 else good s (v.toNat % 2 ^ 16)
        else match s.extTemp n raw with
          | some t => good s (ofSigned 16 t)
          | none => s.wr (F.ENV_EXT_RAW_RANGE n) 1)

/-- EXT_OPEN_DETECT (R410): an open loop, or in RTD3 an open sense lead, aborts the conversion of input n. -/
def execExtOpenDetect (n : Fin 4) (w : OpenWire) (s : State) : Host.Outcome State Fault Refusal :=
  .next (
    if !s.extRuns n || (w == .senseWire && s.rd (F.ENV_EXT_CFG0_MODE n) != 2) then s
    else
      let was := s.on (F.ENV_EXT_RAW_OPEN n)
      let wire := match w with | .loopWire => 1 | .senseWire => 2
      let s := (s.extInvalid n).wrs [(F.ENV_EXT_RAW_CODE n, 0x7FFFFF), (F.ENV_EXT_RAW_OPEN n, 1), (F.ENV_EXT_RAW_WIRE n, wire)]
      if was then s else (s.cause0 0x21 0).fault 50 0 0 n)

/-- ENV's PAGE_CTRL.EN goes to 0, or pad group S is held (R417, R418). -/
def State.envStop (s : State) : State := (upTo 4).foldl (fun s n => s.extInvalid n) s

/-- SOFT_RST of ENV beside its fields' reset (R417): conversions aborted, flags cleared. -/
def State.envReset (s : State) : State :=
  let s := (upTo 64).foldl (fun s n => s.clr [F.ENV_DIE_TEMP_HI n, F.ENV_DIE_TEMP_LO n]) s
  let s := (upTo 4).foldl (fun s n => (s.extInvalid n).clr [F.ENV_EXT_RAW_OPEN n, F.ENV_EXT_RAW_REVERSED n, F.ENV_EXT_RAW_RANGE n, F.ENV_EXT_RAW_WIRE n]) s
  (upTo 7).foldl (fun s k => s.clr [F.ENV_SUP_LOW k, F.ENV_SUP_HIGH k]) s

/-! ## Supplies (R414) -/

/-- The voltage a supply is held against, in mV (R414, R449): CORE's is the one commanded last, VREFX's 1.200 V. -/
def State.supplyNominal (s : State) (k : Nat) : Nat :=
  match k with
  | 0 => s.rd F.CPM_VOUT_CMD_MV
  | 1 => 800
  | 2 => 1800
  | 3 => 3300
  | 4 => 1200
  | 5 => 400
  | _ => 1200

/-- A voltage lies within pct percent of a nominal one. -/
def withinPct (pct nom mv : Nat) : Bool := decide ((100 - pct) * nom ≤ 100 * mv ∧ 100 * mv ≤ (100 + pct) * nom)

/-- SUPPLY_OUT_OF_WINDOW (R414): supply k has measured mv, outside its window, for 10 µs; CORE is checked only while the operating-point sequencer is
IDLE. A supply inside its window sets nothing. -/
def execSupplyOutOfWindow (k : Fin 7) (mv : BitVec 13) (s : State) : Host.Outcome State Fault Refusal :=
  .next (
    if k = 0 ∧ s.rd F.CPM_OP_OPSTATE ≠ 0 ∨ s.domOn 1 = false then s
    else
      let nom := s.supplyNominal k
      let s := s.wrs [(F.ENV_SUP_MV k, mv.toNat), (F.ENV_SUP_VALID k, 1)]
      if withinPct (if k = 6 then 2 else 5) nom mv.toNat then s
      else
        let f := if nom < mv.toNat then F.ENV_SUP_HIGH k else F.ENV_SUP_LOW k
        if s.on f then s else ((s.wr f 1).cause0 0x21 2).fault 52)

/-- SUPPLY_RECOVER (R414): supply k has been within ±4 % for 100 µs; a voltage outside that clears nothing. -/
def execSupplyRecover (k : Fin 7) (mv : BitVec 13) (s : State) : Host.Outcome State Fault Refusal :=
  .next (
    if !s.domOn 1 then s
    else
      let t := s.wrs [(F.ENV_SUP_MV k, mv.toNat), (F.ENV_SUP_VALID k, 1)]
      if withinPct 4 (s.supplyNominal k) mv.toNat then t.wrs [(F.ENV_SUP_LOW k, 0), (F.ENV_SUP_HIGH k, 0)] else t)

end Sys2Proof.Machine
end

