-- ==== Sys2Proof/Machine/Sta.lean ====
section
/-! DEFINITION. Statistics periods (R397 to R401) and the event window of R392. -/

namespace Sys2Proof.Machine

/-! ## Periods (R397, R398) -/

/-- A period's length in units of fabric time (R9, R397). -/
def State.periodLen (s : State) : Nat := s.rd F.STA_CFG_LEN * 1000 * 65536

/-- FLAGS of a period that starts now: ESTIMATED while TIME_STATE is (R398, R351). -/
def State.newFlags (s : State) (short : Bool) : Nat := b2n short + (if s.rd F.CPM_TIME_STAT_TIME_STATE = 5 then 8 else 0)

/-- A boundary at time t (R397): the live counters go to SNAP and restart. -/
def State.boundary (s : State) (t : Nat) (short : Bool) : State :=
  let s := (upTo 32).foldl (fun s i => (s.wr (F.STA_SNAP_COUNT i) (s.rd (F.STA_LIVE_COUNT i))).wr (F.STA_LIVE_COUNT i) 0) s
  let s := { s with sta := { snap := s.sta.live, live := [], since := t } }
  let s := s.wrs [(F.STA_SNAP_PERIOD_PERIOD, s.rd F.STA_PERIOD_PERIOD), (F.STA_SNAP_START_TIME, s.rd F.STA_START_TIME),
    (F.STA_SNAP_FLAGS_FLAGS, s.rd F.STA_FLAGS_FLAGS), (F.STA_SNAP_END_TIME, t), (F.STA_PERIOD_PERIOD, s.rd F.STA_PERIOD_PERIOD + 1),
    (F.STA_START_TIME, t), (F.STA_FLAGS_FLAGS, s.newFlags short)]
  s.functions.foldl (fun s f => s.cause f (if f.val = 0 then 0x20 else 5) 0) s

/-- PERIOD_BOUNDARY (R397, R398): fabric time reaches a whole multiple of LEN. A multiple that the time has passed since the period's start, or since
its last step or wake, is the one reached; else the next one (DEDUCED: log entry 4). None is reached while fabric time stands still (R354, R398). -/
def execPeriodBoundary (s : State) : Host.Outcome State Fault Refusal :=
  .next (if !s.en 0x20 || !s.domOn 1 || s.on F.CPM_CLK_STAT_BYPASS then s
    else
      let l := s.periodLen
      let now := s.time.now.toNat
      let t := if s.sta.since < now / l * l then now / l * l else (now / l + 1) * l
      (s.advanceTo (BitVec.ofNat 64 t)).boundary t false)

/-- A write of LEN has taken effect (R398): it ends the period at once. -/
def State.lenWritten (s : State) : State := if s.en 0x20 then s.boundary s.time.now.toNat true else s

/-- STA's EN goes from 0 to 1 (R398): a SHORT period begins. -/
def State.staStart (s : State) : State :=
  { s.wrs [(F.STA_START_TIME, s.time.now.toNat), (F.STA_FLAGS_FLAGS, s.newFlags true)] with sta := { s.sta with since := s.time.now.toNat } }

/-- SOFT_RST of STA beside its fields' reset (R399): every counter and PERIOD to 0. -/
def State.staReset (s : State) : State :=
  let s := (upTo 32).foldl (fun s i => s.clr [F.STA_LIVE_COUNT i, F.STA_SNAP_COUNT i]) s
  { s.wr F.STA_PERIOD_PERIOD 0 with sta := { since := s.sta.since } }

/-! ## The event window (R384, R392) -/

/-- Word w of a record as the window shows it (R384). -/
def EvrRec.word (r : EvrRec) (w : Nat) : Nat :=
  let v := match w with
    | 0 => r.seq % 2 ^ 32
    | 1 => r.seq / 2 ^ 32 % 2 ^ 16 + r.page % 256 * 2 ^ 16 + r.sev % 4 * 2 ^ 24
    | 2 => r.code % 2 ^ 16 + r.rep % 2 ^ 16 * 2 ^ 16
    | 3 => r.part % 128 + b2n r.pub * 2 ^ 7 + r.snaps.length % 16 * 2 ^ 8 + r.list % 64 * 2 ^ 16
    | 12 => r.arg % 2 ^ 32
    | 13 => r.arg / 2 ^ 32 % 2 ^ 32
    | w => if 4 ≤ w ∧ w < 12 then (r.snaps.getD (w - 4) 0).toNat else 0
  v % 2 ^ 32

/-- The visible record with the lowest SEQ at or above requester r's cursor (R392). -/
def State.nextVisible (s : State) (r : Nat) : Option EvrRec :=
  s.evr.log.find? (fun e => visible r e && decide ((s.reqOf r).cursor ≤ e.seq))

/-- A read of a window word forms requester r's capture, unless it holds one (R392). Nothing visible is no capture that lasts. -/
def State.capture (s : State) (r : Nat) : State :=
  match (s.reqOf r).evCap with
  | some (some _) => s
  | _ => match s.nextVisible r with
    | some e => s.setReq r { s.reqOf r with evCap := some (some e) }
    | none => s

/-- The captured record of requester r. -/
def State.captured (s : State) (r : Nat) : Option EvrRec :=
  match (s.reqOf r).evCap with
  | some x => x
  | none => none

/-- A read of window word w by requester r: the value, and the state after it. A taking read of word 15 that finds a record moves the cursor past
it, ends the capture and clears LOST (R392). -/
def State.windowRead (s : State) (r w : Nat) (take : Bool) : Nat × State :=
  let s := s.capture r
  let q := s.reqOf r
  match s.captured r with
  | some e =>
    if w = 15 then
      (1 + 2 * b2n q.lost, if take then s.setReq r { q with cursor := (e.seq + 1) % 2 ^ 48, lost := false, evCap := none } else s)
    else (e.word w, s)
  | none => if w = 15 then (2 * b2n q.lost, s) else (0, s)

/-- A write of requester r's cursor ends its capture (R392). -/
def State.cursorWritten (s : State) (r v : Nat) : State := s.setReq r { s.reqOf r with cursor := v % 2 ^ 48, evCap := none }

/-- SOFT_RST of EVR beside its fields' reset (R383): LOST is set as CLEAR sets it. -/
def State.evrReset (s : State) : State :=
  let gone := s.evr.log
  (s.setEvr { s.evr with log := [], staging := [], lostSince := 0 }).loseRecords gone

end Sys2Proof.Machine
end

