-- ==== Sys2Proof/Machine/Freeze.lean ====
section
/-! DEFINITION. Enabling and disabling blocks (R50, R425 to R427), FREEZE (R445), FORCE_FREEZE (R447). -/

namespace Sys2Proof.Machine

/-! ## FREEZE (R445) -/

/-- A freeze of the page is requested (R445). -/
def State.freezeAsked (s : State) (pg : Nat) : Bool := s.on (F.PAGE_CTRL_FREEZE (0x1000 * pg)) || s.on F.DBG_FREEZE_ALL

/-- The page's block defers a freeze now (R223, R253, R311). -/
def State.defers (s : State) (pg : Nat) : Bool :=
  match pg with
  | 0x07 => s.csq.epochs.any (fun e => e.st == 3 || e.st == 4)
  | 0x08 => s.rd F.TWN_STAT_TKO == 4 || s.rd F.TWN_STAT_TKO == 5
  | 0x23 => s.psmBusy
  | _ => false

/-- A page's freeze takes effect, or is deferred. -/
def State.freezePage (s : State) (x : Nat × Nat) : State :=
  if s.frozen x.1 then s
  else if s.defers x.1 then (s.wr (F.PAGE_STAT_FREEZE_PEND (0x1000 * x.1)) 1).setBit F.DBG_PEND_PEND x.2
  else (if x.1 = 0x05 then s.rcuFreeze else s).freezeNow x.1 x.2

/-- What a block does when its freeze ends. -/
def State.thawed (s : State) (pg : Nat) : State :=
  match pg with
  | 0x05 => s.rcuThaw
  | 0x06 => s.resumeTraining
  | 0x07 => s.csqThaw
  | 0x08 => s.twnThaw
  | 0x09 => s.compactWaiting
  | 0x0B => s.rmeGo
  | 0x0C => s.rdxGo
  | 0x23 => s.psmThaw
  | 0x0F => s.stageMissed
  | _ => s

/-- A page's freeze ends once no request holds. -/
def State.thawPage (s : State) (x : Nat × Nat) : State :=
  if s.freezeAsked x.1 then s
  else
    let b := 0x1000 * x.1
    let was := s.frozen x.1
    let s := ((s.wr (F.PAGE_STAT_FROZEN b) 0).wr (F.PAGE_STAT_FREEZE_PEND b) 0).setBit F.DBG_PEND_PEND x.2 false
    if was then s.thawed x.1 else s

/-- A write of PAGE_CTRL.FREEZE of a PF0 page (R445). On a page that is not FREEZABLE the bit has no effect. -/
def State.setFreeze (s : State) (pg : Nat) (on : Bool) : State :=
  let s := s.wr (F.PAGE_CTRL_FREEZE (0x1000 * pg)) (b2n on)
  match freezable.find? (fun x => x.1 == pg) with
  | none => s
  | some x => if on then s.freezePage x else s.thawPage x

/-- Commands that FORCE_FREEZE stopped complete (R447). -/
def State.completeReleased (s : State) : State :=
  s.que.inflight.foldl (fun s c => match c.wait with
    | .released x => if csqOp (opcode c.e) then s.finish c.id x else s.complete c.id x
    | _ => s) s

/-- FROZEN of DBG_FREEZE_STAT, once ALL = 1 and no block is pending (R445). -/
def State.frozenAll (s : State) : State :=
  if s.on F.DBG_FREEZE_ALL ∧ s.rd F.DBG_PEND_PEND = 0 ∧ s.on F.DBG_FREEZE_STAT_FROZEN = false then
    (s.wr F.DBG_FREEZE_STAT_FROZEN 1).cause0 0x22 2
  else s

/-- ALL is written 1 (R445): the blocks that defer are pending before the others freeze. -/
def State.freezeAll (s : State) : State :=
  let s := s.wr F.DBG_FREEZE_ALL 1
  let s := (freezable.filter (fun x => s.defers x.1)).foldl State.freezePage s
  ((freezable.filter (fun x => !s.defers x.1)).foldl State.freezePage s).frozenAll

/-- ALL returns to 0 (R445, R447): blocks whose own FREEZE is 0 go on, and stopped commands complete. -/
def State.thawAll (s : State) : State :=
  let s := (s.wr F.DBG_FREEZE_ALL 0).wr F.DBG_FREEZE_STAT_FROZEN 0
  (freezable.foldl State.thawPage s).completeReleased

/-! ## FORCE_FREEZE (R447) -/

/-- A circuit of epoch e in DRAIN returns to its old image (R223), unless that has been released already. -/
def State.returnOld (s : State) (e : Epoch) (m : Nat × Circuit) : State :=
  let new := s.circuit m.1
  if m.2.holds && (if m.2.img.path = 1 then e.released else e.drained) && !(new.holds && new.img.sameLayout m.2.img) then s
  else
  let s := s.setCircuit m.1 m.2
  if !new.holds || (m.2.holds && new.img.sameLayout m.2.img) then s
  else
    let rings := new.img.rings.filter (fun r => !(m.2.holds && m.2.img.rings.contains r))
    let s := if new.img.path = 1 then s
      else (new.img.units.filter (fun u => !(m.2.holds && m.2.img.units.contains u))).foldl State.releaseUnit s
    let s := rings.foldl State.restRing s
    (new.img.subs.filter (fun p => !s.spareHeld 1024 p.1)).foldl (fun s p => s.restoreSubst p.1) s

/-- FORCE_FREEZE on CSQ (R223): every epoch that is not in RECORD is aborted; its EPOCH_COMMIT completes ABORTED at release. -/
def State.csqForce (s : State) : State × Bool :=
  let hit := s.csq.epochs.filter (fun e => decide (e.st < 5))
  (hit.foldl (fun s e =>
    let s := if e.st = 4 then e.moved.foldl (State.returnOld · e) s else s
    let s := match e.cmd with
      | some id => s.setWait id (.released { status := 6 })
      | none => s
    s.abortEpoch { e with cmd := none } 6) s, !hit.isEmpty)

/-- FORCE_FREEZE on RCU (R153, R156). -/
def State.rcuForce (s : State) : State × Bool :=
  let broke := s.searching || !s.rcu.attempts.isEmpty
  ((s.abortSearch 5).abandon (fun _ => true), broke)

/-- FORCE_FREEZE on LNK (R192): every training in progress ends FAILED with reason FORCE_FREEZE; only a retraining that fails degrades its port (R193). Each
unit comes with whether CSQ had asked for its training. -/
def State.lnkForce (s : State) (units : List (Nat × Bool)) : State × Bool :=
  (units.foldl (fun s u => if u.2 then (s.setUnitSt u.1 0 7).cause0 (0x10 + u.1 / 5) 8 else s.trainFailed u.1 7) s, !units.isEmpty)

/-- FORCE_FREEZE on JNL (R254, R255). -/
def State.jnlForce (s : State) : State × Bool :=
  let comp : Bool := decide (1 ≤ s.rd F.JNL_STAT_CSTATE ∧ s.rd F.JNL_STAT_CSTATE ≤ 5)
  let replay : Bool := decide (1 ≤ s.rd F.JNL_STAT_RSTATE ∧ s.rd F.JNL_STAT_RSTATE ≤ 4)
  let s := if comp then s.abandonCompact true else s
  (if replay then s.replayFail else s, comp || replay)

/-- Every armed PAGE_LOCK sequence is abandoned (R447). -/
def State.abandonLocks (s : State) : State :=
  let s := s.locks.foldl (fun s x => (s.wr (F.PAGE_STAT_LOCK_ARMED (0x1000 * x.1)) 0).wr (F.PAGE_STAT_LOCK_SEQ_ERR (0x1000 * x.1)) 1) s
  { s with locks := [] }

/-- FORCE_FREEZE on a drain (R344, R358): SLEEP_WAIT completes ABORTED at release, the device is in RUN. -/
def State.sleepForce (s : State) : State :=
  if s.rd F.CPM_PWR_STAT_PSTATE = 1 then
    (s.que.inflight.filter (fun c => c.wait == .drain)).foldl (fun s c => s.setWait c.id (.released { status := 6 })) (s.wr F.CPM_PWR_STAT_PSTATE 0)
  else s

/-- What a block of FORCE_FREEZE broke is noted in DBG_BROKEN. -/
def State.noteBroken (x : State × Bool) (bit : Nat) : State := if x.2 then x.1.setBit F.DBG_BROKEN_BROKEN bit else x.1

/-- FORCE and ALL written 1 together (R447): every block freezes at once and sequences break. SEQ_BROKEN is set, and the DBG_BROKEN bit of
each block whose sequence broke. -/
def State.forceFreeze (s : State) : State :=
  let training := ((upTo 80).filter (fun u => decide (1 ≤ s.unitSt u ∧ s.unitSt u ≤ 6) && !s.calOut u && !(s.unit u).back)).map (fun u => (u, (s.unit u).byCsq))
  let s0 := s.rd F.DBG_BROKEN_BROKEN
  let s := (s.wr F.DBG_FREEZE_ALL 1).wr F.DBG_BROKEN_BROKEN 0
  let s := State.noteBroken s.csqForce 3
  let s := State.noteBroken s.rcuForce 1
  let s := State.noteBroken (s.lnkForce training) 2
  let s := State.noteBroken s.twnForce 4
  let s := State.noteBroken s.jnlForce 5
  let s := State.noteBroken s.mssForce 6
  let s := State.noteBroken s.rmeForce 7
  let s := State.noteBroken s.rdxForce 8
  let s := State.noteBroken s.psmForce 9
  let s := (s.sleepForce.abandonLocks).wr F.DBG_PEND_PEND 0
  let s := s.wr F.DBG_BROKEN_BROKEN (s0 ||| s.rd F.DBG_BROKEN_BROKEN)
  let s := (s.wr F.DBG_FREEZE_STAT_SEQ_BROKEN 1).cause0 0x22 3
  (freezable.foldl (fun s x => if s.frozen x.1 then s else s.freezeNow x.1 x.2) s).frozenAll

/-! ## PAGE_CTRL.EN (R50, R425 to R427) -/

/-- Pages on which EN is fixed at 1 (R50). -/
def enFixed (pg : Nat) : Bool := [0x00, 0x01, 0x02, 0x0E, 0x40, 0x41, 0x42, 0x43, 0x44].contains pg

/-- Port p's EN goes to 0 (R426): the shutter closes, pairs and λS go DOWN as lost pairs. -/
def State.portOff (s : State) (p : Nat) : State :=
  let s := s.evalShutter p (s.lockCauses p)
  (upTo 5).foldl (fun s j =>
    let u := p * 5 + j
    if s.unitSt u = 0 then s
    else
      let s := if j < 4 ∧ s.unitSt u = 7 then s.pairLost u else s
      s.setUnitSt u 0 0) s

/-- What waits for a block goes on when it may run again (R425). -/
def State.blockGoes (s : State) (pg : Nat) : State :=
  match pg with
  | 0x05 => s.csqSettle
  | 0x06 => s.resumeTraining
  | 0x07 => s.resumePrepare.csqSettle
  | 0x09 => s.compactWaiting
  | 0x0A => s.resumeTrain.rmeGo.rdxGo
  | 0x0B => s.rmeGo
  | 0x0C => s.rdxGo
  | 0x0F => s.stageMissed
  | 0x20 => s.staStart
  | _ => if 0x10 ≤ pg ∧ pg < 0x20 then (s.evalShutter (pg - 0x10) (s.lockCauses (pg - 0x10))).resumeTraining else s

/-- What a block does when its EN goes to 0. -/
def State.blockStops (s : State) (pg : Nat) : State :=
  match pg with
  | 0x09 => s.jnlFlush
  | 0x21 => s.envStop
  | _ => if 0x10 ≤ pg ∧ pg < 0x20 then s.portOff (pg - 0x10) else s

/-- EN of a page takes a value. -/
def State.setEn (s : State) (pg : Nat) (on : Bool) : State :=
  if s.en pg = on then s
  else
    let s := s.wr (F.PAGE_CTRL_EN (0x1000 * pg)) (b2n on)
    if on then s.blockGoes pg else s.blockStops pg

/-- A write of PAGE_CTRL.EN of a PF0 page (R50, R370): none where a block stopped under R365 still has its record. -/
def State.enableWrite (s : State) (pg : Nat) (on : Bool) : Option State :=
  if enFixed pg then some s
  else if on ∧ s.fcu.stopped.any (fun x => x.1 == pg && s.on (F.FCU_REC_W0_VALID x.2)) = true then none
  else
    let s := if on then { s with fcu := { s.fcu with stopped := s.fcu.stopped.filter (fun x => x.1 != pg) } } else s
    some (s.setEn pg on)

end Sys2Proof.Machine
end

