-- ==== Sys2Proof/Machine/Reset.lean ====
section
/-! DEFINITION. SOFT_RST of a page (R49, R470), and the chip reset (R420 to R422). -/

namespace Sys2Proof.Machine

/-! ## Registers under SOFT_RST (R49) -/

/-- A TERMINATE entry is active (R51): ACTIVE or DEGRADED, since both carry traffic, and not DOWN (R51 does not say which states count; DESIGN
CHOICE: log entry 86). -/
def State.terminateActive (s : State) : Bool := s.csq.circuits.any (fun c => c.2.img.path == 0 && (c.2.state == 1 || c.2.state == 2))

/-- A key range whose slots hold a LOADED one (R470). -/
def State.rangeLoaded (s : State) (n : Nat) : Bool := s.sec.slots.any (fun x => x.2.loaded && s.slotOwner x.1 == n)

/-- Fields that SOFT_RST of their page keeps (R381, R421, R437, R470). -/
def State.softKeeps (s : State) (f : Fld) (i : Nat) : Bool :=
  [F.CPM_RST_CAUSE_POR, F.CPM_RST_CAUSE_PERST, F.CPM_RST_CAUSE_FATAL, F.CPM_RST_CAUSE_SOFTWARE, F.TWN_CFG_EN, F.TWN_CFG_ROLE_REQ, F.TWN_CFG_PORT,
   F.TWN_CFG_PEER, F.MSS_CFG_INTLV, F.FCU_PRIOR_VALID, F.DBG_FREEZE_ALL, F.DBG_FREEZE_FORCE, F.DBG_FREEZE_STAT_SEQ_BROKEN].contains f ||
  (decide (0xBC00 ≤ f.addr ∧ f.addr < 0xBE00) && s.on (F.ATM_STAT_BUSY 0xB000 ((f.addr - 0xBC00) / 64))) ||
  (f == F.GLB_NODE_ID_NODE_ID && s.terminateActive) || ((f == F.SEC_KEYRANGE_BASE i || f == F.SEC_KEYRANGE_COUNT i) && s.rangeLoaded i)

/-- Access codes of fields that SOFT_RST returns to reset (R49). -/
def softResets (locked : Bool) : Acc → Bool
  | .rw | .wo | .w1s | .w1c | .rc => true
  | .rwl => !locked
  | _ => false

/-- The page's block-specific fields return to reset (R49). -/
def State.softRegs (s : State) (pg : Nat) : State :=
  let locked := s.on (F.PAGE_STAT_LOCKED (0x1000 * pg))
  ((blockRows pg).filter (fun r => softResets locked r.acc)).foldl (fun t r =>
    (upTo r.count).foldl (fun t k =>
      let f := r.fld (r.first + k)
      if s.softKeeps f (r.first + k) then t else t.wr f f.reset) t) s

/-- Held LO values of pairs on a page are gone (R39, R49). -/
def State.dropHolds (s : State) (pg : Nat) : State :=
  s.req.foldl (fun s x => s.setReq x.1 { x.2 with hold := x.2.hold.filter (fun h => h.1 / 0x1000 != pg) }) s

/-- Every record of FCU is cleared (R381). Fences stay; a shutter cause stays while its port is fenced. -/
def State.fcuReset (s : State) : State :=
  let s := (upTo 128).foldl (fun s n => s.clr [F.FCU_REC_W0_VALID n, F.FCU_REC_W0_CLASS n, F.FCU_REC_W0_RAIL n, F.FCU_REC_W0_INJ n,
    F.FCU_REC_W0_MULTI n, F.FCU_REC_W0_ESC_HIT n, F.FCU_REC_W0_COUNT n, F.FCU_REC_W1_SCOPE_KIND n, F.FCU_REC_W1_SCOPE n, F.FCU_REC_W1_CODE n,
    F.FCU_REC_FIRST_TIME n]) s
  s.withShutters (fun s => { s with fcu := { s.fcu with fences := [], shuts := s.fcu.shuts.filter (fun x => s.portFenced x.2) } })

/-- The running PSM commands that a failure with reason FORCE_FREEZE holds back complete at once (R470). -/
def State.psmStop (s : State) : State :=
  let ids := s.psm.runs.map (fun r => r.2.id)
  let s := s.failRuns 6 (fun _ => true)
  s.que.inflight.foldl (fun s c => match c.wait with
    | .released x => if ids.contains c.id then s.complete c.id x else s
    | _ => s) s

/-- What SOFT_RST of a page does to its block's running state (R470). loops: PORT_SHUT_CTRL.LOOP before the fields' reset. -/
def State.softRunning (s : State) (pg : Nat) (loopBefore : Bool) : State :=
  match pg with
  | 0x01 => { s with cpm := { s.cpm with target := none } }
  | 0x03 => s.resetQueues0
  | 0x04 => s.evalLaser
  | 0x05 => (s.abortSearch 4).abandon (fun _ => true)
  | 0x06 => s.timeCtrlWritten
  | 0x09 => s.jnlAbort
  | 0x0A => s.mssForce.1
  | 0x0C => s.rdxStop { status := 6 }
  | 0x23 => s.psmStop
  | 0x0E => s.fcuReset
  | 0x0F => s.evrReset
  | 0x20 => s.staReset
  | 0x21 => s.envReset
  | 0x40 | 0x41 | 0x42 | 0x43 | 0x44 => s.req.foldl (fun s x => s.setReq x.1 { x.2 with wins := Tbl.set {} x.2.wins pg {} }) s
  | _ => if 0x10 ≤ pg ∧ pg < 0x20 then (s.shutCtrlWritten (pg - 0x10) loopBefore).portOff (pg - 0x10) else s

/-- A soft reset of a page's block (R49, R371, R470): its fields, held LO values and running state. -/
def State.resetBlock (s : State) (pg : Nat) : State :=
  let loopBefore : Bool := decide (0x10 ≤ pg) && decide (pg < 0x20) && s.on (F.PORT_SHUT_CTRL_LOOP (pg - 0x10))
  ((s.softRegs pg).dropHolds pg).softRunning pg loopBefore

/-- SOFT_RST of a PF0 page (R49): RST_BUSY until SOFT_RST_DONE; a second write meanwhile has no effect. -/
def State.softReset (s : State) (pg : Nat) : State :=
  if s.on (F.PAGE_STAT_RST_BUSY (0x1000 * pg)) then s
  else (s.resetBlock pg).wr (F.PAGE_STAT_RST_BUSY (0x1000 * pg)) 1

/-- SOFT_RST_DONE (R49). -/
def execSoftRstDone (pg : PageIx) (s : State) : Host.Outcome State Fault Refusal :=
  .next (s.wr (F.PAGE_STAT_RST_BUSY (0x1000 * pg)) 0)

/-! ## The chip reset (R420 to R423, R437) -/

/-- The fields AON keeps across a chip reset (R421), and LASER_STAT.FAULT, which is the level of the pin LASER_FAULT_N (R119). -/
def chipKeeps : List Fld :=
  [F.GLB_FORM_STRAP, F.GLB_FORM_FORM, F.FCU_PRIOR_SRC, F.FCU_PRIOR_CLASS, F.FCU_PRIOR_RAIL, F.FCU_PRIOR_INJ, F.FCU_PRIOR_VALID,
   F.FCU_PRIOR_TIME_TIME, F.FCU_TERM_LATCHED, F.FCU_TERM_SRC, F.FCU_TERM_RAIL, F.SEC_STAT_ROOT_LOCKED, F.SEC_STAT_ERASE, F.SEC_DBG_FAILS_COUNT,
   F.PFE_LASER_STAT_ILK_FAIL, F.PFE_LASER_STAT_FAULT, F.CPM_AON_TRIM_K, F.CPM_RST_CAUSE_POR, F.CPM_RST_CAUSE_PERST, F.CPM_RST_CAUSE_FATAL, F.CPM_RST_CAUSE_SOFTWARE,
   F.CPM_BOOT_CHIP_RESETS]

/-- Falls of LASER_EN still to be checked once LASER_EN is low (R120): a pin that is high now falls too. -/
def State.ilkFalls (s : State) : Nat :=
  s.rcu.ilkPending + (if s.on F.PFE_LASER_STAT_LASER_EN && !s.rcu.pulse then 1 else 0)

/-- A chip reset with its cause bit (R421, R437): everything returns to reset but what AON keeps, the flash and what stands outside the block; an
erase that had begun counts as DONE (R328), and a fall of LASER_EN is still checked (R120); only AON stays on (R436), and the sequencer enters SUPPLY (R423). -/
def State.chipReset (s : State) (cause : Fld) : State :=
  let s := s.tearProgram
  let t : State := { State.reset with pending := s.pending, out := s.out, freeCtr := s.freeCtr, boot := s.boot,
                                      jnl := s.jnl.kept,
                                      rcu := { ilkPending := s.ilkFalls, ilkHeld := s.rcu.ilkHeld } }
  let t := chipKeeps.foldl (fun t f => t.wr f (s.rd f)) t
  let t := if s.rd F.SEC_STAT_ERASE = 0 then t else t.wrs [(F.SEC_STAT_ERASE, 5), (F.SEC_STAT_ROOT_LOCKED, 1)]
  let t := (t.wr cause 1).inc F.CPM_BOOT_CHIP_RESETS
  let t := if cause = F.CPM_RST_CAUSE_FATAL then t.setBit (F.INT_CAUSE_CAUSE 0xE000) 4 else t
  t.wrs [(F.CPM_PWR_STAT_DOM_ON, 1), (F.CPM_BOOT_STAGE, 2)]

end Sys2Proof.Machine
end

