-- ==== Sys2Proof/Machine/Fcu.lean ====
section
/-! DEFINITION. The fault collector: classes, records, reactions, fences, injection, TERMINAL (R359 to R382, R474). -/

namespace Sys2Proof.Machine

/-! ## Sources (R361, R365, R382) -/

/-- The class the source table gives (R382); a tamper source's follows its SEC policy (R326). -/
def State.srcClass (s : State) (src : Nat) : Nat :=
  if src ≤ 2 then 4
  else if src = 3 ∨ src = 4 then 3
  else if src = 6 ∨ src = 36 ∨ src = 37 then 0
  else if src ∈ [7, 20, 24, 33, 39, 43] then 2
  else if 45 ≤ src ∧ src ≤ 49 then (if s.tamperPolicy (src - 45) = 0 then 1 else 2)
  else 1

/-- The class of an onset: a wire fault raises it one step (R361). -/
def State.onsetClass (s : State) (o : Onset) : Nat := if o.wire then min 4 (s.srcClass o.src + 1) else s.srcClass o.src

/-- The page of a source (R376, R382). -/
def srcPage (src scope code : Nat) : Nat := ((srcBit src scope code).map (·.1)).getD 0

/-- FCU samples a source's pair: it is assigned, and its source's power domain is on (R360). -/
def State.sampled (s : State) (o : Onset) : Bool := decide (o.src.val ≤ 53) && s.domOn (srcDom o.src o.scope o.code.toNat)

/-! ## Pairs (R359, R360) -/

/-- The encoding of a pair (R359). -/
def railOf (v : BitVec 2) : Rail := if v = 1 then .clear else if v = 2 then .error else .wire

/-- The next sample of a pair (R360): what is remembered after it, and the onset it makes, if any: a wire fault (true) at the second WIRE in a row, an error
(false) at an ERROR after CLEAR or after a wire fault. A single WIRE between two other values is a transition, which counts as no sample. -/
def PairMem.sample (m : PairMem) (v : Rail) : PairMem × Option Bool :=
  match v with
  | .wire =>
    if m.rail = .wire then (m, none)
    else if m.edge then ({ rail := .wire }, some true)
    else ({ rail := m.rail, edge := true }, none)
  | v => ({ rail := v }, if v = .error ∧ m.rail ≠ .error then some false else none)

/-- What FCU remembers of a source's pair: before its first sample the pair counts as CLEAR (R360). -/
def State.pairMem (s : State) (src : SrcIx) : PairMem := ((s.fcu.pairs.find? (fun x => x.1.src == src)).map (·.2)).getD {}

/-- Remember a pair. o: the last onset on it. -/
def State.setPair (s : State) (o : Onset) (m : PairMem) : State :=
  { s with fcu := { s.fcu with pairs := s.fcu.pairs.filter (fun x => x.1.src != o.src) ++ (if m = {} then [] else [(o, m)]) } }

/-- The own INT_CAUSE bit of a source's block, where its chapter defines one (R363): function, page, bit. -/
def srcInt (src kind scope code : Nat) : Option (Fn × Nat × Nat) :=
  match src with
  | 8 => some (0, 0x01, 2) | 9 => some (0, 0x01, 3)
  | 12 => if h : kind = 2 ∧ scope < 65 then some (⟨scope, h.2⟩, 1, 2) else some (0, 0x03, 2)
  | 13 => some (0, 0x04, 0) | 14 => some (0, 0x04, 1) | 15 => some (0, 0x04, 2)
  | 16 => some (0, 0x10 + scope, 0) | 17 => some (0, 0x10 + scope, 1) | 18 => some (0, 0x10 + scope, 2)
  | 19 => some (0, 0x05, 2) | 20 => some (0, 0x05, 3) | 21 => some (0, 0x05, 7) | 22 => some (0, 0x05, 4) | 23 => some (0, 0x05, 6)
  | 25 => some (0, 0x10 + scope, 11) | 26 => some (0, 0x10 + scope, 10)
  | 27 => some (0, 0x07, 1) | 28 => some (0, 0x07, 2) | 29 => some (0, 0x07, 3) | 30 => some (0, 0x07, 4) | 31 => some (0, 0x07, 5)
  | 32 => some (0, 0x08, code % 32) | 33 => some (0, 0x09, 4) | 34 => some (0, 0x09, 3) | 35 => some (0, 0x09, 5)
  | 38 => some (0, 0x0A, 0) | 39 => some (0, 0x0A, 3) | 40 => some (0, 0x0B, 0) | 41 => some (0, 0x0B, 3) | 42 => some (0, 0x0C, 1)
  | 44 => some (0, 0x23, 1) | 45 | 46 | 47 | 48 | 49 => some (0, 0x0D, 0)
  | 50 => some (0, 0x21, 0) | 51 => some (0, 0x21, 1) | 52 => some (0, 0x21, 2) | 53 => some (0, 0x21, 3)
  | _ => none

/-- The scopes a reaction of source src acts on: a LANE_PLL record acts on its group's four ports (R382). -/
def reactScopes (src kind scope : Nat) : List (Nat × Nat) :=
  if kind = 0 then [] else if src = 7 then (upTo 4).map (fun i => (1, scope + i)) else [(kind, scope)]

/-! ## Fences (R370, R474) -/

/-- Every command of partition n in flight completes FENCED (R370). -/
def State.fenceCmds (s : State) (n : Nat) : State :=
  let s := s.rdxFlr n
  (s.que.inflight.filter (fun c => c.fn.val == n)).foldl (fun s c => s.complete c.id { status := 2 }) s

/-- Changes that R199 would refuse under a new fence fail with FENCED (R221, Corners of Circuits; DEDUCED: log entry 25 for a partition). -/
def State.failFenced (s : State) (p : Change → Bool) : State :=
  (s.failChanges p 1).csqSettle

/-- A scope becomes fenced (R370): 1 a port, 2 a partition, 3 a stack. -/
def State.fenceScope (s : State) (x : Nat × Nat) : State :=
  let v := x.2
  let down (s : State) (p : Circuit → Bool) : State :=
    (s.csq.circuits.filter (fun c => p c.2)).foldl (fun s c => s.circuitDown c.1 2) s
  match x.1 with
  | 1 =>
    let s := s.setBit F.FCU_FENCE_PORTS v
    ((((down s (fun c => c.img.channels.any (fun ch => ch.1 == v))).failFenced (fun x => !x.isClear && x.img.ports.contains v)).rmePortFence v).psmPortFence
      v).rdxFence
  | 2 =>
    let s := s.setBit (F.FCU_FENCE_PART_PARTS ((v - 1) / 32)) ((v - 1) % 32)
    (((((down s (fun c => c.owner == v)).failFenced (fun x => x.owner == v)).rmePartFence v).psmPartFence v).rdxFence).fenceCmds v
  | 3 => (s.setBit F.FCU_FENCE_STACKS v).rdxFence.rmeGo
  | _ => s

/-- A scope number that FCU_FENCE_SET lists (R370). -/
def scopeOk (kind v : Nat) : Bool :=
  (kind == 1 && decide (v < 16)) || (kind == 2 && decide (1 ≤ v ∧ v ≤ 64)) || (kind == 3 && decide (v < 2))

/-- The reaction fence of a record of source src (R363, R370). -/
def State.fenceFor (s : State) (src : Nat) (x : Nat × Nat) : State :=
  let s := { s with fcu := { s.fcu with fences := if s.fcu.fences.contains (src, x) then s.fcu.fences else s.fcu.fences ++ [(src, x)] } }
  s.fenceScope x

/-- A write of FCU_FENCE_SET (R370, R373): none where its value is not listed. -/
def State.fenceSet (s : State) (v : Nat) : Option State :=
  let k := v % 4
  let n := v / 2 ^ 8 % 2 ^ 7
  if !scopeOk k n then none else if s.terminal then some s else some (s.fenceScope (k, n))

/-- A fence is lifted (R363, R370): no circuit comes back; a stack that is not READY goes on answering FENCED (R346); shutter causes whose
record is no longer VALID go. -/
def State.liftFence (s : State) (k n : Nat) : State :=
  match k with
  | 1 =>
    (s.setBit F.FCU_FENCE_PORTS n false).withShutters (fun s =>
      { s with fcu := { s.fcu with shuts := s.fcu.shuts.filter (fun x => x.2 != n || s.on (F.FCU_REC_W0_VALID x.1)) } })
  | 2 => s.setBit (F.FCU_FENCE_PART_PARTS ((n - 1) / 32)) ((n - 1) % 32) false
  | _ =>
    let s := s.setBit F.FCU_FENCE_STACKS n false
    let s := if s.rd (tstate n) = 4 ∨ s.mss.barred.contains n = true then s else s.setMss { s.mss with barred := s.mss.barred ++ [n] }
    s.rmeGo.rdxGo

/-- A write of FCU_UNFENCE (R370, R373): none where it is refused with BADVAL. -/
def State.unfenceWrite (s : State) (v : Nat) : Option State :=
  let k := v % 4
  let n := v / 2 ^ 8 % 2 ^ 7
  if !scopeOk k n || s.terminal || s.fcu.fences.any (fun x => x.2 == (k, n) && s.on (F.FCU_REC_W0_VALID x.1)) then none
  else some (s.liftFence k n)

/-! ## Reactions (R363, R365, R372, R373, R380) -/

/-- The shutter reaction on port p for source src (R118, R363). -/
def State.shutFor (s : State) (src p : Nat) : State :=
  if s.fcu.shuts.contains (src, p) then s
  else s.withShutters (fun s => { s with fcu := { s.fcu with shuts := s.fcu.shuts ++ [(src, p)] } })

/-- A block stops (R365): PAGE_STAT.FENCED and EN = 0. -/
def State.stopBlock (s : State) (src pg : Nat) : State :=
  { s.setEn pg false with fcu := { (s.setEn pg false).fcu with stopped := (s.setEn pg false).fcu.stopped ++ [(pg, src)] } }

/-- The NMA reaction is set for a source: its policy, or always for a tamper source whose policy is FENCE or ERASE (R364). -/
def State.nmaOn (s : State) (src : Nat) : Bool :=
  s.on (F.FCU_POL_NMA src) || (decide (45 ≤ src ∧ src ≤ 49) && s.tamperPolicy (src - 45) != 0)

/-- A TERMINAL onset (R373): FCU_TERM latches once, the shutters lock, LASER_EN falls, commands in flight complete ABORTED. -/
def State.enterTerminal (s : State) (src : Nat) (rail : Bool) : State :=
  if s.terminal then s
  else
    let s := s.withShutters (fun s => s.wrs [(F.FCU_TERM_LATCHED, 1), (F.FCU_TERM_SRC, src), (F.FCU_TERM_RAIL, b2n rail)])
    let s := (s.evalLaser.dropCopies (fun _ => true)).setRdx { s.rdx with cmds := [], waiting := [] }
    let s := { s with rcu := { s.rcu with calRuns := [] } }
    s.que.inflight.foldl (fun s c => s.complete c.id { status := 6 }) s

/-- The fences, shutters and alerts of class c for a further scope (R366). -/
def State.reactScope (s : State) (src c kind scope : Nat) : State :=
  let l := reactScopes src kind scope
  let tableF : Bool := [7, 24, 39].contains src
  let fence : Bool := (c == 1 && s.on (F.FCU_POL_FENCE src)) || (c == 2 && (tableF || decide (s.srcClass src < 2)))
  let s := if fence then l.foldl (fun s x => s.fenceFor src x) s else s
  if (c = 1 ∨ c = 2) ∧ s.on (F.FCU_POL_SHUT src) = true ∧ kind = 1 then l.foldl (fun s x => s.shutFor src x.2) s else s

/-- The alert reaction's part for a partition's VF (R68, R363). -/
def State.alertPart (s : State) (src c kind scope : Nat) : State :=
  if h : (1 ≤ c ∧ c ≤ 3 ∧ s.nmaOn src = true) ∧ kind = 2 ∧ scope < 65 then s.alert ⟨scope, h.2.2⟩ else s

/-- The non-maskable alert reaction (R68, R363). -/
def State.alertFor (s : State) (src c kind scope : Nat) : State :=
  (if 1 ≤ c ∧ c ≤ 3 ∧ s.nmaOn src = true then s.alert 0 else s).alertPart src c kind scope

/-- FCU reports a record as an event (R379, R386). -/
def State.recordEvent (s : State) (src c kind scope code : Nat) : State :=
  let sev := if c = 0 then 0 else if c = 1 then 1 else if c = 2 then 2 else 3
  s.event { page := 0x0E, code := src + c * 2 ^ 8, sev := sev, part := if kind = 2 then scope else 0,
            arg := kind + scope * 2 ^ 8 + code * 2 ^ 16 + s.rd (F.FCU_REC_W0_RAIL src) * 2 ^ 32 + s.rd (F.FCU_REC_W0_INJ src) * 2 ^ 33 }

/-- Sources of kind E, events without check bits (R382): their ERR_INJECT bits clear themselves (R376). -/
def eventSource (n : Nat) : Bool := !decide (n ∈ [0, 1, 2, 3, 4, 5, 6, 7, 17, 20, 24, 25, 36, 37, 38, 43, 52, 53])

/-- The interrupt reaction (R363): the class's bit, RAIL, and the source block's own bit, which injection on an event source leaves (R376). -/
def State.interruptFor (s : State) (o : Onset) (c : Nat) : State :=
  if c = 0 ∧ s.on (F.FCU_POL_INT o.src) = false then s
  else
    let s := s.cause0 0x0E (min c 2)
    let s := if s.on (F.FCU_REC_W0_RAIL o.src) then s.cause0 0x0E 3 else s
    match if o.inj && eventSource o.src then none else srcInt o.src o.kind o.scope o.code.toNat with
    | some x => s.cause x.1 x.2.1 x.2.2
    | none => s

/-- The reactions of a record whose class is now c, in the order of R380. A DEVICE-FATAL record is copied to FCU_PRIOR and its chip reset starts
once the sample's onsets are handled (R369, R372). -/
def State.react (s : State) (o : Onset) (c : Nat) : State :=
  let src := o.src.val
  if c = 4 then
    (s.enterTerminal src (decide (s.srcClass src < 4))).recordEvent src 4 o.kind o.scope o.code.toNat
  else if c = 3 then
    let s := s.wrs [(F.FCU_PRIOR_SRC, src), (F.FCU_PRIOR_CLASS, 3), (F.FCU_PRIOR_RAIL, s.rd (F.FCU_REC_W0_RAIL src)),
      (F.FCU_PRIOR_INJ, s.rd (F.FCU_REC_W0_INJ src)), (F.FCU_PRIOR_VALID, 1), (F.FCU_PRIOR_TIME_TIME, s.rd (F.FCU_REC_FIRST_TIME src))]
    let s := (s.recordEvent src 3 o.kind o.scope o.code.toNat).alertFor src 3 o.kind o.scope
    { s with fcu := { s.fcu with fatal := true } }
  else
    let raised : Bool := c == 2 && decide (s.srcClass src < 2)
    let s := s.reactScope src c o.kind o.scope
    let s := if raised ∧ o.kind = 0 then s.stopBlock src (srcPage src o.scope o.code.toNat) else s
    let s := if c = 2 ∧ src = 43 then s.resetBlock 0x0C else s
    ((s.recordEvent src c o.kind o.scope o.code.toNat).interruptFor o c).alertFor src c o.kind o.scope

/-- The class that a record takes: on GLB, CPM, HIF and FCU, whose EN is fixed, a rise to BLOCK-FATAL that would stop the block is a rise to
DEVICE-FATAL (R365). -/
def State.riseClass (s : State) (o : Onset) (c : Nat) : Nat :=
  if c = 2 ∧ s.srcClass o.src < 2 ∧ o.kind = 0 ∧ [0x00, 0x01, 0x02, 0x0E].contains (srcPage o.src o.scope o.code.toNat) = true then 3 else c

/-- DRY holds back the reactions of an injected onset of class DEVICE-FATAL or TERMINAL (R378): the interrupt, and ERR_N low for 10 µs. -/
def State.reactDry (s : State) (o : Onset) (c : Nat) : State :=
  if o.inj ∧ 3 ≤ c ∧ s.on F.FCU_CTRL_DRY = true then
    ({ s with fcu := { s.fcu with dryErrn := true } } : State).cause0 0x0E 2
  else s.react o c

/-- An onset writes a new record (R366). -/
def State.newRecord (s : State) (o : Onset) : State :=
  let n := o.src.val
  let c := s.riseClass o (s.onsetClass o)
  (s.wrs [(F.FCU_REC_W0_VALID n, 1), (F.FCU_REC_W0_CLASS n, c), (F.FCU_REC_W0_RAIL n, b2n o.wire), (F.FCU_REC_W0_INJ n, b2n o.inj),
    (F.FCU_REC_W0_MULTI n, 0), (F.FCU_REC_W0_ESC_HIT n, 0), (F.FCU_REC_W0_COUNT n, 1), (F.FCU_REC_W1_SCOPE_KIND n, o.kind),
    (F.FCU_REC_W1_SCOPE n, o.scope), (F.FCU_REC_W1_CODE n, o.code.toNat), (F.FCU_REC_FIRST_TIME n, s.time.now.toNat)]).reactDry o c

/-- An onset merges into a VALID record (R366, R368). -/
def State.mergeRecord (s : State) (o : Onset) : State :=
  let n := o.src.val
  let old := s.rd (F.FCU_REC_W0_CLASS n)
  let count := min (s.rd (F.FCU_REC_W0_COUNT n) + 1) 0xFFFF
  let esc := s.rd (F.FCU_POL_ESC n)
  let c0 := max old (s.onsetClass o)
  let hit : Bool := c0 == 0 && esc != 0 && decide (2 ^ esc ≤ count)
  let c := max old (s.riseClass o (if hit then 1 else c0))
  let other : Bool := o.kind.val != s.rd (F.FCU_REC_W1_SCOPE_KIND n) || o.scope != s.rd (F.FCU_REC_W1_SCOPE n)
  let kind := s.rd (F.FCU_REC_W1_SCOPE_KIND n)
  let scope := s.rd (F.FCU_REC_W1_SCOPE n)
  let s := s.wrs [(F.FCU_REC_W0_COUNT n, count), (F.FCU_REC_W0_CLASS n, c),
    (F.FCU_REC_W0_RAIL n, s.rd (F.FCU_REC_W0_RAIL n) ||| b2n o.wire), (F.FCU_REC_W0_INJ n, s.rd (F.FCU_REC_W0_INJ n) ||| b2n o.inj)]
  let s := if hit then s.wr (F.FCU_REC_W0_ESC_HIT n) 1 else s
  let s := if other then s.wr (F.FCU_REC_W0_MULTI n) 1 else s
  if old < c then
    let s := if other ∧ c < 3 then (s.reactScope n c kind scope).alertPart n c kind scope else s
    s.reactDry o c
  else
    let s := if o.inj ∧ 3 ≤ c ∧ s.on F.FCU_CTRL_DRY = true then s else s.recordEvent n c o.kind o.scope o.code.toNat
    if other ∧ c < 3 then (s.reactScope n c o.kind o.scope).alertFor n c o.kind o.scope else s

/-- FCU handles an onset it has sampled (R366, R400). -/
def State.handleOnset (s : State) (o : Onset) : State :=
  if !s.sampled o then s
  else
    let s := s.stat 30
    if s.on (F.FCU_REC_W0_VALID o.src) then s.mergeRecord o else s.newRecord o

/-- A chip reset that a DEVICE-FATAL record has asked for starts (R372). -/
def State.fatalReset (s : State) : State := if s.fcu.fatal then s.chipReset F.CPM_RST_CAUSE_FATAL else s

/-- Onsets in source order: each before the first with a higher source number. -/
def insertOnset (o : Onset) : List Onset → List Onset
  | [] => [o]
  | x :: t => if x.src.val ≤ o.src.val then x :: insertOnset o t else o :: x :: t

/-- The order of R369: TERMINAL onsets, then DEVICE-FATAL onsets, then the rest by source number. -/
def State.onsetOrder (s : State) (l : List Onset) : List Onset :=
  let l := l.foldl (fun acc o => insertOnset o acc) []
  l.filter (fun o => s.onsetClass o == 4) ++ l.filter (fun o => s.onsetClass o == 3) ++ l.filter (fun o => decide (s.onsetClass o < 3))

/-- FCU's next sample: the onsets that blocks have raised are handled (R360, R369). -/
def State.sample (s : State) : State :=
  ((s.onsetOrder s.fcu.raised).foldl State.handleOnset { s with fcu := { s.fcu with raised := [] } }).fatalReset

/-- The onset that a pair's trace may bring, a wire fault's or the fault's own. -/
def traceOnset (p : PairTrace) (wire : Bool) : Onset :=
  { src := p.src, wire := wire, kind := p.kind, scope := p.scope, code := p.code, inj := p.inj }

/-- One sample of a pair of source p.src (R360, R366): an onset is handled at once; a pair whose domain is off is ignored. -/
def State.pairSample (s : State) (p : PairTrace) (v : BitVec 2) : State :=
  let o := traceOnset p false
  if !s.sampled o then s
  else
    let r := (s.pairMem p.src).sample (railOf v)
    match r.2 with
    | some w => (((s.setPair { o with wire := w } r.1).errCause o.src o.scope o.code.toNat).handleOnset { o with wire := w }).fatalReset
    | none => s.setPair (((s.fcu.pairs.find? (fun x => x.1.src == p.src)).map (·.1)).getD o) r.1

/-- FAULT_ONSET (R359 to R361, R366): the pair of a source shows values at successive samples, and the onsets among them are handled. -/
def execFaultOnset (p : PairTrace) (s : State) : Host.Outcome State Fault Refusal := .next (p.samples.foldl (fun s v => s.pairSample p v) s)

/-! ## Acknowledgement (R367) -/

/-- VALID of source n's record is written 1 (R367). -/
def State.ackRecord (s : State) (n : Nat) : State :=
  if s.on (F.FCU_REC_W0_VALID n) = false ∨ s.rd (F.FCU_REC_W0_CLASS n) = 4 then s
  else
    let s := s.wr (F.FCU_REC_W0_VALID n) 0
    let s := s.withShutters (fun s => { s with fcu := { s.fcu with shuts := s.fcu.shuts.filter (fun x => x.1 != n || s.portFenced x.2),
                                                                   fences := s.fcu.fences.filter (fun x => x.1 != n) } })
    match s.fcu.pairs.find? (fun x => x.1.src.val == n && x.2.rail != .clear) with
    | some x => (s.newRecord { x.1 with wire := x.2.rail == .wire }).fatalReset
    | none => s

/-- DRY_ERRN_END (R378): 10 µs have passed. -/
def execDryErrnEnd (s : State) : Host.Outcome State Fault Refusal := .next { s with fcu := { s.fcu with dryErrn := false } }

/-! ## Policies (R364) -/

/-- The reactions R363 permits to be set for a source: bits 0 INT, 1 NMA, 2 ERRN, 3 FENCE, 4 SHUT, 5 BRST of FCU_POL. -/
def State.polMay (s : State) (n k : Nat) : Bool :=
  let c := s.srcClass n
  let port : Bool := decide (n ∈ [7, 16, 17, 18, 24, 25, 26])
  let hasScope : Bool := port || decide (n ∈ [12, 31, 36, 37, 38, 39, 40, 41, 44])
  match k with
  | 0 => c == 0
  | 1 => c == 1 || c == 2 || c == 3
  | 2 => c == 1 || c == 2
  | 3 => c == 1 && hasScope
  | 4 => (c == 1 || c == 2) && port
  | _ => false

/-- A reaction that always runs for a source: its bit reads 1 and ignores writes (R363, R364). -/
def State.polFixed (s : State) (n k : Nat) : Bool :=
  let c := s.srcClass n
  match k with
  | 0 => c == 1 || c == 2
  | 1 => decide (45 ≤ n ∧ n ≤ 49) && s.tamperPolicy (n - 45) != 0
  | 2 => c == 3 || c == 4
  | 3 => decide (n ∈ [7, 20, 24, 33, 39])
  | 5 => n == 43
  | _ => false

/-- The policy field of source n with bit number k. -/
def polFld (n : Nat) : Nat → Fld
  | 0 => F.FCU_POL_INT n
  | 1 => F.FCU_POL_NMA n
  | 2 => F.FCU_POL_ERRN n
  | 3 => F.FCU_POL_FENCE n
  | 4 => F.FCU_POL_SHUT n
  | _ => F.FCU_POL_BRST n

/-- A write of FCU_POL of source n (R364, R368, R382): the state, and whether BADVAL is set. ESC has an effect on CORRECTED sources only. -/
def State.polWrite (s : State) (n v : Nat) : State × Bool :=
  if 54 ≤ n then (s, false)
  else
    let (t, bad) := (upTo 6).foldl (fun (x : State × Bool) k =>
      if x.1.polFixed n k then x
      else if bitOf v k && !x.1.polMay n k then (x.1, true)
      else (x.1.wr (polFld n k) (b2n (bitOf v k)), x.2)) (s, false)
    (t.wr (F.FCU_POL_ESC n) (v / 2 ^ 8), bad)

/-! ## Injection (R376, R377) -/

/-- The kinds of scope that sources record (R382). -/
def srcKind (n : Nat) : Fin 4 :=
  if n ∈ [7, 16, 17, 18, 24, 25, 26] then 1
  else if n ∈ [12, 31, 40, 41, 44] then 2
  else if n ∈ [36, 37, 38, 39] then 3
  else 0

/-- The scope and CODE of an onset that injection raises: the spec states neither where the write names no port, partition, stack or detail, so
they are free (DESIGN CHOICE: log entry 23); ENV's CODE is 0 (R419), an SRAM source's its page. -/
def State.injOnset (s : State) (n : SrcIx) (wire : Bool) (page : Option Nat) : Onset × State :=
  let (v, s) := s.free
  let k := srcKind n.val
  let scope := match k, page with
    | 0, _ => 0
    | 1, some pg => if n = 7 then v.toNat % 4 * 4 else pg - 0x10
    | 1, none => if n = 7 then v.toNat % 4 * 4 else v.toNat % 16
    | 2, _ => v.toNat % 65
    | _, _ => v.toNat % 2
  let code := if n.val ∈ [4, 5, 6] then page.getD (v.toNat / 2 ^ 8 % 2 ^ 8)
    else if n.val ∈ [7, 19, 22, 23, 29, 31, 32] then v.toNat / 2 ^ 8 % 2 ^ 16
    else 0
  let k : Fin 4 := if k = 2 ∧ scope = 0 then 0 else k
  ({ src := n, wire := wire, kind := k, scope := scope, code := BitVec.ofNat 16 code, inj := true }, s)

/-- A write of FCU_RAIL_INJ (R377): the pair reads WIRE for 4 CORE cycles, a wire-fault onset where it does not read WIRE already; a pair that reads
ERROR reads it again after them, an error onset (R360). -/
def State.railInject (s : State) (v : Nat) : State :=
  let pat := v / 2 ^ 8 % 4
  if pat = 1 ∨ pat = 2 then
    let x := s.injOnset ⟨v % 128, Nat.mod_lt _ (by decide)⟩ true none
    match (s.pairMem x.1.src).rail with
    | .wire => x.2
    | .clear => x.2.onset x.1
    | .error => (x.2.onset x.1).onset { x.1 with wire := false }
  else s

/-- A write of ERR_INJECT on a page (R376): each checker whose bit is written 1 raises an onset; bits of event sources clear themselves. Bits
29 to 31 show in the onsets of later reads. -/
def State.errInject (s : State) (pg v : Nat) : State :=
  let srcs := (List.finRange 128).filter (fun n => match srcBit n.val (pg - 0x10) 0x100 with
    | some (p, i) => p == pg && decide (i < 29) && bitOf v i
    | none => false)
  let stay := srcs.foldl (fun w n => if eventSource n.val then match srcBit n.val (pg - 0x10) 0x100 with
    | some (_, i) => w - 2 ^ i
    | none => w else w) v
  srcs.foldl (fun s n =>
    let x := s.injOnset n false (some pg)
    x.2.onset x.1) (s.wr (F.ERR_INJECT_INJ (0x1000 * pg)) stay)

end Sys2Proof.Machine
end

