-- ==== Sys2Proof/Machine/Clock.lean ====
section
/-! DEFINITION. What passes at a cycle of the LOOP clock whatever is commanded (DESIGN CHOICE: log entry 3): fabric time (R349), FCU's sample (R360), and STA's
counters of CORE cycles (R278, R400, R401). -/

namespace Sys2Proof.Machine

/-- Units of sub in one unit of fabric time (DESIGN CHOICE: log entry 6). -/
def subUnit : Nat := 10000000000

/-- Fabric time advances by 12.8 ns × (1 + r) (R349). -/
def advanceCycle (t : TimeState) : TimeState :=
  let x := t.sub + ((8388608 : Int) * (1000000000 + t.rate)).toNat
  { t with now := t.now + BitVec.ofNat 64 (x / subUnit), sub := x % subUnit }

/-- Hundredths of CORE cycles in a LOOP cycle at an operating point (R333, R340). -/
def coreHundredths (op : Nat) : Nat := match op with | 0 => 800 | 1 => 1024 | 2 => 1280 | _ => 1600

/-- A unit has a data flit ready and no credit (R400); a replayed flit needs none (R176). -/
def State.creditWaits (s : State) (u : Nat) : Bool :=
  let x := s.unit u
  s.unitUp u && x.replay.isEmpty && !s.hasCredit u &&
    (match x.circ with
     | none => false
     | some c =>
       let l := s.circLink c
       s.placesOn c u && (if (s.circuit c).img.path = 2 then l.relay.any (fun r => r.side != x.side) else !l.again.isEmpty || !l.txq.isEmpty))

/-- A command waits for room in the change queue (R219). -/
def State.csqStalled (s : State) : Bool := s.que.inflight.any (fun c => c.wait == .admission)

/-- A partition waits in an RME stall (R401). -/
def State.partStalled (s : State) (n : Nat) : Bool :=
  s.stalledOps.any (fun o => o.fn.val == n)

/-- n CORE cycles pass: the counters of cycles (R400, R401). -/
def State.countCycles (s : State) (n : Nat) : State :=
  let t := if s.csqStalled || s.rmeStalled then s.stat 0 n else s
  let t := if (upTo 80).any s.creditWaits then t.stat 17 n else t
  (upTo 65).foldl (fun t p => if p ≠ 0 ∧ s.partStalled p = true then t.statPart p 0 n else t) t

/-- A LOOP cycle (R333): none while the root PLL is not locked (R354). -/
def State.loopCycle (s : State) : State :=
  if !s.on F.CPM_CLK_STAT_ROOT_LOCK then s
  else
    let x := s.time.coreSub + coreHundredths (s.rd F.CPM_OP_CUR)
    { (s.countCycles (x / 100)) with time := { advanceCycle s.time with coreSub := x % 100 } }

/-- What passes on an empty queue: nothing while HOST is off. -/
def State.tick (s : State) : State := if s.domOn 1 then s.sample.loopCycle.eraseStep else s

end Sys2Proof.Machine
end

