-- ==== Sys2Proof/Machine/Cpm.lean ====
section
/-! DEFINITION. Clocks, operating points, sleep and wake, pads and the time registers of the CPM page (R332 to R358, R456). -/

namespace Sys2Proof.Machine

/-! ## Wake, once its operating point is reached (R357) -/

/-- PSTATE (R356, R357). -/
def State.pstate (s : State) : Nat := s.rd F.CPM_PWR_STAT_PSTATE

/-- Change the power manager's state. -/
def State.setCpm (s : State) (c : CpmState) : State := { s with cpm := c }

/-- Change the fault collector's state. -/
def State.setFcu (s : State) (c : FcuState) : State := { s with fcu := c }

/-- The wake ends: the device is in RUN, WAKE is raised and recorded. -/
def State.enterRun (s : State) : State :=
  ((s.wr F.CPM_PWR_STAT_PSTATE 0).cause0 0x01 0).event
    { page := 0x01, code := 2, sev := 0, arg := s.rd F.CPM_PWR_STAT_WAKE_SRC + 16 * s.rd F.CPM_PWR_STAT_WAKE_PORT }

/-! ## The operating-point sequencer (R340 to R342, R355) -/

/-- The voltage of an operating point, in mV (R340). -/
def opMv (v : Nat) : Nat := 700 + 50 * v

/-- VOUT_COMMAND is written (R341). -/
def State.commandMv (s : State) (mv : Nat) : State := (s.wr F.CPM_VOUT_CMD_MV mv).send (.pmbus 0x21 mv)

/-- OP_FAIL (R342): the bit, the interrupt and the fault. -/
def State.opFailed (s : State) : State := ((s.wr F.CPM_OP_OP_FAIL 1).cause0 0x01 2).fault 8

/-- A change to operating point v starts (R341, R342, R355). Lowering moves the divider first; F_DOWN passes at once (DESIGN CHOICE: log entry 2). -/
def State.opBegin (s : State) (v : Nat) : State :=
  let cur := s.rd F.CPM_OP_CUR
  if v = cur then s
  else if s.on F.CPM_PMB_CFG_PMB_OK = false ∧ 0 < v then s.opFailed
  else
    let s := { s with cpm := { s.cpm with goal := v, reads := 0, prevMv := s.rd F.CPM_VOUT_CMD_MV } }
    let s := if v < cur then s.wr F.CPM_OP_CUR v else s
    (s.wr F.CPM_OP_OPSTATE 2).commandMv (opMv v)

/-- The sequencer reaches IDLE: the latest TARGET written meanwhile is taken in RUN and W_OP (R342), and W_OP ends (R357). -/
def State.opIdle (s : State) : State :=
  let s := s.wr F.CPM_OP_OPSTATE 0
  let s : State := match s.cpm.target with
    | some v => if s.pstate = 0 ∨ s.pstate = 10 then ({ s with cpm := { s.cpm with target := none } }).opBegin v else s
    | none => s
  if s.pstate = 10 ∧ s.rd F.CPM_OP_OPSTATE = 0 then s.enterRun else s

/-- The change fails (R342): the voltage before it is commanded again. -/
def State.opFail (s : State) : State := ((s.commandMv s.cpm.prevMv).opFailed).opIdle

/-- The change ends: OP_DONE. -/
def State.opEnd (s : State) : State := (s.cause0 0x01 1).opIdle

/-- TARGET is written (R342): taken at once in RUN while the sequencer is IDLE. -/
def State.targetWritten (s : State) (v : Nat) : State :=
  if s.pstate = 0 ∧ s.rd F.CPM_OP_OPSTATE = 0 then ({ s with cpm := { s.cpm with target := none } }).opBegin v
  else { s with cpm := { s.cpm with target := some v } }

/-- V_CMD_DONE (R342, R355). -/
def execVCmdDone (x : PmbEnd) (s : State) : Host.Outcome State Fault Refusal :=
  .next (if s.rd F.CPM_OP_OPSTATE ≠ 2 then s
    else match x with
      | .failed => s.opFail
      | .done => if s.rd F.CPM_OP_CUR < s.cpm.goal then s.wr F.CPM_OP_OPSTATE 3 else s.opEnd)

/-- READ_VOUT_DONE (R341, R342, R355): a read of V_WAIT ends it within ±10 mV of the target, or fails it as the 16th. -/
def execReadVoutDone (mv : BitVec 12) (x : PmbEnd) (s : State) : Host.Outcome State Fault Refusal :=
  .next (if s.rd F.CPM_OP_OPSTATE ≠ 3 then s
    else match x with
      | .failed => s.opFail
      | .done =>
        let s := { s.wr F.CPM_VOUT_READ_MV mv.toNat with cpm := { s.cpm with reads := s.cpm.reads + 1 } }
        let t := opMv s.cpm.goal
        if t ≤ mv.toNat + 10 ∧ mv.toNat ≤ t + 10 then s.wr F.CPM_OP_OPSTATE 4
        else if 16 ≤ s.cpm.reads then s.opFail else s)

/-- SETTLE_DONE (R341, R355): the divider rises; F_UP passes at once (DESIGN CHOICE: log entry 2). -/
def execSettleDone (s : State) : Host.Outcome State Fault Refusal :=
  .next (if s.rd F.CPM_OP_OPSTATE = 4 then (s.wr F.CPM_OP_CUR s.cpm.goal).opEnd else s)

/-! ## Clocks (R334, R335) -/

/-- AON_TRIM (R334): K from the AON ticks of one second. A ratio that is no multiple of 2^-16 ns is rounded to the nearer one; which way a tie
goes, and K where it does not fit its register, are free values (DESIGN CHOICE: log entry 5). -/
def execAonTrim (ticks : Nat) (s : State) : Host.Outcome State Fault Refusal :=
  .next (if !s.domOn 1 then s
    else
      let num := 10 ^ 9 * 65536
      let q := num / ticks
      if ticks = 0 ∨ 2 ^ 32 ≤ q + 1 then s.free.2.wr F.CPM_AON_TRIM_K s.free.1.toNat
      else if 2 * (num % ticks) = ticks then s.free.2.wr F.CPM_AON_TRIM_K (q + b2n (bitOf s.free.1.toNat 0))
      else s.wr F.CPM_AON_TRIM_K (if ticks < 2 * (num % ticks) then q + 1 else q))

/-- ROOT_PLL_LOCK_LOSS (R335). -/
def execRootPllLockLoss (s : State) : Host.Outcome State Fault Refusal :=
  .next (if s.domOn 1 ∧ s.on F.CPM_CLK_STAT_ROOT_LOCK then (s.wr F.CPM_CLK_STAT_ROOT_LOCK 0).fault 3 else s)

/-- LANE_PLL_LOCK_CHANGE (R335): the lane PLL of port group g. -/
def execLanePllLockChange (g : Fin 4) (locked : Bool) (s : State) : Host.Outcome State Fault Refusal :=
  .next (if !s.domOn 3 then s
    else
      let was := bitOf (s.rd F.CPM_CLK_STAT_LANE_LOCK) g
      let s := s.setBit F.CPM_CLK_STAT_LANE_LOCK g locked
      if was && !locked then s.fault 7 1 (4 * g.val) g.val else s)

/-- ALERT_N (R456): CPM reads STATUS_WORD. VOUT_OV is its bit 5, POWER_GOOD# bit 11, and VOUT_UV shows in bit 15 (PRESUMED: log entry 24). -/
def execAlertN (statusWord : BitVec 16) (s : State) : Host.Outcome State Fault Refusal :=
  .next (if !s.domOn 1 then s
    else
      let s := s.send (.pmbus 0x79 0)
      let w := statusWord.toNat
      if bitOf w 5 || bitOf w 11 || bitOf w 15 then s.fault 52 else s)

/-! ## Wake (R345, R346, R357) -/

/-- A domain goes on or off: its bit in DOM_ON; FCU forgets the pairs of a domain that is off (R360). -/
def State.setDom (s : State) (d : Nat) (on : Bool) : State :=
  (if on then s else s.forgetPairs d).setBit F.CPM_PWR_STAT_DOM_ON d on

/-- RING, LANE and MEM power on (R346, R357): self-refreshed stacks train without ZERO. -/
def State.powerDomains (s : State) : State :=
  let s := if s.domOn 3 then s else s.wr F.CPM_CLK_STAT_LANE_LOCK 0xF
  let s := s.withShutters (fun s => (((s.setDom 2 true).setDom 3 true).setDom 4 true).wr F.CPM_PWR_STAT_PSTATE 8)
  let s := if s.on F.CPM_PWR_STAT_MEM_SR then (s.wr F.CPM_PWR_STAT_MEM_SR 0).startTrain true else s
  s.evalLaser

/-- The wake starts (R357). -/
def State.startWake (s : State) (code port : Nat) : State :=
  let s := s.wrs [(F.CPM_PWR_STAT_WAKE_SRC, code), (F.CPM_PWR_STAT_WAKE_PORT, port)]
  let s := { s with cpm := { s.cpm with wake := none } }
  if s.cpm.hostOff then (s.wr F.CPM_PWR_STAT_PSTATE 6).send (.pmbus 0x01 0x80) else s.powerDomains

/-- A wake source (R345): it wakes a sleeping device, and is held during LINK and GATE (R356). -/
def State.wakeBy (s : State) (code port : Nat) : State :=
  if s.pstate = 5 then s.startWake code port
  else if s.pstate = 3 ∨ s.pstate = 4 then
    { s with cpm := { s.cpm with wake := if s.cpm.wake.isSome then s.cpm.wake else some (code, port) } }
  else s

/-- WAKE_N (R345). -/
def execWakeN (s : State) : Host.Outcome State Fault Refusal := .next (s.wakeBy 1 0)

/-- HOST_WAKE (R345). -/
def execHostWake (s : State) : Host.Outcome State Fault Refusal := .next (if s.on F.CPM_WAKE_EN_HOST then s.wakeBy 2 0 else s)

/-- LINK_DATA_WAKE (R345): a data flit for RME or RDX while ENGINE is off. -/
def execLinkDataWake (s : State) : Host.Outcome State Fault Refusal :=
  .next (if s.on F.CPM_WAKE_EN_LINK_DATA && !s.domOn 5 then s.wakeBy 3 0 else s)

/-- WAKE_RX (R187, R345): the wake pattern on port p. While HOST is off AON holds it, and WAKE_RX is set once HOST is on. -/
def execWakeRx (p : Port) (s : State) : Host.Outcome State Fault Refusal :=
  .next (
    let s := if s.domOn 1 then s.cause0 (0x10 + p.val) 12
      else if s.cpm.wakeRx.contains p.val then s else s.setCpm { s.cpm with wakeRx := s.cpm.wakeRx ++ [p.val] }
    if s.on F.CPM_WAKE_EN_OPT && bitOf (s.rd F.CPM_WAKE_PORTS_PORTS) p then s.wakeBy 4 p.val else s)

/-- WAKE_TIMER (R345). -/
def execWakeTimer (s : State) : Host.Outcome State Fault Refusal :=
  .next (if s.on F.CPM_WAKE_EN_TIMER && s.rd F.CPM_WAKE_TIMER_MS != 0 then s.wakeBy 5 0 else s)

/-! ## Sleep entry (R343, R344, R347, R348, R356) -/

/-- PWR_MODE is legal (R343): some domain goes off, and R337 holds. -/
def State.modeLegal (s : State) : Bool :=
  let e := s.on F.CPM_PWR_MODE_ENGINE_OFF
  let l := s.on F.CPM_PWR_MODE_LANE_OFF
  let m := s.rd F.CPM_PWR_MODE_MEM != 0
  let r := s.on F.CPM_PWR_MODE_RING_OFF
  let h := s.on F.CPM_PWR_MODE_HOST_OFF
  (e || l || m || r || h) && (!r || l) && (!m || e) && (!h || (r && l && e && m))

/-- The checks of R344, in order: the DETAIL of the first that holds. -/
def State.sleepBad (s : State) : Option Nat :=
  let cs := s.csq.circuits.map (·.2)
  let lane := s.on F.CPM_PWR_MODE_LANE_OFF
  let ring := s.on F.CPM_PWR_MODE_RING_OFF
  if !s.modeLegal then some 0x10
  else if s.csq.epochs ≠ [] ∨ s.csq.slots.any (fun x => x.2.st == 1) = true then some 0x11
  else if lane && (cs.any (fun c => c.img.path != 1 && c.state != 0 && c.state != 4) || !s.psm.runs.isEmpty || s.on F.TWN_CFG_EN) then some 0x12
  else if ring && !s.on F.CPM_PWR_MODE_DROP_THROUGH && cs.any (fun c => c.img.path == 1 && (c.state == 1 || c.state == 2)) then some 0x13
  else if ring && s.searching then some 0x14
  else if s.on F.CPM_PWR_MODE_HOST_OFF && decide (s.rd F.JNL_STAT_RSTATE ∈ [1, 2, 3, 4]) then some 0x15
  else none

/-- The mode that this sleep enters: CPM_PWR_MODE as it stood when SLEEP_WAIT was checked (DEDUCED: log entry 95). -/
def State.modeBit (s : State) (i : Nat) : Bool := bitOf s.cpm.mode i

/-- CSQ clears every THROUGH entry without an epoch, and JNL appends the clears in a side group (R348). -/
def State.dropThrough (s : State) : State :=
  let l := s.csq.circuits.filter (fun x => x.2.img.path == 1 && x.2.state != 0)
  if l = [] then s
  else
    let s := l.foldl (fun s x => (if x.2.holds then x.2.img.rings.foldl State.restRing s else s).setCircuit x.1 {}) s
    s.sideGroup (l.map (fun x => deltaOf x.1 {}))

/-- SLEEP_WAIT (R344, R356): checked once every earlier command of PF0 has completed (R85); the drain begins. -/
def execSleepWait (f : Fn) (e : Block64) (s : State) : Host.Outcome State Fault Refusal :=
  .next (
    if f.val = 0 ∧ s.que.inflight.any (fun c => c.fn == f && !c.gone && c.wait != .unstarted) = true then s
    else s.command 0x02 0x01 f e (fun c s =>
      match s.sleepBad with
      | some d => s.complete c.id { status := 4, detail := d }
      | none =>
        let s := ((s.setWait c.id .drain).wr F.CPM_PWR_STAT_PSTATE 1).setCpm { s.cpm with mode := (s.peek 0x1060).toNat }
        if s.modeBit 4 ∧ s.modeBit 8 then s.dropThrough else s))

/-- The SLEEP_WAIT in its drain. -/
def State.sleeper (s : State) : Option Cmd := if s.pstate = 1 then s.que.inflight.find? (fun c => c.wait == .drain) else none

/-- The device stays awake, in RUN (R344): a TARGET written meanwhile is taken. -/
def State.stayAwake (s : State) : State :=
  let s := s.wr F.CPM_PWR_STAT_PSTATE 0
  if s.rd F.CPM_OP_OPSTATE = 0 then s.opIdle else s

/-- Everything R356 waits for has ended, and the completion entry can be written. -/
def State.drained (s : State) (c : Cmd) : Bool :=
  s.que.inflight.all (fun d => d.id == c.id) && s.rme.ops.all (fun o => o.tag.isNone || o.stage == .quarantined) && s.psm.runs.isEmpty &&
    s.jnl.durable == s.jnl.asked && (c.noEntry || !s.on (F.Q_CTRL_CPL_EN (qBase 0)) || s.canHost 0)

/-- Pads are held before a domain goes off (R347). -/
def State.hold (s : State) (groups : List Nat) : State := groups.foldl (fun s g => s.setBit F.CPM_PAD_HOLD_HELD g) s

/-- MEM switches off (R337, R346): to self-refresh, or with the contents lost and every stack IDLE. -/
def State.memOff (s : State) : State :=
  if s.domOn 4 = false then s
  else
    let s := s.setDom 4 false
    if s.modeBit 2 then
      let idle (s : State) (k : Nat) : State := if 1 ≤ s.rd (tstate k) ∧ s.rd (tstate k) ≤ 3 then s.wr (tstate k) 0 else s
      (idle (idle s 0) 1).wr F.CPM_PWR_STAT_MEM_SR 1
    else
      (s.setMss { s.mss with mem := [], poison := [], barred := [0, 1] }).wrs [(tstate 0, 0), (tstate 1, 0), (F.MSS_STAT_TRAIN_PCT, 0)]

/-- LANE switches off (R346): every pair and λS is DOWN. -/
def State.laneOff (s : State) : State :=
  let s := (upTo 80).foldl (fun s u => s.setUnitSt u 0 0) ((s.setDom 3 false).wr F.CPM_CLK_STAT_LANE_LOCK 0)
  { s with lnk := {} }

/-- RING switches off (R153, R346, R347, R356): attempts are abandoned, a search aborts, every ring is OFF, OPEN is cleared on every port, LASER_EN is held low until
PF0 sets EN. -/
def State.ringOff (s : State) : State :=
  let s := ((s.abandon (fun _ => true)).abortSearch 3).allRingsOff.hold [1]
  let s := s.withShutters (fun s =>
    let s := { s with rcu := { s.rcu with injectors := false, everDone := false } }
    (upTo 16).foldl (fun s p => s.wr (F.PORT_SHUT_CTRL_OPEN p) 0) (s.setDom 2 false))
  (s.wr F.PFE_LASER_CTRL_EN 0).evalLaser

/-- Fields that AON retains while HOST is off beside the RW, RWL and WOS fields (R339, R421): lock states, statistics, event numbers, link
state, held alerts and what waits for the host, which no function is reset for (R70, R471), and what AON itself holds. -/
def retained (a : Nat) : List Fld :=
  let b := a - a % 0x1000
  [F.PAGE_STAT_LOCKED b, F.PAGE_STAT_LOCK_ARMED b, F.PAGE_STAT_LOCK_SEQ_ERR b, F.CMDQ_HEAD_HEAD b, F.CPLQ_TAIL_TAIL b, F.CPLQ_TAIL_PHASE b] ++
    chipKeeps ++
    [F.EVR_SEQ_NEXT, F.STA_PERIOD_PERIOD, F.STA_START_TIME, F.STA_FLAGS_FLAGS, F.STA_SNAP_PERIOD_PERIOD, F.STA_SNAP_START_TIME,
     F.STA_SNAP_END_TIME, F.STA_SNAP_FLAGS_FLAGS, F.HIF_LINK_STAT_SPEED, F.HIF_LINK_STAT_WIDTH, F.HIF_LINK_STAT_FLIT, F.HIF_LINK_STAT_REVERSED,
     F.HIF_LINK_STAT_UP, F.HIF_UCIE_STAT_MODULES, F.HIF_UCIE_STAT_RATE, F.HIF_UCIE_STAT_SB_UP, F.HIF_UCIE_STAT_MB_UP, F.HIF_UCIE_STAT_REPAIRED,
     F.HIF_NMA_PEND0_PEND, F.HIF_NMA_PEND1_PEND, F.HIF_NMA_PEND2_PEND, F.HIF_VF_STAT_NUM_VFS, F.HIF_VF_STAT_VF_EN, F.CPM_PMB_CFG_VOUT_EXP, F.CPM_PMB_CFG_PMB_OK, F.CPM_PWR_STAT_DOM_ON, F.CPM_PWR_STAT_MEM_SR,
     F.CPM_PWR_STAT_PSTATE, F.CPM_PWR_STAT_WAKE_SRC, F.CPM_PWR_STAT_WAKE_PORT, F.CPM_PAD_HOLD_HELD, F.CPM_BOOT_STAGE]

/-- AON retains the field with this key while HOST is off (R339). -/
def retainsKey (k : Nat) : Bool :=
  let a := k / 32
  (retained a).any (fun f => f.key == k) || (decide (0x20100 ≤ a ∧ a < 0x20300)) ||
    (fieldsAt (pageRows a) a).any (fun x => x.2.1.key == k && (x.1.acc == .rw || x.1.acc == .rwl || x.1.acc == .wos))

/-- HOST switches off (R339, R353): what AON retains stays, everything else returns to reset; the flash, the queue of waiting commands and what
was sent stand outside. -/
def State.hostGone (s : State) : State :=
  let s := s.tearProgram
  { State.reset with
    pending := s.pending, out := s.out, freeCtr := s.freeCtr, boot := s.boot, locks := s.locks,
    regs := s.regs.filter (fun x => retainsKey x.1),
    time := { now := s.time.now },
    host := s.host,
    req := s.req.map (fun x => (x.1, { cursor := x.2.cursor, wins := x.2.wins.map (fun w => (w.1, { base := w.2.base })) })),
    rcu := { rings := s.rcu.rings, chans := s.rcu.chans, ilkPending := s.ilkFalls, ilkHeld := s.rcu.ilkHeld },
    jnl := s.jnl.kept,
    mss := { mem := s.mss.mem, poison := s.mss.poison, barred := s.mss.barred },
    sec := { kek := s.sec.kek },
    fcu := { supplyFail := s.fcu.supplyFail, wakeSupply := s.fcu.wakeSupply },
    evr := s.evr, sta := s.sta,
    cpm := { s.cpm with target := none, goal := 0, reads := 0, prevMv := 700, tSleep := s.time.now.toNat, hostOff := true, tamperHeld := false } }

/-- HOST_OFF of the mode: the sequencer steps to OP0, T_sleep is captured, HOST and the regulator go off (R353, R356). -/
def State.hostOffNow (s : State) : State :=
  let s := s.hold [0, 2, 3]
  let s := if s.rd F.CPM_VOUT_CMD_MV = 700 then s else s.commandMv 700
  ((s.envStop.setDom 1 false).hostGone).send (.pmbus 0x01 0)

/-- GATE (R356): the domains of the mode switch off, ENGINE first; then the device sleeps, or wakes by a source that was held. -/
def State.gate (s : State) (hostOff : Bool) : State :=
  let s := (s.wr F.CPM_PWR_STAT_PSTATE 4).inc F.CPM_SLEEPS_COUNT
  let s := if s.en 0x20 then s.setBit F.STA_FLAGS_FLAGS 1 else s
  let s := s.setOps (s.rme.ops.filter (fun o => o.stage != .quarantined))
  let s := if s.modeBit 0 then s.setDom 5 false else s
  let s := if s.modeBit 2 || s.modeBit 3 then s.memOff else s
  let s := if s.modeBit 1 then s.laneOff else s
  let s := if s.modeBit 4 then s.ringOff else s
  let s := if hostOff then s.hostOffNow else s
  let s := s.wr F.CPM_PWR_STAT_PSTATE 5
  match s.cpm.wake with
  | some w => s.startWake w.1 w.2
  | none => s

/-- An erase is under way: GATE waits for it (R358). -/
def State.erasing (s : State) : Bool := decide (1 ≤ s.rd F.SEC_STAT_ERASE ∧ s.rd F.SEC_STAT_ERASE ≤ 4)

/-- SLEEP_DRAIN_DONE (R344, R356): SLEEP_WAIT completes OK; then LINK where HOST goes off, else GATE. -/
def execSleepDrainDone (s : State) : Host.Outcome State Fault Refusal :=
  .next (match s.sleeper with
    | none => s
    | some c =>
      if !s.drained c || s.erasing then s
      else
        let s := ((s.wr F.CPM_PWR_STAT_PSTATE 2).complete c.id {}).event
          { page := 0x01, code := 1, sev := 0, arg := s.cpm.mode }
        if s.modeBit 5 then s.wr F.CPM_PWR_STAT_PSTATE 3 else s.gate false)

/-- SLEEP_DRAIN_TIMEOUT (R344): DRAIN_MAX has passed. -/
def execSleepDrainTimeout (s : State) : Host.Outcome State Fault Refusal :=
  .next (match s.sleeper with
    | none => s
    | some c => ((s.complete c.id { status := 3 }).cause0 0x01 5).stayAwake)

/-- SLEEP_LINK_IDLE (R356): the host link is in L1.1, or the UCIe main band is idle. -/
def execSleepLinkIdle (s : State) : Host.Outcome State Fault Refusal := .next (if s.pstate = 3 ∧ s.erasing = false then s.gate true else s)

/-- LINK_WAIT_EXPIRE (R356): HOST stays on, and the rest of the mode applies. -/
def execLinkWaitExpire (s : State) : Host.Outcome State Fault Refusal :=
  .next (if s.pstate = 3 ∧ s.erasing = false then ((s.wr F.CPM_PWR_STAT_HOST_KEPT 1).cause0 0x01 4).gate false else s)

/-! ## The states of the wake (R353, R354, R357) -/

/-- READ_VOUT has been read at OP0 while the regulator answers (R341, R357, R423): READ_MV is a free value, within 10 mV of OP0 where the
voltage was confirmed (DESIGN CHOICE: log entry 5). -/
def State.voutRead (s : State) (ok : Bool) : State :=
  if s.on F.CPM_PMB_CFG_PMB_OK then
    let (v, t) := s.free
    t.wr F.CPM_VOUT_READ_MV (if ok then opMv 0 - 10 + v.toNat % 21 else v.toNat)
  else s

/-- The supply has not reached OP0 within 2 ms: ERR_N low until it does, and the failure is reported once HOST is on (R357, R375). -/
def State.supplyMissed (s : State) : State := { s with fcu := { s.fcu with supplyFail := true, wakeSupply := true } }

/-- The supply has reached OP0. -/
def State.supplyMet (s : State) : State := { s with fcu := { s.fcu with supplyFail := false } }

/-- SUPPLY of start-up ends (R423): FUSE follows where PERST_N is high or the straps are unassigned, else WAIT_PERST. -/
def State.supplyNext (s : State) : State :=
  s.supplyMet.wr F.CPM_BOOT_STAGE (if s.rd F.GLB_FORM_FORM = 3 ∨ s.boot.perstLow = false then 4 else 3)

/-- WAKE_SUPPLY is raised once HOST is on (R357, R423). -/
def State.supplyReport (s : State) : State := if s.fcu.wakeSupply then (s.setFcu { s.fcu with wakeSupply := false }).fault 10 else s

/-- W_SUPPLY_DONE (R357). -/
def execWSupplyDone (ok : Bool) (s : State) : Host.Outcome State Fault Refusal :=
  .next (if s.pstate ≠ 6 then s
    else if ok then (s.voutRead true).supplyMet.wrs [(F.CPM_PWR_STAT_PSTATE, 7)] else (s.voutRead false).supplyMissed)

/-- SUPPLY_RETRY (R357, R423): another attempt while the supply has failed, at wake or in SUPPLY of start-up. -/
def execSupplyRetry (ok : Bool) (s : State) : Host.Outcome State Fault Refusal :=
  .next (if !s.fcu.supplyFail then s
    else
      let s := (s.send (.pmbus 0x01 0x80)).voutRead ok
      if !ok then s
      else if s.pstate = 6 then s.supplyMet.wr F.CPM_PWR_STAT_PSTATE 7
      else if s.rd F.CPM_BOOT_STAGE = 2 then s.supplyNext
      else s)

/-- Fabric time restarts at T_sleep + C × K, and its uncertainty follows (R353); a saturated C saturates it. -/
def State.restartTime (s : State) (c : Nat) : State :=
  let c := min c (2 ^ 48 - 1)
  let ck := c * s.rd F.CPM_AON_TRIM_K
  let u := if c = 2 ^ 48 - 1 then 0xFFFFFFFF else min 0xFFFFFFFF ((200 * ck + (10 ^ 6 * 65536 - 1)) / (10 ^ 6 * 65536))
  { s.wrs [(F.CPM_SLEEP_TICKS_C, c), (F.CPM_TIME_STAT_TIME_STATE, 5), (F.CPM_TIME_UNCERT_TIME_UNCERT_NS, u)]
    with time := { s.time with now := BitVec.ofNat 64 (s.cpm.tSleep + ck), sub := 0 },
         sta := { s.sta with since := (s.cpm.tSleep + ck) % 2 ^ 64 } }

/-- Freezes requested before the sleep hold again (R339, R445). -/
def State.refreeze (s : State) : State := ((freezable.filter (fun x => s.freezeAsked x.1)).foldl State.freezePage s).frozenAll

/-- The root PLL starts and locks; an inverted REFCLK pair is corrected and reported (R332). -/
def State.rootLocks (s : State) (inverted : Bool) : State :=
  s.wrs [(F.CPM_CLK_STAT_ROOT_LOCK, 1), (F.CPM_CLK_STAT_REFCLK_INV, b2n inverted)]

/-- W_HOST_DONE (R332, R353, R354, R357): HOST is restored, fabric time restarts, and the wake goes on unless REFCLK has changed. ticks is C, refclk the
REFCLK cycles over 4,096 AON ticks, inverted the polarity of REFCLK. -/
def execWHostDone (ticks refclk : Nat) (inverted : Bool) (s : State) : Host.Outcome State Fault Refusal :=
  .next (if s.pstate ≠ 7 ∨ s.cpm.hostOff = false then s
    else
      let k := s.rd F.CPM_AON_TRIM_K
      let s := (s.setDom 1 true).setCpm { s.cpm with hostOff := false }
      let s := s.restartTime ticks
      let s := if s.on F.LNK_TIME_CTRL_ROOT then s.rootStratum else s
      let s := (s.cpm.wakeRx.foldl (fun s p => s.cause0 (0x10 + p) 12) s).setCpm { s.cpm with wakeRx := [] }
      let s := if s.en 0x20 then s.setBit F.STA_FLAGS_FLAGS 3 else s
      let s := if s.cpm.tamperHeld then (s.setCpm { s.cpm with tamperHeld := false }).tamper 3 else s
      let s := s.supplyReport
      let s := s.refreeze
      let s := s.functions.foldl State.releaseHost s
      let off : Int := 1024 * (refclk : Int) - 10 * (k : Int)
      if 10 * k < off.natAbs * 1000 then
        ((s.wrs [(F.CPM_CLK_STAT_REFCLK_CHANGED, 1), (F.CPM_CLK_STAT_BYPASS, 1)]).cause0 0x01 3).fault 9
      else (s.rootLocks inverted).powerDomains)

/-- W_DOMAINS_DONE (R357): RING, LANE and MEM are on, and MEM from SR is trained. -/
def execWDomainsDone (s : State) : Host.Outcome State Fault Refusal :=
  .next (
    let busy (k : Nat) : Bool := decide (1 ≤ s.rd (tstate k) ∧ s.rd (tstate k) ≤ 3)
    if s.pstate = 8 ∧ (busy 0 || busy 1) = false then s.wr F.CPM_PWR_STAT_PSTATE 9 else s)

/-- W_ENGINE_DONE (R346, R357): ENGINE is on, the blocks go on, and the sequencer moves to TARGET. -/
def execWEngineDone (s : State) : Host.Outcome State Fault Refusal :=
  .next (if s.pstate ≠ 9 then s
    else
      let s := (s.setDom 5 true).wr F.CPM_PWR_STAT_PSTATE 10
      let s := [0x05, 0x06, 0x0A, 0x0B, 0x0C].foldl (fun s pg => if s.live pg then s.blockGoes pg else s) s
      let s := s.setCpm { s.cpm with target := some (s.rd F.CPM_OP_TARGET) }
      if s.rd F.CPM_OP_OPSTATE = 0 then s.opIdle else s)

/-- REFCLK_CONFIRM (R354): in BYPASS the PLLs lock, the ticks counted since the restart are added, and the wake resumes. -/
def State.refclkConfirmed (s : State) (ticks : Nat) (inverted : Bool) : State :=
  if s.on F.CPM_CLK_STAT_BYPASS then
    let s := s.restartTime (s.rd F.CPM_SLEEP_TICKS_C + ticks)
    ((s.wrs [(F.CPM_CLK_STAT_REFCLK_CHANGED, 0), (F.CPM_CLK_STAT_BYPASS, 0)]).rootLocks inverted).powerDomains
  else s.wr F.CPM_CLK_STAT_REFCLK_CHANGED 0

/-- PAD_RELEASE (R347): every held group whose domain is on. -/
def State.padsReleased (s : State) : State :=
  let held := s.rd F.CPM_PAD_HOLD_HELD
  let keep (g d : Nat) : Nat := if bitOf held g && !s.domOn d then 2 ^ g else 0
  ((s.wr F.CPM_PAD_HOLD_HELD (keep 0 1 + keep 1 2 + keep 2 1 + keep 3 1)).evalLaser).compactWaiting

/-- The root node leaves ESTIMATED (R351). -/
def State.rootLeaves (s : State) : State :=
  if s.on F.LNK_TIME_CTRL_ROOT ∧ s.rd F.CPM_TIME_STAT_TIME_STATE = 5 then (s.wr F.CPM_TIME_STAT_TIME_STATE 0).evalTime else s

/-- A write of CPM_TIME_SET takes effect (R350, R351); none where it is refused with BADVAL. -/
def State.timeSet (s : State) (t : DWord) : Option State :=
  if s.on F.LNK_TIME_CTRL_ROOT || !s.on F.LNK_TIME_CTRL_PARENT_EN then some (s.stepTime t).rootLeaves else none

end Sys2Proof.Machine
end

