-- ==== Sys2Proof/Machine/Window.lean ====
section
/-! DEFINITION. The table windows 0x40 to 0x44 (R43 to R47): what each entry shows, and what a commit changes (R158, R195, R224, R225, R331,
R402). Window state is held for PF0 and for the debug aperture. -/

namespace Sys2Proof.Machine

/-! ## The tables -/

/-- ENTRIES and ENTRY_SIZE of a window page. -/
def winInfo (pg : Nat) : Nat × Nat :=
  match pg with
  | 0x40 => (1024, 64) | 0x41 => (16, 32) | 0x42 => (1024, 32) | 0x43 => (2480, 32) | _ => (64, 64)

/-- The 32-bit halves of a 64-bit value. -/
def halves (v : Nat) : List Nat := [v % 2 ^ 32, v / 2 ^ 32 % 2 ^ 32]

/-- A circuit-table entry (R224): the active image, and the next image of the circuit's first change. -/
def State.circuitWords (s : State) (c : Nat) : List Nat :=
  let x := s.circuit c
  let next := match s.csq.changes.find? (fun y => y.circ == c) with
    | some y =>
      if y.isClear then [y.st + 16 * y.fail, y.epoch, 0, circW0 0 0 y.owner {}, Image.w1 {}, Image.w2 {}]
      else [y.st + 16 * y.fail, y.epoch, 0, circW0 1 0 y.owner y.img, y.img.w1, y.img.w2]
    | none => [0, 0, 0, 0, Image.w1 {}, 0]
  [circW0 x.state x.down x.owner x.img, x.img.w1, x.img.w2, x.epoch, x.label] ++ next ++ [0, 0, 0, 0, 0]

/-- A schedule slot (R225). -/
def State.slotWords (s : State) (n : Nat) : List Nat :=
  let x := s.slot n
  halves x.act ++ [x.epoch, x.st] ++ halves x.fire ++ [0, 0]

/-- The circuit a key slot is bound to (R323): an active or a next image names it. -/
def State.boundTo (s : State) (n : Nat) : Option Nat :=
  match s.csq.circuits.find? (fun x => x.2.holds && x.2.img.keyEn && x.2.img.keySlot == n) with
  | some x => some x.1
  | none => (s.csq.changes.find? (fun y => y.pending && y.key == some n)).map (·.circ)

/-- A key-metadata entry (R331). -/
def State.keyWords (s : State) (n : Nat) : List Nat :=
  let x := s.keySlot n
  let b := s.boundTo n
  [b2n x.loaded + s.slotOwner n % 128 * 2 ^ 2 + b2n b.isSome * 2 ^ 9 + b.getD 0 % 1024 * 2 ^ 16, x.lastSalt] ++ halves x.tx ++ halves x.rx ++ [0, 0]

/-- A ring's calibration entry (R158). -/
def Ring.words (x : Ring) (live : Nat) : List Nat :=
  [x.onCode % 2 ^ 16 + x.parkOfs % 2 ^ 16 * 2 ^ 16,
   live % 2 ^ 16 + x.loop % 8 * 2 ^ 16 + b2n x.htrFault * 2 ^ 19 + x.shadow % 16 * 2 ^ 20 + x.ffSrc % 8 * 2 ^ 24,
   x.lockErr % 2 ^ 16 + x.unlocks % 2 ^ 16 * 2 ^ 16, 0, 0, 0, 0, 0]

/-- STATUS of a channel (R158). -/
def State.chanStatus (s : State) (ch : Nat) : Nat :=
  let x := s.chan ch
  if x.suspect then 2 else if x.never then 3 else if s.chanDue ch then 1 else 0

/-- A channel's calibration entry (R158). -/
def State.chanWords (s : State) (ch : Nat) : List Nat :=
  let x := s.chan ch
  x.words.map (·.toNat) ++ [x.count % 2 ^ 32] ++ halves x.last ++
    [s.drift ch + s.chanStatus ch * 2 ^ 8 + x.retries % 4 * 2 ^ 10 + x.defers % 4096 * 2 ^ 16, 0]

/-- The words of entry i of a window page. -/
def State.entryWords (s : State) (pg i : Nat) : List Nat :=
  match pg with
  | 0x40 => s.circuitWords i
  | 0x41 => s.slotWords i
  | 0x42 => s.keyWords i
  | 0x43 => if i < 2336 then (s.ring i).words (s.liveCode i) else s.chanWords (i - 2336)
  | _ => ((Tbl.get ([] : List Word) s.evr.snapLists i).map BitVec.toNat ++ List.replicate 16 0).take 16

/-- The bits of word w of an entry that carry a field. -/
def fieldMask (pg i w : Nat) : Nat :=
  let all := 0xFFFFFFFF
  match pg with
  | 0x40 => [0x03FFFFFF, 0x7FFF7FFF, 0x3FFF3FFF, all, all, 0xF7, all, 0, 0x03FFFFFF, 0x7FFF7FFF, 0x3FFF3FFF].getD w 0
  | 0x41 => [all, all, all, 3, all, all].getD w 0
  | 0x42 => [0x03FF03FF, all, all, all, all, all].getD w 0
  | 0x43 => if i < 2336 then [all, 0x07FFFFFF, all].getD w 0 else [0x3FFFFFFF, 0x3F3F3F, 0x0FFF0FFF, all, all, all, 0x0FFF0FFF].getD w 0
  | _ => if w = 0 then 0xFFFF03FF else if w < 9 then 0x000FFFFD else 0

/-! ## Commits -/

/-- A host write to a channel (R139, R147): an attempt on it is abandoned; in service the class modes apply, else the values stand at once. -/
def State.commitChan (s : State) (ch w0 w1 w2 : Nat) : State :=
  let s := s.abandon (fun a => a.ch == ch)
  let x := s.chan ch
  let v := { x with th0 := w0 % 256, th1 := w0 / 2 ^ 8 % 256, th2 := w0 / 2 ^ 16 % 256, cdrPh := w0 / 2 ^ 24 % 64, pre := w1 % 64,
                    main := w1 / 2 ^ 8 % 64, post := w1 / 2 ^ 16 % 64, modBias := w2 % 4096, dropOfs := w2 / 2 ^ 16 % 4096 }
  let glide := if s.chanTrained ch then s.glideClasses else 0
  let s := s.setChan ch (x.setItems (itemsTake x.items v.items (7 - glide % 8)))
  let rest := s.rcu.glides.filter (fun g => g.1 != ch)
  { s with rcu := { s.rcu with glides := if (s.chan ch).items = v.items then rest else rest ++ [(ch, v.items)] } }

/-- A ring's entry commits (R128, R147): a PARKED ring moves to the new ON_CODE − PARK_OFS, one that is ON or BLOCK takes it at its next acquisition. -/
def State.commitRing (s : State) (r on ofs src : Nat) : State :=
  let x := { s.ring r with ffSrc := src }
  if x.onCode = on ∧ x.parkOfs = ofs then s.setRing r x
  else
    let y := { x with onCode := on, parkOfs := ofs, ff := 0, ffRem := 0 }
    s.setRing r (if x.loop = 1 then y.parked else y)

/-- Entry i of a window page commits with its words (R44, R46): only RW fields change. -/
def State.commitEntry (s : State) (pg i : Nat) (ws : List Nat) : State :=
  let w (k : Nat) : Nat := ws.getD k 0
  match pg with
  | 0x40 => s.setCircuit i { s.circuit i with label := w 4 }
  | 0x43 =>
    if i < 2336 then s.commitRing i (w 0 % 2 ^ 16) (w 0 / 2 ^ 16) (w 1 / 2 ^ 24 % 8)
    else s.commitChan (i - 2336) (w 0) (w 1) (w 2)
  | 0x44 =>
    let l := (upTo 16).map (fun k => BitVec.ofNat 32 (w k &&& fieldMask 0x44 i k))
    { s with evr := { s.evr with snapLists := Tbl.set [] s.evr.snapLists i (if l.all (· == 0) then [] else l) } }
  | _ => s

/-! ## Accesses -/

/-- Requester r's window state on a page. -/
def State.winOf (s : State) (r pg : Nat) : WinState := Tbl.get {} (s.reqOf r).wins pg

/-- The state with requester r's window state on a page set. -/
def State.setWin (s : State) (r pg : Nat) (x : WinState) : State :=
  s.setReq r { s.reqOf r with wins := Tbl.set {} (s.reqOf r).wins pg x }

/-- The entry and word an aperture offset shows (R43). -/
def winSlot (x : WinState) (pg o : Nat) : Nat × Nat := (x.base + (o - 0x800) / (winInfo pg).2, (o - 0x800) % (winInfo pg).2 / 4)

/-- A window register at offset o (R43): its value, none where none lies. -/
def State.winReg (s : State) (r pg o : Nat) : Option Nat :=
  let x := s.winOf r pg
  match o with
  | 0x40 => some x.base
  | 0x44 => some ((winInfo pg).1 + (winInfo pg).2 * 2 ^ 16)
  | 0x48 => some (b2n x.staged.isSome + 2 * b2n x.torn)
  | _ => none

/-- A read of an aperture word captures its entry (R45, R47). -/
def State.winRead (s : State) (r pg o : Nat) : Nat × State :=
  let x := s.winOf r pg
  let (i, w) := winSlot x pg o
  if (winInfo pg).1 ≤ i then (0, s)
  else match x.cap with
    | some (j, ws) => if j = i then ((ws.getD w 0).toNat, s)
        else
          let ws := (s.entryWords pg i).map (BitVec.ofNat 32)
          ((ws.getD w 0).toNat, s.setWin r pg { x with cap := some (i, ws) })
    | none =>
      let ws := (s.entryWords pg i).map (BitVec.ofNat 32)
      ((ws.getD w 0).toNat, s.setWin r pg { x with cap := some (i, ws) })

/-- A word is staged, and its entry commits with its highest word (R44 to R46). A word of the entry that was never staged keeps the value the table
holds at the commit: R44 states none (DESIGN CHOICE: log entry 85). -/
def State.winStage (s : State) (r pg i w v : Nat) : State :=
  let x := s.winOf r pg
  let (mine, torn) : List (Nat × Word) × Bool := match x.staged with
    | some (j, l) => if j = i then (l, x.torn) else ([], true)
    | none => ([], x.torn)
  let l := mine.filter (fun y => y.1 != w) ++ [(w, BitVec.ofNat 32 v)]
  if 4 * w + 4 = (winInfo pg).2 then
    let old := s.entryWords pg i
    let ws := (upTo old.length).map (fun k => match l.find? (fun y => y.1 == k) with
      | some y => y.2.toNat
      | none => old.getD k 0)
    let ended : Bool := match x.cap with | some (j, _) => j == i | none => false
    (s.setWin r pg { x with staged := none, torn := torn, cap := if ended then none else x.cap }).commitEntry pg i ws
  else s.setWin r pg { x with staged := some (i, l), torn := torn }

/-- A write of WIN_SEL discards a staged entry (R44). -/
def State.winSelect (s : State) (r pg v : Nat) : State :=
  let x := s.winOf r pg
  s.setWin r pg { x with base := v % 2 ^ 16, staged := none, torn := x.torn || x.staged.isSome }

end Sys2Proof.Machine
end

