-- ==== Sys2Proof/Machine/Bus.lean ====
section
/-! DEFINITION. Register accesses (R24 to R48): sizes and byte enables, reserved bits and values, 64-bit pairs, side effects, page locks, and
what a write of each register does. A host access that reaches no register page (HOST off, a function that does not exist) has no effect. -/

namespace Sys2Proof.Machine

/-! ## Where an access goes -/

/-- The address of offset a in requester r's BAR0; the aperture reaches PF0's space (R24, R26, R440). -/
def busAddr (r : Req) (a : Nat) : Nat := if 1 ≤ r.val ∧ r.val ≤ 64 then pageBase r.val 0 + a else a

/-- Requester r's access at offset a finds its registers: HOST is on, the function exists and its BAR0 reaches that far; the aperture writes
only while unlocked (R442). -/
def State.reaches (s : State) (r : Req) (a : Nat) : Bool :=
  s.domOn 1 &&
    (if r.val = 65 then s.on F.DBG_STAT_UNLOCKED && decide (a < 0x100000)
     else s.fnExists r.val && decide (a < if r.val = 0 then 0x100000 else 0x10000))

/-- LAST_SRC of a requester (R28). -/
def srcOf (r : Req) : Nat := if r.val = 0 then 0 else if r.val = 65 then 2 else 1

/-- An access error at an address. -/
def State.busErr (s : State) (r : Req) (a : Nat) (flag : Fld) : State := s.accErr flag (srcOf r) (pageOf a) (a % 0x1000)

/-- BADVAL (R33). -/
def State.bad (s : State) (r : Req) (a : Nat) : State := s.busErr r a F.GLB_ACCESS_ERR_BADVAL

/-- RSVD_WR (R32). -/
def State.rsvd (s : State) (r : Req) (a : Nat) : State := s.busErr r a F.GLB_ACCESS_ERR_RSVD_WR

/-- UNIMPL (R28): for PF0 and the aperture. -/
def State.unimpl (s : State) (r : Req) (a : Nat) : State :=
  if srcOf r = 1 then s else s.busErr r a F.GLB_ACCESS_ERR_UNIMPL

/-- An optional effect; a refused one sets BADVAL. -/
def State.orBad (s : State) (r : Req) (a : Nat) (t : Option State) : State :=
  match t with
  | some t => t
  | none => s.bad r a

/-- The function whose page holds an address. -/
def fnAt (a : Nat) : Fn := Fin.ofNat 65 (vfOf a)

/-- Offset o on a page is documented as reserved, so that it exists and reads zero: 0x028 to 0x03F of every page, word W3 of a memory window,
+0x18 and +0x1C of an external input. -/
def reservedWord (a : Nat) : Bool :=
  let o := a % 0x1000
  (decide (0x28 ≤ o ∧ o < 0x40) && implAt a) ||
    (vfOf a == 0 && ((pageOf a == 0x0D && decide (0x800 ≤ o) && o % 16 / 4 == 3) ||
      (pageOf a == 0x21 && decide (0x200 ≤ o ∧ o < 0x280) && decide (0x18 ≤ o % 32))))

/-- The event window of the page that holds an address (R392): the window word there. -/
def evrWord (a : Nat) : Option Nat :=
  let o := a % 0x1000
  if ((vfOf a = 0 ∧ pageOf a = 0x0F) ∨ (vfOf a ≠ 0 ∧ pageOf a = 4)) ∧ 0x100 ≤ o ∧ o < 0x140 then some ((o - 0x100) / 4) else none

/-- The atomic slot whose words lie at an address (R268). -/
def atmSlot (a : Nat) : Option Nat :=
  let o := a % 0x1000
  if pageOf a = (if vfOf a = 0 then 0x0B else 2) ∧ 0xC00 ≤ o ∧ o < 0xE00 then some ((o - 0xC00) / 64) else none

/-! ## Reads -/

/-- The word is the LO half of a 64-bit pair (R37): one of its fields goes on in the next word, or it is MSS_UE_ADDR_LO, whose pair holds fields in
each half (R283). -/
def pairLo (a : Nat) (fs : List (Row × Fld × Bool)) : Bool := a == 0xA078 || fs.any (fun x => decide (32 < x.2.1.lo + x.2.1.width) && !x.2.2)

/-- The word is the HI half of a 64-bit pair (R37). -/
def pairHi (a : Nat) (fs : List (Row × Fld × Bool)) : Bool := a == 0xA07C || fs.any (fun x => x.2.2)

/-- The fields of a word with a side effect when read (R35). -/
def takes (x : Row × Fld × Bool) : Bool := x.1.acc == .rc || x.1.acc == .ra

/-- A taking read's side effect on one field. -/
def State.takeField (s : State) (f : Fld) : State :=
  if vfOf f.addr ≠ 0 ∧ f = F.VF_RDX_SAT (vfOf f.addr) then
    s.setRdx { s.rdx with satV := Tbl.set 0 s.rdx.satV (vfOf f.addr) 0 }
  else s.wr f 0

/-- The value of a word and the state after requester r reads it; take for a taking read (R11, R28, R35, R38, R45, R392). -/
def State.readWord (s : State) (r : Req) (a : Nat) (take : Bool) : Word × State :=
  let o := a % 0x1000
  let pg := pageOf a
  if !implAt a then (0, s.unimpl r a)
  else if 0x40 ≤ o ∧ s.on (F.PAGE_STAT_RST_BUSY (0x1000 * underPage a)) then (0, s)
  else if vfOf a = 0 ∧ isWinPage pg = true ∧ 0x40 ≤ o then
    if 0x800 ≤ o then
      let x := s.winRead r.val pg o
      (BitVec.ofNat 32 x.1, x.2)
    else match s.winReg r.val pg o with
      | some v => (BitVec.ofNat 32 v, s)
      | none => (0, s.unimpl r a)
  else match evrWord a with
    | some w =>
      let x := s.windowRead r.val w take
      (BitVec.ofNat 32 x.1, x.2)
    | none =>
      let fs := fieldsAt (pageRows a) a
      let v := s.peekAs r.val a
      if fs = [] then (0, if reservedWord a then s else s.unimpl r a)
      else if pairHi a fs then
        match (s.reqOf r.val).shadow with
        | some (k, w) => (if k = a - 4 then BitVec.ofNat 32 (w / 2 ^ 32) else v, s)
        | none => (v, s)
      else
        let s1 := if pairLo a fs then
            s.setReq r.val { s.reqOf r.val with shadow := some (a, v.toNat + (s.peekAs r.val (a + 4)).toNat * 2 ^ 32) }
          else s
        (v, if take then (fs.filter takes).foldl (fun s x => s.takeField x.2.1) s1 else s1)

/-- A read by requester r whose value is sent back. -/
def State.readOut (s : State) (r : Req) (a : Nat) (take : Bool) : State :=
  let x := s.readWord r a take
  x.2.send (.regData r a x.1)

/-! ## Headers (R27, R40 to R42, R48 to R50, R468, R469) -/

/-- An armed lock sequence is abandoned (R41). -/
def State.abandonLock (s : State) (pg : Nat) : State :=
  { ((s.wr (F.PAGE_STAT_LOCK_ARMED (0x1000 * pg)) 0).wr (F.PAGE_STAT_LOCK_SEQ_ERR (0x1000 * pg)) 1) with
    locks := s.locks.filter (fun x => x.1 != pg) }

/-- A write of PAGE_LOCK by PF0 or the aperture (R40, R41). -/
def State.lockKey (s : State) (r : Req) (pg key : Nat) : State :=
  if !lockable pg || s.on (F.PAGE_STAT_LOCKED (0x1000 * pg)) then s
  else match s.locks.find? (fun x => x.1 == pg) with
    | none =>
      if key = 0x4C4B then
        { (s.wr (F.PAGE_STAT_LOCK_ARMED (0x1000 * pg)) 1) with locks := s.locks ++ [(pg, r)] }
      else s
    | some x =>
      if x.2 = r ∧ key = 0x4B4C then
        { ((s.wr (F.PAGE_STAT_LOCK_ARMED (0x1000 * pg)) 0).wr (F.PAGE_STAT_LOCKED (0x1000 * pg)) 1) with
          locks := s.locks.filter (fun y => y.1 != pg) }
      else s.abandonLock pg

/-- A write of PAGE_CTRL of a PF0 page: EN, FREEZE, then SOFT_RST (R49, R50, R370, R445). -/
def State.ctrlWrite (s : State) (r : Req) (a pg v : Nat) : State :=
  let s := s.orBad r a (s.enableWrite pg (bitOf v 0))
  let s := if s.on (F.PAGE_CTRL_FREEZE (0x1000 * pg)) = bitOf v 2 then s else s.setFreeze pg (bitOf v 2)
  if bitOf v 1 then s.softReset pg else s

/-- A write of a header word (R27, R48, R376, R468, R469). -/
def State.headWrite (s : State) (r : Req) (a v : Nat) : State :=
  let b := a - a % 0x1000
  let pg := pageOf a
  let pf : Bool := vfOf a == 0
  let f := fnAt a
  let chk (keep : Nat) (s : State) : State := if v &&& (0xFFFFFFFF - keep) != 0 then s.rsvd r a else s
  match a % 0x1000 with
  | 0x00 => chk 0x00FFFFFF s
  | 0x04 => chk 0x0007FFFF s
  | 0x08 => chk 0xFFFF00FF (if pf && bitOf v 6 then s.wr (F.PAGE_STAT_LOCK_SEQ_ERR b) 0 else s)
  | 0x0C => chk 7 (if pf then s.ctrlWrite r a pg v else s)
  | 0x10 => s.intEdge f pg (fun s => s.wr (F.INT_CAUSE_CAUSE b) (s.rd (F.INT_CAUSE_CAUSE b) &&& (0xFFFFFFFF - v)))
  | 0x14 => s.intEdge f pg (fun s => s.wr (F.INT_MASK_MASK b) v)
  | 0x18 => s.intEdge f pg (fun s => s.wr (F.INT_CAUSE_CAUSE b) (s.rd (F.INT_CAUSE_CAUSE b) ||| (v &&& intBits a)))
  | 0x1C => chk 0x0001FFFF (if pf then s.lockKey r pg (v % 2 ^ 16) else s)
  | 0x20 => if pf then s.wr (F.ERR_CAUSE_ERR b) (s.rd (F.ERR_CAUSE_ERR b) &&& (0xFFFFFFFF - v)) else s
  | 0x24 => if pf then s.errInject pg v else s
  | _ => if v = 0 then s else s.rsvd r a

/-! ## Block registers -/

/-- The bits of a word that its fields cover. -/
def coverMask (fs : List (Row × Fld × Bool)) : Nat := fs.foldl (fun m x => m ||| fieldInWord x.2.1 x.2.2 (2 ^ x.2.1.width - 1)) 0

/-- A field value lies in the range its description allows (R34). -/
def allowed (r : Row) (v : Nat) : Bool := match r.allow with | some (lo, hi) => decide (lo ≤ v ∧ v ≤ hi) | none => true

/-- The fields of a word take the values a write places in them (R10, R33, R34, R42): none of the fields that act by themselves. -/
def State.writeFields (s : State) (r : Req) (a v : Nat) (fs : List (Row × Fld × Bool)) : State :=
  let locked := s.on (F.PAGE_STAT_LOCKED (0x1000 * pageOf a))
  fs.foldl (fun s x =>
    let f := x.2.1
    let n := v / 2 ^ f.lo % 2 ^ f.width
    let put : State := if allowed x.1 n then s.wr f n else s.bad r a
    match x.1.acc with
    | .rw => put
    | .rwl => if locked then s else put
    | .w1c => s.wr f (s.rd f &&& ((2 ^ f.width - 1) - n))
    | _ => s) s

/-- A write of REPLAY_ALLOC that would take the sum over the ports above 64 is ignored (R175). -/
def State.allocOver (s : State) (p v : Nat) : Bool :=
  let n := v % 128
  decide (n ≤ 64) && decide (64 < (upTo 16).foldl (fun m q => m + (if q = p then n else s.rd (F.PORT_LNK_CFG_REPLAY_ALLOC q))) 0)

/-- A write of PORT_LNK_CFG (R175, R187). -/
def State.lnkCfgWrite (s : State) (r : Req) (a : Nat) (p : Port) (v : Nat) (fs : List (Row × Fld × Bool)) : State :=
  let s := if s.allocOver p v then (s.writeFields r a v (fs.filter (fun x => x.2.1 != F.PORT_LNK_CFG_REPLAY_ALLOC p))).bad r a
    else s.writeFields r a v fs
  if bitOf v 8 then s.orBad r a (s.wakeTxStart p) else s

/-- A write of SEC_TAMPER_POL (R325, R326, R34): a source whose value is 3 keeps its policy. -/
def State.tamperPolWrite (s : State) (r : Req) (a v : Nat) : State :=
  let pol (i : Nat) : Nat := v / 4 ^ i % 4
  let new := (upTo 5).foldl (fun m i => m + (if pol i = 3 then s.tamperPolicy i else pol i) * 4 ^ i) 0
  let lim := v / 2 ^ 12 % 16
  let badv : Bool := (upTo 5).any (fun i => pol i == 3) || lim == 0
  let s := s.wr F.SEC_TAMPER_POL_POL new
  let s := if lim = 0 then s else s.wr F.SEC_TAMPER_POL_DBG_LIMIT lim
  if badv then s.bad r a else s

/-- A write of SEC_KEYRANGEn (R319). -/
def State.keyrangeWrite (s : State) (r : Req) (a n v : Nat) : State :=
  let base := v % 1024
  let cnt := v / 2 ^ 16 % 2 ^ 11
  let c := if cnt ≤ 1024 then cnt else s.rd (F.SEC_KEYRANGE_COUNT n)
  let s1 := if cnt ≤ 1024 then s else s.bad r a
  if s.keyrangeOk n base c then s1.wrs [(F.SEC_KEYRANGE_BASE n, base), (F.SEC_KEYRANGE_COUNT n, c)] else s1.bad r a

/-- A write of DBG_FREEZE (R445, R447, R448): from the aperture alone. -/
def State.dbgFreezeWrite (s : State) (r : Req) (a v : Nat) : State :=
  if r.val ≠ 65 then s.bad r a
  else if v % 4 = 3 then (if s.pstate = 1 then s.forceFreeze.stayAwake else s.forceFreeze)
  else if bitOf v 0 then s.freezeAll
  else if s.on F.DBG_FREEZE_ALL then s.thawAll else s

/-- A write of CPM_CTRL (R347, R351, R354); ticks are the AON ticks counted since fabric time restarted, inverted the polarity of REFCLK. -/
def State.cpmCtrl (s : State) (v ticks : Nat) (inverted : Bool) : State :=
  let s := if bitOf v 0 then s.refclkConfirmed ticks inverted else s
  let s := if bitOf v 1 then s.padsReleased else s
  if bitOf v 2 then s.rootLeaves else s

/-- A word of the queue registers (R73, R74, R89 to R91, R94). -/
def State.queWrite (s : State) (r : Req) (a : Nat) (f : Fn) (v : Nat) (fs : List (Row × Fld × Bool)) : State :=
  match a % 0x1000 with
  | 0x48 => s.orBad r a (s.queueCfg f .cmdSize v)
  | 0x4C => s.cmdDoorbell f (v % 2 ^ 12)
  | 0x5C => s.orBad r a (s.queueCfg f .cplSize v)
  | 0x60 => s.cplDoorbell f (v % 2 ^ 12)
  | 0x68 => s.qCtrl f v
  | _ => s.writeFields r a v fs

/-- A word of the RME registers (R268, R272, R274): a slot that is BUSY refuses. -/
def State.rmeWrite (s : State) (r : Req) (a : Nat) (f : Fn) (v : Nat) (fs : List (Row × Fld × Bool)) : State :=
  match atmSlot a with
  | some n =>
    if s.on (F.ATM_STAT_BUSY (atmBase f) n) then s.bad r a
    else
      let s := s.writeFields r a v fs
      if a % 64 = 0x18 ∧ bitOf v 8 = true then s.atomicStart f n else s
  | none => (s.writeFields r a v fs).rmeGo

/-- What a write of a word of a PF0 page does; fs are the word's fields. -/
def State.pfWrite (s : State) (r : Req) (a v : Nat) (fs : List (Row × Fld × Bool)) : State :=
  let o := a % 0x1000
  let pg := pageOf a
  let gen : State := s.writeFields r a v fs
  if 0x10 ≤ pg ∧ pg < 0x20 then
    let p : Port := Fin.ofNat 16 (pg - 0x10)
    if o = 0x40 then
      let before := s.on (F.PORT_SHUT_CTRL_LOOP p)
      gen.shutCtrlWritten p before
    else if o = 0x100 then s.lnkCfgWrite r a p v fs
    else gen
  else match pg with
  | 0x00 => if o = 0x50 ∧ s.terminateActive = true then s.bad r a else gen
  | 0x01 =>
    match o with
    | 0x44 => s.free.2.cpmCtrl v (s.free.1.toNat % 2 ^ 48) (bitOf s.free.1.toNat 48)
    | 0x48 => gen.targetWritten (v % 4)
    | 0x8C => if v % 2 ^ 16 = 0xA5C3 then s.chipReset F.CPM_RST_CAUSE_SOFTWARE else s.bad r a
    | _ => gen
  | 0x03 => s.queWrite r a 0 v fs
  | 0x04 => if o = 0x40 ∨ o = 0x44 then gen.evalLaser else gen
  | 0x05 =>
    if o = 0x40 then
      let s := gen
      let s := if bitOf v 0 then s.orBad r a s.searchStart else s
      if bitOf v 1 then s.abortSearch 1 else s
    else gen
  | 0x06 => if o = 0x40 then gen.timeCtrlWritten else gen
  | 0x07 => if o = 0x64 then s.abortWrite v else gen
  | 0x08 =>
    if o = 0x40 then
      match s.twnCfg (BitVec.ofNat 32 v) with
      | none => s.bad r a
      | some t => if v / 2 % 4 = 3 then t.bad r a else t
    else if o = 0x44 then
      let s := if bitOf v 0 then s.switchoverWritten else s
      if bitOf v 1 then s.takeoverWritten else s
    else gen
  | 0x09 =>
    if o = 0x40 then (if bitOf v 9 then gen.jnlFlush else gen).autoCompact
    else if o = 0x44 then
      let s := if bitOf v 0 then s.orBad r a s.replayStart else s
      if bitOf v 1 then s.jnlAbort else s
    else gen
  | 0x0A =>
    if o = 0x40 ∧ s.on (F.PAGE_CTRL_EN 0xA000) = true ∧ s.on F.MSS_CFG_INTLV ≠ bitOf v 0 then
      (s.writeFields r a v (fs.filter (fun x => x.2.1 != F.MSS_CFG_INTLV))).bad r a
    else if o = 0x44 then (if bitOf v 0 then s.trainWritten else s)
    else gen
  | 0x0B => s.rmeWrite r a 0 v fs
  | 0x0D =>
    if o = 0x44 then s.tamperPolWrite r a v
    else if o = 0x4C then (if bitOf v 0 then s.orBad r a s.unfence else s)
    else if 0x104 ≤ o ∧ o ≤ 0x200 then s.keyrangeWrite r a ((o - 0x100) / 4) v
    else gen
  | 0x0E =>
    if o = 0x64 then s.orBad r a (s.fenceSet v)
    else if o = 0x68 then s.orBad r a (s.unfenceWrite v)
    else if o = 0x6C then s.railInject v
    else if 0x200 ≤ o ∧ o < 0x400 then
      let x := s.polWrite ((o - 0x200) / 4) v
      if x.2 then x.1.bad r a else x.1
    else if 0x800 ≤ o then (if o % 16 = 0 ∧ bitOf v 0 = true then s.ackRecord ((o - 0x800) / 16) else s)
    else gen
  | 0x0F => if o = 0x44 then (if bitOf v 0 then s.clearLog else s) else gen
  | 0x20 => if o = 0x40 then (if 1 ≤ v % 2 ^ 26 ∧ v % 2 ^ 26 ≤ 60000000 then gen.lenWritten else gen) else gen
  | 0x21 => if 0x200 ≤ o ∧ o < 0x280 ∧ o % 32 < 0xC then gen.extInvalid ((o - 0x200) / 32) else gen
  | 0x22 =>
    if o = 0x44 then (if bitOf v 0 then s.wr F.DBG_STAT_UNLOCKED 0 else s)
    else if o = 0x48 then s.dbgFreezeWrite r a v
    else gen
  | _ => gen

/-- What a write of a word of a VF page does (R26). -/
def State.vfWrite (s : State) (r : Req) (a v : Nat) (fs : List (Row × Fld × Bool)) : State :=
  match pageOf a with
  | 1 => s.queWrite r a (fnAt a) v fs
  | 2 => s.rmeWrite r a (fnAt a) v fs
  | _ => s.writeFields r a v fs

/-- A 64-bit register takes a value (R39): its HI half has been written at a, its LO half lies at a − 4. -/
def State.commitPair (s : State) (r : Req) (a v : Nat) (x : Row × Fld × Bool) : State :=
  let f := x.2.1
  let vf := vfOf a
  let q : Fn := fnAt a
  if f = F.CMDQ_BASE_BASE (qBase q) then s.orBad r a (s.queueCfg q .cmdBase v)
  else if f = F.CPLQ_BASE_BASE (qBase q) then s.orBad r a (s.queueCfg q .cplBase v)
  else if f = F.CPM_TIME_SET_TIME then s.orBad r a (s.timeSet (BitVec.ofNat 64 v))
  else if f = F.EVR_CURSOR_CURSOR ∨ (vf ≠ 0 ∧ f = F.VF_EVR_CURSOR vf) then s.cursorWritten r v
  else match x.1.acc with
    | .rw => s.wr f (v / 2 ^ f.lo)
    | _ => s

/-- A write of a half of a 64-bit register (R39): LO is held for the requester, HI commits both. -/
def State.pairWrite (s : State) (r : Req) (a v : Nat) (x : Row × Fld × Bool) : State :=
  let q := s.reqOf r.val
  if x.2.2 then
    let lo := match q.hold.find? (fun h => h.1 == a - 4) with
      | some h => h.2
      | none => (s.peekAs r.val (a - 4)).toNat
    (s.setReq r.val { q with hold := q.hold.filter (fun h => h.1 != a - 4) }).commitPair r a (lo + v * 2 ^ 32) x
  else s.setReq r.val { q with hold := q.hold.filter (fun h => h.1 != a) ++ [(a, v)] }

/-- A write of an aperture word or a register of a window page (R43 to R47). -/
def State.winWrite (s : State) (r : Req) (a v : Nat) : State :=
  let pg := pageOf a
  let o := a % 0x1000
  if 0x800 ≤ o then
    let (i, w) := winSlot (s.winOf r.val pg) pg o
    if (winInfo pg).1 ≤ i then s.bad r a
    else
      let m := fieldMask pg i w
      let s := if v &&& (0xFFFFFFFF - m) = 0 then s else s.rsvd r a
      let ff : Bool := pg == 0x43 && decide (i < 2336) && w == 1 && decide (5 < v / 2 ^ 24 % 8)
      if ff then (s.bad r a).winStage r.val pg i w (((s.ring i).ffSrc % 8) * 2 ^ 24) else s.winStage r.val pg i w v
  else match o with
    | 0x40 => (if v < 2 ^ 16 then s else s.rsvd r a).winSelect r.val pg v
    | 0x44 => if v < 2 ^ 24 then s else s.rsvd r a
    | 0x48 =>
      let s := if v < 4 then s else s.rsvd r a
      if bitOf v 1 then s.setWin r.val pg { s.winOf r.val pg with torn := false } else s
    | _ => s.unimpl r a

/-- The reserved bits of an event-window word (R392): those of word 15. -/
def evrReserved (w : Nat) : Nat := if w = 15 then 0xFFFFFFFC else 0

/-- A 4 B write by requester r at a word's address (R28 to R34, R39, R42). A set of GLB_ACCESS_ERR outlives the clear that caused it (R36). -/
def State.writeWord (s : State) (r : Req) (a v : Nat) : State :=
  let o := a % 0x1000
  let pg := pageOf a
  if !implAt a then s.unimpl r a
  else if o < 0x40 then s.headWrite r a v
  else if s.on (F.PAGE_STAT_RST_BUSY (0x1000 * underPage a)) then s
  else if vfOf a = 0 ∧ isWinPage pg = true then s.winWrite r a v
  else match evrWord a with
    | some w => if v &&& evrReserved w = 0 then s else s.rsvd r a
    | none =>
      let fs := fieldsAt (pageRows a) a
      match fs with
      | [] => if reservedWord a then (if v = 0 then s else s.rsvd r a) else s.unimpl r a
      | x :: _ =>
        let mark (s : State) : State := if v &&& (0xFFFFFFFF - coverMask fs) = 0 then s else s.rsvd r a
        let s := if a = 0x5C then s else mark s
        let lockedWord : Bool := vfOf a == 0 && s.on (F.PAGE_STAT_LOCKED (0x1000 * pg)) && fs.any (fun y => y.1.acc == .rwl)
        let busySlot : Bool := match atmSlot a with | some n => s.on (F.ATM_STAT_BUSY (atmBase (fnAt a)) n) | none => false
        if lockedWord then s.busErr r a F.GLB_ACCESS_ERR_LOCKED_WR
        else if busySlot then s.bad r a
        else if fs.any (fun y => decide (32 < y.2.1.lo + y.2.1.width)) then s.pairWrite r a v x
        else if a = 0x5C then mark (s.pfWrite r a v fs)
        else if vfOf a = 0 then s.pfWrite r a v fs else s.vfWrite r a v fs

/-! ## Whole accesses (R29, R30) -/

/-- A write by requester r at offset a of its BAR0. -/
def State.busWrite (s : State) (r : Req) (a v : Nat) : State :=
  if s.reaches r a then s.writeWord r (busAddr r a) (v % 2 ^ 32) else s

/-- A 64-bit write of a pair: LO, then HI (R29). -/
def State.busWrite8 (s : State) (r : Req) (a v : Nat) : State := (s.busWrite r a (v % 2 ^ 32)).busWrite r (a + 4) (v / 2 ^ 32)

/-- A read by requester r at offset a of its BAR0, with its side effects. The locked aperture reads GLB and DBG (R442). -/
def State.busRead (s : State) (r : Req) (a : Nat) : State :=
  if s.reaches r a || (r.val == 65 && s.domOn 1 && (a / 0x1000 == 0x00 || a / 0x1000 == 0x22)) then s.readOut r (busAddr r a) true
  else s

/-- The access is naturally aligned (R29). An aligned access of 1 B or 2 B counts as one whose byte enables do not cover a register: it sets PARTIAL,
and UNALIGNED is left to misaligned accesses and to sizes that are no power of two up to 8 B (R30 names both bits and does not share the sizes out
between them; DESIGN CHOICE: log entry 83). -/
def accAligned (x : Access) : Bool := [1, 2, 4, 8].contains x.size && x.addr.toNat % x.size == 0

/-- Byte i of the access is enabled. -/
def accByteOn (x : Access) (i : Nat) : Bool := decide (i < x.size) && x.enables.toNat.testBit i

/-- The 4 B registers that an access touches, in ascending order (R30): an access of up to 4 B the one that holds its first byte, as R30's read of
4 B at 0x002 has it (DEDUCED: log entry 84), a longer one those that its bytes touch. -/
def accWords (x : Access) : List Nat :=
  (upTo (if x.size ≤ 4 then 1 else 3)).filterMap (fun k =>
    let w := x.addr.toNat / 4 * 4 + 4 * k
    if (upTo 8).any (fun i => accByteOn x i && decide (w ≤ x.addr.toNat + i ∧ x.addr.toNat + i < w + 4)) then some w else none)

/-- The byte enables cover all of a register. -/
def accCovers (x : Access) (w : Nat) : Bool :=
  (upTo 4).all (fun j => decide (x.addr.toNat ≤ w + j) && accByteOn x (w + j - x.addr.toNat))

/-- A write access of any size and byte enables (R29, R30): unaligned or partial writes are ignored, register by register. -/
def State.writeAccess (s : State) (r : Req) (x : Access) : State :=
  let a := x.addr.toNat
  if !s.reaches r a then s
  else if !accAligned x then s.busErr r (busAddr r a) F.GLB_ACCESS_ERR_UNALIGNED
  else (accWords x).foldl (fun s w =>
    if !s.reaches r w then s
    else if accCovers x w then s.writeWord r (busAddr r w) (x.data.toNat / 2 ^ (8 * (w - a)) % 2 ^ 32)
    else s.busErr r (busAddr r w) F.GLB_ACCESS_ERR_PARTIAL) s

/-- A read access of any size and byte enables (R29, R30): every register touched is read in full. -/
def State.readAccess (s : State) (r : Req) (x : Access) : State :=
  let a := x.addr.toNat
  if !s.reaches r a then s
  else
    let s := if !accAligned x then s.busErr r (busAddr r a) F.GLB_ACCESS_ERR_UNALIGNED
      else if (accWords x).all (accCovers x) then s else s.busErr r (busAddr r a) F.GLB_ACCESS_ERR_PARTIAL
    (accWords x).foldl (fun s w => s.busRead r w) s

/-! ## The rows of register accesses -/

/-- REG_WRITE (R28 to R34). -/
def execRegWrite (r : Req) (a : Access) (s : State) : Host.Outcome State Fault Refusal := .next (s.writeAccess r a)

/-- ACCESS_ERROR_READ (R28, R30). -/
def execAccessErrorRead (r : Req) (a : Access) (s : State) : Host.Outcome State Fault Refusal := .next (s.readAccess r a)

/-- RC_TAKING_READ (R35). -/
def execRcTakingRead (r : Req) (addr : BitVec 20) (s : State) : Host.Outcome State Fault Refusal := .next (s.busRead r addr.toNat)

/-- PAIR_LO_READ (R38). -/
def execPairLoRead (r : Req) (addr : BitVec 20) (s : State) : Host.Outcome State Fault Refusal := .next (s.busRead r addr.toNat)

/-- PAIR_HI_WRITE (R39). -/
def execPairHiWrite (r : Req) (addr : BitVec 20) (v : Word) (s : State) : Host.Outcome State Fault Refusal :=
  .next (s.busWrite r addr.toNat v.toNat)

/-- PAGE_LOCK (R40, R41). -/
def execPageLock (r : Req) (pg : PageIx) (v : Word) (s : State) : Host.Outcome State Fault Refusal :=
  .next (s.busWrite r (0x1000 * pg.val + 0x1C) v.toNat)

/-- LOCK_TIMER_EXPIRE (R41, R446): not while a freeze pauses the timer. -/
def execLockTimerExpire (pg : PageIx) (s : State) : Host.Outcome State Fault Refusal :=
  .next (if s.locks.any (fun x => x.1 == pg.val) && !s.on F.DBG_FREEZE_STAT_FROZEN && !s.frozen pg && s.domOn 1 then s.abandonLock pg.val else s)

/-- PAGE_CTRL of a page as requester r reads it. -/
def State.pageCtrl (s : State) (r : Req) (pg : Nat) : Nat := (s.peekAs r.val (busAddr r (0x1000 * pg + 0xC))).toNat

/-- SOFT_RST (R49): PAGE_CTRL is written with SOFT_RST = 1 and its other bits as they stand. -/
def execSoftRst (r : Req) (pg : PageIx) (s : State) : Host.Outcome State Fault Refusal :=
  .next (s.busWrite r (0x1000 * pg.val + 0xC) (s.pageCtrl r pg ||| 2))

/-- INT_FORCE (R48, R469). -/
def execIntForce (r : Req) (pg : PageIx) (v : Word) (s : State) : Host.Outcome State Fault Refusal :=
  .next (s.busWrite r (0x1000 * pg.val + 0x18) v.toNat)

/-- PAGE_FREEZE (R445): PAGE_CTRL.FREEZE is written. -/
def execPageFreeze (r : Req) (pg : PageIx) (on : Bool) (s : State) : Host.Outcome State Fault Refusal :=
  .next (s.busWrite r (0x1000 * pg.val + 0xC) (s.pageCtrl r pg % 2 + 4 * b2n on))

/-- PAGE_ENABLE_WRITE (R50, R425, R426): PAGE_CTRL.EN is written. -/
def execPageEnableWrite (r : Req) (pg : PageIx) (on : Bool) (s : State) : Host.Outcome State Fault Refusal :=
  .next (s.busWrite r (0x1000 * pg.val + 0xC) ((s.pageCtrl r pg &&& 4) + b2n on))

/-- TABLE_WINDOW_WRITE (R43, R44, R46, R47). -/
def execTableWindowWrite (r : Req) (win : Fin 5) (word : Fin 512) (v : Word) (s : State) : Host.Outcome State Fault Refusal :=
  .next (s.busWrite r (0x40800 + 0x1000 * win.val + 4 * word.val) v.toNat)

/-- TABLE_WINDOW_READ (R43, R45, R47). -/
def execTableWindowRead (r : Req) (win : Fin 5) (word : Fin 512) (s : State) : Host.Outcome State Fault Refusal :=
  .next (s.busRead r (0x40800 + 0x1000 * win.val + 4 * word.val))

/-- COMMAND_DOORBELL (R73). -/
def execCommandDoorbell (f : Fn) (v : Word) (s : State) : Host.Outcome State Fault Refusal :=
  .next (s.busWrite (f.castLE (by decide)) (qPage f * 0x1000 + 0x4C) v.toNat)

/-- COMPLETION_DOORBELL (R74). -/
def execCompletionDoorbell (f : Fn) (v : Word) (s : State) : Host.Outcome State Fault Refusal :=
  .next (s.busWrite (f.castLE (by decide)) (qPage f * 0x1000 + 0x60) v.toNat)

/-- QUEUE_CONFIG_WRITE (R90): BASE as a pair, SIZE as a word. -/
def execQueueConfigWrite (f : Fn) (q : QReg) (v : DWord) (s : State) : Host.Outcome State Fault Refusal :=
  .next (
    let r : Req := f.castLE (by decide)
    let b := qPage f * 0x1000
    match q with
    | .cmdBase => s.busWrite8 r (b + 0x40) v.toNat
    | .cmdSize => s.busWrite r (b + 0x48) v.toNat
    | .cplBase => s.busWrite8 r (b + 0x54) v.toNat
    | .cplSize => s.busWrite r (b + 0x5C) v.toNat)

/-- Q_CTRL_WRITE (R89, R91). -/
def execQCtrlWrite (f : Fn) (v : Word) (s : State) : Host.Outcome State Fault Refusal :=
  .next (s.busWrite (f.castLE (by decide)) (qPage f * 0x1000 + 0x68) v.toNat)

/-- SHUTTER_REQUEST (R118): a write of PORT_SHUT_CTRL. -/
def execShutterRequest (r : Req) (p : Port) (v : Word) (s : State) : Host.Outcome State Fault Refusal :=
  .next (s.busWrite r (0x10040 + 0x1000 * p.val) v.toNat)

/-- WAKE_TX (R187): PORT_LNK_CFG with WAKE_TX = 1. -/
def execWakeTx (r : Req) (p : Port) (s : State) : Host.Outcome State Fault Refusal :=
  .next (s.busWrite r (0x10100 + 0x1000 * p.val) ((s.peekAs 0 (0x10100 + 0x1000 * p.val)).toNat ||| 2 ^ 8))

/-- SEARCH_START (R130): a write of RCU_SEARCH_CTRL with START = 1 and the MODE of v. -/
def execSearchStart (r : Req) (v : Word) (s : State) : Host.Outcome State Fault Refusal := .next (s.busWrite r 0x5040 (v.toNat ||| 1))

/-- SEARCH_ABORT (R151): RCU_SEARCH_CTRL with ABORT = 1 and MODE as it stands. -/
def execSearchAbort (r : Req) (s : State) : Host.Outcome State Fault Refusal :=
  .next (s.busWrite r 0x5040 (2 + 4 * s.rd F.RCU_SEARCH_CTRL_MODE))

/-- CSQ_ABORT (R210). -/
def execCsqAbort (r : Req) (v : Word) (s : State) : Host.Outcome State Fault Refusal := .next (s.busWrite r 0x7064 v.toNat)

/-- TWN_CFG_WRITE (R226). -/
def execTwnCfgWrite (r : Req) (v : Word) (s : State) : Host.Outcome State Fault Refusal := .next (s.busWrite r 0x8040 v.toNat)

/-- SWITCHOVER (R236). -/
def execSwitchover (r : Req) (s : State) : Host.Outcome State Fault Refusal := .next (s.busWrite r 0x8044 1)

/-- TAKEOVER (R234). -/
def execTakeover (r : Req) (s : State) : Host.Outcome State Fault Refusal := .next (s.busWrite r 0x8044 2)

/-- REPLAY (R250). -/
def execReplay (r : Req) (s : State) : Host.Outcome State Fault Refusal := .next (s.busWrite r 0x9044 1)

/-- JNL_ABORT (R254, R255). -/
def execJnlAbort (r : Req) (s : State) : Host.Outcome State Fault Refusal := .next (s.busWrite r 0x9044 2)

/-- BYPASS (R247): a write of JNL_CFG. -/
def execBypass (r : Req) (v : Word) (s : State) : Host.Outcome State Fault Refusal := .next (s.busWrite r 0x9040 v.toNat)

/-- ATOMIC_GO (R268): a write of slot n's CTRL with GO = 1 and its other fields as they stand. -/
def execAtomicGo (r : Req) (n : Fin 8) (s : State) : Host.Outcome State Fault Refusal :=
  .next (
    let a := (if 1 ≤ r.val ∧ r.val ≤ 64 then 0x2C18 else 0xBC18) + 64 * n.val
    s.busWrite r a ((s.peekAs r.val (busAddr r a)).toNat ||| 2 ^ 8))

/-- MSS_TRAIN (R281). -/
def execMssTrain (r : Req) (s : State) : Host.Outcome State Fault Refusal := .next (s.busWrite r 0xA044 1)

/-- UNFENCE (R326). -/
def execUnfence (r : Req) (s : State) : Host.Outcome State Fault Refusal := .next (s.busWrite r 0xD04C 1)

/-- SEC_KEYRANGE_WRITE (R319): of partition n. -/
def execSecKeyrangeWrite (r : Req) (n : Fn) (v : Word) (s : State) : Host.Outcome State Fault Refusal :=
  .next (if n.val = 0 then s else s.busWrite r (0xD100 + 4 * n.val) v.toNat)

/-- FCU_RECORD_ACK (R368): 1 written to VALID of a record. -/
def execFcuRecordAck (r : Req) (src : SrcIx) (s : State) : Host.Outcome State Fault Refusal :=
  .next (s.busWrite r (0xE800 + 16 * src.val) 1)

/-- FCU_FENCE_SET (R370). -/
def execFcuFenceSet (r : Req) (v : Word) (s : State) : Host.Outcome State Fault Refusal := .next (s.busWrite r 0xE064 v.toNat)

/-- FCU_UNFENCE (R370). -/
def execFcuUnfence (r : Req) (v : Word) (s : State) : Host.Outcome State Fault Refusal := .next (s.busWrite r 0xE068 v.toNat)

/-- FCU_RAIL_INJ (R377). -/
def execFcuRailInj (r : Req) (v : Word) (s : State) : Host.Outcome State Fault Refusal := .next (s.busWrite r 0xE06C v.toNat)

/-- ERR_INJECT (R376). -/
def execErrInject (r : Req) (pg : PageIx) (v : Word) (s : State) : Host.Outcome State Fault Refusal :=
  .next (s.busWrite r (0x1000 * pg.val + 0x24) v.toNat)

/-- FCU_PRIOR_ACK (R372, R375): 1 written to FCU_PRIOR.VALID. -/
def execFcuPriorAck (r : Req) (s : State) : Host.Outcome State Fault Refusal := .next (s.busWrite r 0xE070 (2 ^ 31))

/-- CLEAR (R395): of the event log. -/
def execClear (r : Req) (s : State) : Host.Outcome State Fault Refusal := .next (s.busWrite r 0xF044 1)

/-- Offset of the event registers of a requester (R392). -/
def evrBase (r : Req) : Nat := if 1 ≤ r.val ∧ r.val ≤ 64 then 0x4000 else 0xF000

/-- EVR_WIN_STATUS_READ (R392): word 15 of the requester's window. -/
def execEvrWinStatusRead (r : Req) (s : State) : Host.Outcome State Fault Refusal := .next (s.busRead r (evrBase r + 0x13C))

/-- EVR_CURSOR_WRITE (R392). -/
def execEvrCursorWrite (r : Req) (v : BitVec 48) (s : State) : Host.Outcome State Fault Refusal :=
  .next (s.busWrite8 r (evrBase r + (if 1 ≤ r.val ∧ r.val ≤ 64 then 0x48 else 0x70)) v.toNat)

/-- STA_LEN_WRITE (R398). -/
def execStaLenWrite (r : Req) (v : Word) (s : State) : Host.Outcome State Fault Refusal := .next (s.busWrite r 0x20040 v.toNat)

/-- EXT_CFG_WRITE (R406, R411): word 0 to 2 of input n's configuration. -/
def execExtCfgWrite (r : Req) (n : Fin 4) (word : Fin 3) (v : Word) (s : State) : Host.Outcome State Fault Refusal :=
  .next (s.busWrite r (0x21200 + 32 * n.val + 4 * word.val) v.toNat)

/-- OP_TARGET_WRITE (R342): a write of CPM_OP. -/
def execOpTargetWrite (r : Req) (v : Word) (s : State) : Host.Outcome State Fault Refusal := .next (s.busWrite r 0x1048 v.toNat)

/-- REFCLK_CONFIRM (R354): a write of CPM_CTRL, with the AON ticks counted since fabric time restarted; ignored while the page's RST_BUSY is 1 (R49). -/
def execRefclkConfirm (r : Req) (ticks : Nat) (inverted : Bool) (s : State) : Host.Outcome State Fault Refusal :=
  .next (if s.reaches r 0x1044 && srcOf r != 1 && !s.on (F.PAGE_STAT_RST_BUSY 0x1000) then s.cpmCtrl 1 ticks inverted else s)

/-- PAD_RELEASE (R347). -/
def execPadRelease (r : Req) (s : State) : Host.Outcome State Fault Refusal := .next (s.busWrite r 0x1044 2)

/-- EST_CLEAR (R351). -/
def execEstClear (r : Req) (s : State) : Host.Outcome State Fault Refusal := .next (s.busWrite r 0x1044 4)

/-- CPM_TIME_SET (R350): both halves. -/
def execCpmTimeSet (r : Req) (v : DWord) (s : State) : Host.Outcome State Fault Refusal := .next (s.busWrite8 r 0x10A8 v.toNat)

/-- SOFTWARE_RESET (R420): a write of CPM_RST_CTRL. -/
def execSoftwareReset (r : Req) (v : Word) (s : State) : Host.Outcome State Fault Refusal := .next (s.busWrite r 0x108C v.toNat)

/-- RELOCK (R443). -/
def execRelock (r : Req) (s : State) : Host.Outcome State Fault Refusal := .next (s.busWrite r 0x22044 1)

/-- DBG_FREEZE_ALL (R445, R448): DBG_FREEZE.ALL is written. -/
def execDbgFreezeAll (r : Req) (on : Bool) (s : State) : Host.Outcome State Fault Refusal := .next (s.busWrite r 0x22048 (b2n on))

/-- FORCE_FREEZE (R447): FORCE and ALL written 1. -/
def execForceFreeze (r : Req) (s : State) : Host.Outcome State Fault Refusal := .next (s.busWrite r 0x22048 3)

end Sys2Proof.Machine
end

