-- ==== Sys2Proof/Machine/Boot.lean ====
section
/-! DEFINITION. Power-on reset, PERST_N and the start-up sequencer (R420 to R424). The time between its stages is left out; each stage ends with
its own command. -/

namespace Sys2Proof.Machine

/-- The stage of the start-up sequencer. -/
def State.stage (s : State) : Nat := s.rd F.CPM_BOOT_STAGE

/-- The AON supply enters or leaves its range (R420): everything returns to reset but the flash, the level of LASER_FAULT_N (R119) and what stands outside the block. No domain but
AON is on until FUSE (R423). -/
def State.powerOn (s : State) (inRange : Bool) : State :=
  let s := s.tearProgram
  let t : State := { State.reset with pending := s.pending, out := s.out, freeCtr := s.freeCtr, boot := { s.boot with aon := inRange },
                                      jnl := s.jnl.kept }
  t.wrs [(F.CPM_PWR_STAT_DOM_ON, 1), (F.PFE_LASER_STAT_FAULT, s.rd F.PFE_LASER_STAT_FAULT)]

/-- POWER_ON_RESET (R420). -/
def execPowerOnReset (inRange : Bool) (s : State) : Host.Outcome State Fault Refusal := .next (s.powerOn inRange)

/-- PERST (R420): a low that meets the filter; no reset source before FUSE. -/
def execPerst (s : State) : Host.Outcome State Fault Refusal :=
  .next (
    let s := { s with boot := { s.boot with perstLow := true } }
    if s.stage < 4 then s else s.chipReset F.CPM_RST_CAUSE_PERST)

/-- PERST_RELEASE (R423): PERST_N rises; WAIT_PERST ends. -/
def execPerstRelease (s : State) : Host.Outcome State Fault Refusal :=
  .next (
    let s := { s with boot := { s.boot with perstLow := false } }
    if s.stage = 3 then s.wr F.CPM_BOOT_STAGE 4 else s)

/-- The form that a strap value selects (R53): 3 unassigned. -/
def formOf (straps : Nat) : Nat := if straps < 2 then 0 else if straps = 2 then 1 else if straps = 3 then 2 else 3

/-- POR_DONE (R423, R52, R53): the POR time has passed with the AON supply in range, and the straps are latched. -/
def execPorDone (straps : BitVec 3) (s : State) : Host.Outcome State Fault Refusal :=
  .next (
    if s.stage = 0 ∧ s.boot.aon = true then
      s.wrs [(F.GLB_FORM_STRAP, straps.toNat), (F.GLB_FORM_FORM, formOf straps.toNat), (F.CPM_BOOT_STAGE, 2)]
    else s)

/-- STARTUP_SUPPLY_DONE (R341, R423): CPM has read VOUT_MODE (exp: its exponent, where it is linear) and turned the regulator on. ok: the OP0
voltage was confirmed within 2 ms; where VOUT_MODE is not linear nothing is read, and SUPPLY ends. -/
def execStartupSupplyDone (exp : Option (BitVec 5)) (ok : Bool) (s : State) : Host.Outcome State Fault Refusal :=
  .next (
    if s.stage ≠ 2 then s
    else
      let s := s.send (.pmbus 0x20 0)
      match exp with
      | none => (s.send (.pmbus 0x01 0x80)).supplyNext
      | some x =>
        let s := s.wrs [(F.CPM_PMB_CFG_PMB_OK, 1), (F.CPM_PMB_CFG_VOUT_EXP, x.toNat)]
        let s := ((s.send (.pmbus 0x21 700)).send (.pmbus 0x01 0x80)).voutRead ok
        if ok then s.supplyNext else s.supplyMissed)

/-- The key-encryption key that the root secret gives (R317). -/
def kekOf (root : BitVec 256) : BitVec 256 :=
  let rk := roundKeys (keyBytes root)
  BitVec.ofNat 256 (beNat (aesBlock rk (beBytes 16 1) ++ aesBlock rk (beBytes 16 2)))

/-- FUSE_DONE (R317, R423): HOST is on; the KEK is derived, unless the erase of R328 locks the root; a failed check is TERMINAL at once. -/
def execFuseDone (ok : Bool) (s : State) : Host.Outcome State Fault Refusal :=
  .next (
    if s.stage ≠ 4 then s
    else
      let s := (s.setDom 1 true).supplyReport
      let s := if !ok then (s.fault 1).sample
        else if s.on F.SEC_STAT_ROOT_LOCKED then s
        else { s with sec := { s.sec with kek := some (kekOf Config.root) } }
      s.wr F.CPM_BOOT_STAGE 5)

/-- CLOCK_DONE (R332, R423, R54): REFCLK is detected, its polarity corrected, the root PLL locked. -/
def execClockDone (inverted : Bool) (s : State) : Host.Outcome State Fault Refusal :=
  .next (
    if s.stage ≠ 5 then s
    else (s.rootLocks inverted).wr F.CPM_BOOT_STAGE (if s.rd F.GLB_FORM_FORM = 3 then 9 else 6))

/-- DOMAINS_DONE (R423): RING, LANE, MEM and ENGINE are on. -/
def execDomainsDone (s : State) : Host.Outcome State Fault Refusal :=
  .next (
    if s.stage ≠ 6 then s
    else (s.withShutters (fun s => s.wrs [(F.CPM_PWR_STAT_DOM_ON, 0x3F), (F.CPM_CLK_STAT_LANE_LOCK, 0xF), (F.CPM_BOOT_STAGE, 7)])).evalLaser)

/-- LINK_DONE (R55, R58, R423): the host link is up, with parameters that the form supports. -/
def execLinkDone (l : LinkParams) (s : State) : Host.Outcome State Fault Refusal :=
  .next (if s.stage ≠ 7 ∨ s.linkOk l = false then s else (s.linkUp l).wr F.CPM_BOOT_STAGE (if s.terminal then 10 else 8))

end Sys2Proof.Machine
end

