-- ==== Sys2Proof/Machine/Dbg.lean ====
section
/-! DEFINITION. The debug port (R438 to R444). The TAP works while HOST is on (R438); its shift states are left out, and each instruction acts with
its data register whole. The boundary register is an image whose cells the BSDL gives. -/

namespace Sys2Proof.Machine

/-- The debug port's state becomes d. -/
def State.setDbg (s : State) (d : DbgState) : State := { s with dbg := d }

/-- What g does where the TAP works (R438). -/
def State.tap (s : State) (g : State → State) : State := if s.domOn 1 then g s else s

/-- An instruction is selected: EXTEST drives the pins, every other one releases them (R438, R439). -/
def State.tapIr (s : State) (ir : Nat) : State := (s.setDbg { s.dbg with ir := ir, drvPins := ir == 0 }).evalLaser

/-- IDCODE (R438, R439). -/
def execIdcode (s : State) : Host.Outcome State Fault Refusal :=
  .next (s.tap (fun s => (s.tapIr 2).send (.tdo 2 0x1001654F)))

/-- EXTEST (R438, R439): the pins follow the boundary register, and are captured into it; LASER_EN stays low. What the pins read is free (DESIGN
CHOICE: log entry 5). -/
def execExtest (s : State) : Host.Outcome State Fault Refusal :=
  .next (s.tap (fun s =>
    let x := s.free
    (x.2.tapIr 0).send (.tdo 0 x.1)))

/-- SAMPLE_PRELOAD (R438): the pins are sampled, and the boundary register is loaded. What the pins read is free (DESIGN CHOICE: log entry 5). -/
def execSamplePreload (v : BitVec 64) (s : State) : Host.Outcome State Fault Refusal :=
  .next (s.tap (fun s =>
    let x := s.free
    ((x.2.setDbg { x.2.dbg with boundary := v.toNat }).tapIr 1).send (.tdo 1 x.1)))

/-- BYPASS_INSTRUCTION (R438): BYPASS and every unlisted code. -/
def execBypassInstruction (code : BitVec 6) (s : State) : Host.Outcome State Fault Refusal :=
  .next (if [0, 1, 2, 0x10, 0x11, 0x12].contains code.toNat then s else s.tap (fun s => s.tapIr 0x3F))

/-- TEST_LOGIC_RESET (R438): IDCODE is selected. -/
def execTestLogicReset (s : State) : Host.Outcome State Fault Refusal := .next (s.tap (fun s => s.tapIr 2))

/-! ## Unlock (R443, R444) -/

/-- No challenge is given and no response taken (R444). -/
def State.noUnlock (s : State) : Bool := s.on F.DBG_STAT_HOLDOFF || s.on F.SEC_STAT_ROOT_LOCKED

/-- DBG_CHAL (R443, R444): a fresh challenge, which is free (DESIGN CHOICE: log entry 5). -/
def execDbgChal (s : State) : Host.Outcome State Fault Refusal :=
  .next (s.tap (fun s =>
    let s := s.tapIr 0x10
    if s.noUnlock then s.send (.tdo 0x10 0)
    else
      let x := s.free
      (x.2.setDbg { x.2.dbg with chal := some x.1 }).send (.tdo 0x10 x.1)))

/-- E(KEK, challenge) (R443). -/
def unlockAnswer (kek : BitVec 256) (chal : BitVec 128) : BitVec 128 :=
  BitVec.ofNat 128 (beNat (aesBlock (roundKeys (keyBytes kek)) (beBytes 16 chal.toNat)))

/-- A response matches the outstanding challenge (R443). -/
def State.answers (s : State) (v : BitVec 128) : Bool :=
  match s.sec.kek, s.dbg.chal with
  | some k, some c => unlockAnswer k c == v
  | _, _ => false

/-- A failed unlock (R444, R325): counted, and DBGFAIL where the count reaches DBG_LIMIT. -/
def State.unlockFails (s : State) : State :=
  let before := s.rd F.SEC_DBG_FAILS_COUNT
  let lim := s.rd F.SEC_TAMPER_POL_DBG_LIMIT
  let s := ((s.inc F.SEC_DBG_FAILS_COUNT).wr F.DBG_STAT_HOLDOFF 1).cause0 0x22 1
  if before < lim ∧ lim ≤ s.rd F.SEC_DBG_FAILS_COUNT then s.tamper 4 else s

/-- DBG_RESP (R443, R444). -/
def execDbgResp (v : BitVec 128) (s : State) : Host.Outcome State Fault Refusal :=
  .next (s.tap (fun s =>
    let s := s.tapIr 0x11
    if s.noUnlock then s
    else
      let ok := s.answers v
      let s := s.setDbg { s.dbg with chal := none }
      if ok then (s.wr F.DBG_STAT_UNLOCKED 1).cause0 0x22 0 else s.unlockFails))

/-- DBG_CHAL_EXPIRE (R443): 100 ms have passed. -/
def execDbgChalExpire (s : State) : Host.Outcome State Fault Refusal := .next (s.setDbg { s.dbg with chal := none })

/-- HOLDOFF_END (R444): 1 s has passed. -/
def execHoldoffEnd (s : State) : Host.Outcome State Fault Refusal := .next (s.wr F.DBG_STAT_HOLDOFF 0)

/-! ## Aperture accesses (R440 to R442) -/

/-- Capture-DR of DBG_ACCESS returns the last result (R440): DATA in [51:20], STATUS in [53:52]; ADDR and OP capture as zeros. -/
def State.tapCapture (s : State) : State :=
  (s.tapIr 0x12).send (.tdo 0x12 (BitVec.ofNat 128 (s.dbg.data.toNat * 2 ^ 20 + s.dbg.stat * 2 ^ 52)))

/-- The result that the next capture returns. -/
def State.tapResult (s : State) (data : Word) (stat : Nat) : State := s.setDbg { s.dbg with data := data, stat := stat }

/-- A locked aperture denies the access (R442): all but a READ of GLB or DBG. -/
def State.denied (s : State) (rd : Bool) (a : Nat) : Bool :=
  !s.on F.DBG_STAT_UNLOCKED && !(rd && (a / 0x1000 == 0x00 || a / 0x1000 == 0x22))

/-- An aperture read (R441, R442). -/
def State.tapRead (s : State) (addr : BitVec 18) (take : Bool) : State :=
  let a := 4 * addr.toNat
  let s := s.tapCapture
  if s.denied (!take) a then s.tapResult 0 2
  else
    let x := s.readWord 65 a take
    x.2.tapResult x.1 0

/-- DBG_NOP (R440). -/
def execDbgNop (s : State) : Host.Outcome State Fault Refusal := .next (s.tap State.tapCapture)

/-- DBG_READ (R441): no side effect. -/
def execDbgRead (addr : BitVec 18) (s : State) : Host.Outcome State Fault Refusal := .next (s.tap (fun s => s.tapRead addr false))

/-- DBG_TAKE (R441): the side effect of a host BAR read. -/
def execDbgTake (addr : BitVec 18) (s : State) : Host.Outcome State Fault Refusal := .next (s.tap (fun s => s.tapRead addr true))

/-- DBG_WRITE (R441): as a PF0 write. -/
def execDbgWrite (addr : BitVec 18) (v : Word) (s : State) : Host.Outcome State Fault Refusal :=
  .next (s.tap (fun s =>
    let a := 4 * addr.toNat
    let s := s.tapCapture
    if s.denied false a then s.tapResult 0 2 else (s.writeWord 65 a v.toNat).tapResult 0 0))

end Sys2Proof.Machine
end

