-- ==== Sys2Proof/Machine/Dispatch.lean ====
section
/-! DEFINITION. The effect of every command: one arm for each constructor of Instr. -/

namespace Sys2Proof.Machine

def exec (i : Instr) (s : State) : Host.Outcome State Fault Refusal :=
  match i with
  | .nop f e => Sys2Proof.Machine.execNop f e s
  | .fence f e => Sys2Proof.Machine.execFence f e s
  | .sleepWait f e => Sys2Proof.Machine.execSleepWait f e s
  | .circuitSet f e => Sys2Proof.Machine.execCircuitSet f e s
  | .circuitClear f e => Sys2Proof.Machine.execCircuitClear f e s
  | .schedLoad f e => Sys2Proof.Machine.execSchedLoad f e s
  | .epochPrepare f e => Sys2Proof.Machine.execEpochPrepare f e s
  | .epochCommit f e => Sys2Proof.Machine.execEpochCommit f e s
  | .memCopy f e => Sys2Proof.Machine.execMemCopy f e s
  | .reduce f e => Sys2Proof.Machine.execReduce f e s
  | .psmReduce f e => Sys2Proof.Machine.execPsmReduce f e s
  | .keyLoad f e => Sys2Proof.Machine.execKeyLoad f e s
  | .keyClear f e => Sys2Proof.Machine.execKeyClear f e s
  | .calRun f e => Sys2Proof.Machine.execCalRun f e s
  | .jnlCompact f e => Sys2Proof.Machine.execJnlCompact f e s
  | .commandDoorbell f v => Sys2Proof.Machine.execCommandDoorbell f v s
  | .completionDoorbell f v => Sys2Proof.Machine.execCompletionDoorbell f v s
  | .queueConfigWrite f q v => Sys2Proof.Machine.execQueueConfigWrite f q v s
  | .qCtrlWrite f v => Sys2Proof.Machine.execQCtrlWrite f v s
  | .fetchReadIssue => Sys2Proof.Machine.execFetchReadIssue s
  | .fetchReadDone f entries => Sys2Proof.Machine.execFetchReadDone f entries s
  | .cplCoalTimer f => Sys2Proof.Machine.execCplCoalTimer f s
  | .vfFlr f => Sys2Proof.Machine.execVfFlr f s
  | .pf0Flr => Sys2Proof.Machine.execPf0Flr s
  | .vfEnableChange en num => Sys2Proof.Machine.execVfEnableChange en num s
  | .hostLinkDown dlDown => Sys2Proof.Machine.execHostLinkDown dlDown s
  | .hostLinkUp l => Sys2Proof.Machine.execHostLinkUp l s
  | .nonMaskableAlert f => Sys2Proof.Machine.execNonMaskableAlert f s
  | .regWrite r a => Sys2Proof.Machine.execRegWrite r a s
  | .rcTakingRead r addr => Sys2Proof.Machine.execRcTakingRead r addr s
  | .pairLoRead r addr => Sys2Proof.Machine.execPairLoRead r addr s
  | .pairHiWrite r addr v => Sys2Proof.Machine.execPairHiWrite r addr v s
  | .pageLock r pg v => Sys2Proof.Machine.execPageLock r pg v s
  | .lockTimerExpire pg => Sys2Proof.Machine.execLockTimerExpire pg s
  | .softRst r pg => Sys2Proof.Machine.execSoftRst r pg s
  | .softRstDone pg => Sys2Proof.Machine.execSoftRstDone pg s
  | .intForce r pg v => Sys2Proof.Machine.execIntForce r pg v s
  | .pageFreeze r pg on => Sys2Proof.Machine.execPageFreeze r pg on s
  | .pageEnableWrite r pg on => Sys2Proof.Machine.execPageEnableWrite r pg on s
  | .tableWindowWrite r win word v => Sys2Proof.Machine.execTableWindowWrite r win word v s
  | .tableWindowRead r win word => Sys2Proof.Machine.execTableWindowRead r win word s
  | .monitorSlot m => Sys2Proof.Machine.execMonitorSlot m s
  | .laserFault => Sys2Proof.Machine.execLaserFault s
  | .liLoss n => Sys2Proof.Machine.execLiLoss n s
  | .ilkCheck li0 li1 => Sys2Proof.Machine.execIlkCheck li0 li1 s
  | .restartPulse => Sys2Proof.Machine.execRestartPulse s
  | .restartPulseEnd held => Sys2Proof.Machine.execRestartPulseEnd held s
  | .aprClose p => Sys2Proof.Machine.execAprClose p s
  | .probeInstant p => Sys2Proof.Machine.execProbeInstant p s
  | .probeEnd p => Sys2Proof.Machine.execProbeEnd p s
  | .aprReopen p => Sys2Proof.Machine.execAprReopen p s
  | .shutterRequest r p v => Sys2Proof.Machine.execShutterRequest r p v s
  | .wakeTx r p => Sys2Proof.Machine.execWakeTx r p s
  | .wakeTxEnd p => Sys2Proof.Machine.execWakeTxEnd p s
  | .wakeRx p => Sys2Proof.Machine.execWakeRx p s
  | .searchStart r v => Sys2Proof.Machine.execSearchStart r v s
  | .searchAbort r => Sys2Proof.Machine.execSearchAbort r s
  | .searchAnchorFound => Sys2Proof.Machine.execSearchAnchorFound s
  | .searchInjectDone => Sys2Proof.Machine.execSearchInjectDone s
  | .searchSweepDone => Sys2Proof.Machine.execSearchSweepDone s
  | .searchIdentifyDone => Sys2Proof.Machine.execSearchIdentifyDone s
  | .searchParkDone => Sys2Proof.Machine.execSearchParkDone s
  | .searchVerifyRoundDone => Sys2Proof.Machine.execSearchVerifyRoundDone s
  | .loopUpdate u => Sys2Proof.Machine.execLoopUpdate u s
  | .calSelect => Sys2Proof.Machine.execCalSelect s
  | .calGapFound ch => Sys2Proof.Machine.execCalGapFound ch s
  | .calDefer ch => Sys2Proof.Machine.execCalDefer ch s
  | .calMeasureDone ch m => Sys2Proof.Machine.execCalMeasureDone ch m s
  | .calSwitchDone ch => Sys2Proof.Machine.execCalSwitchDone ch s
  | .calGlideDone ch => Sys2Proof.Machine.execCalGlideDone ch s
  | .codewordReceive p k levels t => Sys2Proof.Machine.execCodewordReceive p k levels t s
  | .dataFlitReceive p j => Sys2Proof.Machine.execDataFlitReceive p j s
  | .controlFlitReceive p j => Sys2Proof.Machine.execControlFlitReceive p j s
  | .controlFlitSend p j low => Sys2Proof.Machine.execControlFlitSend p j low s
  | .dataFlitSend p j low => Sys2Proof.Machine.execDataFlitSend p j low s
  | .nakRepeat p j => Sys2Proof.Machine.execNakRepeat p j s
  | .spareRetry p => Sys2Proof.Machine.execSpareRetry p s
  | .trainBurstReceive p u => Sys2Proof.Machine.execTrainBurstReceive p u s
  | .cdrLock p u => Sys2Proof.Machine.execCdrLock p u s
  | .trainTimeout p u => Sys2Proof.Machine.execTrainTimeout p u s
  | .beaconSend p => Sys2Proof.Machine.execBeaconSend p s
  | .beaconReceive p => Sys2Proof.Machine.execBeaconReceive p s
  | .parentLoss => Sys2Proof.Machine.execParentLoss s
  | .changeAdmit => Sys2Proof.Machine.execChangeAdmit s
  | .changeBuildStart c => Sys2Proof.Machine.execChangeBuildStart c s
  | .ringAcquireStart ring => Sys2Proof.Machine.execRingAcquireStart ring s
  | .acquireTimeout ring => Sys2Proof.Machine.execAcquireTimeout ring s
  | .epochCommitTime e => Sys2Proof.Machine.execEpochCommitTime e s
  | .lateLimitExpire e => Sys2Proof.Machine.execLateLimitExpire e s
  | .drainEnd e => Sys2Proof.Machine.execDrainEnd e s
  | .throughRelease e => Sys2Proof.Machine.execThroughRelease e s
  | .csqAbort r v => Sys2Proof.Machine.execCsqAbort r v s
  | .schedSlotFire slot => Sys2Proof.Machine.execSchedSlotFire slot s
  | .twnCfgWrite r v => Sys2Proof.Machine.execTwnCfgWrite r v s
  | .switchover r => Sys2Proof.Machine.execSwitchover r s
  | .takeover r => Sys2Proof.Machine.execTakeover r s
  | .switchFail => Sys2Proof.Machine.execSwitchFail s
  | .heartbeatSend => Sys2Proof.Machine.execHeartbeatSend s
  | .twinMiss => Sys2Proof.Machine.execTwinMiss s
  | .heartbeat => Sys2Proof.Machine.execHeartbeat s
  | .twinRecord => Sys2Proof.Machine.execTwinRecord s
  | .twinAck => Sys2Proof.Machine.execTwinAck s
  | .twinNak => Sys2Proof.Machine.execTwinNak s
  | .pull => Sys2Proof.Machine.execPull s
  | .handover => Sys2Proof.Machine.execHandover s
  | .twinRecordSend => Sys2Proof.Machine.execTwinRecordSend s
  | .twinNakRepeat => Sys2Proof.Machine.execTwinNakRepeat s
  | .pullSend => Sys2Proof.Machine.execPullSend s
  | .takeoverLoadDone => Sys2Proof.Machine.execTakeoverLoadDone s
  | .jnlProgramStart => Sys2Proof.Machine.execJnlProgramStart s
  | .jnlProgramDone ok => Sys2Proof.Machine.execJnlProgramDone ok s
  | .jnlEraseDone ok => Sys2Proof.Machine.execJnlEraseDone ok s
  | .replay r => Sys2Proof.Machine.execReplay r s
  | .jnlAbort r => Sys2Proof.Machine.execJnlAbort r s
  | .bypass r v => Sys2Proof.Machine.execBypass r v s
  | .replayProbeDone part => Sys2Proof.Machine.execReplayProbeDone part s
  | .replaySelectDone => Sys2Proof.Machine.execReplaySelectDone s
  | .replayScanDone => Sys2Proof.Machine.execReplayScanDone s
  | .bar2Read f x len relaxed => Sys2Proof.Machine.execBar2Read f x len relaxed s
  | .bar2Write f x bytes poisoned => Sys2Proof.Machine.execBar2Write f x bytes poisoned s
  | .atomicGo r n => Sys2Proof.Machine.execAtomicGo r n s
  | .rmeIssue f => Sys2Proof.Machine.execRmeIssue f s
  | .readReq c => Sys2Proof.Machine.execReadReq c s
  | .writeReq c => Sys2Proof.Machine.execWriteReq c s
  | .atomicReq c => Sys2Proof.Machine.execAtomicReq c s
  | .rmeTargetRespond c => Sys2Proof.Machine.execRmeTargetRespond c s
  | .readRsp c => Sys2Proof.Machine.execReadRsp c s
  | .writeAck c => Sys2Proof.Machine.execWriteAck c s
  | .atomicRsp c => Sys2Proof.Machine.execAtomicRsp c s
  | .reqAgeExpire tag => Sys2Proof.Machine.execReqAgeExpire tag s
  | .tagQuarantineExpire tag => Sys2Proof.Machine.execTagQuarantineExpire tag s
  | .mssTrain r => Sys2Proof.Machine.execMssTrain r s
  | .mssTrainStageEnd st ok => Sys2Proof.Machine.execMssTrainStageEnd st ok s
  | .scrubAccess st res => Sys2Proof.Machine.execScrubAccess st res s
  | .rdxStepStart f coll step => Sys2Proof.Machine.execRdxStepStart f coll step s
  | .rdxStepDone f coll step => Sys2Proof.Machine.execRdxStepDone f coll step s
  | .stepListReadDone f coll first entries => Sys2Proof.Machine.execStepListReadDone f coll first entries s
  | .collectiveMessage c => Sys2Proof.Machine.execCollectiveMessage c s
  | .rdxStepAgeExpire f coll step => Sys2Proof.Machine.execRdxStepAgeExpire f coll step s
  | .rdxOrphan c coll tag => Sys2Proof.Machine.execRdxOrphan c coll tag s
  | .psmClaimDone p => Sys2Proof.Machine.execPsmClaimDone p s
  | .lineariseDone p => Sys2Proof.Machine.execLineariseDone p s
  | .psmAlignStart p => Sys2Proof.Machine.execPsmAlignStart p s
  | .psmTrimSend p lines => Sys2Proof.Machine.execPsmTrimSend p lines s
  | .psmStreamStart p => Sys2Proof.Machine.execPsmStreamStart p s
  | .psmGuardCheck p meanRaw samples => Sys2Proof.Machine.execPsmGuardCheck p meanRaw samples s
  | .psmStreamEnd p samples => Sys2Proof.Machine.execPsmStreamEnd p samples s
  | .psmRepairWindow p => Sys2Proof.Machine.execPsmRepairWindow p s
  | .psmStatusSend p sums => Sys2Proof.Machine.execPsmStatusSend p sums s
  | .trim p frame => Sys2Proof.Machine.execTrim p frame s
  | .repair p frame => Sys2Proof.Machine.execRepair p frame s
  | .status p frame => Sys2Proof.Machine.execStatus p frame s
  | .downstreamLoss p => Sys2Proof.Machine.execDownstreamLoss p s
  | .psmStatusTimeout p => Sys2Proof.Machine.execPsmStatusTimeout p s
  | .psmReleaseDone p => Sys2Proof.Machine.execPsmReleaseDone p s
  | .tamperLatch src => Sys2Proof.Machine.execTamperLatch src s
  | .eraseDone => Sys2Proof.Machine.execEraseDone s
  | .unfence r => Sys2Proof.Machine.execUnfence r s
  | .secKeyrangeWrite r n v => Sys2Proof.Machine.execSecKeyrangeWrite r n v s
  | .faultOnset p => Sys2Proof.Machine.execFaultOnset p s
  | .fcuRecordAck r src => Sys2Proof.Machine.execFcuRecordAck r src s
  | .fcuFenceSet r v => Sys2Proof.Machine.execFcuFenceSet r v s
  | .fcuUnfence r v => Sys2Proof.Machine.execFcuUnfence r v s
  | .fcuRailInj r v => Sys2Proof.Machine.execFcuRailInj r v s
  | .errInject r pg v => Sys2Proof.Machine.execErrInject r pg v s
  | .dryErrnEnd => Sys2Proof.Machine.execDryErrnEnd s
  | .fcuPriorAck r => Sys2Proof.Machine.execFcuPriorAck r s
  | .evrLogEntry => Sys2Proof.Machine.execEvrLogEntry s
  | .clear r => Sys2Proof.Machine.execClear r s
  | .evrWinStatusRead r => Sys2Proof.Machine.execEvrWinStatusRead r s
  | .evrCursorWrite r v => Sys2Proof.Machine.execEvrCursorWrite r v s
  | .periodBoundary => Sys2Proof.Machine.execPeriodBoundary s
  | .staLenWrite r v => Sys2Proof.Machine.execStaLenWrite r v s
  | .dieSensorConversion n temp => Sys2Proof.Machine.execDieSensorConversion n temp s
  | .extConversionDone n x => Sys2Proof.Machine.execExtConversionDone n x s
  | .extOpenDetect n w => Sys2Proof.Machine.execExtOpenDetect n w s
  | .extCfgWrite r n word v => Sys2Proof.Machine.execExtCfgWrite r n word v s
  | .supplyOutOfWindow k mv => Sys2Proof.Machine.execSupplyOutOfWindow k mv s
  | .supplyRecover k mv => Sys2Proof.Machine.execSupplyRecover k mv s
  | .alertN statusWord => Sys2Proof.Machine.execAlertN statusWord s
  | .opTargetWrite r v => Sys2Proof.Machine.execOpTargetWrite r v s
  | .vCmdDone x => Sys2Proof.Machine.execVCmdDone x s
  | .readVoutDone mv x => Sys2Proof.Machine.execReadVoutDone mv x s
  | .settleDone => Sys2Proof.Machine.execSettleDone s
  | .aonTrim ticks => Sys2Proof.Machine.execAonTrim ticks s
  | .rootPllLockLoss => Sys2Proof.Machine.execRootPllLockLoss s
  | .lanePllLockChange g locked => Sys2Proof.Machine.execLanePllLockChange g locked s
  | .sleepDrainDone => Sys2Proof.Machine.execSleepDrainDone s
  | .sleepDrainTimeout => Sys2Proof.Machine.execSleepDrainTimeout s
  | .sleepLinkIdle => Sys2Proof.Machine.execSleepLinkIdle s
  | .linkWaitExpire => Sys2Proof.Machine.execLinkWaitExpire s
  | .wakeN => Sys2Proof.Machine.execWakeN s
  | .hostWake => Sys2Proof.Machine.execHostWake s
  | .linkDataWake => Sys2Proof.Machine.execLinkDataWake s
  | .wakeTimer => Sys2Proof.Machine.execWakeTimer s
  | .wSupplyDone ok => Sys2Proof.Machine.execWSupplyDone ok s
  | .supplyRetry ok => Sys2Proof.Machine.execSupplyRetry ok s
  | .wHostDone ticks refclk inverted => Sys2Proof.Machine.execWHostDone ticks refclk inverted s
  | .wDomainsDone => Sys2Proof.Machine.execWDomainsDone s
  | .wEngineDone => Sys2Proof.Machine.execWEngineDone s
  | .refclkConfirm r ticks inverted => Sys2Proof.Machine.execRefclkConfirm r ticks inverted s
  | .padRelease r => Sys2Proof.Machine.execPadRelease r s
  | .estClear r => Sys2Proof.Machine.execEstClear r s
  | .cpmTimeSet r v => Sys2Proof.Machine.execCpmTimeSet r v s
  | .softwareReset r v => Sys2Proof.Machine.execSoftwareReset r v s
  | .powerOnReset inRange => Sys2Proof.Machine.execPowerOnReset inRange s
  | .perst => Sys2Proof.Machine.execPerst s
  | .perstRelease => Sys2Proof.Machine.execPerstRelease s
  | .porDone straps => Sys2Proof.Machine.execPorDone straps s
  | .startupSupplyDone exp ok => Sys2Proof.Machine.execStartupSupplyDone exp ok s
  | .fuseDone ok => Sys2Proof.Machine.execFuseDone ok s
  | .clockDone inverted => Sys2Proof.Machine.execClockDone inverted s
  | .domainsDone => Sys2Proof.Machine.execDomainsDone s
  | .linkDone l => Sys2Proof.Machine.execLinkDone l s
  | .idcode => Sys2Proof.Machine.execIdcode s
  | .extest => Sys2Proof.Machine.execExtest s
  | .samplePreload preload => Sys2Proof.Machine.execSamplePreload preload s
  | .bypassInstruction code => Sys2Proof.Machine.execBypassInstruction code s
  | .dbgChal => Sys2Proof.Machine.execDbgChal s
  | .dbgResp v => Sys2Proof.Machine.execDbgResp v s
  | .dbgChalExpire => Sys2Proof.Machine.execDbgChalExpire s
  | .holdoffEnd => Sys2Proof.Machine.execHoldoffEnd s
  | .dbgNop => Sys2Proof.Machine.execDbgNop s
  | .dbgRead addr => Sys2Proof.Machine.execDbgRead addr s
  | .dbgWrite addr v => Sys2Proof.Machine.execDbgWrite addr v s
  | .dbgTake addr => Sys2Proof.Machine.execDbgTake addr s
  | .relock r => Sys2Proof.Machine.execRelock r s
  | .dbgFreezeAll r on => Sys2Proof.Machine.execDbgFreezeAll r on s
  | .forceFreeze r => Sys2Proof.Machine.execForceFreeze r s
  | .accessErrorRead r a => Sys2Proof.Machine.execAccessErrorRead r a s
  | .hostReadDone f cmdId d => Sys2Proof.Machine.execHostReadDone f cmdId d s
  | .memoryAccessDone cl offset op ecc => Sys2Proof.Machine.execMemoryAccessDone cl offset op ecc s
  | .laserFaultClear => Sys2Proof.Machine.execLaserFaultClear s
  | .tamperDeassert src => Sys2Proof.Machine.execTamperDeassert src s
  | .testLogicReset => Sys2Proof.Machine.execTestLogicReset s
  | .psmOverRange p index => Sys2Proof.Machine.execPsmOverRange p index s
  | .scrubBehind st => Sys2Proof.Machine.execScrubBehind st s
  | .flrComplete f => Sys2Proof.Machine.execFlrComplete f s
  | .vectorMaskOrEnableWrite f w => Sys2Proof.Machine.execVectorMaskOrEnableWrite f w s

end Sys2Proof.Machine
end

