-- ==== Sys2Proof/WellFormed.lean ====
section
/-! DEFINITION. Which command terms are commands of the block: the operand lengths and ranges the spec gives that the operand types do
not hold by themselves. -/

namespace Sys2Proof

/-- A register access is 1 B to 8 B wide (R29, R30). -/
def Access.wf (a : Access) : Bool := decide (1 ≤ a.size ∧ a.size ≤ 8)

/-- A command term is well formed: list lengths and ranges the spec sets. -/
def Instr.wf : Instr → Bool
  | .fetchReadDone _ es => decide (1 ≤ es.length ∧ es.length ≤ 8)
  | .regWrite _ a => a.wf
  | .accessErrorRead _ a => a.wf
  | .bar2Read _ x n _ => decide (1 ≤ n ∧ n ≤ 4096 ∧ x.toNat + n ≤ 2 ^ 34)
  | .bar2Write _ x bs _ => decide (1 ≤ bs.length ∧ bs.length ≤ 4096 ∧ x.toNat + bs.length ≤ 2 ^ 34)
  | .memoryAccessDone _ _ (.write bs) _ => decide (bs.length = 64)
  | .codewordReceive _ _ levels _ => decide (levels.length = 2720)
  | _ => true

end Sys2Proof
end

