-- ==== Sys2Proof/Safety.lean ====
section
/-! DEFINITION. What the claims mean by a command that completes, by a well-formed state, and by what every command keeps. -/

namespace Sys2Proof.Machine

/-- The command answers a next state, and P holds of it. -/
def Answers (i : Instr) (s : State) (P : State → Prop) : Prop := ∃ t, exec i s = .next t ∧ P t

/-- The step from a state answers a next state, and P holds of it. -/
def StepAnswers (s : State) (P : State → Prop) : Prop := ∃ t, step s = .next t ∧ P t

/-- The keys of a table rise strictly from b on. -/
def risingFrom {α : Type} : Nat → List (Nat × α) → Bool
  | _, [] => true
  | b, (k, _) :: t => decide (b ≤ k) && risingFrom (k + 1) t

/-- The register fields' table holds each field at most once, in the order of addresses. -/
def State.fieldsWf (s : State) : Bool := risingFrom 0 s.regs

/-- A well-formed state: the register fields' table and the stacks' memory are in canonical form (R256). -/
def State.wf (s : State) : Bool := s.fieldsWf && Memory.wf s.mss.mem

/-- The parts of the state, for frames: the register fields of PF0's pages 0x00 to 0x0F, of the page headers below 0x20000 (R29), of the
port pages, of every address from 0x20000 on (STA, ENV, DBG, PSM, the VFs' pages); and what stands behind the registers. -/
inductive Part where
  | page (n : Fin 16)
  | headers | ports | upper
  | outputs | freeValues | time | host | requesters | locks | queues | rings | links | circuits | twin | journal
  | memory | stackState | remoteOps | reductions | sums | keys | faults | events | partCounters | power | boot | debug
  deriving DecidableEq, Repr

/-- The part that the register field at a word address belongs to. -/
def partAt (a : Nat) : Part :=
  if 0x20000 ≤ a then .upper
  else if a % 0x1000 < 0x40 then .headers
  else if 0x10000 ≤ a then .ports
  else .page (Fin.ofNat 16 (a / 0x1000))

/-- The part that a register field belongs to. -/
def Fld.part (f : Fld) : Part := partAt (f.key / 32)

/-- A part of the state is the same in two states. -/
def Part.Same (p : Part) (s t : State) : Prop :=
  match p with
  | .page n => ∀ f : Fld, f.part = .page n → t.rd f = s.rd f
  | .headers => ∀ f : Fld, f.part = .headers → t.rd f = s.rd f
  | .ports => ∀ f : Fld, f.part = .ports → t.rd f = s.rd f
  | .upper => ∀ f : Fld, f.part = .upper → t.rd f = s.rd f
  | .outputs => t.out = s.out
  | .freeValues => t.freeCtr = s.freeCtr
  | .time => t.time = s.time
  | .host => t.host = s.host
  | .requesters => t.req = s.req
  | .locks => t.locks = s.locks
  | .queues => t.que = s.que
  | .rings => t.rcu = s.rcu
  | .links => t.lnk = s.lnk
  | .circuits => t.csq = s.csq
  | .twin => t.twn = s.twn
  | .journal => t.jnl = s.jnl
  | .memory => ∀ a : Nat, Memory.read t.mss.mem a = Memory.read s.mss.mem a
  | .stackState => t.mss.poison = s.mss.poison ∧ t.mss.passStart = s.mss.passStart ∧ t.mss.noZero = s.mss.noZero ∧ t.mss.barred = s.mss.barred
  | .remoteOps => t.rme = s.rme
  | .reductions => t.rdx = s.rdx
  | .sums => t.psm = s.psm
  | .keys => t.sec = s.sec
  | .faults => t.fcu = s.fcu
  | .events => t.evr = s.evr
  | .partCounters => t.sta = s.sta
  | .power => t.cpm = s.cpm
  | .boot => t.boot = s.boot
  | .debug => t.dbg = s.dbg

/-- A part that is register fields; the others stand behind the registers. -/
def Part.isRegs : Part → Bool
  | .page _ | .headers | .ports | .upper => true
  | _ => false

/-- The register fields fs and the parts ps aside, t holds what s holds. -/
def Frame (s t : State) (fs : List Fld) (ps : List Part) : Prop :=
  (∀ f : Fld, (∀ g ∈ fs, f.key ≠ g.key) → t.rd f = s.rd f) ∧ ∀ p : Part, p.isRegs = false → p ∉ ps → p.Same s t

/-- The register fields that a refused access writes: its flag, where it happened, and PF0's INT_CAUSE on the GLB page (R33, R51). -/
def accessErrFields (flag : Fld) : List Fld :=
  [flag, F.GLB_ACCESS_ERR_LAST_PAGE, F.GLB_ACCESS_ERR_LAST_OFFSET, F.GLB_ACCESS_ERR_LAST_SRC, F.INT_CAUSE_CAUSE 0]

/-- The frame of a register write with these of its bits reserved (R32): where one of them is 1, RSVD_WR and what comes with it change too. -/
def WriteFrame (s t : State) (res : Nat) (fs : List Fld) (ps : List Part) : Prop :=
  Frame s t (fs ++ if res = 0 then [] else accessErrFields F.GLB_ACCESS_ERR_RSVD_WR) (ps ++ if res = 0 then [] else [.outputs, .host])

/-- Every part. -/
def Part.all : List Part :=
  (List.finRange 16).map Part.page ++
    [.headers, .ports, .upper, .outputs, .freeValues, .time, .host, .requesters, .locks, .queues, .rings, .links, .circuits, .twin, .journal] ++
    [.memory, .stackState, .remoteOps, .reductions, .sums, .keys, .faults, .events, .partCounters, .power, .boot, .debug]

/-- Every part but these. -/
def Part.allBut (l : List Part) : List Part := Part.all.filter (fun p => p ∉ l)

/-- The parts of the state that a command may change, whatever its operands and the state (95_what_each_step_holds.md, R13). -/
def touches : Instr → List Part
  | .nop .. | .fence .. | .schedLoad .. | .keyLoad .. =>
    [.page 3, .upper, .outputs, .host, .queues, .partCounters]
  | .sleepWait .. =>
    [.page 1, .page 3, .page 9, .headers, .upper, .outputs, .freeValues, .host, .queues, .rings, .circuits, .twin, .journal, .faults,
    .partCounters, .power]
  | .circuitSet .. | .circuitClear .. | .epochCommit .. | .changeAdmit .. | .changeBuildStart .. | .acquireTimeout .. =>
    [.page 3, .page 7, .headers, .ports, .upper, .outputs, .host, .queues, .rings, .links, .circuits, .faults, .partCounters]
  | .epochPrepare .. =>
    [.page 3, .page 7, .upper, .outputs, .host, .queues, .circuits, .partCounters]
  | .memCopy .. | .rmeIssue .. | .readRsp .. | .writeAck .. | .atomicRsp .. | .reqAgeExpire .. =>
    [.page 3, .page 11, .headers, .upper, .outputs, .freeValues, .host, .queues, .links, .memory, .stackState, .remoteOps, .faults,
    .partCounters]
  | .reduce .. | .stepListReadDone .. | .rdxStepAgeExpire .. =>
    [.page 3, .upper, .outputs, .host, .queues, .reductions, .partCounters]
  | .psmReduce .. | .status .. | .psmStatusTimeout .. =>
    [.page 3, .upper, .outputs, .host, .queues, .sums, .partCounters]
  | .keyClear .. =>
    [.page 3, .page 7, .page 9, .headers, .ports, .upper, .outputs, .freeValues, .host, .queues, .rings, .links, .circuits, .twin,
    .journal, .remoteOps, .keys, .faults, .partCounters]
  | .calRun .. | .calGlideDone .. =>
    [.page 3, .upper, .outputs, .host, .queues, .rings, .partCounters]
  | .jnlCompact .. =>
    [.page 3, .page 9, .upper, .outputs, .host, .queues, .journal, .partCounters]
  | .commandDoorbell .. | .completionDoorbell .. | .queueConfigWrite .. | .qCtrlWrite .. | .regWrite .. | .pairHiWrite .. | .pageLock ..
  | .softRst .. | .intForce .. | .pageFreeze .. | .pageEnableWrite .. | .tableWindowWrite .. | .shutterRequest .. | .wakeTx ..
  | .searchStart .. | .searchAbort .. | .csqAbort .. | .twnCfgWrite .. | .switchover .. | .takeover .. | .replay .. | .jnlAbort ..
  | .bypass .. | .atomicGo .. | .mssTrain .. | .unfence .. | .secKeyrangeWrite .. | .faultOnset .. | .fcuRecordAck .. | .fcuFenceSet ..
  | .fcuUnfence .. | .fcuRailInj .. | .errInject .. | .fcuPriorAck .. | .clear .. | .evrCursorWrite .. | .staLenWrite ..
  | .extCfgWrite .. | .opTargetWrite .. | .sleepDrainDone .. | .sleepLinkIdle .. | .linkWaitExpire .. | .padRelease .. | .estClear ..
  | .cpmTimeSet .. | .softwareReset .. | .powerOnReset .. | .perst .. | .fuseDone .. | .dbgWrite .. | .relock .. | .dbgFreezeAll ..
  | .forceFreeze .. =>
    Part.all
  | .fetchReadIssue .. | .cplCoalTimer .. =>
    [.outputs, .host, .queues]
  | .fetchReadDone .. =>
    [.page 3, .headers, .upper, .outputs, .host, .queues, .faults, .partCounters]
  | .vfFlr .. | .vfEnableChange .. =>
    Part.allBut [.freeValues, .time, .locks, .links, .circuits, .twin, .journal, .memory, .stackState, .keys, .events, .power, .boot,
    .debug]
  | .pf0Flr .. | .hostLinkDown .. =>
    Part.allBut [.time, .locks, .circuits, .twin, .journal, .keys, .events, .power, .boot, .debug]
  | .hostLinkUp .. =>
    [.page 2, .page 3, .headers, .upper, .outputs, .host, .queues, .faults]
  | .nonMaskableAlert .. =>
    [.page 2, .outputs]
  | .rcTakingRead .. | .pairLoRead .. | .tableWindowRead .. | .evrWinStatusRead .. | .accessErrorRead .. =>
    Part.allBut [.freeValues, .time, .locks, .queues, .rings, .links, .circuits, .twin, .journal, .memory, .stackState, .remoteOps,
    .sums, .keys, .faults, .events, .partCounters, .power, .boot, .debug]
  | .lockTimerExpire .. =>
    [.headers, .upper, .locks]
  | .softRstDone .. =>
    [.headers, .upper]
  | .monitorSlot .. =>
    [.page 3, .page 4, .page 5, .page 7, .page 15, .headers, .ports, .upper, .outputs, .host, .queues, .rings, .links, .circuits,
    .remoteOps, .sums, .faults, .events, .partCounters]
  | .laserFault .. | .liLoss .. =>
    [.page 4, .headers, .upper, .outputs, .host, .rings, .faults]
  | .ilkCheck .. =>
    [.page 4, .headers, .upper, .rings, .faults]
  | .restartPulse .. | .restartPulseEnd .. | .laserFaultClear .. =>
    [.page 4, .rings]
  | .aprClose .. | .probeInstant .. | .probeEnd .. | .aprReopen .. =>
    [.page 3, .page 5, .page 7, .page 15, .headers, .ports, .upper, .outputs, .host, .queues, .rings, .links, .circuits, .remoteOps,
    .sums, .faults, .events, .partCounters]
  | .wakeTxEnd .. =>
    [.ports]
  | .wakeRx .. | .wakeN .. | .hostWake .. | .linkDataWake .. | .wakeTimer .. =>
    Part.allBut [.page 0, .page 2, .page 6, .page 8, .page 9, .page 11, .page 12, .page 13, .page 14, .freeValues, .time, .requesters,
    .locks, .twin, .journal, .memory, .reductions, .keys, .boot, .debug]
  | .searchAnchorFound .. | .searchInjectDone .. | .searchSweepDone .. =>
    [.page 5, .rings]
  | .searchIdentifyDone .. | .searchParkDone .. =>
    [.page 5, .freeValues, .rings]
  | .searchVerifyRoundDone .. =>
    [.page 3, .page 4, .page 5, .page 7, .page 15, .headers, .ports, .upper, .outputs, .freeValues, .host, .queues, .rings, .links,
    .circuits, .remoteOps, .sums, .faults, .events, .partCounters]
  | .loopUpdate .. =>
    [.page 3, .page 5, .page 7, .page 9, .headers, .ports, .upper, .outputs, .freeValues, .host, .queues, .rings, .links, .circuits,
    .twin, .journal, .remoteOps, .sums, .faults, .partCounters]
  | .calSelect .. =>
    [.page 3, .page 5, .upper, .outputs, .host, .queues, .rings, .partCounters]
  | .calGapFound .. =>
    [.rings]
  | .calDefer .. =>
    [.page 3, .page 5, .page 15, .headers, .upper, .outputs, .host, .queues, .rings, .events, .partCounters]
  | .calMeasureDone .. =>
    [.page 3, .page 5, .page 9, .headers, .upper, .outputs, .freeValues, .host, .queues, .rings, .twin, .journal, .faults,
    .partCounters]
  | .calSwitchDone .. =>
    [.page 3, .ports, .upper, .outputs, .host, .queues, .rings, .links, .partCounters]
  | .codewordReceive .. | .controlFlitReceive .. | .spareRetry .. | .trainBurstReceive .. | .trainTimeout .. =>
    [.page 3, .page 7, .headers, .ports, .upper, .outputs, .host, .queues, .rings, .links, .circuits, .remoteOps, .faults,
    .partCounters]
  | .dataFlitReceive .. =>
    [.page 3, .page 7, .headers, .ports, .upper, .outputs, .host, .queues, .rings, .links, .circuits, .remoteOps, .keys, .faults,
    .partCounters]
  | .controlFlitSend .. =>
    [.outputs, .freeValues, .links]
  | .dataFlitSend .. =>
    [.upper, .outputs, .links, .remoteOps, .keys, .partCounters]
  | .nakRepeat .. =>
    [.links]
  | .cdrLock .. =>
    [.ports, .outputs, .links]
  | .beaconSend .. | .heartbeatSend .. | .twinNakRepeat .. | .pullSend .. =>
    [.outputs, .links]
  | .beaconReceive .. =>
    [.page 1, .page 6, .headers, .upper, .outputs, .freeValues, .time, .host, .links, .partCounters]
  | .parentLoss .. =>
    [.page 1, .page 6, .headers, .upper, .outputs, .time, .host, .links]
  | .ringAcquireStart .. =>
    [.page 3, .page 4, .page 7, .headers, .ports, .upper, .outputs, .host, .queues, .rings, .links, .circuits, .faults, .partCounters]
  | .epochCommitTime .. | .lateLimitExpire .. | .schedSlotFire .. =>
    [.page 3, .page 7, .headers, .ports, .upper, .outputs, .time, .host, .queues, .rings, .links, .circuits, .faults, .partCounters]
  | .drainEnd .. | .throughRelease .. =>
    [.page 3, .page 7, .page 9, .page 15, .headers, .ports, .upper, .outputs, .freeValues, .host, .queues, .rings, .links, .circuits,
    .twin, .journal, .faults, .events, .partCounters]
  | .switchFail .. | .twinMiss .. =>
    [.page 8, .headers, .upper, .outputs, .host, .twin, .faults]
  | .heartbeat .. | .twinAck .. | .twinNak .. | .handover .. | .twinRecordSend .. =>
    [.page 8, .headers, .upper, .outputs, .host, .links, .twin, .faults]
  | .twinRecord .. =>
    [.page 8, .page 9, .headers, .upper, .outputs, .freeValues, .host, .links, .twin, .journal, .faults]
  | .pull .. =>
    [.page 8, .headers, .upper, .outputs, .freeValues, .host, .links, .twin, .faults]
  | .takeoverLoadDone .. =>
    [.page 8, .page 9, .page 13, .headers, .upper, .outputs, .freeValues, .host, .circuits, .twin, .journal, .keys, .faults]
  | .jnlProgramStart .. | .replaySelectDone .. =>
    [.page 9, .outputs, .journal]
  | .jnlProgramDone .. =>
    [.page 3, .page 7, .page 9, .page 15, .headers, .upper, .outputs, .freeValues, .host, .queues, .circuits, .twin, .journal,
    .faults, .events, .partCounters]
  | .jnlEraseDone .. =>
    [.page 3, .page 7, .page 9, .headers, .upper, .outputs, .freeValues, .host, .queues, .circuits, .journal, .faults, .partCounters]
  | .replayProbeDone .. =>
    [.page 3, .page 7, .page 9, .headers, .upper, .outputs, .host, .queues, .circuits, .twin, .journal, .faults, .partCounters]
  | .replayScanDone .. =>
    [.page 3, .page 7, .page 8, .page 9, .page 15, .headers, .upper, .outputs, .host, .queues, .rings, .circuits, .twin, .journal,
    .keys, .faults, .events, .partCounters]
  | .bar2Read .. | .bar2Write .. =>
    [.page 3, .page 11, .headers, .upper, .outputs, .freeValues, .host, .links, .memory, .stackState, .remoteOps, .faults,
    .partCounters]
  | .readReq .. | .writeReq .. | .atomicReq .. | .rmeTargetRespond .. =>
    [.links, .memory, .stackState]
  | .tagQuarantineExpire .. =>
    [.remoteOps]
  | .mssTrainStageEnd .. | .memoryAccessDone .. =>
    [.page 10, .headers, .upper, .outputs, .host, .memory, .stackState, .faults]
  | .scrubAccess .. =>
    [.page 10, .headers, .upper, .outputs, .host, .stackState, .faults]
  | .rdxStepStart .. =>
    [.page 3, .page 12, .headers, .upper, .outputs, .host, .queues, .links, .memory, .stackState, .reductions, .partCounters]
  | .rdxStepDone .. =>
    [.page 3, .page 12, .upper, .outputs, .host, .queues, .links, .memory, .stackState, .reductions, .partCounters]
  | .collectiveMessage .. =>
    [.page 12, .headers, .upper, .outputs, .host, .links, .memory, .stackState, .reductions]
  | .rdxOrphan .. =>
    [.page 12, .headers, .upper, .outputs, .host, .reductions, .faults]
  | .psmClaimDone .. =>
    [.upper, .rings]
  | .lineariseDone .. | .trim .. =>
    [.upper, .sums]
  | .psmAlignStart .. | .psmTrimSend .. | .psmStreamStart .. =>
    [.page 3, .headers, .upper, .outputs, .time, .host, .queues, .rings, .sums, .faults, .partCounters]
  | .psmGuardCheck .. =>
    [.page 3, .headers, .upper, .outputs, .host, .queues, .rings, .memory, .stackState, .sums, .faults, .partCounters]
  | .psmStreamEnd .. =>
    [.upper, .outputs, .time, .memory, .stackState, .sums]
  | .psmRepairWindow .. =>
    [.upper, .outputs]
  | .psmStatusSend .. =>
    [.page 3, .upper, .outputs, .host, .queues, .memory, .stackState, .sums, .partCounters]
  | .repair .. =>
    [.sums]
  | .downstreamLoss .. =>
    [.page 3, .headers, .upper, .outputs, .host, .queues, .rings, .sums, .faults, .partCounters]
  | .psmReleaseDone .. =>
    [.headers, .upper, .outputs, .host, .rings, .sums]
  | .tamperLatch .. =>
    [.page 3, .page 13, .page 15, .headers, .upper, .outputs, .host, .queues, .circuits, .remoteOps, .faults, .events, .partCounters,
    .power]
  | .eraseDone .. =>
    [.page 2, .page 3, .page 7, .page 13, .headers, .ports, .upper, .outputs, .host, .queues, .rings, .links, .circuits, .remoteOps,
    .keys, .faults, .partCounters]
  | .dryErrnEnd .. =>
    [.faults]
  | .evrLogEntry .. =>
    [.page 15, .headers, .upper, .outputs, .host, .requesters, .events]
  | .periodBoundary .. =>
    [.headers, .upper, .outputs, .time, .host, .partCounters]
  | .dieSensorConversion .. | .extOpenDetect .. | .supplyOutOfWindow .. =>
    [.headers, .upper, .outputs, .host, .faults]
  | .extConversionDone .. =>
    [.headers, .upper, .outputs, .freeValues, .host, .faults]
  | .supplyRecover .. | .holdoffEnd .. =>
    [.upper]
  | .alertN .. =>
    [.headers, .upper, .outputs, .faults]
  | .vCmdDone .. | .readVoutDone .. | .settleDone .. =>
    [.page 1, .page 15, .headers, .upper, .outputs, .host, .faults, .events, .power]
  | .aonTrim .. =>
    [.page 1, .freeValues]
  | .rootPllLockLoss .. | .lanePllLockChange .. =>
    [.page 1, .headers, .upper, .faults]
  | .sleepDrainTimeout .. =>
    [.page 1, .page 3, .page 15, .headers, .upper, .outputs, .host, .queues, .faults, .events, .partCounters, .power]
  | .wSupplyDone .. =>
    [.page 1, .freeValues, .faults]
  | .supplyRetry .. | .startupSupplyDone .. =>
    [.page 1, .outputs, .freeValues, .faults]
  | .wHostDone .. =>
    Part.allBut [.page 0, .page 8, .page 9, .page 11, .page 12, .page 14, .freeValues, .requesters, .locks, .twin, .journal, .memory,
    .reductions, .keys, .boot, .debug]
  | .wDomainsDone .. | .clockDone .. =>
    [.page 1]
  | .wEngineDone .. =>
    Part.allBut [.page 0, .page 2, .page 4, .page 6, .page 8, .page 12, .page 13, .page 14, .time, .requesters, .locks, .twin, .keys,
    .boot, .debug]
  | .refclkConfirm .. =>
    Part.allBut [.page 0, .page 2, .page 6, .page 8, .page 11, .page 12, .page 13, .page 14, .freeValues, .requesters, .locks, .twin,
    .memory, .reductions, .keys, .power, .boot, .debug]
  | .perstRelease .. =>
    [.page 1, .boot]
  | .porDone .. =>
    [.page 0, .page 1]
  | .domainsDone .. =>
    [.page 1, .page 3, .page 4, .page 5, .page 7, .page 15, .headers, .ports, .upper, .outputs, .host, .queues, .rings, .links,
    .circuits, .remoteOps, .sums, .faults, .events, .partCounters]
  | .linkDone .. =>
    [.page 1, .page 2, .page 3, .headers, .upper, .outputs, .host, .queues, .faults]
  | .idcode .. | .dbgNop .. =>
    [.page 4, .outputs, .rings, .debug]
  | .extest .. | .samplePreload .. | .dbgChal .. =>
    [.page 4, .outputs, .freeValues, .rings, .debug]
  | .bypassInstruction .. | .testLogicReset .. =>
    [.page 4, .rings, .debug]
  | .dbgResp .. =>
    [.page 3, .page 4, .page 13, .page 15, .headers, .upper, .outputs, .host, .queues, .rings, .circuits, .remoteOps, .faults,
    .events, .partCounters, .debug]
  | .dbgChalExpire .. =>
    [.debug]
  | .dbgRead .. | .dbgTake .. =>
    Part.allBut [.freeValues, .time, .locks, .queues, .links, .circuits, .twin, .journal, .memory, .stackState, .remoteOps, .sums,
    .keys, .faults, .events, .partCounters, .power, .boot]
  | .hostReadDone .. =>
    [.page 3, .page 7, .page 9, .page 11, .headers, .upper, .outputs, .freeValues, .host, .queues, .links, .circuits, .twin, .journal,
    .memory, .stackState, .remoteOps, .keys, .faults, .partCounters]
  | .tamperDeassert .. =>
    [.page 13]
  | .psmOverRange .. =>
    [.headers, .upper, .outputs, .host, .sums]
  | .scrubBehind .. =>
    [.page 10, .headers, .upper, .outputs, .host]
  | .flrComplete .. =>
    [.headers, .upper, .outputs, .host]
  | .vectorMaskOrEnableWrite .. =>
    [.page 2, .page 3, .upper, .outputs, .host, .queues]

/-- The commands that come as a 64 B entry of a command queue, with their opcodes (R77). -/
def commandRows : List (Nat × (Fn → Block64 → Instr)) :=
  [(0x00, .nop), (0x01, .fence), (0x02, .sleepWait), (0x10, .circuitSet), (0x11, .circuitClear),
   (0x12, .schedLoad), (0x13, .epochPrepare), (0x14, .epochCommit), (0x20, .memCopy), (0x28, .reduce),
   (0x29, .psmReduce), (0x30, .keyLoad), (0x31, .keyClear), (0x40, .calRun), (0x41, .jnlCompact)]

/-! ## When a command takes effect -/

/-- The command entry e of function f starts now, passes the checks of R78, and its block (of page pg) runs: the command in flight that it
becomes, and the state in which it has been taken. -/
def State.begins? (s : State) (pg : Nat) (f : Fn) (e : Block64) : Option (Cmd × State) :=
  match s.start f e with
  | some (c, u) =>
    if u.badCmd f e = none ∧ s.runs pg = true ∧ c.fn = f ∧ c.e = e ∧ c.noEntry = false ∧ u.cmd? c.id = some c then some (c, u) else none
  | none => none

/-- The completion entry of a command of function f as it goes out: at the completion queue's tail, with PHASE and CMDQ_HEAD (R79). -/
def State.cplOut (s : State) (f : Fn) (c : Cmd) (x : Cpl) : Output :=
  .cplEntry f (s.rd (F.CPLQ_TAIL_TAIL (qBase f.val)))
    (cplEntry c x s.time.now +
      BitVec.ofNat 512 (s.rd (F.CPLQ_TAIL_PHASE (qBase f.val)) * 2 ^ 15 + s.rd (F.CMDQ_HEAD_HEAD (qBase f.val)) * 2 ^ 32))

/-- Function f's completion entries are written now: the link, bus mastering and CPL_EN are on (R91, R471). -/
def State.completes (s : State) (f : Fn) : Bool := s.canHost f.val && s.on (F.Q_CTRL_CPL_EN (qBase f.val))

/-- The onset that a trace of one sample brings (R360): its pair's domain is on, and the sample is the first ERROR, or the second WIRE in a row. -/
def State.traceOnset? (s : State) (p : PairTrace) : Option Onset :=
  match p.samples with
  | [v] => if s.sampled (traceOnset p false) then ((s.pairMem p.src).sample (railOf v)).2.map (traceOnset p) else none
  | _ => none

/-- PF0 or the debug aperture reads the block registers of PF0 page pg: they are reached and no soft reset is under way (R28, R49, R442). -/
def State.pfReads (s : State) (r : Req) (pg : Nat) : Bool :=
  (r.val == 0 || r.val == 65) && s.reaches r (0x1000 * pg) && !s.on (F.PAGE_STAT_RST_BUSY (0x1000 * pg))

/-- PF0 or the debug aperture writes the block registers of PF0 page pg: reached, no soft reset under way, the page not locked (R42). -/
def State.pfWrites (s : State) (r : Req) (pg : Nat) : Bool := s.pfReads r pg && !s.on (F.PAGE_STAT_LOCKED (0x1000 * pg))

/-- Function f writes its queue registers (R94). -/
def State.queWrites (s : State) (f : Fn) : Bool :=
  s.domOn 1 && s.fnExists f.val && !s.on (F.PAGE_STAT_RST_BUSY 0x3000) && (f.val != 0 || !s.on (F.PAGE_STAT_LOCKED 0x3000))

/-- The change that CIRCUIT_SET or CIRCUIT_CLEAR (clear) with entry e makes for an owner in epoch n, before it is placed (R199); id is the model's own
number of it. -/
def newChange (clear : Bool) (e : Block64) (owner n id : Nat) : Change :=
  { id := id, circ := byteField e 16 0 10, epoch := n, owner := owner, isClear := clear, img := if clear then {} else imageOfEntry e,
    label := byteField e 32 0 32, st := 3,
    key := if clear = false ∧ (imageOfEntry e).keyEn = true then some (imageOfEntry e).keySlot else none }

/-- The first TWIN burst that the twin channel has received, where it is of a kind, and the state without it (R230). -/
def State.twinFor? (s : State) (kind : Nat) : Option (TwinBurst × State) :=
  (s.takeTwin ((s.unit s.twnUnit).slots.length + 1)).filter (fun x => x.1.kind.toNat == kind)

/-- The outstanding read of a REDUCE command's step list returns (R287, R471): the state without it. -/
def State.stepsBack? (s : State) (c : RCmd) : Option State :=
  s.readBack c.fn (fun o => o == .hostRead c.fn (cmdId c.e) (BitVec.ofNat 64 (byteField c.e 16 0 64 + 32 * c.steps.length)) (32 * (c.asked - c.steps.length)))

/-- A circuit's collective messages are taken (R21, R291): it ends here, no fence covers it, and RDX runs. -/
def State.takesColl (s : State) (c : Nat) : Bool :=
  s.endsHere c && !s.circFenced c && !s.partFenced (s.circuit c).owner && s.runs 0x0C

end Sys2Proof.Machine
end

