-- ==== Sys2Proof/Certificates/Slice0/Obligations.lean ====
section
/-! DEFINITION. The statements for the provers. Each docstring says what the statement claims; the rules of the spec stand beside each
point, and where a statement rests on a choice of the model it names the log entry. -/

section

open Sys2Proof Sys2Proof.Machine

/-- For every command c at the front of the waiting queue, the step is exec of c on the state with the queue's rest. On an empty queue the
step answers the state after one tick of the LOOP clock: that is the model's own choice (log entry 3), no rule of the spec. -/
def Obligations.StepTakesFrontCommand : Prop :=
  (∀ (c : Instr) (rest : List Instr) (s : State), s.pending = c :: rest → step s = exec c { s with pending := rest }) ∧
  (∀ s : State, s.pending = [] → step s = .next s.tick)

/-- State.reset has no waiting command, is well formed (register fields and memory in canonical form), and holds the reset values that the
register tables give: the device's identity and capacities, the page enables, interrupt masks, queue sizes, phases and weights, laser,
shutter and monitor registers, ring control, link, journal, memory, RME quotas, tamper and fault policies, clocks and power, recorder,
statistics and environment thresholds. Rings are OFF and circuits FREE. -/
def Obligations.ResetValues : Prop :=
  State.reset.pending = [] ∧
  State.reset.wf = true ∧
  State.reset.rd F.GLB_DEVICE_PART = 22 ∧ State.reset.rd F.GLB_DEVICE_FAMILY = 79 ∧ State.reset.rd F.GLB_CAP0_PORTS = 16 ∧
    State.reset.rd F.GLB_CAP0_VFS = 64 ∧ State.reset.rd F.GLB_CAP1_CIRCUITS = 1024 ∧
  (∀ pg : PageIx, State.reset.rd (F.INT_MASK_MASK (0x1000 * pg.val)) = 0xFFFFFFFF ∧
    State.reset.rd (F.INT_CAUSE_CAUSE (0x1000 * pg.val)) = 0) ∧
  (∀ pg ∈ [0x00, 0x01, 0x02, 0x03, 0x0E, 0x0F, 0x21, 0x22, 0x40, 0x41, 0x42, 0x43, 0x44], State.reset.rd (F.PAGE_CTRL_EN (0x1000 * pg)) = 1) ∧
  (∀ pg ∈ [0x04, 0x05, 0x06, 0x07, 0x08, 0x09, 0x0A, 0x0B, 0x0C, 0x0D, 0x10, 0x1F, 0x20, 0x23], State.reset.rd (F.PAGE_CTRL_EN (0x1000 * pg)) = 0) ∧
  (∀ f : Fn, State.reset.rd (F.CMDQ_SIZE_SIZE (qBase f.val)) = 4 ∧ State.reset.rd (F.CPLQ_SIZE_SIZE (qBase f.val)) = 4 ∧
    State.reset.rd (F.CPLQ_TAIL_PHASE (qBase f.val)) = 1 ∧ State.reset.rd (F.CPL_COAL_COUNT (qBase f.val)) = 1 ∧
    State.reset.rd (F.Q_CTRL_CMD_EN (qBase f.val)) = 0 ∧ State.reset.rd (F.QUE_WEIGHT_WEIGHT f.val) = 16) ∧
  State.reset.rd F.PFE_LASER_CTRL_EN = 0 ∧ State.reset.rd F.PFE_LASER_CTRL_AUTO_RESTART = 1 ∧
  (∀ p : Port, State.reset.rd (F.PORT_SHUT_CTRL_APR_EN p.val) = 1 ∧ State.reset.rd (F.PORT_SHUT_STAT_STATE p.val) = 0 ∧
    State.reset.rd (F.PORT_LNK_CFG_REPLAY_ALLOC p.val) = 4 ∧ State.reset.rd (F.PORT_LNK_CFG_BEACON_EN p.val) = 1) ∧
  State.reset.rd F.RCU_LOOP_CFG_LOCK_WIN = 10 ∧ State.reset.rd F.RCU_FF_CFG_TO_COEF = 950 ∧ State.reset.rd F.RCU_CAL_CTRL_CAL_PAR = 4 ∧
    State.reset.rd F.RCU_CAL_CTRL_CAL_TRIG = 50 ∧ State.reset.rd F.RCU_CAL_PORTMODE_SPARE = 0xFFFF ∧
  State.reset.rd F.LNK_TIME_STAT_STRATUM = 255 ∧ State.reset.rd F.LNK_TIME_CTRL_BEACON_INT = 10 ∧
    State.reset.rd F.CSQ_CTRL_TRAIN_RETRY = 2 ∧
  State.reset.rd F.JNL_CFG_ERASE_AHEAD = 4 ∧ State.reset.rd F.JNL_CFG_AUTO_COMPACT = 1 ∧
  State.reset.rd F.MSS_CFG_ZERO = 1 ∧ State.reset.rd F.MSS_CFG_SCRUB_EN = 1 ∧ State.reset.rd F.MSS_CFG_SCRUB_PERIOD = 24 ∧
    State.reset.rd F.RME_CFG_AGE = 1000 ∧
  (∀ n : Fn, State.reset.rd (F.RME_TAG_QUOTA_QUOTA n.val) = (if n.val = 0 then 2048 else 256)) ∧
  State.reset.rd F.SEC_TAMPER_POL_DBG_LIMIT = 3 ∧ State.reset.rd F.CPM_VOUT_CMD_MV = 700 ∧
    State.reset.rd F.CPM_SLEEP_CFG_DRAIN_MAX = 200 ∧ State.reset.rd F.CPM_SLEEP_CFG_LINK_WAIT = 100 ∧
    State.reset.rd F.CPM_AON_TRIM_K = 16384000 ∧ State.reset.rd F.CPM_RST_CAUSE_POR = 1 ∧
  State.reset.rd F.EVR_CFG_NEW_SEV = 2 ∧ State.reset.rd F.STA_CFG_LEN = 1000000 ∧ State.reset.rd F.ENV_CFG_TEMP_HI = 6720 ∧
    State.reset.rd F.ENV_CFG_TEMP_LO = 65216 ∧
  (∀ n : Fin 4, State.reset.rd (F.ENV_EXT_CFG1_BETA n.val) = 3950 ∧ State.reset.rd (F.ENV_EXT_CFG1_R25 n.val) = 1000) ∧
  (∀ n : RingIx, (State.reset.ring n.val).opt = .off) ∧
  (∀ c : CircIx, (State.reset.circuit c.val).state = 0)

/-- For every well-formed state s (the register fields' table and the stacks' bytes are in canonical form: rising keys, no entry that an
unlisted one reads as in memory), if step s answers next t, t is well formed. That State.reset is well formed is part of ResetValues. -/
def Obligations.StepKeepsWellFormed : Prop :=
  (∀ s t : State, s.wf = true → step s = .next t → t.wf = true)

/-- For every command i and states s and t, if exec i s answers next t, then every part of the state that is not in touches i is the same
in t and in s: the register fields of each block's page, of the page headers, of the port pages and of the pages from 0x20000 on, every
byte of the stacked memory, and each block's state behind the registers. Register writes through the bus may touch any part
(RegisterWriteFrames gives their frames field by field). -/
def Obligations.CommandsKeepTheirParts : Prop :=
  (∀ (i : Instr) (s t : State), exec i s = .next t → ∀ p : Part, p ∉ touches i → p.Same s t)

/-- For every command i and states s and t, if exec i s answers next t: the queue of waiting commands is the same, what has been sent
outside is still there in its order with at most more after it, and the counter of free values used (the model's own field, log entry
5) has not gone down. -/
def Obligations.QueueAndOutputsKept : Prop :=
  (∀ (i : Instr) (s t : State), exec i s = .next t → t.pending = s.pending ∧ s.out <+: t.out ∧ s.freeCtr ≤ t.freeCtr)

/-- For every well-formed command and every state, exec answers a next state: no fault and no refusal. A BAR2 read or write whose length is
0 or above 4,096 B, which R266 does not let BAR2 accept, is refused as ill formed and nothing happens. -/
def Obligations.WellFormedCommandsComplete : Prop :=
  (∀ (i : Instr) (s : State), i.wf = true → ∃ t, exec i s = .next t) ∧
  (∀ (f : Fn) (x : BitVec 34) (n : Nat) (ro : Bool) (s : State), (n = 0 ∨ 4096 < n) →
    exec (.bar2Read f x n ro) s = .refused (.illFormed "BAR2_READ")) ∧
  (∀ (f : Fn) (x : BitVec 34) (bs : List (Option Byte)) (poisoned : Bool) (s : State), (bs.length = 0 ∨ 4096 < bs.length) →
    exec (.bar2Write f x bs poisoned) s = .refused (.illFormed "BAR2_WRITE"))

/-- A register field written with v reads v (its width's low bits), and every field of another key is as before. In both layouts
(interleaved by 4 KiB, or S0 below S1) two different local offsets below 2^35 name different bytes of the stacks. A store from an
offset on, within 2^35, writes every enabled byte, leaves every disabled one and every byte outside the range, and keeps the state well
formed. -/
def Obligations.RegisterAndMemoryLaws : Prop :=
  (∀ (s : State) (f : Fld) (v : Nat), (s.wr f v).rd f = v % 2 ^ f.width) ∧
  (∀ (s : State) (f g : Fld) (v : Nat), g.key ≠ f.key → (s.wr f v).rd g = s.rd g) ∧
  (∀ (s : State) (a b : Nat), a < 2 ^ 35 → b < 2 ^ 35 → s.memKey a = s.memKey b → a = b) ∧
  (∀ (s : State) (off k : Nat) (bs : List (Option Byte)), off + bs.length ≤ 2 ^ 35 → k < bs.length →
    (s.store off bs).memByte (off + k) = (bs.getD k none).getD (s.memByte (off + k))) ∧
  (∀ (s : State) (off a : Nat) (bs : List (Option Byte)), off + bs.length ≤ 2 ^ 35 → a < 2 ^ 35 → (a < off ∨ off + bs.length ≤ a) →
    (s.store off bs).memByte a = s.memByte a) ∧
  (∀ (s : State) (off : Nat) (bs : List (Option Byte)), s.wf = true → (s.store off bs).wf = true)

/-- For every function whose queue registers can be written and every value (TAIL and HEAD are 12-bit fields; a value below 4,096 sets no
reserved bit): with depth N, head H and tail T_old, a command doorbell T_new is accepted when T_new < N and (T_new - T_old) mod N <= (H
- 1 - T_old) mod N: the tail becomes T_new and DB_OVR stays; T_new = T_old is accepted and changes nothing at all. Any other value
leaves the tail and sets DB_OVR. A completion doorbell H_new is accepted when H_new < N and (H_new - H_old) mod N <= (T - H_old) mod N:
the head becomes H_new and CPL_DB_OVR stays; any other value leaves the head and sets CPL_DB_OVR. (R73, R74.) -/
def Obligations.DoorbellsFollowTheRule : Prop :=
  (∀ (f : Fn) (v : Word) (s : State), s.queWrites f = true → (v.toNat % 2 ^ 12 < depth s (F.CMDQ_SIZE_SIZE (qBase f.val)) ∧
    modSub (depth s (F.CMDQ_SIZE_SIZE (qBase f.val))) (v.toNat % 2 ^ 12) (s.rd (F.CMDQ_TAIL_TAIL (qBase f.val))) ≤ modSub (depth s (F.CMDQ_SIZE_SIZE (qBase f.val))) (s.rd (F.CMDQ_HEAD_HEAD (qBase f.val)) + depth s (F.CMDQ_SIZE_SIZE (qBase f.val)) - 1) (s.rd (F.CMDQ_TAIL_TAIL (qBase f.val)))) →
    Answers (.commandDoorbell f v) s (fun t => t.rd (F.CMDQ_TAIL_TAIL (qBase f.val)) = v.toNat % 2 ^ 12 ∧
    t.rd (F.Q_STAT_DB_OVR (qBase f.val)) = s.rd (F.Q_STAT_DB_OVR (qBase f.val)) ∧ (v.toNat < 2 ^ 12 →
    v.toNat = s.rd (F.CMDQ_TAIL_TAIL (qBase f.val)) → t = s))) ∧
  (∀ (f : Fn) (v : Word) (s : State), s.queWrites f = true → ¬ (v.toNat % 2 ^ 12 < depth s (F.CMDQ_SIZE_SIZE (qBase f.val)) ∧
    modSub (depth s (F.CMDQ_SIZE_SIZE (qBase f.val))) (v.toNat % 2 ^ 12) (s.rd (F.CMDQ_TAIL_TAIL (qBase f.val))) ≤ modSub (depth s (F.CMDQ_SIZE_SIZE (qBase f.val))) (s.rd (F.CMDQ_HEAD_HEAD (qBase f.val)) + depth s (F.CMDQ_SIZE_SIZE (qBase f.val)) - 1) (s.rd (F.CMDQ_TAIL_TAIL (qBase f.val)))) →
    Answers (.commandDoorbell f v) s (fun t => t.rd (F.CMDQ_TAIL_TAIL (qBase f.val)) = s.rd (F.CMDQ_TAIL_TAIL (qBase f.val)) ∧
    t.rd (F.Q_STAT_DB_OVR (qBase f.val)) = 1)) ∧
  (∀ (f : Fn) (v : Word) (s : State), s.queWrites f = true → (v.toNat % 2 ^ 12 < depth s (F.CPLQ_SIZE_SIZE (qBase f.val)) ∧
    modSub (depth s (F.CPLQ_SIZE_SIZE (qBase f.val))) (v.toNat % 2 ^ 12) (s.rd (F.CPLQ_HEAD_HEAD (qBase f.val))) ≤ modSub (depth s (F.CPLQ_SIZE_SIZE (qBase f.val))) (s.rd (F.CPLQ_TAIL_TAIL (qBase f.val))) (s.rd (F.CPLQ_HEAD_HEAD (qBase f.val)))) →
    Answers (.completionDoorbell f v) s (fun t => t.rd (F.CPLQ_HEAD_HEAD (qBase f.val)) = v.toNat % 2 ^ 12 ∧
    t.rd (F.Q_STAT_CPL_DB_OVR (qBase f.val)) = s.rd (F.Q_STAT_CPL_DB_OVR (qBase f.val)))) ∧
  (∀ (f : Fn) (v : Word) (s : State), s.queWrites f = true → ¬ (v.toNat % 2 ^ 12 < depth s (F.CPLQ_SIZE_SIZE (qBase f.val)) ∧
    modSub (depth s (F.CPLQ_SIZE_SIZE (qBase f.val))) (v.toNat % 2 ^ 12) (s.rd (F.CPLQ_HEAD_HEAD (qBase f.val))) ≤ modSub (depth s (F.CPLQ_SIZE_SIZE (qBase f.val))) (s.rd (F.CPLQ_TAIL_TAIL (qBase f.val))) (s.rd (F.CPLQ_HEAD_HEAD (qBase f.val)))) →
    Answers (.completionDoorbell f v) s (fun t => t.rd (F.CPLQ_HEAD_HEAD (qBase f.val)) = s.rd (F.CPLQ_HEAD_HEAD (qBase f.val)) ∧
    t.rd (F.Q_STAT_CPL_DB_OVR (qBase f.val)) = 1))

/-- For PF0 and the debug aperture, each of the five windows and every aperture word whose entry index is at or beyond the window's
ENTRIES: a write sets BADVAL and changes nothing else but the error record and its interrupt cause; a read returns 0, changes no
register and nothing of the requester, so it neither forms nor ends a capture. (R47.) -/
def Obligations.WindowWordsBeyondTheTable : Prop :=
  (∀ (r : Req) (win : Fin 5) (word : Fin 512) (v : Word) (s : State), s.pfWrites r (0x40 + win.val) = true →
    (winInfo (0x40 + win.val)).1 ≤ (winSlot (s.winOf r.val (0x40 + win.val)) (0x40 + win.val) (0x800 + 4 * word.val)).1 →
    Answers (.tableWindowWrite r win word v) s (fun t => t.rd F.GLB_ACCESS_ERR_BADVAL = 1 ∧
    Frame s t (accessErrFields F.GLB_ACCESS_ERR_BADVAL) [.outputs, .host])) ∧
  (∀ (r : Req) (win : Fin 5) (word : Fin 512) (s : State), s.pfReads r (0x40 + win.val) = true →
    (winInfo (0x40 + win.val)).1 ≤ (winSlot (s.winOf r.val (0x40 + win.val)) (0x40 + win.val) (0x800 + 4 * word.val)).1 →
    Answers (.tableWindowRead r win word) s (fun t => t.out = s.out ++ [.regData r (0x40800 + 0x1000 * win.val + 4 * word.val) 0] ∧
    Frame s t [] [.outputs]))

/-- With HOST on and UNLOCKED = 0, for every word address: a READ of the GLB or DBG page completes with status 0. A READ of another page,
every TAKE and every WRITE leave exactly the state that shifting the access in leaves (the earlier result goes out on TDO, the
instruction register holds DBG_ACCESS) with the result status 2 and data 0: no register is written and nothing read takes its side
effect. (R442.) -/
def Obligations.LockedApertureDenies : Prop :=
  (∀ (x : BitVec 18) (s : State), s.domOn 1 = true → s.on F.DBG_STAT_UNLOCKED = false →
    (4 * x.toNat / 0x1000 = 0x00 ∨ 4 * x.toNat / 0x1000 = 0x22) → Answers (.dbgRead x) s (fun t => t.dbg.stat = 0)) ∧
  (∀ (x : BitVec 18) (s : State), s.domOn 1 = true → s.on F.DBG_STAT_UNLOCKED = false →
    ¬ (4 * x.toNat / 0x1000 = 0x00 ∨ 4 * x.toNat / 0x1000 = 0x22) → Answers (.dbgRead x) s (fun t => t = s.tapCapture.tapResult 0 2)) ∧
  (∀ (x : BitVec 18) (s : State), s.domOn 1 = true → s.on F.DBG_STAT_UNLOCKED = false → Answers (.dbgTake x) s (fun t =>
    t = s.tapCapture.tapResult 0 2)) ∧
  (∀ (x : BitVec 18) (v : Word) (s : State), s.domOn 1 = true → s.on F.DBG_STAT_UNLOCKED = false → Answers (.dbgWrite x v) s (fun t =>
    t = s.tapCapture.tapResult 0 2))

/-- With ENV enabled and HOST on, a conversion of sensor n (in 1/64 °C) above TEMP_HI sets HI, one at least 2 °C (128 units) below TEMP_HI
clears it, any other leaves it; LO likewise against TEMP_LO. Each flag that is set by it and was clear raises exactly one onset of
source 53 with CODE 0; nothing else is raised. (R404.) -/
def Obligations.DieSensorFlags : Prop :=
  (∀ (n : Fin 64) (v : BitVec 16) (s : State), s.en 0x21 = true → s.domOn 1 = true → Answers (.dieSensorConversion n v) s (fun t =>
    t.on (F.ENV_DIE_TEMP_HI n.val) = (if toSigned 16 (s.rd F.ENV_CFG_TEMP_HI) < v.toInt then true else if v.toInt ≤ toSigned 16 (s.rd F.ENV_CFG_TEMP_HI) - 128 then false else s.on (F.ENV_DIE_TEMP_HI n.val)) ∧
    t.on (F.ENV_DIE_TEMP_LO n.val) = (if v.toInt < toSigned 16 (s.rd F.ENV_CFG_TEMP_LO) then true else if toSigned 16 (s.rd F.ENV_CFG_TEMP_LO) + 128 ≤ v.toInt then false else s.on (F.ENV_DIE_TEMP_LO n.val)) ∧
    t.fcu.raised.map (fun o => (o.src.val, o.code)) = s.fcu.raised.map (fun o => (o.src.val, o.code)) ++ List.replicate (b2n (decide (toSigned 16 (s.rd F.ENV_CFG_TEMP_HI) < v.toInt) && !s.on (F.ENV_DIE_TEMP_HI n.val)) + b2n (decide (v.toInt < toSigned 16 (s.rd F.ENV_CFG_TEMP_LO)) && !s.on (F.ENV_DIE_TEMP_LO n.val))) (53, 0)))

/-- A write of DBG_FREEZE from the unlocked aperture sets ALL as written (and FORCE with ALL freezes every freezable block); while it is
locked the write changes nothing. From PF0 both writes set BADVAL and change nothing else but the error record and its cause. PF0 sets
a PAGE_CTRL.FREEZE that was 0 of one freezable block, and a block that defers nothing is then frozen. After a power-on reset, a PERST
from stage 4 on, a software reset with its key and a DEVICE-FATAL onset, ALL is 0 and no freezable block has FREEZE or is frozen.
(R448.) -/
def Obligations.OnlyTheApertureFreezes : Prop :=
  (∀ (on : Bool) (s : State), s.pfWrites 65 0x22 = true → Answers (.dbgFreezeAll 65 on) s (fun t => t.rd F.DBG_FREEZE_ALL = b2n on)) ∧
  (∀ (s : State), s.pfWrites 65 0x22 = true → Answers (.forceFreeze 65) s (fun t => freezable.all (fun x => t.frozen x.1) = true)) ∧
  (∀ (on : Bool) (s : State), s.on F.DBG_STAT_UNLOCKED = false → Answers (.dbgFreezeAll 65 on) s (fun t => t = s) ∧
    Answers (.forceFreeze 65) s (fun t => t = s)) ∧
  (∀ (on : Bool) (s : State), s.pfWrites 0 0x22 = true → Answers (.dbgFreezeAll 0 on) s (fun t => t.rd F.GLB_ACCESS_ERR_BADVAL = 1 ∧
    Frame s t (accessErrFields F.GLB_ACCESS_ERR_BADVAL) [.outputs, .host])) ∧
  (∀ (s : State), s.pfWrites 0 0x22 = true → Answers (.forceFreeze 0) s (fun t => t.rd F.GLB_ACCESS_ERR_BADVAL = 1 ∧
    Frame s t (accessErrFields F.GLB_ACCESS_ERR_BADVAL) [.outputs, .host])) ∧
  (∀ (pg : PageIx) (s : State), s.reaches 0 (0x1000 * pg.val) = true → freezable.any (fun x => x.1 == pg.val) = true →
    s.on (F.PAGE_CTRL_FREEZE (0x1000 * pg.val)) = false → Answers (.pageFreeze 0 pg true) s (fun t =>
    t.rd (F.PAGE_CTRL_FREEZE (0x1000 * pg.val)) = 1 ∧ (s.defers pg.val = false → t.frozen pg.val = true))) ∧
  (∀ (b : Bool) (s : State), Answers (.powerOnReset b) s (fun t => t.rd F.DBG_FREEZE_ALL = 0 ∧
    freezable.all (fun x => !t.frozen x.1 && !t.on (F.PAGE_CTRL_FREEZE (0x1000 * x.1))) = true)) ∧
  (∀ (s : State), 4 ≤ s.stage → Answers (.perst) s (fun t => t.rd F.DBG_FREEZE_ALL = 0 ∧
    freezable.all (fun x => !t.frozen x.1 && !t.on (F.PAGE_CTRL_FREEZE (0x1000 * x.1))) = true)) ∧
  (∀ (r : Req) (v : Word) (s : State), s.pfWrites r 1 = true → v.toNat % 2 ^ 16 = 0xA5C3 → Answers (.softwareReset r v) s (fun t =>
    t.rd F.DBG_FREEZE_ALL = 0 ∧ freezable.all (fun x => !t.frozen x.1 && !t.on (F.PAGE_CTRL_FREEZE (0x1000 * x.1))) = true)) ∧
  (∀ (p : PairTrace) (o : Onset) (s : State), s.traceOnset? p = some o → s.on (F.FCU_REC_W0_VALID o.src.val) = false → s.riseClass o (s.onsetClass o) = 3 →
    (o.inj = false ∨ s.on F.FCU_CTRL_DRY = false) → Answers (.faultOnset p) s (fun t => t.rd F.DBG_FREEZE_ALL = 0 ∧
    freezable.all (fun x => !t.frozen x.1 && !t.on (F.PAGE_CTRL_FREEZE (0x1000 * x.1))) = true))

/-- For an external input that converts, a completed conversion whose RAW (held within the 24-bit code) is below -41,943 sets REVERSED and
VALID = 0, RAW keeps the negative value, and source 51 with CODE = input is raised exactly when REVERSED was 0. A completed conversion
at or above -41,943 leaves REVERSED 0 and raises nothing. (R411.) -/
def Obligations.ReversedInputs : Prop :=
  (∀ (n : Fin 4) (x : ExtConv) (s : State), s.extRuns n.val = true → (∀ up, s.extRaw n.val x up < -41943) → Answers (.extConversionDone n x) s (fun t =>
    t.rd (F.ENV_EXT_RAW_REVERSED n.val) ≠ 0 ∧ t.rd (F.ENV_EXT_RAW_VALID n.val) = 0 ∧
    (∃ up, t.rd (F.ENV_EXT_RAW_CODE n.val) = ofSigned 24 (max (-(2 ^ 23)) (s.extRaw n.val x up))) ∧
    t.fcu.raised.map (fun o => (o.src.val, o.code)) = s.fcu.raised.map (fun o => (o.src.val, o.code)) ++ (if s.on (F.ENV_EXT_RAW_REVERSED n.val) then [] else [(51, BitVec.ofNat 16 n.val)]))) ∧
  (∀ (n : Fin 4) (x : ExtConv) (s : State), s.extRuns n.val = true → (∀ up, -41943 ≤ s.extRaw n.val x up) → Answers (.extConversionDone n x) s (fun t =>
    t.rd (F.ENV_EXT_RAW_REVERSED n.val) = 0 ∧ t.fcu = s.fcu))

/-- For PF0 and the debug aperture and every value of the four bits, each bit that is written 1 raises exactly one injected onset of its
source (50 to 53) with CODE 0, in the order of the bits. Every register field but ENV's ERR_INJECT and ERR_CAUSE is as before, so no
input, sensor or supply changes, and so is all else but the faults raised and the free values used for an onset's open scope (log entry
23). (R419.) -/
def Obligations.EnvironmentInjection : Prop :=
  (∀ (r : Req) (v : Word) (s : State), (r.val = 0 ∨ r.val = 65) → s.reaches r 0x21024 = true → v.toNat < 16 →
    Answers (.errInject r 0x21 v) s (fun t =>
    t.fcu.raised.map (fun o => (o.src.val, o.code, o.inj)) = s.fcu.raised.map (fun o => (o.src.val, o.code, o.inj)) ++ ((upTo 4).filter (fun k => bitOf v.toNat k)).map (fun k => (50 + k, 0, true)) ∧
    Frame s t [F.ERR_INJECT_INJ 0x21000, F.ERR_CAUSE_ERR 0x21000] [.faults, .freeValues]))

/-- For each of the 15 commands, an entry that starts with nothing else in flight while its function's completions are written, and that
has a reserved bit set (DETAIL 2), or else comes from a VF that R64 forbids the command (3), or else has a non-zero OWNER from a VF or
an OWNER that names no existing partition (4), sends its completion entry with STATUS 4 (BAD_CMD) and that DETAIL. An entry whose
opcode is none of the 15, fetched alone with nothing in flight, is completed so with DETAIL 1. In each case rings, links, circuits,
twin, journal, memory, operations, reductions, sums, keys, faults, power and debug state are as before. (R78.) -/
def Obligations.BadCommands : Prop :=
  (∀ row ∈ commandRows, ∀ (f : Fn) (e : Block64) (d : Cmd) (u : State) (s : State), opcode e = row.1 → s.start f e = some (d, u) →
    d.noEntry = false → u.que.inflight = [d] → d.fn = f → s.completes f = true → reservedSet e = true → Answers (row.2 f e) s (fun t =>
    s.cplOut f d { status := 4, detail := 2 } ∈ t.out ∧
    ∀ p ∈ ([.rings, .links, .circuits, .twin, .journal, .memory, .stackState, .remoteOps, .reductions, .sums, .keys, .faults, .power, .debug] : List Part), p.Same s t)) ∧
  (∀ row ∈ commandRows, ∀ (f : Fn) (e : Block64) (d : Cmd) (u : State) (s : State), opcode e = row.1 → s.start f e = some (d, u) →
    d.noEntry = false → u.que.inflight = [d] → d.fn = f → s.completes f = true → reservedSet e = false → mayIssue f (opcode e) = false → Answers (row.2 f e) s (fun t =>
    s.cplOut f d { status := 4, detail := 3 } ∈ t.out ∧
    ∀ p ∈ ([.rings, .links, .circuits, .twin, .journal, .memory, .stackState, .remoteOps, .reductions, .sums, .keys, .faults, .power, .debug] : List Part), p.Same s t)) ∧
  (∀ row ∈ commandRows, ∀ (f : Fn) (e : Block64) (d : Cmd) (u : State) (s : State), opcode e = row.1 → s.start f e = some (d, u) →
    d.noEntry = false → u.que.inflight = [d] → d.fn = f → s.completes f = true → reservedSet e = false → mayIssue f (opcode e) = true → ownerField e ≠ 0 →
    (f.val ≠ 0 ∨ s.partExists (ownerField e) = false) → Answers (row.2 f e) s (fun t => s.cplOut f d { status := 4, detail := 4 } ∈ t.out ∧
    ∀ p ∈ ([.rings, .links, .circuits, .twin, .journal, .memory, .stackState, .remoteOps, .reductions, .sums, .keys, .faults, .power, .debug] : List Part), p.Same s t)) ∧
  (∀ (f : Fn) (e : Block64) (x : Fetch) (s : State), s.que.fetches.find? (fun y => y.fn == f) = some x → x.n = 1 →
    s.host.reads = [(f, .fetchRead f x.slot x.n)] → s.host.waiting = [] →
    s.rme.ops.any (fun o => o.fn == f && o.bell && o.stage != .quarantined) = false → s.que.inflight = [] → s.completes f = true → commandRows.all (fun row => row.1 != opcode e) = true →
    Answers (.fetchReadDone f [some e]) s (fun t =>
    (s.wr (F.CMDQ_HEAD_HEAD (qBase f.val)) ((x.slot + 1) % depth s (F.CMDQ_SIZE_SIZE (qBase f.val)))).cplOut f { id := s.que.nextId, fn := f, e := e, owner := effOwner f e, wait := .unstarted } { status := 4, detail := 1 } ∈ t.out ∧
    ∀ p ∈ ([.rings, .links, .circuits, .twin, .journal, .memory, .stackState, .remoteOps, .reductions, .sums, .keys, .faults, .power, .debug] : List Part), p.Same s t))

/-- A NOP that starts sends its completion entry (R77, R79). A FENCE with nothing before it sends its completion entry (R77).
FETCH_READ_ISSUE takes PF0's entries first: one read of what is fetchable from CMDQ_HEAD on; else the visited VF's, which uses up its
deficit (R82 to R84). FETCH_READ_DONE with every entry moves CMDQ_HEAD past them, ends the read and takes as many commands (of PF0:
where none of them is a SLEEP_WAIT, R86); with a failed first entry it leaves CMDQ_HEAD at the read's slot, sets FETCH_ERR and HALTED
and raises source 12 (R89). CPL_COAL_TIMER with entries counted sends vector 1 and ends the count (R88). -/
def Obligations.QueueCommands : Prop :=
  (∀ (f : Fn) (e : Block64) d u (s : State), s.begins? 3 f e = some (d, u) → opcode e = 0 → s.completes f = true →
    Answers (.nop f e) s (fun t => s.cplOut f d {} ∈ t.out)) ∧
  (∀ (f : Fn) (e : Block64) d u (s : State), s.begins? 3 f e = some (d, u) → opcode e = 1 → u.que.inflight = [d] → s.completes f = true →
    Answers (.fence f e) s (fun t => s.cplOut f d {} ∈ t.out)) ∧
  (∀ (s : State), s.fetchable 0 ≠ 0 → s.fetching 0 = false →
    s.canMake 0 (.fetchRead 0 (s.rd (F.CMDQ_HEAD_HEAD (qBase 0))) (s.fetchable 0)) = true → Answers (.fetchReadIssue) s (fun t =>
    t.que.fetches = s.que.fetches ++ [{ fn := 0, slot := s.rd (F.CMDQ_HEAD_HEAD (qBase 0)), n := s.fetchable 0 }] ∧
    .fetchRead 0 (s.rd (F.CMDQ_HEAD_HEAD (qBase 0))) (s.fetchable 0) ∈ t.out)) ∧
  (∀ (f : Fn) (s : State), (s.fetchable 0 = 0 ∨ s.fetching 0 = true) → 1 ≤ f.val → s.que.visit = f.val → s.que.inVisit = true →
    s.fetchable f ≠ 0 → s.fetching f = false → s.fetchable f ≤ Tbl.get 0 s.que.deficit f.val →
    Tbl.get 0 s.que.deficit f.val ≤ 2 * s.rd (F.QUE_WEIGHT_WEIGHT f.val) → Answers (.fetchReadIssue) s (fun t =>
    t.que.fetches = s.que.fetches ++ [{ fn := f, slot := s.rd (F.CMDQ_HEAD_HEAD (qBase f.val)), n := s.fetchable f }] ∧
    Tbl.get 0 t.que.deficit f.val = Tbl.get 0 s.que.deficit f.val - s.fetchable f)) ∧
  (∀ (f : Fn) (es : List Block64) x (s : State), s.que.fetches.find? (fun y => y.fn == f) = some x →
    s.host.reads = [(f, .fetchRead f x.slot x.n)] → s.host.waiting = [] → es.length = x.n → (f.val ≠ 0 ∨ es.all (fun e => opcode e != 2) = true) → Answers (.fetchReadDone f (es.map some)) s (fun t =>
    t.rd (F.CMDQ_HEAD_HEAD (qBase f.val)) = (x.slot + x.n) % depth s (F.CMDQ_SIZE_SIZE (qBase f.val)) % 2 ^ 12 ∧
    t.que.fetches = s.que.fetches.filter (fun y => y.fn != f) ∧ t.que.nextId = s.que.nextId + x.n)) ∧
  (∀ (f : Fn) x (s : State), s.que.fetches.find? (fun y => y.fn == f) = some x → s.host.reads = [(f, .fetchRead f x.slot x.n)] →
    s.host.waiting = [] → 0 < x.n →
    Answers (.fetchReadDone f [none]) s (fun t => t.rd (F.Q_STAT_FETCH_ERR (qBase f.val)) = 1 ∧ t.rd (F.Q_STAT_HALTED (qBase f.val)) = 1 ∧
    t.rd (F.CMDQ_HEAD_HEAD (qBase f.val)) = x.slot % depth s (F.CMDQ_SIZE_SIZE (qBase f.val)) % 2 ^ 12 ∧
    t.fcu.raised.any (fun o => o.src.val == 12) = true)) ∧
  (∀ (f : Fn) (s : State), s.rd (F.CPL_COAL_TIME (qBase f.val)) ≠ 0 → Tbl.get 0 s.que.coal f.val ≠ 0 → s.canVector f.val 1 = true →
    Answers (.cplCoalTimer f) s (fun t =>
    .vector f 1 (s.vecMsg f.val 1).1 (s.vecMsg f.val 1).2 ∈ t.out ∧ Tbl.get 0 t.que.coal f.val = 0))

/-- CIRCUIT_SET and CIRCUIT_CLEAR that start, pass the checks of R199, find room and meet no other change of the circuit enter the change
queue for the open epoch and send their completion entry (a CLEAR is READY at once). CHANGE_ADMIT gives the first waiting command its
change under the same conditions. SCHED_LOAD with a 64 B aligned address and a slot mask other than 0 reads 256 B of the host (R212). -/
def Obligations.CsqAdmission : Prop :=
  (∀ (f : Fn) (e : Block64) d u ep (s : State), s.begins? 7 f e = some (d, u) → opcode e = 0x10 → u.que.inflight = [d] →
    s.completes f = true → s.frozen 7 = false → s.csqNext = none → s.openEpoch? = some ep →
    s.r199 (byteField e 16 0 10) ep.num (effOwner f e) false (imageOfEntry e) = none → s.queueRoom (effOwner f e) = true →
    s.r218 (byteField e 16 0 10) ep.num = (none, none) → Answers (.circuitSet f e) s (fun t =>
    s.place (newChange false e (effOwner f e) ep.num s.csq.nextChange) ∈ t.csq.changes ∧ s.cplOut f d {} ∈ t.out)) ∧
  (∀ (f : Fn) (e : Block64) d u ep (s : State), s.begins? 7 f e = some (d, u) → opcode e = 0x11 → u.que.inflight = [d] →
    s.completes f = true → s.frozen 7 = false → s.csqNext = none → s.openEpoch? = some ep →
    s.r199 (byteField e 16 0 10) ep.num (effOwner f e) true {} = none → (s.circuit (byteField e 16 0 10)).state ≠ 0 →
    s.queueRoom (effOwner f e) = true → s.r218 (byteField e 16 0 10) ep.num = (none, none) → Answers (.circuitClear f e) s (fun t =>
    { newChange true e (effOwner f e) ep.num s.csq.nextChange with st := 6, holds := false } ∈ t.csq.changes ∧ s.cplOut f d {} ∈ t.out)) ∧
  (∀ c ep (s : State), s.que.inflight.find? (fun x => x.wait == .admission) = some c → s.live 7 = true → s.csqNext = none →
    s.openEpoch? = some ep →
    s.r199 (byteField c.e 16 0 10) ep.num c.owner (opcode c.e == 0x11) (if opcode c.e = 0x11 then {} else imageOfEntry c.e) = none →
    ((s.circuit (byteField c.e 16 0 10)).state ≠ 0 ∨ opcode c.e = 0x10) → s.queueRoom c.owner = true →
    s.r218 (byteField c.e 16 0 10) ep.num = (none, none) → Answers (.changeAdmit) s (fun t =>
    (∃ x ∈ t.csq.changes, x.circ = byteField c.e 16 0 10 ∧ x.epoch = ep.num ∧ x.owner = c.owner ∧ x.isClear = (opcode c.e == 0x11) ∧
    (x.st = 1 ∨ x.st = 2 ∨ x.st = 6)))) ∧
  (∀ (f : Fn) (e : Block64) d u (s : State), s.begins? 7 f e = some (d, u) → opcode e = 0x12 →
    s.canMake f.val (.hostRead f (cmdId e) (BitVec.ofNat 64 (byteField e 16 0 64)) 256) = true → byteField e 16 0 64 % 64 = 0 → byteField e 24 0 16 ≠ 0 → Answers (.schedLoad f e) s (fun t =>
    .hostRead f (cmdId e) (BitVec.ofNat 64 (byteField e 16 0 64)) 256 ∈ t.out))

/-- EPOCH_PREPARE with a number later than the floor and no open epoch opens it and sends its completion entry (R206, R207). EPOCH_COMMIT
of the open epoch with no change in it commits at once: the open epoch is 0, LAST_EPOCH and LAST_TIME take its number and the time now,
and it drains (R209, R222). With a change not yet READY it waits, keeping T, PARTIAL and LATE_ABORT (R208). EPOCH_COMMIT_TIME of an
armed epoch commits it with its time, or now where that has passed (R209). -/
def Obligations.Epochs : Prop :=
  (∀ (f : Fn) (e : Block64) d u (s : State), s.begins? 7 f e = some (d, u) → opcode e = 0x13 → u.que.inflight = [d] →
    s.completes f = true → s.canPrepare = true → s.openEpoch? = none → byteField e 16 0 32 ≠ 0 →
    (∀ x ∈ s.csq.floor, later (byteField e 16 0 32) x = true) → Answers (.epochPrepare f e) s (fun t =>
    t.rd F.CSQ_OPEN_EPOCH_EPOCH = byteField e 16 0 32 ∧
    t.csq.epochs = s.csq.epochs ++ [{ num := byteField e 16 0 32, pin := byteField e 20 0 1 == 1 }] ∧
    t.csq.floor = some (byteField e 16 0 32) ∧ s.cplOut f d {} ∈ t.out)) ∧
  (∀ (f : Fn) (e : Block64) d u ep (s : State), s.begins? 7 f e = some (d, u) → opcode e = 0x14 → s.openEpoch? = some ep →
    byteField e 16 0 32 = ep.num → byteField e 20 0 1 = 0 → byteField e 24 0 64 = 0 → s.csq.epochs = [ep] → s.csq.changes = [] →
    s.frozen 7 = false → Answers (.epochCommit f e) s (fun t => t.rd F.CSQ_OPEN_EPOCH_EPOCH = 0 ∧
    t.rd F.CSQ_LAST_EPOCH_EPOCH = ep.num % 2 ^ 32 ∧ t.rd F.CSQ_LAST_TIME_TIME = s.time.now.toNat ∧ (∃ y, t.csq.epochs = [y] ∧
    y.num = ep.num ∧ y.st = 4 ∧ y.cmd = some d.id))) ∧
  (∀ (f : Fn) (e : Block64) d u ep (s : State), s.begins? 7 f e = some (d, u) → opcode e = 0x14 → s.openEpoch? = some ep →
    byteField e 16 0 32 = ep.num → (byteField e 20 0 1 = 0 ∨ byteField e 24 0 64 = 0) →
    (byteField e 24 0 64 = 0 ∨ s.time.now.toNat ≤ byteField e 24 0 64) → s.csq.epochs = [ep] → s.csqNext = none →
    s.csq.changes.any (fun x => x.epoch == ep.num && x.st != 6 && x.st != 7) = true →
    s.csq.changes.any (fun x => x.epoch == ep.num && x.st == 7) = false → Answers (.epochCommit f e) s (fun t =>
    t.rd F.CSQ_OPEN_EPOCH_EPOCH = 0 ∧ (∃ y, t.csq.epochs = [y] ∧ y.num = ep.num ∧ y.st = 1 ∧ y.cmd = some d.id ∧ y.t = byteField e 24 0 64 ∧
    y.part = (byteField e 20 1 1 == 1) ∧ y.lateAbort = (byteField e 20 2 1 == 1)))) ∧
  (∀ (e : Word) x (s : State), s.csq.epochs = [x] → s.csq.changes.all (fun y => y.epoch == x.num) = true → x.num = e.toNat → x.st = 2 →
    x.t ≠ 0 → x.bySched = false → x.fired = false → s.live 7 = true → Answers (.epochCommitTime e) s (fun t =>
    t.rd F.CSQ_LAST_EPOCH_EPOCH = x.num ∧ t.rd F.CSQ_LAST_TIME_TIME = t.time.now.toNat ∧
    t.time.now = (if s.time.now < BitVec.ofNat 64 x.t then BitVec.ofNat 64 x.t else s.time.now) ∧ t.csq.changes = [] ∧
    (∃ y, t.csq.epochs = [y] ∧ y.num = x.num ∧ y.st = 4 ∧ y.effect = t.time.now.toNat)))

/-- CHANGE_BUILD_START of the first waiting change whose channels are free makes it BUILDING with its image's rings and units (R200, R201).
RING_ACQUIRE_START of the ring at the head of the queue starts its acquisition, or, where its cross-connect forbids it, sets CONFLICT
with the ring and starts none (R104, R202). ACQUIRE_TIMEOUT of a ring that a BUILDING change needs leaves FAIL reason 3 and ends the
acquisition. LATE_LIMIT_EXPIRE of a late waiting epoch, and CSQ_ABORT of one before its commit, record it as the last aborted and
remove its changes (R209, R210); CSQ_ABORT of any other sets ABORT_REFUSED and changes nothing in CSQ (R223). DRAIN_END queues the
COMMIT record and as many more as circuits moved (R222, R229). THROUGH_RELEASE marks the epoch's THROUGH circuits released.
SCHED_SLOT_FIRE with no armed epoch of its number marks the slot missed and raises source 30; with one it marks it fired, with the time
(R213). -/
def Obligations.CircuitMoves : Prop :=
  (∀ (c : CircIx) x (s : State), s.csq.changes.find? (fun y => y.circ == c.val && (y.st == 1 || y.st == 2)) = some x →
    s.csq.changes.all (fun y => y == x || !isChange x.id y) = true → s.live 7 = true →
    x.img.channels.all (fun ch => (s.holder ch).isNone) = true → s.csqNext = none →
    x.img.rings.any (fun r => !x.locked.contains r) = true → Answers (.changeBuildStart c) s (fun t =>
    (∃ y ∈ t.csq.changes, y.circ = x.circ ∧ y.epoch = x.epoch ∧ y.st = 4 ∧ y.rings = x.img.rings ∧ y.units = x.img.units))) ∧
  (∀ (ring : RingIx) (x : Change) (s : State), s.acqOrder.head? = some (x, ring.val) → x.img.lanes.any s.draining = false → s.rcu.acqs.length < 64 → s.frozen 7 = false → s.runs 5 = true →
    (144 ≤ ring.val ∨ s.en (0x10 + ring.val / 9) = true) → s.ringBad ring.val = false → s.rcu.everDone = true → (s.ring ring.val).loop ≠ 0 →
    s.xcAllows ring.val = true → Answers (.ringAcquireStart ring) s (fun t => t.rcu.acqs = s.rcu.acqs ++ [ring.val] ∧
    ring.val ∉ t.rcu.acqWait ∧ (t.ring ring.val).opt = .on ∧ (t.ring ring.val).goal = .on ∧ (t.ring ring.val).loop = 2)) ∧
  (∀ (ring : RingIx) (x : Change) (s : State), s.acqOrder.head? = some (x, ring.val) → x.img.lanes.any s.draining = false → s.rcu.acqs.length < 64 → s.frozen 7 = false → s.runs 5 = true →
    (144 ≤ ring.val ∨ s.en (0x10 + ring.val / 9) = true) → s.ringBad ring.val = false → s.rcu.everDone = true → (s.ring ring.val).loop ≠ 0 →
    s.xcAllows ring.val = false → Answers (.ringAcquireStart ring) s (fun t => t.rd F.PFE_XC_STAT_CONFLICT = 1 ∧
    t.rd F.PFE_XC_STAT_RING = ring.val ∧ ring.val ∉ t.rcu.acqWait)) ∧
  (∀ (ring : RingIx) (x : Change) (s : State), s.acqOrder.head? = some (x, ring.val) → x.img.lanes.any s.draining = false → s.rcu.acqs.length < 64 →
    s.frozen 7 = false → s.runs 5 = true → (144 ≤ ring.val ∨ s.en (0x10 + ring.val / 9) = true) →
    (s.ringBad ring.val = true ∨ s.rcu.everDone = false ∨ (s.ring ring.val).loop = 0) → s.csq.changes.find? (isChange x.id) = some x →
    Answers (.ringAcquireStart ring) s (fun t => t.rd F.CSQ_FAIL_REASON = 2 ∧ ring.val ∉ t.rcu.acqWait)) ∧
  (∀ (ring : RingIx) (s : State), ring.val ∈ s.rcu.acqs → s.csq.changes.any (fun x => x.st == 4 && x.rings.contains ring.val &&
    s.csq.changes.find? (isChange x.id) == some x) = true →
    Answers (.acquireTimeout ring) s (fun t => t.rd F.CSQ_FAIL_REASON = 3 ∧ ring.val ∉ t.rcu.acqs)) ∧
  (∀ (e : Word) x (s : State), s.epoch? e.toNat = some x → x.st = 1 → x.late = true → s.frozen 7 = false → s.csq.epochs = [x] →
    Answers (.lateLimitExpire e) s (fun t => t.rd F.CSQ_LAST_ABORTED_EPOCH = x.num ∧ t.csq.changes.all (fun y => y.epoch != x.num) = true)) ∧
  (∀ (e : Word) x (s : State), s.epoch? e.toNat = some x → x.st = 4 → x.drained = false → s.jnlThrough = false →
    (x.released = true ∨ x.moved.any (fun m => m.2.holds && m.2.img.path == 1) = false) → Answers (.drainEnd e) s (fun t =>
    (∃ r ∈ t.jnl.queue ++ t.jnl.held, r.pay = .commit (BitVec.ofNat 32 x.num) x.moved.length false false false (BitVec.ofNat 64 x.effect)) ∧
    t.jnl.asked = s.jnl.asked + x.moved.length + 1)) ∧
  (∀ (e : Word) x (s : State), s.epoch? e.toNat = some x → x.st = 4 → x.drained = false → x.released = false →
    x.moved.any (fun m => m.2.holds && m.2.img.path == 1) = true → Answers (.drainEnd e) s (fun t => t.jnl = s.jnl ∧
    (∃ y, t.epoch? e.toNat = some y ∧ y.drained = true ∧ y.st = 4 ∧ y.moved = x.moved))) ∧
  (∀ (e : Word) x (s : State), s.epoch? e.toNat = some x → x.st = 4 → x.released = false → x.drained = false →
    Answers (.throughRelease e) s (fun t => t.jnl = s.jnl ∧
    (∃ y, t.epoch? e.toNat = some y ∧ y.released = true ∧ y.st = 4 ∧ y.moved = x.moved))) ∧
  (∀ (e : Word) x (s : State), s.epoch? e.toNat = some x → x.st = 4 → x.released = false → x.drained = true → s.jnlThrough = false →
    Answers (.throughRelease e) s (fun t =>
    (∃ r ∈ t.jnl.queue ++ t.jnl.held, r.pay = .commit (BitVec.ofNat 32 x.num) x.moved.length false false false (BitVec.ofNat 64 x.effect)) ∧
    t.jnl.asked = s.jnl.asked + x.moved.length + 1)) ∧
  (∀ (r : Req) (v : Word) x (s : State), s.pfWrites r 7 = true → s.epoch? v.toNat = some x → x.st < 3 → s.csq.epochs = [x] →
    Answers (.csqAbort r v) s (fun t => t.rd F.CSQ_LAST_ABORTED_EPOCH = v.toNat ∧ t.csq.changes.all (fun y => y.epoch != x.num) = true)) ∧
  (∀ (r : Req) (v : Word) (s : State), s.pfWrites r 7 = true → (∀ x ∈ s.epoch? v.toNat, 3 ≤ x.st) → Answers (.csqAbort r v) s (fun t =>
    t.rd F.CSQ_ABORT_STAT_ABORT_REFUSED = 1 ∧ t.csq = s.csq)) ∧
  (∀ (slot : Fin 16) (s : State), (s.slot slot.val).st = 1 → s.en 7 = true →
    s.csq.slots.any (s.firesFirst slot.val) = false →
    s.csq.epochs.find? (fun e => e.num == (s.slot slot.val).epoch && e.bySched && (e.st == 1 || e.st == 2)) = none →
    Answers (.schedSlotFire slot) s (fun t => (t.slot slot.val).st = 3 ∧ (t.slot slot.val).fire = t.time.now.toNat ∧
    t.fcu.raised.any (fun o => o.src.val == 30) = true)) ∧
  (∀ (slot : Fin 16) x (s : State), (s.slot slot.val).st = 1 → s.en 7 = true →
    s.csq.slots.any (s.firesFirst slot.val) = false →
    s.csq.epochs.find? (fun e => e.num == (s.slot slot.val).epoch && e.bySched && (e.st == 1 || e.st == 2)) = some x →
    Answers (.schedSlotFire slot) s (fun t => (t.slot slot.val).st = 2 ∧ (t.slot slot.val).fire = t.time.now.toNat))

/-- LASER_FAULT sets FAULT, clears EN and LASER_EN, raises source 14. LASER_FAULT_CLEAR clears FAULT and leaves EN; LASER_EN returns where
its other conditions hold (R119). LI_LOSS with the laser on and no restart pulse sets the input's LOSS, drops LASER_EN, awaits the
interlock check and raises source 13 (R120, R121). ILK_CHECK sets ILK_FAIL where an input is above -10.0 dBm, and is held while RING is
off. RESTART_PULSE turns LASER_EN on; RESTART_PULSE_END clears the LOSS flags where light held, and LASER_EN follows its conditions.
APR_CLOSE closes an OPEN port with APR_EN: state 2, reason 2, source 16. PROBE_INSTANT opens it for a probe and counts it, PROBE_END
closes it again, APR_REOPEN opens it and clears the count (R117, R118). SHUTTER_REQUEST with OPEN = 1 opens a CLOSED port that is
enabled and has no cause for a lockout; with OPEN = 0 it closes a port that is not locked, reason 1 (R118). -/
def Obligations.LasersAndShutters : Prop :=
  (∀ (s : State), s.domOn 1 = true → Answers (.laserFault) s (fun t => t.rd F.PFE_LASER_STAT_FAULT = 1 ∧ t.rd F.PFE_LASER_CTRL_EN = 0 ∧
    t.rd F.PFE_LASER_STAT_LASER_EN = 0 ∧ t.fcu.raised.any (fun o => o.src.val == 14) = true)) ∧
  (∀ (s : State), s.domOn 1 = false → Answers (.laserFault) s (fun t => t = s.wr F.PFE_LASER_STAT_FAULT 1)) ∧
  (∀ (s : State), Answers (.laserFaultClear) s (fun t => t.rd F.PFE_LASER_STAT_FAULT = 0 ∧
    t.rd F.PFE_LASER_CTRL_EN = s.rd F.PFE_LASER_CTRL_EN)) ∧
  (∀ (s : State), (s.wr F.PFE_LASER_STAT_FAULT 0).laserBase = true → s.liLost = false → s.rcu.pulse = false →
    Answers (.laserFaultClear) s (fun t => t.rd F.PFE_LASER_STAT_LASER_EN = 1)) ∧
  (∀ (i : Fin 2) (s : State), s.on F.PFE_LASER_STAT_LASER_EN = true → s.rcu.pulse = false → Answers (.liLoss i) s (fun t =>
    t.rd (if i.val = 0 then F.PFE_LASER_STAT_LI0_LOSS else F.PFE_LASER_STAT_LI1_LOSS) = 1 ∧ t.rd F.PFE_LASER_STAT_LASER_EN = 0 ∧
    t.rcu.ilkPending = s.rcu.ilkPending + 1 ∧ t.fcu.raised.any (fun o => o.src.val == 13) = true)) ∧
  (∀ (li0 : Int) (li1 : Int) (s : State), (s.rcu.ilkPending ≠ 0 ∨ s.rcu.ilkHeld = true) → s.domOn 2 = true → Answers (.ilkCheck li0 li1) s (fun t =>
    (t.rd F.PFE_LASER_STAT_ILK_FAIL = (if -100 < li0 ∨ -100 < li1 then 1 else s.rd F.PFE_LASER_STAT_ILK_FAIL)) ∧ t.rcu.ilkHeld = false)) ∧
  (∀ (li0 : Int) (li1 : Int) (s : State), s.rcu.ilkPending ≠ 0 → s.domOn 2 = false → Answers (.ilkCheck li0 li1) s (fun t =>
    t.rcu.ilkPending = s.rcu.ilkPending - 1 ∧ t.rcu.ilkHeld = true)) ∧
  (∀ (s : State), s.laserBase = true → s.liLost = true → s.on F.PFE_LASER_CTRL_AUTO_RESTART = true → s.rcu.pulse = false →
    Answers (.restartPulse) s (fun t => t.rd F.PFE_LASER_STAT_LASER_EN = 1 ∧ t.rcu.pulse = true)) ∧
  (∀ (held : Bool) (s : State), s.rcu.pulse = true → Answers (.restartPulseEnd held) s (fun t => t.rcu.pulse = false ∧
    t.rd F.PFE_LASER_STAT_LI0_LOSS = (if held then 0 else s.rd F.PFE_LASER_STAT_LI0_LOSS) ∧
    t.rd F.PFE_LASER_STAT_LI1_LOSS = (if held then 0 else s.rd F.PFE_LASER_STAT_LI1_LOSS) ∧
    t.rd F.PFE_LASER_STAT_LASER_EN = b2n (t.laserBase && !t.liLost))) ∧
  (∀ (p : Port) (s : State), s.rd (F.PORT_SHUT_STAT_STATE p.val) = 1 → s.on (F.PORT_SHUT_CTRL_APR_EN p.val) = true →
    Answers (.aprClose p) s (fun t => t.rd (F.PORT_SHUT_STAT_STATE p.val) = 2 ∧ t.rd (F.PORT_SHUT_STAT_REASON p.val) = 2 ∧
    t.fcu.raised.any (fun o => o.src.val == 16 && o.scope == p.val) = true)) ∧
  (∀ (p : Port) (s : State), s.rd (F.PORT_SHUT_STAT_STATE p.val) = 2 → Answers (.probeInstant p) s (fun t =>
    t.rd (F.PORT_SHUT_STAT_STATE p.val) = 3 ∧
    t.rd (F.PORT_SHUT_STAT_PROBES p.val) = min (s.rd (F.PORT_SHUT_STAT_PROBES p.val) + 1) (2 ^ (F.PORT_SHUT_STAT_PROBES p.val).width - 1))) ∧
  (∀ (p : Port) (s : State), s.rd (F.PORT_SHUT_STAT_STATE p.val) = 3 → Answers (.probeEnd p) s (fun t =>
    t.rd (F.PORT_SHUT_STAT_STATE p.val) = 2 ∧ t.rd (F.PORT_SHUT_STAT_REASON p.val) = 2)) ∧
  (∀ (p : Port) (s : State), (s.rd (F.PORT_SHUT_STAT_STATE p.val) = 2 ∨ s.rd (F.PORT_SHUT_STAT_STATE p.val) = 3) →
    Answers (.aprReopen p) s (fun t => t.rd (F.PORT_SHUT_STAT_STATE p.val) = 1 ∧ t.rd (F.PORT_SHUT_STAT_PROBES p.val) = 0)) ∧
  (∀ (r : Req) (p : Port) (v : Word) (s : State), s.pfWrites r (0x10 + p.val) = true → s.en (0x10 + p.val) = true →
    s.lockCauses p.val = [] → s.rd (F.PORT_SHUT_STAT_STATE p.val) = 0 → v.getLsbD 0 = true → Answers (.shutterRequest r p v) s (fun t =>
    t.rd (F.PORT_SHUT_CTRL_OPEN p.val) = 1 ∧ t.rd (F.PORT_SHUT_CTRL_APR_EN p.val) = b2n (v.getLsbD 1) ∧
    t.rd (F.PORT_SHUT_CTRL_LOOP p.val) = b2n (v.getLsbD 2) ∧ t.rd (F.PORT_SHUT_STAT_STATE p.val) = 1)) ∧
  (∀ (r : Req) (p : Port) (v : Word) (s : State), s.pfWrites r (0x10 + p.val) = true → s.en (0x10 + p.val) = true →
    s.lockCauses p.val = [] → s.rd (F.PORT_SHUT_STAT_STATE p.val) ∈ [1, 2, 3] → v.getLsbD 0 = false →
    Answers (.shutterRequest r p v) s (fun t => t.rd (F.PORT_SHUT_CTRL_OPEN p.val) = 0 ∧ t.rd (F.PORT_SHUT_STAT_STATE p.val) = 0 ∧
    t.rd (F.PORT_SHUT_STAT_REASON p.val) = 1))

/-- With RING on, a transmit result shows as total power in 0.1 dBm, held between -30.0 and +10.0, with LOW below and OVR above that range
(R112). A laser line's result with no skip pending sets PRESENT from +9.0 dBm on, and OUT_OF_SPEC for a present line below +11.5 or
above +15.5 dBm (R99). -/
def Obligations.MonitorResults : Prop :=
  (∀ (p : Port) (d : Int) (o : Bool) (s : State), s.domOn 2 = true →
    Answers (.monitorSlot [{ tap := .tx p, deci := d, overRange := o }]) s (fun t =>
    (t.rd (F.PORT_TX_PWR_TOTAL p.val) = ofSigned 11 (if o ∨ 100 < d then 100 else if d < -300 then -300 else d)) ∧
    t.rd (F.PORT_TX_PWR_LOW p.val) = b2n (!o && decide (d < -300)) ∧ t.rd (F.PORT_TX_PWR_OVR p.val) = b2n (o || decide (100 < d)))) ∧
  (∀ (p : Port) (k : LineIx) (d : Int) (s : State), s.domOn 2 = true → Tbl.get 0 s.rcu.skips (tapNum (.liLine p k)) = 0 →
    s.probePort (p.val / 8) = some p.val → Answers (.monitorSlot [{ tap := .liLine p k, deci := d, overRange := false }]) s (fun t =>
    bitOf (t.rd (if p.val < 8 then F.PFE_LI0_LINES_PRESENT else F.PFE_LI1_LINES_PRESENT)) k.val = decide (90 ≤ d) ∧
    (bitOf (t.rd (if p.val < 8 then F.PFE_LI0_LINES_OUT_OF_SPEC else F.PFE_LI1_LINES_OUT_OF_SPEC)) k.val = decide (90 ≤ d ∧ (d < 115 ∨ 155 < d)))))

/-- SEARCH_START with the anchor line, RING on, every shutter closed or locked out and no search running starts one: ANCHOR, PCT 0, MODE as
written (R129, R130); without anchor or RING it is BADVAL. SEARCH_ABORT ends it: FAILED, result 2, reason 1, injectors and rings off.
SEARCH_ANCHOR_FOUND goes to INJECT. SEARCH_INJECT_DONE sweeps a group from code 0, or in a quick search parks (PCT 95).
SEARCH_SWEEP_DONE goes to the next group or to IDENTIFY with PCT 3 + 30 n or 93, and keeps each ring's events. SEARCH_IDENTIFY_DONE
parks (PCT 95), with the ON code and park offset that a ring's events give. SEARCH_PARK_DONE verifies from round 0, channel rings BLOCK
and the others PARKED. SEARCH_VERIFY_ROUND_DONE counts the round (PCT 95 + 5 n / 17); after the last, with no failed group, DONE with
result 1 and PCT 100; with a failed group not swept before, that group is swept again and shows in RESWEPT (R127, R131, R151). -/
def Obligations.ResonanceSearch : Prop :=
  (∀ (r : Req) (v : Word) (s : State), s.pfWrites r 5 = true → s.on F.PFE_LI0_LINES_ANCHOR_OK = true → s.domOn 2 = true →
    (upTo 16).all (fun p => s.rd (F.PORT_SHUT_STAT_STATE p) == 0 || s.rd (F.PORT_SHUT_STAT_STATE p) == 4) = true → s.searching = false →
    v.getLsbD 1 = false → Answers (.searchStart r v) s (fun t => t.rd F.RCU_SEARCH_STAT_STATE = 1 ∧ t.rd F.RCU_SEARCH_STAT_PCT = 0 ∧
    t.rd F.RCU_SEARCH_CTRL_MODE = b2n (v.getLsbD 2) ∧ t.rcu.full = !v.getLsbD 2)) ∧
  (∀ (r : Req) (v : Word) (s : State), s.pfWrites r 5 = true → (s.on F.PFE_LI0_LINES_ANCHOR_OK = false ∨ s.domOn 2 = false) →
    v.getLsbD 1 = false → Answers (.searchStart r v) s (fun t => t.rd F.GLB_ACCESS_ERR_BADVAL = 1 ∧
    t.rd F.RCU_SEARCH_STAT_STATE = s.rd F.RCU_SEARCH_STAT_STATE)) ∧
  (∀ (r : Req) (s : State), s.pfWrites r 5 = true → s.searching = true → Answers (.searchAbort r) s (fun t =>
    t.rd F.RCU_SEARCH_STAT_STATE = 8 ∧ t.rd F.RCU_SEARCH_STAT_RESULT = 2 ∧ t.rd F.RCU_SEARCH_STAT_REASON = 1 ∧ t.rcu.injectors = false ∧
    (upTo 2336).all (fun n => (t.ring n).opt == .off) = true)) ∧
  (∀ (s : State), s.searchIn 1 = true → s.on F.PFE_LI0_LINES_ANCHOR_OK = true → Answers (.searchAnchorFound) s (fun t =>
    t.rd F.RCU_SEARCH_STAT_STATE = 2 ∧ t.rcu.injectors = true ∧ (upTo 2336).all (fun n => (t.ring n).opt == .off) = true)) ∧
  (∀ (s : State), s.searchIn 2 = true → (s.rcu.full = true ∨ s.rcu.resweep ≠ []) → s.rcu.group < 3 →
    Answers (.searchInjectDone) s (fun t => t.rd F.RCU_SEARCH_STAT_STATE = 3 ∧ t.rd F.RCU_SEARCH_CODE_CODE = 0 ∧
    t.rd F.RCU_SEARCH_CODE_GROUP = s.rcu.group ∧ t.rd F.RCU_SEARCH_STAT_RING = (groupRange s.rcu.group).1)) ∧
  (∀ (s : State), s.searchIn 2 = true → s.rcu.full = false → s.rcu.resweep = [] → Answers (.searchInjectDone) s (fun t =>
    t.rd F.RCU_SEARCH_STAT_STATE = 5 ∧ t.rd F.RCU_SEARCH_STAT_PCT = 95)) ∧
  (∀ (s : State), s.searchIn 3 = true → s.rcu.resweep = [] → s.rcu.group < 3 → Answers (.searchSweepDone) s (fun t => t.rd F.RCU_SEARCH_STAT_STATE = (if s.rcu.group < 2 then 3 else 4) ∧
    t.rd F.RCU_SEARCH_STAT_PCT = (if s.rcu.group < 2 then 3 + 30 * (s.rcu.group + 1) else 93) ∧
    t.rcu.group = (if s.rcu.group < 2 then s.rcu.group + 1 else s.rcu.group))) ∧
  (∀ (ring : Fin 2336) (s : State), s.searchIn 3 = true → groupOf ring.val = s.rcu.group → (s.ring ring.val).loop = 5 → s.rcu.full = true →
    (s.ring ring.val).htrSeen = some true → Answers (.searchSweepDone) s (fun t => (t.ring ring.val).loop = 0 ∧
    (t.ring ring.val).htrFault = false)) ∧
  (∀ (ring : Fin 2336) (on : Nat) (ofs : Nat) (s : State), s.searchIn 4 = true → s.rcu.resweep = [] → (s.ring ring.val).loop ≠ 5 →
    (s.ring ring.val).repeats ≤ 64 → identify (lineOfRing ring.val) (s.ring ring.val).events = some (on, ofs) →
    Answers (.searchIdentifyDone) s (fun t => t.rd F.RCU_SEARCH_STAT_STATE = 5 ∧ t.rd F.RCU_SEARCH_STAT_PCT = 95 ∧
    (t.ring ring.val).onCode = on % 2 ^ 16 ∧ (t.ring ring.val).parkOfs = ofs % 2 ^ 16)) ∧
  (∀ (ring : Fin 2336) (s : State), s.searchIn 5 = true → (s.ring ring.val).loop ≠ 5 → (s.ring ring.val).loop ≠ 6 →
    Answers (.searchParkDone) s (fun t => t.rd F.RCU_SEARCH_STAT_STATE = 6 ∧ t.rd F.RCU_SEARCH_STAT_RING = 0 ∧ t.rcu.round = 0 ∧
    (t.ring ring.val).opt = (if ring.val < 144 then .block else if ring.val < 288 then .on else .parked))) ∧
  (∀ (s : State), s.searchIn 6 = true → s.rcu.round < 16 → Answers (.searchVerifyRoundDone) s (fun t =>
    t.rd F.RCU_SEARCH_STAT_STATE = 6 ∧ t.rcu.round = s.rcu.round + 1 ∧ t.rd F.RCU_SEARCH_STAT_PCT = 95 + 5 * (s.rcu.round + 1) / 17)) ∧
  (∀ (s : State), s.searchIn 6 = true → s.rcu.round = 16 → ((s.roundRings 16).foldl State.verifyRing s).rcu.failed = [] →
    Answers (.searchVerifyRoundDone) s (fun t => t.rd F.RCU_SEARCH_STAT_STATE = 7 ∧ t.rd F.RCU_SEARCH_STAT_RESULT = 1 ∧
    t.rd F.RCU_SEARCH_STAT_PCT = 100 ∧ t.rcu.everDone = true ∧ t.rcu.injectors = false)) ∧
  (∀ g (s : State), s.searchIn 6 = true → s.rcu.round = 16 →
    [0, 1, 2].find? (fun n => ((s.roundRings 16).foldl State.verifyRing s).rcu.failed.contains n) = some g →
    Answers (.searchVerifyRoundDone) s (fun t => t.rd F.RCU_SEARCH_STAT_STATE = 3 ∧ t.rd F.RCU_SEARCH_CODE_GROUP = g ∧
    bitOf (t.rd F.RCU_SEARCH_RES_RESWEPT) g = true))

/-- With RING on and no change in CSQ: an acquiring ring's eighth sample in a row within LOCK_WIN locks it, with its code and detuning
shown and its acquisition ended; a locked ring's fourth sample in a row beyond 4 LOCK_WIN unlocks it, counts it and raises source 19
(R133, R154). A shorted heater makes its ring FAULT and OFF, shows in ENV_HTR_STAT with kind 1 and raises source 20 (R136, R413). -/
def Obligations.RingLoops : Prop :=
  (∀ (u : RingUpdate) (s : State), s.domOn 2 = true → s.csq.changes = [] → u.htr = .sound → u.overRange = false →
    s.swept u.ring.val = false → (s.ring u.ring.val).loop = 2 → (s.ring u.ring.val).hold = 0 → 7 ≤ (s.ring u.ring.val).inWin →
    u.detune.natAbs ≤ s.rd F.RCU_LOOP_CFG_LOCK_WIN → Answers (.loopUpdate [u]) s (fun t => (t.ring u.ring.val).loop = 3 ∧
    (t.ring u.ring.val).live = (((s.setRing u.ring.val { s.ring u.ring.val with live := clampCode (((s.ring u.ring.val).live : Int) + u.ctl) }).feedForward u.ring.val).ring u.ring.val).live ∧ (t.ring u.ring.val).lockErr = ofSigned 16 u.detune ∧ u.ring.val ∉ t.rcu.acqs)) ∧
  (∀ (u : RingUpdate) (s : State), s.domOn 2 = true → s.csq.changes = [] → u.htr = .sound → u.overRange = false →
    s.swept u.ring.val = false → (s.ring u.ring.val).loop = 3 → (s.ring u.ring.val).hold = 0 → 3 ≤ (s.ring u.ring.val).outWin →
    4 * s.rd F.RCU_LOOP_CFG_LOCK_WIN < u.detune.natAbs → Answers (.loopUpdate [u]) s (fun t => (t.ring u.ring.val).loop = 2 ∧
    (t.ring u.ring.val).unlocks = min ((s.ring u.ring.val).unlocks + 1) 0xFFFF ∧ t.fcu.raised.any (fun o => o.src.val == 19) = true)) ∧
  (∀ (u : RingUpdate) (s : State), s.domOn 2 = true → u.htr = .short → (s.ring u.ring.val).loop ≠ 5 →
    Answers (.loopUpdate [u]) s (fun t => (t.ring u.ring.val).loop = 5 ∧ (t.ring u.ring.val).opt = .off ∧
    (t.ring u.ring.val).htrFault = true ∧ t.rd F.ENV_HTR_STAT_RING = u.ring.val ∧ t.rd F.ENV_HTR_STAT_KIND = 1 ∧
    t.fcu.raised.any (fun o => o.src.val == 20) = true)) ∧
  (∀ (u : RingUpdate) (s : State), s.domOn 2 = true → u.htr = .openHeater → s.heaterOpen u.ring.val = true → (s.ring u.ring.val).loop ≠ 5 →
    Answers (.loopUpdate [u]) s (fun t => (t.ring u.ring.val).loop = 5 ∧ (t.ring u.ring.val).htrFault = true ∧
    (t.ring u.ring.val).shadow = shadowOf (s.ring u.ring.val).events ∧ t.rd F.ENV_HTR_STAT_KIND = 2)) ∧
  (∀ (u : RingUpdate) (s : State), s.searchIn 3 = true → s.swept u.ring.val = true → (s.ring u.ring.val).loop ≠ 5 → s.rcu.sweepHold = 0 →
    s.csq.changes = [] → u.htr = .sound → u.overRange = false → Answers (.loopUpdate [u]) s (fun t =>
    (t.ring u.ring.val).events = ((s.ring u.ring.val).sweepMon (s.rd F.RCU_SEARCH_CODE_CODE) u.mon.toNat).events ∧
    t.rd F.RCU_SEARCH_CODE_CODE = min (s.rd F.RCU_SEARCH_CODE_CODE + 16) 65520))

/-- CAL_RUN with ports, lines and classes and a trained channel among them becomes a run over those channels, fences left out (R148).
CAL_SELECT starts an attempt on the next channel while fewer than CAL_PAR run: it switches out with the spare, or waits for a gap.
CAL_GAP_FOUND, and CAL_DEFER at a drift of 100 or more (counted in FORCED), switch it out; CAL_DEFER below that defers, counted by the
channel and in DEFERRALS (R145, R155). CAL_SWITCH_DONE out starts measurement A, with SUBST and its line or the unit in state 3;
CAL_MEASURE_DONE keeps A, then B: where they agree their mean is accepted and it switches back; where they disagree after three retries
the channel is suspect and source 22 is raised (R141). CAL_SWITCH_DONE back with nothing changed, and CAL_GLIDE_DONE, end the attempt
with COUNT one up and LAST the time now (R142). -/
def Obligations.CalibrationRuns : Prop :=
  (∀ (f : Fn) (e : Block64) d u (s : State), s.begins? 5 f e = some (d, u) → opcode e = 0x40 → byteField e 16 0 16 ≠ 0 →
    byteField e 18 0 9 ≠ 0 → byteField e 20 0 3 ≠ 0 → s.rcu.everDone = true → s.rcu.calRuns.all (fun x => x.id != d.id) = true →
    (upTo 144).any (fun ch => bitOf (byteField e 16 0 16) (ch / 9) && bitOf (byteField e 18 0 9) (ch % 9) && !s.portFenced (ch / 9) && s.chanTrained ch) = true →
    Answers (.calRun f e) s (fun t => (∃ x ∈ t.rcu.calRuns, x.id = d.id ∧ x.classes = byteField e 20 0 3 ∧
    x.left = (upTo 144).filter (fun ch => bitOf (byteField e 16 0 16) (ch / 9) && bitOf (byteField e 18 0 9) (ch % 9) && !s.portFenced (ch / 9) && s.chanTrained ch)))) ∧
  (∀ (ch : Nat) (s : State), s.live 5 = true → s.rcu.calRuns = [] → s.nextChan = some ch →
    s.rcu.attempts.length < s.rd F.RCU_CAL_CTRL_CAL_PAR → Answers (.calSelect) s (fun t => t.rd F.RCU_CAL_STAT_LAST_CH = ch ∧
    (∃ a ∈ t.rcu.attempts, a.ch = ch ∧ a.spare = s.spareMode ch ∧ a.step = (if s.spareMode ch then .switchOut else .waitGap)))) ∧
  (∀ (ch : ChanIx) a (s : State), s.attempt? ch.val = some a → a.step = .waitGap → s.live 5 = true → Answers (.calGapFound ch) s (fun t =>
    t.attempt? ch.val = some { a with step := .switchOut })) ∧
  (∀ (ch : ChanIx) a (s : State), s.attempt? ch.val = some a → a.step = .waitGap → s.live 5 = true → 100 ≤ s.drift ch.val →
    Answers (.calDefer ch) s (fun t => t.attempt? ch.val = some { a with step := .switchOut } ∧
    t.rd F.RCU_CAL_FORCED_COUNT = min (s.rd F.RCU_CAL_FORCED_COUNT + 1) (2 ^ F.RCU_CAL_FORCED_COUNT.width - 1))) ∧
  (∀ (ch : ChanIx) a (s : State), s.attempt? ch.val = some a → a.step = .waitGap → s.live 5 = true → s.drift ch.val < 100 →
    Answers (.calDefer ch) s (fun t =>
    t.rd F.RCU_CAL_DEFERRALS_COUNT = min (s.rd F.RCU_CAL_DEFERRALS_COUNT + 1) (2 ^ F.RCU_CAL_DEFERRALS_COUNT.width - 1) ∧
    (t.chan ch.val).defers = min ((s.chan ch.val).defers + 1) 0xFFF)) ∧
  (∀ (ch : ChanIx) (m : CalItems) a (s : State), s.attempt? ch.val = some a → a.step = .measA → s.live 5 = true →
    Answers (.calMeasureDone ch m) s (fun t => t.attempt? ch.val = some { a with step := .measB, a := some m })) ∧
  (∀ (ch : ChanIx) (m : CalItems) a b (s : State), s.attempt? ch.val = some a → a.step = .measB → a.a = some b → s.live 5 = true →
    disagree (s.rd F.RCU_CAL_DEFER_CAL_TOL_TAP) (s.rd F.RCU_CAL_DEFER_CAL_TOL_HTR) a.again b m = 0 →
    Answers (.calMeasureDone ch m) s (fun t =>
    t.attempt? ch.val = some { a with step := .switchBack, acc := some (itemsTake (a.acc.getD (s.chan ch.val).items) (itemsMean b m) a.again), again := 0 })) ∧
  (∀ (ch : ChanIx) (m : CalItems) a b (s : State), s.attempt? ch.val = some a → a.step = .measB → a.a = some b → s.live 5 = true →
    disagree (s.rd F.RCU_CAL_DEFER_CAL_TOL_TAP) (s.rd F.RCU_CAL_DEFER_CAL_TOL_HTR) a.again b m ≠ 0 → 3 ≤ a.retry →
    Answers (.calMeasureDone ch m) s (fun t => (t.chan ch.val).suspect = true ∧ t.fcu.raised.any (fun o => o.src.val == 22) = true)) ∧
  (∀ (ch : ChanIx) a (s : State), s.attempt? ch.val = some a → a.step = .switchOut → s.live 5 = true →
    Answers (.calSwitchDone ch) s (fun t => t.attempt? ch.val = some { a with step := .measA } ∧
    (if a.spare then t.rd (F.PORT_LNK_STAT_SUBST (ch.val / 9)) = 1 ∧
    t.rd (F.PORT_LNK_STAT_SUBST_LINE (ch.val / 9)) = ch.val % 9 else t.unitSt (chanUnit ch.val) = 3))) ∧
  (∀ (ch : ChanIx) a v (s : State), s.attempt? ch.val = some a → a.step = .switchBack → s.live 5 = true → a.acc = some v →
    (s.chan ch.val).items = itemsTake (s.chan ch.val).items v a.classes → Answers (.calSwitchDone ch) s (fun t => t.attempt? ch.val = none ∧
    (t.chan ch.val).count = ((s.chan ch.val).count + 1) % 2 ^ 32 ∧ (t.chan ch.val).last = s.time.now.toNat)) ∧
  (∀ (ch : ChanIx) a (s : State), s.attempt? ch.val = some a → a.step = .glide → s.live 5 = true →
    s.rcu.glides.any (fun g => g.1 == ch.val && g.2 != (s.chan ch.val).items) = false → Answers (.calGlideDone ch) s (fun t =>
    t.attempt? ch.val = none ∧ (t.chan ch.val).count = ((s.chan ch.val).count + 1) % 2 ^ 32 ∧ (t.chan ch.val).last = s.time.now.toNat ∧
    (t.chan ch.val).never = false ∧ (t.chan ch.val).suspect = false))

/-- CODEWORD_RECEIVE on a listening lane decodes the codeword, moves the lane's lock and counts one that is uncorrectable or wrongly marked
(R160 to R162). DATA_FLIT_RECEIVE takes the pair's oldest slot: a good data flit with the expected LSEQ moves the expectation on and
ends a NAK; a flit with a bad CRC is counted and a NAK is due; a slot with one half a skip is counted as HALF_LOSS and a NAK is due; on
a fenced port nothing is accepted (R166, R169, R173; the last is log entry 108). A good control flit sets the credit limit and, with
ACK_V, frees what it acknowledges; RETRAIN_REQ retrains the pair; a bad one is only counted (R172, R176). A good beacon is kept with
its receive time; from the parent port it sets STRATUM, ROOT_NODE and the offset, and an offset beyond 1 µs (65,536,000 units) steps
fabric time by it (R184, R185). -/
def Obligations.LinkReceive : Prop :=
  (∀ (p : Port) (k : LineIx) (l : List (Fin 4)) (w : DWord) (s : State), s.listens p.val k.val = true → Answers (.codewordReceive p k l w) s (fun t =>
    t.lane p.val k.val = (s.lane p.val k.val).step (decodeCw l) ∧
    (t.rd (F.PORT_CW_UNCORR_COUNT p.val k.val) = (if (decodeCw l).lost then min (s.rd (F.PORT_CW_UNCORR_COUNT p.val k.val) + 1) (2 ^ (F.PORT_CW_UNCORR_COUNT p.val k.val).width - 1) else s.rd (F.PORT_CW_UNCORR_COUNT p.val k.val))))) ∧
  (∀ (p : Port) (j : PairIx) (y : RxSlot) (l : List Byte) (s : State), s.unitUp (p.val * 5 + j.val) = true →
    (s.unit (p.val * 5 + j.val)).ready = some y → ctlSlot y.cw y.ix = false → y.flitBytes = some l → trainSlot l = false → flitOk l = true →
    (flitOf l).typ = 1 → s.portFenced p.val = false → (flitOf l).lseq.toNat = (s.unit (p.val * 5 + j.val)).exp →
    Answers (.dataFlitReceive p j) s (fun t => (t.unit (p.val * 5 + j.val)).exp = ((s.unit (p.val * 5 + j.val)).exp + 1) % 2 ^ 16 ∧
    (t.unit (p.val * 5 + j.val)).nak = false ∧ (t.unit (p.val * 5 + j.val)).nakOut = false)) ∧
  (∀ (p : Port) (j : PairIx) (y : RxSlot) (l : List Byte) (s : State), s.unitUp (p.val * 5 + j.val) = true →
    (s.unit (p.val * 5 + j.val)).ready = some y → ctlSlot y.cw y.ix = false → y.flitBytes = some l → trainSlot l = false → flitOk l = false →
    Answers (.dataFlitReceive p j) s (fun t =>
    t.rd (F.PORT_CRC_ERR_COUNT p.val) = min (s.rd (F.PORT_CRC_ERR_COUNT p.val) + 1) (2 ^ (F.PORT_CRC_ERR_COUNT p.val).width - 1) ∧
    (t.unit (p.val * 5 + j.val)).nak = true ∧ (t.unit (p.val * 5 + j.val)).exp = (s.unit (p.val * 5 + j.val)).exp)) ∧
  (∀ (p : Port) (j : PairIx) (y : RxSlot) (s : State), s.unitUp (p.val * 5 + j.val) = true →
    (s.unit (p.val * 5 + j.val)).ready = some y → ctlSlot y.cw y.ix = false → y.bubble = true → Answers (.dataFlitReceive p j) s (fun t =>
    t.rd (F.PORT_HALF_LOSS_COUNT p.val j.val) = min (s.rd (F.PORT_HALF_LOSS_COUNT p.val j.val) + 1) (2 ^ (F.PORT_HALF_LOSS_COUNT p.val j.val).width - 1) ∧
    (t.unit (p.val * 5 + j.val)).nak = true ∧ (t.unit (p.val * 5 + j.val)).exp = (s.unit (p.val * 5 + j.val)).exp)) ∧
  (∀ (p : Port) (j : PairIx) (y : RxSlot) (l : List Byte) (s : State), s.unitUp (p.val * 5 + j.val) = true →
    (s.unit (p.val * 5 + j.val)).ready = some y → ctlSlot y.cw y.ix = false → y.flitBytes = some l → trainSlot l = false → flitOk l = true →
    (flitOf l).typ = 1 → s.portFenced p.val = true → Answers (.dataFlitReceive p j) s (fun t =>
    (t.unit (p.val * 5 + j.val)).exp = (s.unit (p.val * 5 + j.val)).exp ∧ (t.unit (p.val * 5 + j.val)).nak = true)) ∧
  (∀ (p : Port) (j : PairIx) (y : RxSlot) (l : List Byte) c (s : State), s.unitUp (p.val * 5 + j.val) = true →
    (s.unit (p.val * 5 + j.val)).ready = some y → ctlSlot y.cw y.ix = true → y.flitBytes = some l → trainSlot l = false → flitOk l = true →
    (flitOf l).typ = 2 → c = ctlOf (flitOf l) → c.retrainReq = false → Answers (.controlFlitReceive p j) s (fun t =>
    (t.unit (p.val * 5 + j.val)).credit = c.credit.toNat ∧
    (t.unit (p.val * 5 + j.val)).resend = (if c.ackV then (s.unit (p.val * 5 + j.val)).resend.filter (fun f => !seqLe f.lseq.toNat c.ack.toNat) else (s.unit (p.val * 5 + j.val)).resend))) ∧
  (∀ (p : Port) (j : PairIx) (y : RxSlot) (l : List Byte) (s : State), s.unitUp (p.val * 5 + j.val) = true →
    (s.unit (p.val * 5 + j.val)).ready = some y → ctlSlot y.cw y.ix = true → y.flitBytes = some l → trainSlot l = false → flitOk l = true →
    (flitOf l).typ = 2 → (ctlOf (flitOf l)).retrainReq = true → Answers (.controlFlitReceive p j) s (fun t =>
    t.rd (F.PORT_TRAIN_RETRAINS p.val j.val) = min (s.rd (F.PORT_TRAIN_RETRAINS p.val j.val) + 1) (2 ^ (F.PORT_TRAIN_RETRAINS p.val j.val).width - 1) ∧
    (t.unit (p.val * 5 + j.val)).credit = (ctlOf (flitOf l)).credit.toNat)) ∧
  (∀ (p : Port) (j : PairIx) (y : RxSlot) (l : List Byte) (s : State), s.unitUp (p.val * 5 + j.val) = true →
    (s.unit (p.val * 5 + j.val)).ready = some y → ctlSlot y.cw y.ix = true → y.flitBytes = some l → trainSlot l = false → flitOk l = false →
    Answers (.controlFlitReceive p j) s (fun t =>
    t.rd (F.PORT_CRC_ERR_COUNT p.val) = min (s.rd (F.PORT_CRC_ERR_COUNT p.val) + 1) (2 ^ (F.PORT_CRC_ERR_COUNT p.val).width - 1) ∧
    t.unit (p.val * 5 + j.val) = { s.unit (p.val * 5 + j.val) with slots := (s.unit (p.val * 5 + j.val)).slots.drop 1 })) ∧
  (∀ (p : Port) (l : List Byte) (w : DWord) (u : State) (s : State), s.unitUp (p.val * 5 + 4) = true → s.takeBurst p.val 0x11 = some (l, w, u) →
    Answers (.beaconReceive p) s (fun t => (t.beaconSt p.val).rxLast = w.toNat ∧ (t.beaconSt p.val).peerBseq = (beaconOf l).bseq.toNat ∧
    (t.beaconSt p.val).seen = true)) ∧
  (∀ (p : Port) (l : List Byte) (w : DWord) (u : State) d (s : State), s.unitUp (p.val * 5 + 4) = true →
    s.takeBurst p.val 0x11 = some (l, w, u) → s.on F.LNK_TIME_CTRL_ROOT = false → s.on F.LNK_TIME_CTRL_PARENT_EN = true →
    s.rd F.LNK_TIME_CTRL_PARENT = p.val → s.theta p.val (beaconOf l) = some d → Answers (.beaconReceive p) s (fun t =>
    t.rd F.LNK_TIME_STAT_STRATUM = min 255 ((beaconOf l).stratum.toNat + 1) ∧ t.rd F.LNK_TIME_STAT_ROOT_NODE = (beaconOf l).rootNode.toNat ∧
    t.time.now = (if 65536000 < d.natAbs then s.time.now + BitVec.ofInt 64 d else s.time.now) ∧ t.time.theta = d))

/-- The next slot of a pair is open once its codewords have gone (R160, R161). In a control slot CONTROL_FLIT_SEND fills it with ACK, credit
and a due NAK; at the 80th, or with both FIFOs low around a change of the operating point, with a skip pair (R164, R167, R168, R172); in
another slot it does nothing. DATA_FLIT_SEND does nothing in a control slot; in another it fills it with a replayed flit first; else the
circuit's next message in a fresh flit with the next CSEQ and LSEQ, padded to 240 B; at a RELAY node the next flit that came on the
other side; with nothing ready, or on a fenced port, an IDLE flit (R17, R21, R164, R165, R173, R177). NAK_REPEAT makes an outstanding NAK
due again. BEACON_SEND sends sequence, stratum and the time of the one before, and counts (R184). WAKE_TX sends the wake pattern and
shows WAKE_TX where the pair is not in use, else is BADVAL and WAKE_TX stays; WAKE_TX_END clears it (R187). -/
def Obligations.LinkSend : Prop :=
  (∀ (p : Port) (j : PairIx) (low : BitVec 2) v (s : State), s.unitUp (p.val * 5 + j.val) = true → v = s.openSlot (p.val * 5 + j.val) →
    v.atControl (p.val * 5 + j.val) = true → (v.unit (p.val * 5 + j.val)).sinceSkip < 79 → s.lowLanes low ≠ 3 →
    Answers (.controlFlitSend p j low) s (fun t => (∃ c : CtlFlit, .ctlFlit p j c ∈ t.out ∧ c.ackV = true ∧
    c.ack = BitVec.ofNat 16 ((s.unit (p.val * 5 + j.val)).exp + 2 ^ 16 - 1) ∧ c.credit = BitVec.ofNat 32 (s.unit (p.val * 5 + j.val)).given ∧
    c.nakV = (s.unit (p.val * 5 + j.val)).nak ∧
    (t.unit (p.val * 5 + j.val)).fill = (v.unit (p.val * 5 + j.val)).fill ++ [bubbled (s.lowLanes low) (flitHalves c.flit)]) ∧
    (t.unit (p.val * 5 + j.val)).nak = false ∧ (t.unit (p.val * 5 + j.val)).sinceSkip = (v.unit (p.val * 5 + j.val)).sinceSkip + 1)) ∧
  (∀ (p : Port) (j : PairIx) (low : BitVec 2) v (s : State), s.unitUp (p.val * 5 + j.val) = true → v = s.openSlot (p.val * 5 + j.val) →
    v.atControl (p.val * 5 + j.val) = true → (79 ≤ (v.unit (p.val * 5 + j.val)).sinceSkip ∨ s.lowLanes low = 3) →
    Answers (.controlFlitSend p j low) s (fun t => t.out = v.out ++ [.skipPair p j] ∧ (t.unit (p.val * 5 + j.val)).sinceSkip = 0 ∧
    (t.unit (p.val * 5 + j.val)).fill = (v.unit (p.val * 5 + j.val)).fill ++ [(.skip, .skip)])) ∧
  (∀ (p : Port) (j : PairIx) (low : BitVec 2) v (s : State), s.unitUp (p.val * 5 + j.val) = true → v = s.openSlot (p.val * 5 + j.val) →
    v.atControl (p.val * 5 + j.val) = false → Answers (.controlFlitSend p j low) s (fun t => t = v)) ∧
  (∀ (p : Port) (j : PairIx) (low : BitVec 2) v (s : State), s.unitUp (p.val * 5 + j.val) = true → v = s.openSlot (p.val * 5 + j.val) →
    v.atControl (p.val * 5 + j.val) = true → Answers (.dataFlitSend p j low) s (fun t => t = v)) ∧
  (∀ (p : Port) (j : PairIx) (low : BitVec 2) f rest v (s : State), s.unitUp (p.val * 5 + j.val) = true →
    v = s.openSlot (p.val * 5 + j.val) → v.atControl (p.val * 5 + j.val) = false → s.lowLanes low ≠ 3 → s.portFenced p.val = false →
    (s.unit (p.val * 5 + j.val)).replay = f :: rest → (f.enc = false ∨ s.secGated = false) → Answers (.dataFlitSend p j low) s (fun t =>
    t.out = v.out ++ [.flit p j f] ∧ (t.unit (p.val * 5 + j.val)).replay = rest ∧
    (t.unit (p.val * 5 + j.val)).fill = (v.unit (p.val * 5 + j.val)).fill ++ [bubbled (s.lowLanes low) (flitHalves f)])) ∧
  (∀ (p : Port) (j : PairIx) (low : BitVec 2) (c : Nat) client body rest v (s : State), s.unitUp (p.val * 5 + j.val) = true →
    v = s.openSlot (p.val * 5 + j.val) → v.atControl (p.val * 5 + j.val) = false → s.lowLanes low ≠ 3 → s.portFenced p.val = false →
    (s.unit (p.val * 5 + j.val)).replay = [] → (s.unit (p.val * 5 + j.val)).circ = some c → s.maySend (p.val * 5 + j.val) = true →
    s.placesOn c (p.val * 5 + j.val) = true → (s.circuit c).img.path ≠ 2 → (s.circuit c).img.keyEn = false → (s.circLink c).again = [] →
    (s.circLink c).txq = (client, body) :: rest → (s.circLink c).tx < 2 ^ 64 - 1 → Answers (.dataFlitSend p j low) s (fun t =>
    (∃ f : Flit, t.out = v.out ++ [.flit p j f] ∧ f.typ = 1 ∧ f.cseq = BitVec.ofNat 32 (s.circLink c).tx ∧
    f.lseq = BitVec.ofNat 16 (s.unit (p.val * 5 + j.val)).next ∧ f.len = body.length ∧ f.body = body ++ List.replicate (240 - body.length) 0 ∧
    (t.unit (p.val * 5 + j.val)).fill = (v.unit (p.val * 5 + j.val)).fill ++ [bubbled (s.lowLanes low) (flitHalves f)]) ∧
    (t.circLink c).tx = (s.circLink c).tx + 1 ∧ (t.circLink c).txq = rest ∧
    (t.unit (p.val * 5 + j.val)).sent = (s.unit (p.val * 5 + j.val)).sent + 1)) ∧
  (∀ (p : Port) (j : PairIx) (low : BitVec 2) (c : Nat) r v (s : State), s.unitUp (p.val * 5 + j.val) = true →
    v = s.openSlot (p.val * 5 + j.val) → v.atControl (p.val * 5 + j.val) = false → s.lowLanes low ≠ 3 → s.portFenced p.val = false →
    (s.unit (p.val * 5 + j.val)).replay = [] → (s.unit (p.val * 5 + j.val)).circ = some c → s.maySend (p.val * 5 + j.val) = true →
    s.placesOn c (p.val * 5 + j.val) = true → (s.circuit c).img.path = 2 →
    (s.circLink c).relay.find? (fun x => x.side != (s.unit (p.val * 5 + j.val)).side) = some r → Answers (.dataFlitSend p j low) s (fun t =>
    t.out = v.out ++ [.flit p j { r.flit with lseq := BitVec.ofNat 16 (s.unit (p.val * 5 + j.val)).next }] ∧
    (t.circLink c).relay = dropFirst (fun x => x.side != (s.unit (p.val * 5 + j.val)).side) (s.circLink c).relay)) ∧
  (∀ (p : Port) (j : PairIx) (low : BitVec 2) v (s : State), s.unitUp (p.val * 5 + j.val) = true → v = s.openSlot (p.val * 5 + j.val) →
    v.atControl (p.val * 5 + j.val) = false → s.lowLanes low ≠ 3 → (v.nextFlit (p.val * 5 + j.val) = none ∨ s.portFenced p.val = true) →
    Answers (.dataFlitSend p j low) s (fun t => t.out = v.out ∧ (t.unit (p.val * 5 + j.val)).replay = (s.unit (p.val * 5 + j.val)).replay ∧
    (t.unit (p.val * 5 + j.val)).fill = (v.unit (p.val * 5 + j.val)).fill ++ [bubbled (s.lowLanes low) (flitHalves idleFlit)])) ∧
  (∀ (p : Port) (j : PairIx) (s : State), s.unitUp (p.val * 5 + j.val) = true → (s.unit (p.val * 5 + j.val)).nakOut = true →
    Answers (.nakRepeat p j) s (fun t => (t.unit (p.val * 5 + j.val)).nak = true)) ∧
  (∀ (p : Port) (s : State), s.unitUp (p.val * 5 + 4) = true → s.on (F.PORT_LNK_CFG_BEACON_EN p.val) = true →
    s.rd (F.PORT_SHUT_STAT_STATE p.val) = 1 → s.on (F.PORT_LNK_STAT_SUBST p.val) = false → Answers (.beaconSend p) s (fun t =>
    t.out.any (fun o => match o with | .beacon q b => q == p && b.bseq == BitVec.ofNat 16 (s.beaconSt p.val).bseq && b.stratum == BitVec.ofNat 8 (s.rd F.LNK_TIME_STAT_STRATUM) && b.tTxPrev == BitVec.ofNat 64 (s.beaconSt p.val).tPrev | _ => false) = true ∧
    (t.beaconSt p.val).bseq = ((s.beaconSt p.val).bseq + 1) % 2 ^ 16 ∧ (t.beaconSt p.val).tPrev = s.time.now.toNat)) ∧
  (∀ (r : Req) (p : Port) (s : State), s.pfWrites r (0x10 + p.val) = true → s.lp0Used p.val = false → Answers (.wakeTx r p) s (fun t =>
    t.rd (F.PORT_LNK_CFG_WAKE_TX p.val) = 1 ∧ .wakePattern p ∈ t.out)) ∧
  (∀ (r : Req) (p : Port) (s : State), s.pfWrites r (0x10 + p.val) = true → s.lp0Used p.val = true → Answers (.wakeTx r p) s (fun t =>
    t.rd F.GLB_ACCESS_ERR_BADVAL = 1 ∧ t.rd (F.PORT_LNK_CFG_WAKE_TX p.val) = s.rd (F.PORT_LNK_CFG_WAKE_TX p.val))) ∧
  (∀ (p : Port) (s : State), Answers (.wakeTxEnd p) s (fun t => t = s.wr (F.PORT_LNK_CFG_WAKE_TX p.val) 0))

/-- SPARE_RETRY trains a failed spare on an OPEN port, or marks it as wanting to. CDR_LOCK clears the unit's lanes and sends TRAIN bursts with
STATE 3, the node's identity and the time. TRAIN_BURST_RECEIVE takes a slot with a good TRAIN burst of each lane: with every echo valid
it records the peer: without CHECK it goes on; with CHECK it goes on only where the identity matches, and otherwise raises source 18.
With its lanes aligned it goes on with the round-trip time shown (its formula is the model's choice, log entry 109); a peer that is far
enough makes the unit ACTIVE with the peer's credit, no change waiting (R122, R188, R189, R191). TRAIN_TIMEOUT fails a unit that trains
by itself, with FAIL 6 and its pair in PAIR_FAILED, and leaves it DOWN (log entry 100); one that a change trains starts again while tries
are left (R193, R203). PARENT_LOSS clears SYNCED: TIME_STATE stays ESTIMATED, or becomes HOLDOVER if time was ever synced, else
FREE-RUNNING (R185, R351). -/
def Obligations.LinkTraining : Prop :=
  (∀ (p : Port) (s : State), s.unitSt (p.val * 5 + 4) = 0 → s.on (F.PORT_TRAIN_FAIL p.val 4) = true → s.rd (F.PORT_SHUT_STAT_STATE p.val) = 1 →
    s.linesThere (p.val * 5 + 4) = true → Answers (.spareRetry p) s (fun t =>
    (if s.mayTrain (p.val * 5 + 4) then t.unitSt (p.val * 5 + 4) = 1 else (t.unit (p.val * 5 + 4)).want = true))) ∧
  (∀ (p : Port) (u : UnitIx) (s : State), s.portOn p.val = true → s.unitSt (p.val * 5 + u.val) = 2 → Answers (.cdrLock p u) s (fun t =>
    t.unitSt (p.val * 5 + u.val) = 3 ∧ (unitLines (p.val * 5 + u.val)).all (fun k => t.lane p.val (s.carrier p.val k) == {}) = true ∧
    (unitLines (p.val * 5 + u.val)).all (fun k => t.out.any (fun o => match o with | .trainBurst q l b => q == p && l.val == k && b.state == 3 && b.node == BitVec.ofNat 14 (s.rd F.GLB_NODE_ID_NODE_ID) && b.port.toNat == p.val && b.line.toNat == k && b.tSend == s.time.now | _ => false)) = true)) ∧
  (∀ (p : Port) (u : UnitIx) (y : RxSlot) ys (b : TrainBurst) (bs : List TrainBurst) (s : State), s.portOn p.val = true →
    s.unitSt (p.val * 5 + u.val) = 4 → (s.unit (p.val * 5 + u.val)).slots = y :: ys → y.trainBursts (p.val * 5 + u.val) = b :: bs →
    (b :: bs).length = (unitLines (p.val * 5 + u.val)).length → (b :: bs).all (fun y => y.echoV) = true →
    s.on (F.PORT_PEER_EXP_CHECK p.val) = false → Answers (.trainBurstReceive p u) s (fun t => t.unitSt (p.val * 5 + u.val) = 5 ∧
    t.rd (F.PORT_PEER_SEEN_NODE p.val) = b.node.toNat ∧ t.rd (F.PORT_PEER_SEEN_PORT p.val) = b.port.toNat)) ∧
  (∀ (p : Port) (u : UnitIx) (y : RxSlot) ys (b : TrainBurst) (bs : List TrainBurst) (s : State), s.portOn p.val = true →
    s.unitSt (p.val * 5 + u.val) = 4 → (s.unit (p.val * 5 + u.val)).slots = y :: ys → y.trainBursts (p.val * 5 + u.val) = b :: bs →
    (b :: bs).length = (unitLines (p.val * 5 + u.val)).length → (b :: bs).all (fun y => y.echoV) = true →
    s.on (F.PORT_PEER_EXP_CHECK p.val) = true → Answers (.trainBurstReceive p u) s (fun t =>
    t.rd (F.PORT_PEER_SEEN_RESULT p.val) = s.identity p.val (b :: bs) ∧
    (s.identity p.val (b :: bs) = 1 → t.unitSt (p.val * 5 + u.val) = 5) ∧ (s.identity p.val (b :: bs) ≠ 1 →
    t.fcu.raised.any (fun o => o.src.val == 18 && o.scope == p.val) = true))) ∧
  (∀ (p : Port) (u : UnitIx) (y : RxSlot) ys (b : TrainBurst) (bs : List TrainBurst) (s : State), s.portOn p.val = true →
    s.unitSt (p.val * 5 + u.val) = 5 → (s.unit (p.val * 5 + u.val)).slots = y :: ys → y.trainBursts (p.val * 5 + u.val) = b :: bs →
    (b :: bs).length = (unitLines (p.val * 5 + u.val)).length → s.aligned (p.val * 5 + u.val) = true →
    Answers (.trainBurstReceive p u) s (fun t => t.unitSt (p.val * 5 + u.val) = 6 ∧ t.rd (F.PORT_LNK_STAT_RTT p.val) = rttOf y.time b.tSend)) ∧
  (∀ (p : Port) (u : UnitIx) (y : RxSlot) ys (b : TrainBurst) (bs : List TrainBurst) (s : State), s.portOn p.val = true →
    s.unitSt (p.val * 5 + u.val) = 6 → (s.unit (p.val * 5 + u.val)).slots = y :: ys → y.trainBursts (p.val * 5 + u.val) = b :: bs →
    (b :: bs).length = (unitLines (p.val * 5 + u.val)).length → (b :: bs).all (fun y => decide (6 ≤ y.state.toNat)) = true →
    s.csq.changes = [] → Answers (.trainBurstReceive p u) s (fun t => t.unitSt (p.val * 5 + u.val) = 7 ∧
    (t.unit (p.val * 5 + u.val)).credit = b.creditInit.toNat)) ∧
  (∀ (p : Port) (u : UnitIx) (s : State), (1 ≤ s.unitSt (p.val * 5 + u.val) ∧ s.unitSt (p.val * 5 + u.val) ≤ 6) →
    s.calOut (p.val * 5 + u.val) = false → (u.val = 4 ∨ (s.unit (p.val * 5 + u.val)).byCsq = false) → Answers (.trainTimeout p u) s (fun t =>
    t.unitSt (p.val * 5 + u.val) = 0 ∧ t.rd (F.PORT_TRAIN_FAIL p.val u.val) = 6 ∧ (u.val ≠ 4 →
    bitOf (t.rd (F.PORT_LNK_STAT_PAIR_FAILED p.val)) u.val = true))) ∧
  (∀ (p : Port) (u : UnitIx) (s : State), (1 ≤ s.unitSt (p.val * 5 + u.val) ∧ s.unitSt (p.val * 5 + u.val) ≤ 6) →
    s.calOut (p.val * 5 + u.val) = false → (u.val ≠ 4 ∧ (s.unit (p.val * 5 + u.val)).byCsq = true) →
    (s.unit (p.val * 5 + u.val)).tries < s.rd F.CSQ_CTRL_TRAIN_RETRY → s.mayTrain (p.val * 5 + u.val) = true →
    Answers (.trainTimeout p u) s (fun t => t.unitSt (p.val * 5 + u.val) = 1 ∧
    (t.unit (p.val * 5 + u.val)).tries = (s.unit (p.val * 5 + u.val)).tries + 1)) ∧
  (∀ (s : State), s.on F.LNK_TIME_CTRL_PARENT_EN = true → s.on F.LNK_TIME_CTRL_ROOT = false → Answers (.parentLoss) s (fun t =>
    t.rd F.LNK_TIME_STAT_SYNCED = 0 ∧ t.time.good = 0 ∧
    (t.rd F.CPM_TIME_STAT_TIME_STATE = (if s.rd F.CPM_TIME_STAT_TIME_STATE = 5 then 5 else if s.on F.LNK_TIME_STAT_SYNCED ∨ s.time.lossAt.isSome = true then 4 else 2))))

/-- KEY_LOAD reads 64 B of the host. KEY_CLEAR of an own loaded slot destroys the key and keeps the last salt (R321, R322). HOST_READ_DONE of a
KEY_LOAD whose blob passes the checks loads the unwrapped key with the salt and counters at 0 (R320); of a SCHED_LOAD it fills each chosen slot and
completes, or, where the journal takes its records, leaves the slots until they are durable (R212). TAMPER_LATCH sets ACTIVE and LATCHED, counts,
raises source 45 + n, and by policy fences or starts erasure; TAMPER_DEASSERT clears only ACTIVE (R325, R326). ERASE_DONE leaves ERASE 5, ROOT_LOCKED,
no slots and no KEK (R328). UNFENCE with no active source that fences clears FENCE and nothing else, otherwise it is BADVAL. SEC_KEYRANGE_WRITE of a
range that overlaps no other sets it, otherwise it is BADVAL and nothing changes (R319). -/
def Obligations.KeysAndTamper : Prop :=
  (∀ (f : Fn) (e : Block64) d u (s : State), s.begins? 0x0D f e = some (d, u) → opcode e = 0x30 →
    s.canMake f.val (.hostRead f (cmdId e) (BitVec.ofNat 64 (byteField e 16 0 64)) 64) = true → byteField e 16 0 64 % 64 = 0 → Answers (.keyLoad f e) s (fun t =>
    .hostRead f (cmdId e) (BitVec.ofNat 64 (byteField e 16 0 64)) 64 ∈ t.out)) ∧
  (∀ (f : Fn) (e : Block64) d u (s : State), s.begins? 0x0D f e = some (d, u) → opcode e = 0x31 →
    s.slotOwner (byteField e 24 0 10) = f.val → s.on F.SEC_STAT_FENCE = false → (s.keySlot (byteField e 24 0 10)).loaded = true →
    Answers (.keyClear f e) s (fun t => (t.keySlot (byteField e 24 0 10)).loaded = false ∧ (t.keySlot (byteField e 24 0 10)).key = 0 ∧
    (t.keySlot (byteField e 24 0 10)).lastSalt = (s.keySlot (byteField e 24 0 10)).lastSalt)) ∧
  (∀ (f : Fn) (id : BitVec 16) c b bs (s : State), s.host.waiting = [] →
    s.host.reads.any (fun x => x.1 == f && x.2.isReadOf id.toNat) = true →
    s.que.inflight.find? (fun x => x.fn == f && cmdId x.e == id.toNat && x.wait == .hostRead) = some c → opcode c.e = 0x30 →
    s.keyLoadFails f (byteField c.e 24 0 10) b = none → Answers (.hostReadDone f id (.data (b :: bs))) s (fun t =>
    (t.keySlot (byteField c.e 24 0 10)).loaded = true ∧ (t.keySlot (byteField c.e 24 0 10)).salt = blobSalt b ∧
    (t.keySlot (byteField c.e 24 0 10)).lastSalt = blobSalt b ∧ (t.keySlot (byteField c.e 24 0 10)).tx = 0 ∧
    (t.keySlot (byteField c.e 24 0 10)).rx = 0 ∧ some (t.keySlot (byteField c.e 24 0 10)).key = s.unwrap b)) ∧
  (∀ (f : Fn) (id : BitVec 16) c bs (i : Fin 16) (s : State), s.host.waiting = [] →
    s.host.reads.any (fun x => x.1 == f && x.2.isReadOf id.toNat) = true →
    s.que.inflight.find? (fun x => x.fn == f && cmdId x.e == id.toNat && x.wait == .hostRead) = some c → opcode c.e = 0x12 →
    bitOf (byteField c.e 24 0 16) i.val = true → s.csq.epochs = [] → s.que.inflight = [c] → s.jnlThrough = true →
    Answers (.hostReadDone f id (.data bs)) s (fun t => t.slot i.val = slotOf s.time.now (bs.getD (i.val / 4) 0) (i.val % 4) ∧
    t.que.inflight = [])) ∧
  (∀ (f : Fn) (id : BitVec 16) c bs (s : State), s.host.waiting = [] →
    s.host.reads.any (fun x => x.1 == f && x.2.isReadOf id.toNat) = true →
    s.que.inflight.find? (fun x => x.fn == f && cmdId x.e == id.toNat && x.wait == .hostRead) = some c → opcode c.e = 0x12 →
    s.csq.epochs = [] → s.que.inflight = [c] → s.jnlThrough = false → s.jnl.durable ≤ s.jnl.asked →
    Answers (.hostReadDone f id (.data bs)) s (fun t => t.csq = s.csq ∧ s.jnl.asked < t.jnl.asked ∧
    t.que.inflight.map (fun x => x.id) = [c.id])) ∧
  (∀ (src : Fin 5) (s : State), s.domOn 1 = true → Answers (.tamperLatch src) s (fun t =>
    bitOf (t.rd F.SEC_TAMPER_STAT_ACTIVE) src.val = true ∧ bitOf (t.rd F.SEC_TAMPER_STAT_LATCHED) src.val = true ∧
    t.rd F.SEC_TAMPER_CNT_COUNT = min (s.rd F.SEC_TAMPER_CNT_COUNT + 1) (2 ^ F.SEC_TAMPER_CNT_COUNT.width - 1) ∧
    t.fcu.raised.any (fun o => o.src.val == 45 + src.val) = true ∧ (s.tamperPolicy src.val = 1 ∧ s.rd F.SEC_STAT_ERASE = 0 →
    t.rd F.SEC_STAT_FENCE = 1) ∧ (s.tamperPolicy src.val = 2 ∧ s.rd F.SEC_STAT_ERASE = 0 → t.rd F.SEC_STAT_ERASE = 1))) ∧
  (∀ (src : Fin 5) (s : State), Answers (.tamperDeassert src) s (fun t => bitOf (t.rd F.SEC_TAMPER_STAT_ACTIVE) src.val = false ∧
    t.rd F.SEC_TAMPER_STAT_LATCHED = s.rd F.SEC_TAMPER_STAT_LATCHED ∧ t.rd F.SEC_STAT_FENCE = s.rd F.SEC_STAT_FENCE)) ∧
  (∀ (s : State), (1 ≤ s.rd F.SEC_STAT_ERASE ∧ s.rd F.SEC_STAT_ERASE ≤ 4) →
    (s.rd F.SEC_STAT_ERASE ≤ 2 ∨ (s.sec.slots = [] ∧ s.sec.kek = none ∧ s.rd F.SEC_STAT_ROOT_LOCKED = 1)) → Answers (.eraseDone) s (fun t => t.rd F.SEC_STAT_ERASE = 5 ∧
    t.rd F.SEC_STAT_ROOT_LOCKED = 1 ∧ t.sec.slots = [] ∧ t.sec.kek = none)) ∧
  (∀ (r : Req) (s : State), s.pfWrites r 0x0D = true →
    (upTo 5).all (fun i => !bitOf (s.rd F.SEC_TAMPER_STAT_ACTIVE) i || s.tamperPolicy i == 0) = true → Answers (.unfence r) s (fun t =>
    t = s.wr F.SEC_STAT_FENCE 0)) ∧
  (∀ (r : Req) (s : State), s.pfWrites r 0x0D = true →
    (upTo 5).all (fun i => !bitOf (s.rd F.SEC_TAMPER_STAT_ACTIVE) i || s.tamperPolicy i == 0) = false → Answers (.unfence r) s (fun t =>
    t.rd F.GLB_ACCESS_ERR_BADVAL = 1 ∧ t.rd F.SEC_STAT_FENCE = s.rd F.SEC_STAT_FENCE)) ∧
  (∀ (r : Req) (n : Fn) (v : Word) (s : State), s.pfWrites r 0x0D = true → n.val ≠ 0 → v.toNat / 2 ^ 16 % 2 ^ 11 ≤ 1024 →
    s.keyrangeOk n.val (v.toNat % 1024) (v.toNat / 2 ^ 16 % 2 ^ 11) = true → Answers (.secKeyrangeWrite r n v) s (fun t =>
    t.rd (F.SEC_KEYRANGE_BASE n.val) = v.toNat % 1024 ∧ t.rd (F.SEC_KEYRANGE_COUNT n.val) = v.toNat / 2 ^ 16 % 2 ^ 11)) ∧
  (∀ (r : Req) (n : Fn) (v : Word) (s : State), s.pfWrites r 0x0D = true → n.val ≠ 0 → v.toNat / 2 ^ 16 % 2 ^ 11 ≤ 1024 →
    s.keyrangeOk n.val (v.toNat % 1024) (v.toNat / 2 ^ 16 % 2 ^ 11) = false → Answers (.secKeyrangeWrite r n v) s (fun t =>
    t.rd F.GLB_ACCESS_ERR_BADVAL = 1 ∧ t.rd (F.SEC_KEYRANGE_BASE n.val) = s.rd (F.SEC_KEYRANGE_BASE n.val) ∧
    t.rd (F.SEC_KEYRANGE_COUNT n.val) = s.rd (F.SEC_KEYRANGE_COUNT n.val)))

/-- JNL_PROGRAM_START programs the bytes of the records that wait, up to the end of a flash page and of what is erased ahead (R241, R246); a
record that the region cannot hold waits, and FULL is set (R249). JNL_PROGRAM_DONE of the whole queue makes its records durable in the
region and adds its bytes (R246); a failed one stops the journal with FLASH_ERR's cause and source 33 (R247). Of the last of a compaction
it switches the region, counts GEN and leaves CSTATE 6, FULL 0, PCT 100 and its cause (R254). JNL_COMPACT with flash and a ready journal
starts the erase of the other region and waits (R248); before a replay is DONE it only waits (R242); in RETIRE it completes at once, its
END being durable (R249); without flash, stopped or in BYPASS it completes with status 4 and DETAIL 0x10. JNL_ERASE_DONE counts a first
erase (R430), ends ERASE0 or RETIRE, of a format in both regions, or erases one block ahead of the write pointer (R241, R254); a failed
one stops the journal (R247). -/
def Obligations.JournalFlash : Prop :=
  (∀ (n used : Nat) (l : List Byte) (s : State), s.flashOk = true → s.jnl.prog = [] → s.jnl.ready = true → s.jnl.firstErases = 0 →
    s.jnl.queue ≠ [] → s.rd F.JNL_STAT_CSTATE ≠ 5 → n = s.rd F.JNL_STAT_REGION → used = s.rd F.JNL_USED_BYTES →
    l = pageBytes s.jnl.queue s.jnl.headDone (min (s.pageSize - used % s.pageSize) ((s.region n).erased - used)) → l ≠ [] →
    Answers (.jnlProgramStart) s (fun t => t.jnl.prog = l ∧ t.jnl.progComp = false ∧ .flashProgram (s.regionBase n + used) l ∈ t.out ∧
    used % s.pageSize + l.length ≤ s.pageSize ∧ used + l.length ≤ (s.region n).erased ∧ t.jnl.queue = s.jnl.queue)) ∧
  (∀ (pay : RecPay) (mirror : Bool) (s : State), s.jnlThrough = false → s.jnl.held = [] → s.jnl.ready = true → s.rd F.JNL_STAT_CSTATE ≠ 5 →
    s.jnl.queue.length < 64 → s.regionSize < s.rd F.JNL_USED_BYTES + s.queueBytes + recBytes { seq := 0, mirror := mirror, pay := pay } →
    (s.append pay mirror).rd F.JNL_STAT_FULL = 1 ∧ (s.append pay mirror).jnl.queue = s.jnl.queue ∧
    (s.append pay mirror).jnl.held.map (fun r => r.pay) = [pay]) ∧
  (∀ (s : State), s.jnl.prog ≠ [] → s.jnl.progComp = false → s.jnl.prog.length = recsBytes s.jnl.queue → s.jnl.headDone = 0 →
    s.jnl.held = [] → s.on F.JNL_CFG_AUTO_COMPACT = false → s.rd F.JNL_USED_BYTES + s.jnl.prog.length < 2 ^ 32 →
    Answers (.jnlProgramDone true) s (fun t => t.jnl.queue = [] ∧ t.jnl.prog = [] ∧
    t.jnl.durable = min s.jnl.asked (s.jnl.durable + s.jnl.queue.length) ∧
    (t.region (s.rd F.JNL_STAT_REGION)).bytes = (s.region (s.rd F.JNL_STAT_REGION)).bytes ++ s.jnl.prog ∧
    t.rd F.JNL_USED_BYTES = s.rd F.JNL_USED_BYTES + s.jnl.prog.length)) ∧
  (∀ (s : State), s.jnl.prog ≠ [] → Answers (.jnlProgramDone false) s (fun t => t.jnl.stopped = true ∧ t.jnl.prog = [] ∧
    bitOf (t.rd (F.INT_CAUSE_CAUSE 0x9000)) 4 = true ∧ t.fcu.raised.any (fun o => o.src.val == 33) = true)) ∧
  (∀ (s : State), s.jnl.prog ≠ [] → s.jnl.progComp = true → s.rd F.JNL_STAT_CSTATE = 5 → s.jnl.comp ≠ [] →
    s.jnl.prog.length = recsBytes s.jnl.comp → s.jnl.compDone = 0 → s.jnl.recover = 0 → s.jnl.held = [] → s.que.inflight = [] →
    Answers (.jnlProgramDone true) s (fun t => t.rd F.JNL_STAT_CSTATE = 6 ∧ t.rd F.JNL_STAT_REGION = s.otherRegion % 2 ∧
    t.rd F.JNL_GEN_GEN = (s.rd F.JNL_GEN_GEN + 1) % 2 ^ 32 ∧ t.rd F.JNL_STAT_FULL = 0 ∧ t.rd F.JNL_STAT_PCT = 100 ∧
    bitOf (t.rd (F.INT_CAUSE_CAUSE 0x9000)) 2 = true ∧ .flashErase (s.rd F.JNL_STAT_REGION) ∈ t.out)) ∧
  (∀ (f : Fn) (e : Block64) d u (s : State), s.begins? 9 f e = some (d, u) → opcode e = 0x41 → (s.jnl.noFlash = false ∧
    s.jnl.stopped = false ∧ s.on F.JNL_CFG_BYPASS = false) → s.jnl.ready = true → s.rd F.JNL_STAT_CSTATE = 0 → s.jnl.recover = 0 →
    Answers (.jnlCompact f e) s (fun t => t.rd F.JNL_STAT_CSTATE = 1 ∧ t.rd F.JNL_STAT_PCT = 0 ∧ .flashErase s.otherRegion ∈ t.out ∧
    (∃ c, t.cmd? d.id = some c ∧ c.wait = .compact))) ∧
  (∀ (f : Fn) (e : Block64) d u (s : State), s.begins? 9 f e = some (d, u) → opcode e = 0x41 → (s.jnl.noFlash = false ∧
    s.jnl.stopped = false ∧ s.on F.JNL_CFG_BYPASS = false) → s.jnl.ready = false → s.rd F.JNL_STAT_CSTATE ≠ 6 →
    Answers (.jnlCompact f e) s (fun t => t.rd F.JNL_STAT_CSTATE = s.rd F.JNL_STAT_CSTATE ∧
    (∃ c, t.cmd? d.id = some c ∧ c.wait = .compact))) ∧
  (∀ (f : Fn) (e : Block64) d u (s : State), s.begins? 9 f e = some (d, u) → opcode e = 0x41 → (s.jnl.noFlash = false ∧
    s.jnl.stopped = false ∧ s.on F.JNL_CFG_BYPASS = false) → s.rd F.JNL_STAT_CSTATE = 6 → u.que.inflight = [d] → s.completes f = true →
    Answers (.jnlCompact f e) s (fun t => s.cplOut f d { result := s.compResult } ∈ t.out)) ∧
  (∀ (f : Fn) (e : Block64) d u (s : State), s.begins? 9 f e = some (d, u) → opcode e = 0x41 →
    (s.jnl.noFlash = true ∨ s.jnl.stopped = true ∨ s.on F.JNL_CFG_BYPASS = true) → u.que.inflight = [d] → s.completes f = true →
    Answers (.jnlCompact f e) s (fun t => s.cplOut f d { status := 4, detail := 0x10 } ∈ t.out ∧
    t.rd F.JNL_STAT_CSTATE = s.rd F.JNL_STAT_CSTATE)) ∧
  (∀ (n : Nat) (s : State), s.flashOk = true → s.jnl.firstErases ≠ 0 → n = s.rd F.JNL_STAT_REGION → Answers (.jnlEraseDone true) s (fun t =>
    t.jnl.firstErases = s.jnl.firstErases - 1 ∧ (t.region n).bytes = (s.region n).bytes ∧
    (t.region n).erased = max (s.region n).erased (min s.regionSize ((s.rd F.JNL_USED_BYTES + 65535) / 65536 * 65536 + (s.rd F.JNL_CFG_ERASE_AHEAD + 1 - s.jnl.firstErases) * 65536)))) ∧
  (∀ (s : State), s.flashOk = true → s.jnl.firstErases = 0 → s.rd F.JNL_STAT_CSTATE = 1 → s.frozen 9 = false →
    (s.jnl.recover ≠ 2 ∨ (s.region (s.rd F.JNL_STAT_REGION)).erased ≠ 0) → Answers (.jnlEraseDone true) s (fun t =>
    (t.region s.otherRegion).bytes = [] ∧ 65536 ≤ (t.region s.otherRegion).erased ∧ t.rd F.JNL_STAT_CSTATE = 2)) ∧
  (∀ (n : Nat) (s : State), s.flashOk = true → s.jnl.firstErases = 0 → s.rd F.JNL_STAT_CSTATE = 1 → s.frozen 9 = false →
    s.jnl.recover = 2 → n = s.rd F.JNL_STAT_REGION → (s.region n).erased = 0 → Answers (.jnlEraseDone true) s (fun t =>
    (t.region n).bytes = [] ∧ (t.region n).erased = 65536 ∧ t.rd F.JNL_STAT_CSTATE = 1)) ∧
  (∀ (s : State), s.flashOk = true → s.jnl.firstErases = 0 → s.rd F.JNL_STAT_CSTATE = 6 → s.que.inflight = [] →
    s.on F.JNL_CFG_AUTO_COMPACT = false → Answers (.jnlEraseDone true) s (fun t => (t.region s.otherRegion).bytes = [] ∧
    65536 ≤ (t.region s.otherRegion).erased ∧ t.rd F.JNL_STAT_CSTATE = 0)) ∧
  (∀ (n : Nat) (s : State), s.flashOk = true → s.jnl.firstErases = 0 → s.rd F.JNL_STAT_CSTATE = 0 → s.jnl.ready = true →
    n = s.rd F.JNL_STAT_REGION → (s.region n).erased < min s.regionSize (s.rd F.JNL_USED_BYTES + s.rd F.JNL_CFG_ERASE_AHEAD * 65536) →
    Answers (.jnlEraseDone true) s (fun t => (t.region n).erased = min s.regionSize ((s.region n).erased + 65536) ∧
    (t.region n).bytes = (s.region n).bytes)) ∧
  (∀ (s : State), s.flashOk = true → Answers (.jnlEraseDone false) s (fun t => t.jnl.stopped = true ∧
    bitOf (t.rd (F.INT_CAUSE_CAUSE 0x9000)) 4 = true ∧ t.fcu.raised.any (fun o => o.src.val == 33) = true))

/-- REPLAY with JNL, CSQ, SEC and RCU enabled, no circuit other than free or restored, no epoch and no compaction starts probing and clears
its counts; otherwise it is BADVAL (R250). REPLAY_PROBE_DONE with good SFDP data shows the flash and goes to SELECT; with none, or one
that R240 turns away, the journal has no flash, its queue is empty and source 35 is raised (R240, R255). REPLAY_SELECT_DONE takes the
region with START and the END that names it, A where its generation is not the older; with neither valid it formats: both empty, GEN 0,
an erase of each region (R241, R242). REPLAY_SCAN_DONE of a journal with a clean end ends DONE with PCT 100, the SEQ that follows the last
record, and the REPLAYED cause; of one with a truncated end it compacts, with the TAIL cause and TAIL_SEQ (R245, R251). JNL_ABORT of a
replay that runs ends it FAILED. -/
def Obligations.JournalReplay : Prop :=
  (∀ (r : Req) (s : State), s.pfWrites r 9 = true → (s.en 9 = true ∧ s.en 7 = true ∧ s.en 0x0D = true ∧ s.en 5 = true) →
    s.csq.circuits.all (fun c => c.2.state == 0 || c.2.state == 4) = true → s.csq.epochs = [] → s.rd F.JNL_STAT_CSTATE = 0 →
    s.replayHolds = false → Answers (.replay r) s (fun t => t.rd F.JNL_STAT_RSTATE = 1 ∧ t.rd F.JNL_STAT_PCT = 0 ∧
    t.rd F.JNL_STAT_BLANK = 0 ∧ t.rd F.JNL_REPLAY_RECS_COUNT = 0 ∧ t.rd F.JNL_DISCARDED_COUNT = 0 ∧ t.rd F.JNL_REPLAY_EPOCH_EPOCH = 0 ∧
    t.jnl.ready = false)) ∧
  (∀ (r : Req) (s : State), s.pfWrites r 9 = true →
    (s.en 7 = false ∨ s.en 0x0D = false ∨ s.en 5 = false ∨ s.rd F.JNL_STAT_CSTATE ≠ 0 ∨ s.csq.epochs ≠ []) → Answers (.replay r) s (fun t =>
    t.rd F.GLB_ACCESS_ERR_BADVAL = 1 ∧ t.rd F.JNL_STAT_RSTATE = s.rd F.JNL_STAT_RSTATE)) ∧
  (∀ x (s : State), s.en 9 = true → sfdpOk x = true → s.rd F.JNL_STAT_RSTATE = 1 → Answers (.replayProbeDone (some x)) s (fun t =>
    t.rd F.JNL_FLASH_PRESENT = 1 ∧ t.rd F.JNL_FLASH_SIZE_LOG2 = x.sizeLog2 ∧ t.rd F.JNL_FLASH_ADDR4 = b2n (decide (24 < x.sizeLog2)) ∧
    t.rd F.JNL_STAT_RSTATE = 2 ∧ t.jnl.noFlash = false ∧ t.jnl.part = some x)) ∧
  (∀ (x : Option Sfdp) (s : State), s.en 9 = true → (∀ y ∈ x, sfdpOk y = false) → Answers (.replayProbeDone x) s (fun t =>
    t.jnl.noFlash = true ∧ t.rd F.JNL_FLASH_PRESENT = 0 ∧ bitOf (t.rd (F.INT_CAUSE_CAUSE 0x9000)) 5 = true ∧
    t.fcu.raised.any (fun o => o.src.val == 35) = true ∧ t.jnl.queue = [] ∧ t.jnl.held = [])) ∧
  (∀ g (s : State), s.rd F.JNL_STAT_RSTATE = 2 → s.flashOk = true → regionGen (s.journal 0).1 = some g →
    (∀ h ∈ regionGen (s.journal 1).1, h ≤ g) → Answers (.replaySelectDone) s (fun t => t.rd F.JNL_STAT_REGION = 0 ∧
    t.rd F.JNL_GEN_GEN = g ∧ t.rd F.JNL_STAT_RSTATE = 3)) ∧
  (∀ g (s : State), s.rd F.JNL_STAT_RSTATE = 2 → s.flashOk = true → regionGen (s.journal 1).1 = some g →
    (∀ h ∈ regionGen (s.journal 0).1, h < g) → Answers (.replaySelectDone) s (fun t => t.rd F.JNL_STAT_REGION = 1 ∧
    t.rd F.JNL_GEN_GEN = g ∧ t.rd F.JNL_STAT_RSTATE = 3)) ∧
  (∀ (s : State), s.rd F.JNL_STAT_RSTATE = 2 → s.flashOk = true → (regionGen (s.journal 0).1 = none ∧ regionGen (s.journal 1).1 = none) →
    s.rd F.JNL_STAT_CSTATE = 0 → Answers (.replaySelectDone) s (fun t => t.rd F.JNL_STAT_RSTATE = 4 ∧ t.rd F.JNL_STAT_CSTATE = 1 ∧
    t.rd F.JNL_GEN_GEN = 0 ∧ .flashErase 0 ∈ t.out ∧ .flashErase 1 ∈ t.out ∧ t.jnl.regA = {} ∧ t.jnl.regB = {})) ∧
  (∀ (recs : List JRec) used (s : State), s.rd F.JNL_STAT_RSTATE = 3 → s.flashOk = true → s.frozen 9 = false → s.jnl.prog = [] →
    s.journal (s.rd F.JNL_STAT_REGION) = (recs, used, true) → s.jnl.queue = [] → s.jnl.held = [] → s.on F.JNL_CFG_AUTO_COMPACT = false →
    s.que.inflight = [] → Answers (.replayScanDone) s (fun t => t.rd F.JNL_STAT_RSTATE = 5 ∧ t.rd F.JNL_STAT_PCT = 100 ∧
    t.rd F.JNL_SEQ_SEQ = (recs.getLast?.map (fun r => r.seq + 1)).getD 0 % 2 ^ F.JNL_SEQ_SEQ.width ∧
    t.rd F.JNL_USED_BYTES = used % 2 ^ F.JNL_USED_BYTES.width ∧ t.jnl.ready = true ∧ bitOf (t.rd (F.INT_CAUSE_CAUSE 0x9000)) 0 = true)) ∧
  (∀ (recs : List JRec) used (s : State), s.rd F.JNL_STAT_RSTATE = 3 → s.flashOk = true → s.frozen 9 = false → s.jnl.prog = [] →
    s.journal (s.rd F.JNL_STAT_REGION) = (recs, used, false) → s.rd F.JNL_STAT_CSTATE = 0 → Answers (.replayScanDone) s (fun t =>
    t.rd F.JNL_STAT_RSTATE = 4 ∧
    t.rd F.JNL_TAIL_SEQ_SEQ = (recs.getLast?.map (fun r => r.seq + 1)).getD 0 % 2 ^ F.JNL_TAIL_SEQ_SEQ.width ∧
    t.rd F.JNL_STAT_CSTATE = 1 ∧ .flashErase s.otherRegion ∈ t.out ∧ bitOf (t.rd (F.INT_CAUSE_CAUSE 0x9000)) 1 = true)) ∧
  (∀ (r : Req) (s : State), s.pfWrites r 9 = true → s.replayHolds = true → s.rd F.JNL_STAT_CSTATE = 0 → Answers (.jnlAbort r) s (fun t =>
    t.rd F.JNL_STAT_RSTATE = 6 ∧ t.jnl.failedBefore = true ∧ bitOf (t.rd (F.INT_CAUSE_CAUSE 0x9000)) 6 = true))

/-- A write that is not aligned, or a 4 B write with some bytes disabled, is ignored and records UNALIGNED or PARTIAL with its place (R29,
R30). A write of GLB_SCRATCH changes it alone; a write of INT_MASK sets it. A read of an unimplemented word returns 0 and records
UNIMPL with place and requester (R28). A read of the RC counter CRC_ERR returns it and clears it (R10). A read of a pair's low half
returns it and keeps the high half for the next read (R38); a write of a pair's high half takes both halves together with the low half
held before (R39). -/
def Obligations.RegisterAccesses : Prop :=
  (∀ (r : Req) (a : Access) (s : State), s.reaches r a.addr.toNat = true → accAligned a = false → Answers (.regWrite r a) s (fun t =>
    t = s.accErr F.GLB_ACCESS_ERR_UNALIGNED (srcOf r) (pageOf (busAddr r a.addr.toNat)) (busAddr r a.addr.toNat % 0x1000))) ∧
  (∀ (r : Req) (a : Access) (s : State), s.reaches r a.addr.toNat = true → (a.size = 4 ∧ a.addr.toNat % 4 = 0 ∧
    a.enables.toNat % 16 ≠ 15 ∧ a.enables.toNat % 16 ≠ 0) → Answers (.regWrite r a) s (fun t =>
    t = s.accErr F.GLB_ACCESS_ERR_PARTIAL (srcOf r) (pageOf (busAddr r a.addr.toNat)) (busAddr r a.addr.toNat % 0x1000))) ∧
  (∀ v (s : State), s.domOn 1 = true → s.on (F.PAGE_STAT_RST_BUSY 0) = false → Answers (.regWrite 0 ⟨0x60, 4, 15, v⟩) s (fun t =>
    t = s.wr F.GLB_SCRATCH_SCRATCH (v.toNat % 2 ^ 32))) ∧
  (∀ (pg : PageIx) (v : DWord) (s : State), s.domOn 1 = true → implAt (0x1000 * pg.val) = true →
    Answers (.regWrite 0 ⟨BitVec.ofNat 20 (0x1000 * pg.val + 0x14), 4, 15, v⟩) s (fun t =>
    t.rd (F.INT_MASK_MASK (0x1000 * pg.val)) = v.toNat % 2 ^ 32)) ∧
  (∀ (r : Req) (a : Access) (s : State), s.reaches r a.addr.toNat = true → (r.val = 0 ∨ r.val = 65) → (a.addr.toNat % 4 = 0 ∧ a.size = 4 ∧
    a.enables.toNat % 16 = 15) → implAt a.addr.toNat = false → Answers (.accessErrorRead r a) s (fun t => t.rd F.GLB_ACCESS_ERR_UNIMPL = 1 ∧
    t.rd F.GLB_ACCESS_ERR_LAST_OFFSET = a.addr.toNat % 0x1000 ∧ t.rd F.GLB_ACCESS_ERR_LAST_SRC = srcOf r ∧
    .regData r a.addr.toNat 0 ∈ t.out)) ∧
  (∀ (r : Req) (p : Port) (s : State), s.pfReads r (0x10 + p.val) = true →
    Answers (.rcTakingRead r (BitVec.ofNat 20 (F.PORT_CRC_ERR_COUNT p.val).addr)) s (fun t => t.rd (F.PORT_CRC_ERR_COUNT p.val) = 0 ∧
    .regData r (F.PORT_CRC_ERR_COUNT p.val).addr (BitVec.ofNat 32 (s.rd (F.PORT_CRC_ERR_COUNT p.val))) ∈ t.out)) ∧
  (∀ (r : Req) (s : State), s.pfReads r 1 = true → Answers (.pairLoRead r 0x010A0) s (fun t =>
    .regData r 0x010A0 (s.peekAs r.val 0x010A0) ∈ t.out ∧
    (t.reqOf r.val).shadow = some (0x010A0, (s.peekAs r.val 0x010A0).toNat + (s.peekAs r.val 0x010A4).toNat * 2 ^ 32))) ∧
  (∀ (r : Req) (n : Fin 8) (v : Word) lo (s : State), s.pfWrites r 0x0B = true → s.on (F.ATM_STAT_BUSY 0xB000 n.val) = false →
    (s.reqOf r.val).hold.find? (fun h => h.1 == 0xBC08 + 64 * n.val) = some (0xBC08 + 64 * n.val, lo) → lo < 2 ^ 32 →
    Answers (.pairHiWrite r (BitVec.ofNat 20 (0xBC0C + 64 * n.val)) v) s (fun t =>
    t.rd (F.ATM_OPA_OPA 0xB000 n.val) = lo + v.toNat * 2 ^ 32))

/-- PAGE_LOCK with the first key arms the page for its requester; with the second key from the same requester it locks it;
LOCK_TIMER_EXPIRE disarms it with LOCK_SEQ_ERR (R40, R41). SOFT_RST sets RST_BUSY, on page 0 it returns GLB_SCRATCH to 0; SOFT_RST_DONE
clears RST_BUSY (R49). INT_FORCE sets the page's defined INT_CAUSE bits that are written 1 (R48). PAGE_FREEZE with 1 sets FREEZE, and
FROZEN, or FREEZE_PEND while something must finish first (R445). PAGE_ENABLE_WRITE sets EN as written, unless a valid record that
stopped the block holds it at 0. -/
def Obligations.PageControl : Prop :=
  (∀ (r : Req) (pg : PageIx) (s : State), (r.val = 0 ∨ r.val = 65) → s.reaches r (0x1000 * pg.val) = true → lockable pg.val = true →
    s.on (F.PAGE_STAT_LOCKED (0x1000 * pg.val)) = false → s.locks.find? (fun x => x.1 == pg.val) = none →
    Answers (.pageLock r pg 0x4C4B) s (fun t => t.rd (F.PAGE_STAT_LOCK_ARMED (0x1000 * pg.val)) = 1 ∧ t.locks = s.locks ++ [(pg.val, r)])) ∧
  (∀ (r : Req) (pg : PageIx) (s : State), (r.val = 0 ∨ r.val = 65) → s.reaches r (0x1000 * pg.val) = true → lockable pg.val = true →
    s.on (F.PAGE_STAT_LOCKED (0x1000 * pg.val)) = false → s.locks.find? (fun x => x.1 == pg.val) = some (pg.val, r) →
    Answers (.pageLock r pg 0x4B4C) s (fun t => t.rd (F.PAGE_STAT_LOCKED (0x1000 * pg.val)) = 1 ∧
    t.rd (F.PAGE_STAT_LOCK_ARMED (0x1000 * pg.val)) = 0 ∧ t.locks.any (fun x => x.1 == pg.val) = false)) ∧
  (∀ (pg : PageIx) (s : State), s.locks.any (fun x => x.1 == pg.val) = true → s.on F.DBG_FREEZE_STAT_FROZEN = false →
    s.frozen pg.val = false → s.domOn 1 = true → Answers (.lockTimerExpire pg) s (fun t =>
    t.rd (F.PAGE_STAT_LOCK_ARMED (0x1000 * pg.val)) = 0 ∧ t.rd (F.PAGE_STAT_LOCK_SEQ_ERR (0x1000 * pg.val)) = 1 ∧
    t.locks.any (fun x => x.1 == pg.val) = false)) ∧
  (∀ (r : Req) (pg : PageIx) (s : State), (r.val = 0 ∨ r.val = 65) → s.reaches r (0x1000 * pg.val) = true →
    implAt (0x1000 * pg.val) = true → Answers (.softRst r pg) s (fun t => t.rd (F.PAGE_STAT_RST_BUSY (0x1000 * pg.val)) = 1)) ∧
  (∀ (r : Req) (s : State), s.pfWrites r 0 = true → Answers (.softRst r 0) s (fun t => t.rd F.GLB_SCRATCH_SCRATCH = 0 ∧
    t.rd (F.PAGE_STAT_RST_BUSY 0) = 1)) ∧
  (∀ (pg : PageIx) (s : State), Answers (.softRstDone pg) s (fun t => t = s.wr (F.PAGE_STAT_RST_BUSY (0x1000 * pg.val)) 0)) ∧
  (∀ (r : Req) (pg : PageIx) (v : Word) (s : State), (r.val = 0 ∨ r.val = 65) → s.reaches r (0x1000 * pg.val) = true →
    implAt (0x1000 * pg.val) = true → Answers (.intForce r pg v) s (fun t =>
    t.rd (F.INT_CAUSE_CAUSE (0x1000 * pg.val)) = (s.rd (F.INT_CAUSE_CAUSE (0x1000 * pg.val)) ||| (v.toNat &&& intBits (0x1000 * pg.val))) % 2 ^ 32)) ∧
  (∀ (r : Req) (pg : PageIx) (s : State), (r.val = 0 ∨ r.val = 65) → s.reaches r (0x1000 * pg.val) = true →
    freezable.any (fun x => x.1 == pg.val) = true → s.on (F.PAGE_CTRL_FREEZE (0x1000 * pg.val)) = false → s.frozen pg.val = false →
    Answers (.pageFreeze r pg true) s (fun t => t.rd (F.PAGE_CTRL_FREEZE (0x1000 * pg.val)) = 1 ∧
    (if s.defers pg.val then t.rd (F.PAGE_STAT_FREEZE_PEND (0x1000 * pg.val)) = 1 else t.rd (F.PAGE_STAT_FROZEN (0x1000 * pg.val)) = 1))) ∧
  (∀ (r : Req) (pg : PageIx) (on : Bool) (s : State), (r.val = 0 ∨ r.val = 65) → s.reaches r (0x1000 * pg.val) = true →
    implAt (0x1000 * pg.val) = true → enFixed pg.val = false →
    (on = false ∨ s.fcu.stopped.any (fun x => x.1 == pg.val && s.on (F.FCU_REC_W0_VALID x.2)) = false) →
    Answers (.pageEnableWrite r pg on) s (fun t => t.rd (F.PAGE_CTRL_EN (0x1000 * pg.val)) = b2n on))

/-- A write of a word that is not the entry's last stages it for the requester; a write of a circuit entry's last word after a staged one
commits (here the label). A read of a word returns the entry's word and captures the entry for the requester (R44 to R46). -/
def Obligations.TableWindows : Prop :=
  (∀ (r : Req) (win : Fin 5) (word : Fin 512) (v : Word) i w (s : State), s.pfWrites r (0x40 + win.val) = true →
    winSlot (s.winOf r.val (0x40 + win.val)) (0x40 + win.val) (0x800 + 4 * word.val) = (i, w) → i < (winInfo (0x40 + win.val)).1 →
    4 * w + 4 ≠ (winInfo (0x40 + win.val)).2 → (s.winOf r.val (0x40 + win.val)).staged = none → win.val ≠ 3 →
    Answers (.tableWindowWrite r win word v) s (fun t => (t.winOf r.val (0x40 + win.val)).staged = some (i, [(w, v)]))) ∧
  (∀ (r : Req) (word : Fin 512) (v : Word) i l (s : State), s.pfWrites r 0x40 = true →
    winSlot (s.winOf r.val 0x40) 0x40 (0x800 + 4 * word.val) = (i, 15) → i < 1024 → (s.winOf r.val 0x40).staged = some (i, [(4, l)]) →
    Answers (.tableWindowWrite r 0 word v) s (fun t => (t.circuit i).label = l.toNat ∧ (t.winOf r.val 0x40).staged = none)) ∧
  (∀ (r : Req) (win : Fin 5) (word : Fin 512) i w (s : State), s.pfReads r (0x40 + win.val) = true →
    winSlot (s.winOf r.val (0x40 + win.val)) (0x40 + win.val) (0x800 + 4 * word.val) = (i, w) → i < (winInfo (0x40 + win.val)).1 →
    (s.winOf r.val (0x40 + win.val)).cap = none → Answers (.tableWindowRead r win word) s (fun t =>
    .regData r (0x40800 + 0x1000 * win.val + 4 * word.val) (((s.entryWords (0x40 + win.val) i).map (BitVec.ofNat 32)).getD w 0) ∈ t.out ∧
    (t.winOf r.val (0x40 + win.val)).cap = some (i, (s.entryWords (0x40 + win.val) i).map (BitVec.ofNat 32))))

/-- An accepted command or completion doorbell moves the tail or head; a tail of DEPTH or more sets DB_OVR and moves nothing (R73, R74). A
write of a command queue's SIZE (4 to 12) or BASE while it is disabled and empty sets it and clears HEAD and TAIL; of a completion
queue's while CPL_EN = 0 it also sets PHASE. While the command queue is in use the write of SIZE is BADVAL (R90). Q_CTRL takes CMD_EN
and CPL_EN, and CMD_EN = 0 clears HALTED (R91). -/
def Obligations.QueueRegisters : Prop :=
  (∀ (f : Fn) (v : Word) (s : State), s.queWrites f = true → v.toNat % 2 ^ 12 < depth s (F.CMDQ_SIZE_SIZE (qBase f.val)) →
    modSub (depth s (F.CMDQ_SIZE_SIZE (qBase f.val))) (v.toNat % 2 ^ 12) (s.rd (F.CMDQ_TAIL_TAIL (qBase f.val))) ≤ modSub (depth s (F.CMDQ_SIZE_SIZE (qBase f.val))) (s.rd (F.CMDQ_HEAD_HEAD (qBase f.val)) + depth s (F.CMDQ_SIZE_SIZE (qBase f.val)) - 1) (s.rd (F.CMDQ_TAIL_TAIL (qBase f.val))) →
    Answers (.commandDoorbell f v) s (fun t => t.rd (F.CMDQ_TAIL_TAIL (qBase f.val)) = v.toNat % 2 ^ 12)) ∧
  (∀ (f : Fn) (v : Word) (s : State), s.queWrites f = true → depth s (F.CMDQ_SIZE_SIZE (qBase f.val)) ≤ v.toNat % 2 ^ 12 →
    Answers (.commandDoorbell f v) s (fun t => t.rd (F.Q_STAT_DB_OVR (qBase f.val)) = 1 ∧
    t.rd (F.CMDQ_TAIL_TAIL (qBase f.val)) = s.rd (F.CMDQ_TAIL_TAIL (qBase f.val)))) ∧
  (∀ (f : Fn) (v : Word) (s : State), s.queWrites f = true → v.toNat % 2 ^ 12 < depth s (F.CPLQ_SIZE_SIZE (qBase f.val)) →
    modSub (depth s (F.CPLQ_SIZE_SIZE (qBase f.val))) (v.toNat % 2 ^ 12) (s.rd (F.CPLQ_HEAD_HEAD (qBase f.val))) ≤ modSub (depth s (F.CPLQ_SIZE_SIZE (qBase f.val))) (s.rd (F.CPLQ_TAIL_TAIL (qBase f.val))) (s.rd (F.CPLQ_HEAD_HEAD (qBase f.val))) →
    Answers (.completionDoorbell f v) s (fun t => t.rd (F.CPLQ_HEAD_HEAD (qBase f.val)) = v.toNat % 2 ^ 12)) ∧
  (∀ (f : Fn) (v : DWord) (s : State), s.queWrites f = true → s.cmdqOpen f = true → (4 ≤ v.toNat % 16 ∧ v.toNat % 16 ≤ 12) →
    Answers (.queueConfigWrite f .cmdSize v) s (fun t => t.rd (F.CMDQ_SIZE_SIZE (qBase f.val)) = v.toNat % 16 ∧
    t.rd (F.CMDQ_HEAD_HEAD (qBase f.val)) = 0 ∧ t.rd (F.CMDQ_TAIL_TAIL (qBase f.val)) = 0)) ∧
  (∀ (f : Fn) (v : DWord) (s : State), s.queWrites f = true → s.cmdqOpen f = true → Answers (.queueConfigWrite f .cmdBase v) s (fun t =>
    t.rd (F.CMDQ_BASE_BASE (qBase f.val)) = v.toNat / 2 ^ 12 ∧ t.rd (F.CMDQ_HEAD_HEAD (qBase f.val)) = 0 ∧
    t.rd (F.CMDQ_TAIL_TAIL (qBase f.val)) = 0)) ∧
  (∀ (f : Fn) (v : DWord) (s : State), s.queWrites f = true → s.on (F.Q_CTRL_CPL_EN (qBase f.val)) = false →
    Answers (.queueConfigWrite f .cplBase v) s (fun t => t.rd (F.CPLQ_BASE_BASE (qBase f.val)) = v.toNat / 2 ^ 12 ∧
    t.rd (F.CPLQ_HEAD_HEAD (qBase f.val)) = 0 ∧ t.rd (F.CPLQ_TAIL_TAIL (qBase f.val)) = 0 ∧ t.rd (F.CPLQ_TAIL_PHASE (qBase f.val)) = 1)) ∧
  (∀ (f : Fn) (v : DWord) (s : State), s.queWrites f = true → s.on (F.Q_CTRL_CPL_EN (qBase f.val)) = false → (4 ≤ v.toNat % 16 ∧
    v.toNat % 16 ≤ 12) → Answers (.queueConfigWrite f .cplSize v) s (fun t => t.rd (F.CPLQ_SIZE_SIZE (qBase f.val)) = v.toNat % 16 ∧
    t.rd (F.CPLQ_HEAD_HEAD (qBase f.val)) = 0 ∧ t.rd (F.CPLQ_TAIL_TAIL (qBase f.val)) = 0 ∧ t.rd (F.CPLQ_TAIL_PHASE (qBase f.val)) = 1)) ∧
  (∀ (f : Fn) (v : DWord) (s : State), s.queWrites f = true → s.cmdqOpen f = false → Answers (.queueConfigWrite f .cmdSize v) s (fun t =>
    t.rd F.GLB_ACCESS_ERR_BADVAL = 1 ∧ t.rd (F.CMDQ_SIZE_SIZE (qBase f.val)) = s.rd (F.CMDQ_SIZE_SIZE (qBase f.val)))) ∧
  (∀ (f : Fn) (v : Word) (s : State), s.queWrites f = true → Answers (.qCtrlWrite f v) s (fun t =>
    t.rd (F.Q_CTRL_CMD_EN (qBase f.val)) = v.toNat % 2 ∧ t.rd (F.Q_CTRL_CPL_EN (qBase f.val)) = v.toNat / 2 % 2 ∧ (v.toNat % 2 = 0 →
    t.rd (F.Q_STAT_HALTED (qBase f.val)) = 0)))

/-- A write of TWN_CFG that enables with ROLE_REQ 1 makes the node ACTIVE with GEN 1, with ROLE_REQ 2 PULLING with GEN 0; enabling with a
reserved or missing role, or another port while enabled, is BADVAL and changes nothing (R226, R227); with EN = 0 the reserved role is BADVAL,
ROLE_REQ stays, and PORT and PEER take effect (R33). SWITCHOVER of an ACTIVE node with nothing outstanding sends
HANDOVER and makes it PULLING; otherwise it is under way and the role stays (R236). TAKEOVER of a STANDBY node starts loading, or waits
for the thaw while TWN is frozen (R235, R253). -/
def Obligations.TwinControl : Prop :=
  (∀ (r : Req) (v : Word) (s : State), s.pfWrites r 8 = true → (v.toNat % 2 = 1 ∧ v.toNat / 2 % 4 = 1) → s.rd F.TWN_CFG_EN = 0 →
    Answers (.twnCfgWrite r v) s (fun t => t.rd F.TWN_CFG_EN = 1 ∧ t.rd F.TWN_CFG_ROLE_REQ = 1 ∧
    t.rd F.TWN_CFG_PORT = v.toNat / 2 ^ 4 % 16 ∧ t.rd F.TWN_CFG_PEER = v.toNat / 2 ^ 16 % 2 ^ 14 ∧ t.rd F.TWN_STAT_ROLE = 1 ∧
    t.rd F.TWN_GEN_GEN = 1)) ∧
  (∀ (r : Req) (v : Word) (s : State), s.pfWrites r 8 = true → (v.toNat % 2 = 1 ∧ v.toNat / 2 % 4 = 2) → s.rd F.TWN_CFG_EN = 0 →
    Answers (.twnCfgWrite r v) s (fun t => t.rd F.TWN_STAT_ROLE = 3 ∧ t.rd F.TWN_GEN_GEN = 0)) ∧
  (∀ (r : Req) (v : Word) (s : State), s.pfWrites r 8 = true → (v.toNat % 8 = 7 ∨ v.toNat % 8 = 1 ∨ s.rd F.TWN_CFG_EN = 1 ∧
    v.toNat / 2 ^ 4 % 16 ≠ s.rd F.TWN_CFG_PORT) → Answers (.twnCfgWrite r v) s (fun t => t.rd F.GLB_ACCESS_ERR_BADVAL = 1 ∧
    t.rd F.TWN_CFG_EN = s.rd F.TWN_CFG_EN ∧ t.rd F.TWN_CFG_ROLE_REQ = s.rd F.TWN_CFG_ROLE_REQ ∧
    t.rd F.TWN_CFG_PORT = s.rd F.TWN_CFG_PORT ∧ t.rd F.TWN_CFG_PEER = s.rd F.TWN_CFG_PEER ∧ t.rd F.TWN_STAT_ROLE = s.rd F.TWN_STAT_ROLE)) ∧
  (∀ (r : Req) (v : Word) (s : State), s.pfWrites r 8 = true → v.toNat % 8 = 6 → s.rd F.TWN_CFG_EN = 0 →
    Answers (.twnCfgWrite r v) s (fun t => t.rd F.GLB_ACCESS_ERR_BADVAL = 1 ∧ t.rd F.TWN_CFG_EN = 0 ∧
    t.rd F.TWN_CFG_ROLE_REQ = s.rd F.TWN_CFG_ROLE_REQ ∧ t.rd F.TWN_CFG_PORT = v.toNat / 2 ^ 4 % 16 ∧
    t.rd F.TWN_CFG_PEER = v.toNat / 2 ^ 16 % 2 ^ 14)) ∧
  (∀ (r : Req) (s : State), s.pfWrites r 8 = true → s.role = 1 → (s.twnCanSend = true ∧ s.twn.needFull = false ∧ s.twn.sendq = [] ∧
    s.twn.resend = [] ∧ s.twn.buf = []) → Answers (.switchover r) s (fun t => t.rd F.TWN_STAT_ROLE = 3 ∧
    t.out.any (fun o => match o with | .twin _ b => b.kind == 6 && b.epoch == BitVec.ofNat 32 s.twn.lastEpoch && b.role == 1 | _ => false) = true)) ∧
  (∀ (r : Req) (s : State), s.pfWrites r 8 = true → s.role = 1 → (s.twnCanSend = false ∨ s.twn.buf ≠ []) →
    Answers (.switchover r) s (fun t => t.twn.handing = true ∧ t.rd F.TWN_STAT_ROLE = 1)) ∧
  (∀ (r : Req) (s : State), s.pfWrites r 8 = true → s.role = 2 → s.rd F.TWN_STAT_TKO < 4 → s.frozen 8 = false → s.twn.group = [] →
    Answers (.takeover r) s (fun t => t.rd F.TWN_STAT_TKO = 5 ∧ t.rd F.TWN_STAT_PCT = 0)) ∧
  (∀ (r : Req) (s : State), s.pfWrites r 8 = true → s.role = 2 → s.rd F.TWN_STAT_TKO < 4 → s.frozen 8 = true →
    Answers (.takeover r) s (fun t => t.twn.deferred = true ∧ t.rd (F.PAGE_STAT_FREEZE_PEND 0x8000) = 1 ∧
    t.rd F.TWN_STAT_TKO = s.rd F.TWN_STAT_TKO))

/-- BYPASS with no command and no epoch waiting empties the journal's queue and makes everything appended count as durable (R247). ATOMIC_GO of a free slot
whose address has bits that must be 0 ends with the error status and its cause; of a good one while RME does not run it is BUSY with an
operation for the node and offset of GA; of a busy slot it is BADVAL and RME is unchanged (R268). MSS_TRAIN with MSS running and both
stacks at rest starts both, TRAIN_PCT 0 (R281). -/
def Obligations.BlockControlWrites : Prop :=
  (∀ (r : Req) (v : Word) (s : State), s.pfWrites r 9 = true → v.getLsbD 9 = true → s.que.inflight = [] → s.csq.epochs = [] →
    Answers (.bypass r v) s (fun t => t.rd F.JNL_CFG_BYPASS = 1 ∧ t.jnl.queue = [] ∧ t.jnl.held = [] ∧ t.jnl.durable = s.jnl.asked)) ∧
  (∀ (r : Req) (n : Fin 8) (s : State), s.pfWrites r 0x0B = true → s.on (F.ATM_STAT_BUSY 0xB000 n.val) = false →
    s.rd (F.ATM_GA_GA 0xB000 n.val) / 2 ^ 35 % 2 ^ 15 ≠ 0 → Answers (.atomicGo r n) s (fun t => t.rd (F.ATM_STAT_BUSY 0xB000 n.val) = 0 ∧
    t.rd (F.ATM_STAT_STATUS 0xB000 n.val) = (outcomeCpl 4).status ∧ bitOf (t.rd (F.INT_CAUSE_CAUSE 0xB000)) 5 = true)) ∧
  (∀ (r : Req) (n : Fin 8) (s : State), s.pfWrites r 0x0B = true → s.on (F.ATM_STAT_BUSY 0xB000 n.val) = false → s.runs 0x0B = false →
    s.rd (F.ATM_GA_GA 0xB000 n.val) / 2 ^ 35 % 2 ^ 15 = 0 → s.rd (F.ATM_GA_GA 0xB000 n.val) % 8 = 0 → Answers (.atomicGo r n) s (fun t =>
    t.rd (F.ATM_STAT_BUSY 0xB000 n.val) = 1 ∧ (∃ o ∈ t.rme.ops, o.fn = 0 ∧ o.src = .atomic n ∧ o.aop = s.rd (F.ATM_CTRL_OP 0xB000 n.val) ∧
    o.node = s.rd (F.ATM_GA_GA 0xB000 n.val) / 2 ^ 50 ∧ o.offset = s.rd (F.ATM_GA_GA 0xB000 n.val) % 2 ^ 35))) ∧
  (∀ (r : Req) (n : Fin 8) (s : State), s.pfWrites r 0x0B = true → s.on (F.ATM_STAT_BUSY 0xB000 n.val) = true →
    Answers (.atomicGo r n) s (fun t => t.rd F.GLB_ACCESS_ERR_BADVAL = 1 ∧ t.rme = s.rme)) ∧
  (∀ (r : Req) (s : State), s.pfWrites r 0x0A = true → (s.live 0x0A = true ∧ s.domOn 4 = true) →
    (4 ≤ s.rd (tstate 0) ∨ s.rd (tstate 0) = 0) → (4 ≤ s.rd (tstate 1) ∨ s.rd (tstate 1) = 0) → Answers (.mssTrain r) s (fun t =>
    t.rd (tstate 0) = 1 ∧ t.rd (tstate 1) = 1 ∧ t.rd F.MSS_STAT_TRAIN_PCT = 0))

/-- An acknowledgement clears a valid record that is not TERMINAL and lifts its fence, with no pair fault standing; a TERMINAL record stays
(R367, R370). FENCE_SET fences a port, a partition or a stack of a legal scope while not TERMINAL, an illegal scope is BADVAL; UNFENCE
clears a port fence that no valid record holds, otherwise it is BADVAL (R370). RAIL_INJ with one wire raises an injected wire onset of
its pair (R377); ERR_INJECT bit 1 of JNL raises source 34 (R376). PRIOR_ACK clears FCU_PRIOR.VALID (R372). -/
def Obligations.FaultControl : Prop :=
  (∀ (r : Req) (src : SrcIx) (s : State), s.pfWrites r 0x0E = true → s.on (F.FCU_REC_W0_VALID src.val) = true →
    s.rd (F.FCU_REC_W0_CLASS src.val) ≠ 4 →
    s.fcu.pairs.find? (fun x => x.1.src.val == src.val && x.2.rail != .clear) = none → Answers (.fcuRecordAck r src) s (fun t =>
    t.rd (F.FCU_REC_W0_VALID src.val) = 0 ∧ t.fcu.fences = s.fcu.fences.filter (fun x => x.1 != src.val))) ∧
  (∀ (r : Req) (src : SrcIx) (s : State), s.pfWrites r 0x0E = true → s.on (F.FCU_REC_W0_VALID src.val) = true →
    s.rd (F.FCU_REC_W0_CLASS src.val) = 4 → Answers (.fcuRecordAck r src) s (fun t => t.rd (F.FCU_REC_W0_VALID src.val) = 1)) ∧
  (∀ (r : Req) (v : Word) (s : State), s.pfWrites r 0x0E = true → v.toNat % 4 = 1 → v.toNat / 2 ^ 8 % 2 ^ 7 < 16 → s.terminal = false →
    Answers (.fcuFenceSet r v) s (fun t => bitOf (t.rd F.FCU_FENCE_PORTS) (v.toNat / 2 ^ 8 % 2 ^ 7) = true)) ∧
  (∀ (r : Req) (v : Word) (s : State), s.pfWrites r 0x0E = true → v.toNat % 4 = 2 → (1 ≤ v.toNat / 2 ^ 8 % 2 ^ 7 ∧
    v.toNat / 2 ^ 8 % 2 ^ 7 ≤ 64) → s.terminal = false → Answers (.fcuFenceSet r v) s (fun t =>
    t.partFenced (v.toNat / 2 ^ 8 % 2 ^ 7) = true)) ∧
  (∀ (r : Req) (v : Word) (s : State), s.pfWrites r 0x0E = true → v.toNat % 4 = 3 → v.toNat / 2 ^ 8 % 2 ^ 7 < 2 → s.terminal = false →
    Answers (.fcuFenceSet r v) s (fun t => bitOf (t.rd F.FCU_FENCE_STACKS) (v.toNat / 2 ^ 8 % 2 ^ 7) = true)) ∧
  (∀ (r : Req) (v : Word) (s : State), s.pfWrites r 0x0E = true → scopeOk (v.toNat % 4) (v.toNat / 2 ^ 8 % 2 ^ 7) = false →
    Answers (.fcuFenceSet r v) s (fun t => t.rd F.GLB_ACCESS_ERR_BADVAL = 1 ∧ t.rd F.FCU_FENCE_PORTS = s.rd F.FCU_FENCE_PORTS)) ∧
  (∀ (r : Req) (v : Word) (s : State), s.pfWrites r 0x0E = true → v.toNat % 4 = 1 → v.toNat / 2 ^ 8 % 2 ^ 7 < 16 → s.terminal = false →
    s.fcu.fences.any (fun x => x.2 == (1, v.toNat / 2 ^ 8 % 2 ^ 7) && s.on (F.FCU_REC_W0_VALID x.1)) = false →
    Answers (.fcuUnfence r v) s (fun t => bitOf (t.rd F.FCU_FENCE_PORTS) (v.toNat / 2 ^ 8 % 2 ^ 7) = false)) ∧
  (∀ (r : Req) (v : Word) (s : State), s.pfWrites r 0x0E = true →
    s.fcu.fences.any (fun x => x.2 == (v.toNat % 4, v.toNat / 2 ^ 8 % 2 ^ 7) && s.on (F.FCU_REC_W0_VALID x.1)) = true →
    Answers (.fcuUnfence r v) s (fun t => t.rd F.GLB_ACCESS_ERR_BADVAL = 1 ∧ t.rd F.FCU_FENCE_PORTS = s.rd F.FCU_FENCE_PORTS)) ∧
  (∀ (r : Req) (v : Word) (s : State), s.pfWrites r 0x0E = true → (v.toNat / 2 ^ 8 % 4 = 1 ∨ v.toNat / 2 ^ 8 % 4 = 2) →
    Answers (.fcuRailInj r v) s (fun t => (∃ o, t.fcu.raised = s.fcu.raised ++ [o] ∧ o.src.val = v.toNat % 128 ∧ o.wire = true ∧
    o.inj = true))) ∧
  (∀ (r : Req) (s : State), s.reaches r 0x9024 = true → (r.val = 0 ∨ r.val = 65) → Answers (.errInject r 9 2) s (fun t =>
    (∃ o, t.fcu.raised = s.fcu.raised ++ [o] ∧ o.src.val = 34 ∧ o.inj = true ∧ o.wire = false))) ∧
  (∀ (r : Req) (s : State), s.pfWrites r 0x0E = true → Answers (.fcuPriorAck r) s (fun t => t.rd F.FCU_PRIOR_VALID = 0))

/-- CLEAR empties the log and stages the record that says how many went (R395). A read of the window's status returns VALID and LOST, moves
the cursor past the record and ends the capture; a cursor write sets it (R392). EVR_LOG_ENTRY gives the first staged record the next
SEQ, or merges it into the newest of the same kind (R387, R389). PERIOD_BOUNDARY and a legal write of LEN latch and clear the counters
and begin a period (R397, R398). A write of EXT_CFG1 sets R25 and leaves RAW and TEMP invalid. -/
def Obligations.EventsAndStatistics : Prop :=
  (∀ (r : Req) (s : State), s.pfWrites r 0x0F = true → s.en 0x0F = true → s.evr.staging = [] → Answers (.clear r) s (fun t =>
    t.evr.log = [] ∧ (∃ x, t.evr.staging = [x] ∧ x.page = 0x0F ∧ x.code = 1 ∧ x.arg = s.evr.log.length))) ∧
  (∀ (r : Req) x (s : State), s.pfReads r 0x0F = true → (s.reqOf r.val).evCap = some (some x) → Answers (.evrWinStatusRead r) s (fun t =>
    .regData r 0xF13C (BitVec.ofNat 32 (1 + 2 * b2n (s.reqOf r.val).lost)) ∈ t.out ∧ (t.reqOf r.val).cursor = (x.seq + 1) % 2 ^ 48 ∧
    (t.reqOf r.val).lost = false ∧ (t.reqOf r.val).evCap = none)) ∧
  (∀ (r : Req) (v : BitVec 48) (s : State), s.pfWrites r 0x0F = true → Answers (.evrCursorWrite r v) s (fun t =>
    (t.reqOf r.val).cursor = v.toNat ∧ (t.reqOf r.val).evCap = none)) ∧
  (∀ (r : Req) (v : Word) (s : State), s.pfWrites r 0x20 = true → s.en 0x20 = true → (1 ≤ v.toNat % 2 ^ 26 ∧
    v.toNat % 2 ^ 26 ≤ 60000000) → Answers (.staLenWrite r v) s (fun t => t.rd F.STA_CFG_LEN = v.toNat % 2 ^ 26 ∧
    t.rd F.STA_SNAP_END_TIME = s.time.now.toNat ∧ t.rd F.STA_START_TIME = s.time.now.toNat ∧
    t.rd (F.STA_SNAP_COUNT 0) = s.rd (F.STA_LIVE_COUNT 0) ∧ t.rd (F.STA_LIVE_COUNT 0) = 0)) ∧
  (∀ (r : Req) (n : Fin 4) (v : Word) (s : State), s.pfWrites r 0x21 = true → Answers (.extCfgWrite r n 1 v) s (fun t =>
    t.rd (F.ENV_EXT_CFG1_R25 n.val) = v.toNat / 2 ^ 16 ∧ t.rd (F.ENV_EXT_RAW_VALID n.val) = 0 ∧ t.rd (F.ENV_EXT_TEMP_VALID n.val) = 0)) ∧
  (∀ r (rest : List EvrRec) (s : State), s.evr.staging = r :: rest → s.live 0x0F = true → s.evr.log = [] →
    Answers (.evrLogEntry) s (fun t => t.evr.log = [{ r with seq := s.rd F.EVR_SEQ_NEXT }] ∧
    t.rd F.EVR_SEQ_NEXT = (s.rd F.EVR_SEQ_NEXT + 1) % 2 ^ F.EVR_SEQ_NEXT.width)) ∧
  (∀ n r (rest : List EvrRec) (s : State), s.evr.staging = r :: rest → s.live 0x0F = true → s.evr.lostSince = 0 →
    s.evr.log.getLast? = some n → n.merges r.page r.code r.part r.sev = true → n.rep + r.rep ≤ 0xFFFF → Answers (.evrLogEntry) s (fun t =>
    t.evr.staging = rest ∧ t.evr.log = s.evr.log.dropLast ++ [{ n with rep := n.rep + r.rep }])) ∧
  (∀ (s : State), s.en 0x20 = true → s.on F.CPM_CLK_STAT_BYPASS = false → Answers (.periodBoundary) s (fun t => t.rd (F.STA_SNAP_COUNT 0) = s.rd (F.STA_LIVE_COUNT 0) ∧
    t.rd (F.STA_LIVE_COUNT 0) = 0 ∧ t.rd F.STA_START_TIME = t.rd F.STA_SNAP_END_TIME ∧ t.rd F.STA_SNAP_START_TIME = s.rd F.STA_START_TIME ∧
    t.sta.snap = s.sta.live ∧ t.sta.live = [] ∧ s.time.now.toNat ≤ t.time.now.toNat))

/-- OP_TARGET awake at rest starts the change (a lower point counts at once) with the new voltage ordered; asleep it is kept for later
(R342). REFCLK_CONFIRM clears REFCLK_CHANGED, and ends BYPASS with the clock locked and the domains on (R354). PAD_RELEASE releases the
pads (R347). EST_CLEAR at a root goes from ESTIMATED to TIME_STATE 1 (R351). TIME_SET sets fabric time at a root or without a parent,
else it is BADVAL (R350). SOFTWARE_RESET with its key is a chip reset that shows SOFTWARE and keeps the flash, where it cuts off no program; with another value it is
BADVAL (R420, R421). -/
def Obligations.PowerControl : Prop :=
  (∀ (r : Req) (v : Word) (s : State), s.pfWrites r 1 = true → (s.pstate = 0 ∧ s.rd F.CPM_OP_OPSTATE = 0) →
    s.on F.CPM_PMB_CFG_PMB_OK = true → v.toNat % 4 ≠ s.rd F.CPM_OP_CUR → Answers (.opTargetWrite r v) s (fun t =>
    t.rd F.CPM_OP_TARGET = v.toNat % 4 ∧ t.rd F.CPM_OP_OPSTATE = 2 ∧
    t.rd F.CPM_OP_CUR = (if v.toNat % 4 < s.rd F.CPM_OP_CUR then v.toNat % 4 else s.rd F.CPM_OP_CUR) ∧
    .pmbus 0x21 (opMv (v.toNat % 4)) ∈ t.out)) ∧
  (∀ (r : Req) (v : Word) (s : State), s.pfWrites r 1 = true → s.pstate ≠ 0 → Answers (.opTargetWrite r v) s (fun t =>
    t.cpm.target = some (v.toNat % 4) ∧ t.rd F.CPM_OP_OPSTATE = s.rd F.CPM_OP_OPSTATE)) ∧
  (∀ (r : Req) (k : Nat) (inv : Bool) (s : State), s.pfWrites r 1 = true → s.on F.CPM_CLK_STAT_BYPASS = false →
    Answers (.refclkConfirm r k inv) s (fun t => t.rd F.CPM_CLK_STAT_REFCLK_CHANGED = 0)) ∧
  (∀ (r : Req) (k : Nat) (inv : Bool) (s : State), s.pfWrites r 1 = true → s.on F.CPM_CLK_STAT_BYPASS = true →
    Answers (.refclkConfirm r k inv) s (fun t =>
    t.rd F.CPM_CLK_STAT_REFCLK_CHANGED = 0 ∧ t.rd F.CPM_CLK_STAT_BYPASS = 0 ∧ t.rd F.CPM_CLK_STAT_ROOT_LOCK = 1 ∧
    t.rd F.CPM_CLK_STAT_REFCLK_INV = b2n inv ∧ t.domOn 2 = true ∧ t.domOn 3 = true ∧ t.domOn 4 = true)) ∧
  (∀ (r : Req) (s : State), s.pfWrites r 1 = true → (s.domOn 1 = true ∧ s.domOn 2 = true) → s.rd F.CPM_PAD_HOLD_HELD < 16 →
    Answers (.padRelease r) s (fun t => t.rd F.CPM_PAD_HOLD_HELD = 0)) ∧
  (∀ (r : Req) (s : State), s.pfWrites r 1 = true → s.on F.LNK_TIME_CTRL_ROOT = true → s.rd F.CPM_TIME_STAT_TIME_STATE = 5 →
    Answers (.estClear r) s (fun t => t.rd F.CPM_TIME_STAT_TIME_STATE = 1)) ∧
  (∀ (r : Req) (v : DWord) (s : State), s.pfWrites r 1 = true →
    (s.on F.LNK_TIME_CTRL_ROOT = true ∨ s.on F.LNK_TIME_CTRL_PARENT_EN = false) → Answers (.cpmTimeSet r v) s (fun t => t.time.now = v)) ∧
  (∀ (r : Req) (v : DWord) (s : State), s.pfWrites r 1 = true → (s.on F.LNK_TIME_CTRL_ROOT = false ∧
    s.on F.LNK_TIME_CTRL_PARENT_EN = true) → Answers (.cpmTimeSet r v) s (fun t => t.time.now = s.time.now ∧
    t.rd F.GLB_ACCESS_ERR_BADVAL = 1)) ∧
  (∀ (r : Req) (v : Word) (s : State), s.pfWrites r 1 = true → v.toNat % 2 ^ 16 = 0xA5C3 → Answers (.softwareReset r v) s (fun t =>
    t.rd F.CPM_RST_CAUSE_SOFTWARE = 1 ∧ t.rd F.CPM_BOOT_STAGE = 2 ∧ t.que = State.reset.que ∧ t.csq = State.reset.csq ∧
    t.mss = State.reset.mss ∧ (s.jnl.prog = [] → t.jnl.regA = s.jnl.regA ∧ t.jnl.regB = s.jnl.regB))) ∧
  (∀ (r : Req) (v : Word) (s : State), s.pfWrites r 1 = true → v.toNat % 2 ^ 16 ≠ 0xA5C3 → Answers (.softwareReset r v) s (fun t =>
    t.rd F.GLB_ACCESS_ERR_BADVAL = 1 ∧ t.rd F.CPM_RST_CAUSE_SOFTWARE = s.rd F.CPM_RST_CAUSE_SOFTWARE))

/-- RELOCK clears UNLOCKED. FREEZE with ALL from the aperture, nothing to wait for, freezes every freezable block; from PF0 it is BADVAL;
FORCE freezes them at once with SEQ_BROKEN and no armed lock (R445, R447, R448). DBG_NOP returns the result held and leaves it. A
locked aperture denies a READ of a page other than GLB or DBG, every TAKE and every WRITE: status 2, data 0; the WRITE changes no field
but what an instruction change does to LASER_EN (R439). A READ returns GLB_SCRATCH; unlocked, a TAKE clears an RC counter and a WRITE
of GLB_SCRATCH sets it (R441, R442). -/
def Obligations.DebugAperture : Prop :=
  (∀ (r : Req) (s : State), s.pfWrites r 0x22 = true → Answers (.relock r) s (fun t => t.rd F.DBG_STAT_UNLOCKED = 0)) ∧
  (∀ (s : State), s.pfWrites 65 0x22 = true → (freezable.filter (fun x => s.defers x.1)) = [] → s.rd F.DBG_PEND_PEND = 0 →
    s.on F.DBG_FREEZE_STAT_FROZEN = false → Answers (.dbgFreezeAll 65 true) s (fun t => t.rd F.DBG_FREEZE_ALL = 1 ∧
    t.rd F.DBG_FREEZE_STAT_FROZEN = 1 ∧ freezable.all (fun x => t.frozen x.1) = true)) ∧
  (∀ (on : Bool) (s : State), s.pfWrites 0 0x22 = true → Answers (.dbgFreezeAll 0 on) s (fun t => t.rd F.GLB_ACCESS_ERR_BADVAL = 1 ∧
    t.rd F.DBG_FREEZE_ALL = s.rd F.DBG_FREEZE_ALL)) ∧
  (∀ (s : State), s.pfWrites 65 0x22 = true → Answers (.forceFreeze 65) s (fun t => t.rd F.DBG_FREEZE_ALL = 1 ∧
    t.rd F.DBG_FREEZE_STAT_SEQ_BROKEN = 1 ∧ freezable.all (fun x => t.frozen x.1) = true ∧ t.rd F.DBG_PEND_PEND = 0 ∧ t.locks = [])) ∧
  (∀ (s : State), s.domOn 1 = true → Answers (.dbgNop) s (fun t =>
    .tdo 0x12 (BitVec.ofNat 128 (s.dbg.data.toNat * 2 ^ 20 + s.dbg.stat * 2 ^ 52)) ∈ t.out ∧ t.dbg.ir = 0x12 ∧ t.dbg.data = s.dbg.data ∧
    t.dbg.stat = s.dbg.stat)) ∧
  (∀ (x : BitVec 18) (s : State), s.domOn 1 = true → s.on F.DBG_STAT_UNLOCKED = false → (4 * x.toNat / 0x1000 ≠ 0x00 ∧
    4 * x.toNat / 0x1000 ≠ 0x22) → Answers (.dbgRead x) s (fun t => t.dbg.stat = 2 ∧ t.dbg.data = 0)) ∧
  (∀ (s : State), s.domOn 1 = true → s.on (F.PAGE_STAT_RST_BUSY 0) = false → Answers (.dbgRead 0x18) s (fun t => t.dbg.stat = 0 ∧
    t.dbg.data.toNat = s.rd F.GLB_SCRATCH_SCRATCH % 2 ^ 32)) ∧
  (∀ (x : BitVec 18) (s : State), s.domOn 1 = true → s.on F.DBG_STAT_UNLOCKED = false → Answers (.dbgTake x) s (fun t => t.dbg.stat = 2 ∧
    t.dbg.data = 0)) ∧
  (∀ (p : Port) (s : State), s.domOn 1 = true → s.on F.DBG_STAT_UNLOCKED = true →
    s.on (F.PAGE_STAT_RST_BUSY (0x1000 * (0x10 + p.val))) = false →
    Answers (.dbgTake (BitVec.ofNat 18 ((F.PORT_CRC_ERR_COUNT p.val).addr / 4))) s (fun t => t.rd (F.PORT_CRC_ERR_COUNT p.val) = 0 ∧
    t.dbg.stat = 0 ∧ t.dbg.data.toNat = s.rd (F.PORT_CRC_ERR_COUNT p.val) % 2 ^ 32)) ∧
  (∀ (x : BitVec 18) (v : Word) (s : State), s.domOn 1 = true → s.on F.DBG_STAT_UNLOCKED = false → Answers (.dbgWrite x v) s (fun t =>
    t.dbg.stat = 2 ∧ (∀ f : Fld, f.key ≠ F.PFE_LASER_STAT_LASER_EN.key → t.rd f = s.rd f))) ∧
  (∀ (v : Word) (s : State), s.domOn 1 = true → s.on F.DBG_STAT_UNLOCKED = true → s.on (F.PAGE_STAT_RST_BUSY 0) = false →
    Answers (.dbgWrite 0x18 v) s (fun t => t.rd F.GLB_SCRATCH_SCRATCH = v.toNat ∧ t.dbg.stat = 0))

/-- HEARTBEAT_SEND sends role, GEN and TSEQ and changes only what a plain burst changes (R234). PULL_SEND of a PULLING node asks from its
mirror's epoch (R239). TWIN_RECORD_SEND of an ACTIVE node sends a record that a NAK asked for again with its TSEQ (R231), else the next
record with the next TSEQ, and keeps it for resending, a closing record only once durable; with the buffer full it loses sync: DESYNC,
everything dropped (R231, R233). TWIN_NAK_REPEAT asks again for the expected TSEQ. TWIN_MISS of a STANDBY node counts up to the takeover,
which the fourth starts; of an ACTIVE node the third makes it ISOLATED (R234). SWITCH_FAIL ends the handover: records held are queued
again and SWITCH_FAIL is set (R236). -/
def Obligations.TwinSending : Prop :=
  (∀ (s : State), s.twnCanSend = true → Answers (.heartbeatSend) s (fun t =>
    t = s.twnPlain 1 s.twn.lastEpoch (s.role == 1 && s.on F.TWN_STAT_DESYNC) ∧
    t.out.any (fun o => match o with | .twin _ b => b.kind == 1 && b.role == BitVec.ofNat 4 s.role && b.gen == BitVec.ofNat 32 (s.rd F.TWN_GEN_GEN) && b.tseq == BitVec.ofNat 32 (s.rd F.TWN_SENT_TSEQ_TSEQ) | _ => false) = true)) ∧
  (∀ (s : State), s.twnCanSend = true → s.role = 3 → Answers (.pullSend) s (fun t =>
    t.out.any (fun o => match o with | .twin _ b => b.kind == 5 && b.role == 3 && b.epoch == BitVec.ofNat 32 (s.rd F.TWN_MIRROR_EPOCH_EPOCH) | _ => false) = true)) ∧
  (∀ (x : TwinOut) (rest : List TwinOut) (s : State), s.twnCanSend = true → s.role = 1 → s.twn.needFull = false → s.twn.resend = x :: rest →
    Answers (.twinRecordSend) s (fun t => t.twn.resend = rest ∧ t.twn.sendq = s.twn.sendq ∧ t.twn.buf = s.twn.buf ∧
    t.rd F.TWN_SENT_TSEQ_TSEQ = s.rd F.TWN_SENT_TSEQ_TSEQ ∧
    t.out.any (fun o => match o with | .twin _ b => b.kind == 2 && b.rcd == some x.rcd && b.tseq == BitVec.ofNat 32 x.n && b.total == BitVec.ofNat 32 x.total | _ => false) = true)) ∧
  (∀ (x : TwinOut) (q : List TwinOut) (s : State), s.twnCanSend = true → s.role = 1 → s.twn.needFull = false → s.twn.resend = [] →
    s.twn.sendq = x :: q → (recCloses x.rcd = false ∨ x.n ≤ s.jnl.durable) → 128 * (s.twn.buf.length + 1) ≤ 262144 →
    Answers (.twinRecordSend) s (fun t => t.rd F.TWN_SENT_TSEQ_TSEQ = (s.rd F.TWN_SENT_TSEQ_TSEQ + 1) % 2 ^ 32 ∧ t.twn.sendq = q ∧
    t.twn.buf = s.twn.buf ++ [{ x with n := (s.rd F.TWN_SENT_TSEQ_TSEQ + 1) % 2 ^ 32 }] ∧
    t.out.any (fun o => match o with | .twin _ b => b.kind == 2 && b.rcd == some x.rcd && b.tseq == BitVec.ofNat 32 (s.rd F.TWN_SENT_TSEQ_TSEQ + 1) && b.role == 1 | _ => false) = true)) ∧
  (∀ (x : TwinOut) (q : List TwinOut) (s : State), s.twnCanSend = true → s.role = 1 → s.twn.needFull = false → s.twn.resend = [] →
    s.twn.sendq = x :: q → recCloses x.rcd = true → s.jnl.durable < x.n → Answers (.twinRecordSend) s (fun t => t = s)) ∧
  (∀ (x : TwinOut) (q : List TwinOut) (s : State), s.twnCanSend = true → s.role = 1 → s.twn.needFull = false → s.twn.resend = [] →
    s.twn.sendq = x :: q → (recCloses x.rcd = false ∨ x.n ≤ s.jnl.durable) → 262144 < 128 * (s.twn.buf.length + 1) →
    Answers (.twinRecordSend) s (fun t => t.rd F.TWN_STAT_DESYNC = 1 ∧ t.twn.needFull = true ∧ t.twn.buf = [] ∧ t.twn.sendq = [] ∧
    bitOf (t.rd (F.INT_CAUSE_CAUSE 0x8000)) 3 = true)) ∧
  (∀ (n : Nat) (s : State), s.twnCanSend = true → s.twn.exp = some n → s.twn.gap = true → (s.role = 2 ∨ s.role = 3) →
    Answers (.twinNakRepeat) s (fun t => t.out.any (fun o => match o with | .twin _ b => b.kind == 4 && b.tseq == BitVec.ofNat 32 n | _ => false) = true)) ∧
  (∀ (s : State), s.en 8 = true → s.on F.TWN_CFG_EN = true → s.role = 2 → (s.rd F.TWN_STAT_TKO = 1 ∨ s.rd F.TWN_STAT_TKO = 2) →
    Answers (.twinMiss) s (fun t => t.rd F.TWN_STAT_TKO = s.rd F.TWN_STAT_TKO + 1 ∧
    t.rd F.TWN_STAT_MISSES = min 3 (s.rd F.TWN_STAT_MISSES + 1))) ∧
  (∀ (s : State), s.en 8 = true → s.on F.TWN_CFG_EN = true → s.role = 2 → s.rd F.TWN_STAT_TKO = 3 → s.frozen 8 = false →
    Answers (.twinMiss) s (fun t => t.rd F.TWN_STAT_TKO = 5 ∧ t.twn.group = [])) ∧
  (∀ (s : State), s.en 8 = true → s.on F.TWN_CFG_EN = true → s.role = 1 → s.rd F.TWN_STAT_MISSES = 2 → Answers (.twinMiss) s (fun t =>
    t.rd F.TWN_STAT_ROLE = 4 ∧ t.rd F.TWN_STAT_MISSES = 3 ∧ bitOf (t.rd (F.INT_CAUSE_CAUSE 0x8000)) 2 = true)) ∧
  (∀ (s : State), s.twn.handing = true → Answers (.switchFail) s (fun t => t.twn.handing = false ∧ t.twn.held = [] ∧
    t.twn.sendq = s.twn.sendq ++ s.twn.held ∧ t.rd F.TWN_STAT_SWITCH_FAIL = 1))

/-- Each receiving row takes the first TWIN burst that the twin channel has received, where it is of the row's kind. A heartbeat of the peer clears
MISSES at a STANDBY; of another node it is only counted as BAD (R234, R237). At an ACTIVE node an ACTIVE peer with a later GEN makes it
PULLING, with the same GEN a conflict, role 5 (R237). A RECORD with the expected TSEQ joins the group; a later one leaves a gap and a NAK
goes out (R231, R232). An ACK of the standby frees what it covers and ends DESYNC; a NAK resends from its TSEQ on. A PULL of a PULLING
peer is answered from the buffer with the records that follow its epoch where they are all there (R233), else with the full group, each
record with the answer's TOTAL (R239). HANDOVER starts the takeover (R236). TAKEOVER_LOAD_DONE with an empty mirror makes the node ACTIVE
with GEN one up and its cause (R235, R253). -/
def Obligations.TwinReceiving : Prop :=
  (∀ (b : TwinBurst) (u s : State), s.twnUp = true → s.twinFor? 1 = some (b, u) → b.node.toNat = s.rd F.TWN_CFG_PEER → s.role = 2 →
    s.rd F.TWN_STAT_TKO ≤ 3 → b.pullReq = false → Answers (.heartbeat) s (fun t => t.rd F.TWN_STAT_MISSES = 0 ∧
    t.rd F.TWN_STAT_TKO = (if s.rd F.TWN_STAT_TKO = 0 then 0 else 1) ∧ t.rd F.TWN_STAT_ROLE = 2)) ∧
  (∀ (b : TwinBurst) (u s : State), s.twnUp = true → s.twinFor? 1 = some (b, u) → b.node.toNat ≠ s.rd F.TWN_CFG_PEER →
    Answers (.heartbeat) s (fun t => t = u.inc F.TWN_BAD_COUNT)) ∧
  (∀ (b : TwinBurst) (u s : State), s.twnUp = true → s.twinFor? 1 = some (b, u) → b.node.toNat = s.rd F.TWN_CFG_PEER → s.role = 1 →
    b.role = 1 → s.rd F.TWN_GEN_GEN < b.gen.toNat → Answers (.heartbeat) s (fun t => t.rd F.TWN_STAT_ROLE = 3)) ∧
  (∀ (b : TwinBurst) (u s : State), s.twnUp = true → s.twinFor? 1 = some (b, u) → b.node.toNat = s.rd F.TWN_CFG_PEER → s.role = 1 →
    b.role = 1 → b.gen.toNat = s.rd F.TWN_GEN_GEN → Answers (.heartbeat) s (fun t => t.rd F.TWN_STAT_ROLE = 5 ∧
    bitOf (t.rd (F.INT_CAUSE_CAUSE 0x8000)) 4 = true)) ∧
  (∀ (b : TwinBurst) r (u s : State), s.twnUp = true → s.twinFor? 2 = some (b, u) → b.node.toNat = s.rd F.TWN_CFG_PEER → s.role = 2 →
    s.rd F.TWN_STAT_TKO ≤ 3 → b.rcd = some r → s.twn.exp = some b.tseq.toNat → recCloses r = false → Answers (.twinRecord) s (fun t =>
    t.twn.exp = some ((b.tseq.toNat + 1) % 2 ^ 32) ∧ t.twn.group = s.twn.group ++ [r] ∧ t.twn.gap = false ∧ t.rd F.TWN_STAT_MISSES = 0)) ∧
  (∀ (b : TwinBurst) r (n : Nat) (u s : State), s.twnCanSend = true → s.twinFor? 2 = some (b, u) → b.node.toNat = s.rd F.TWN_CFG_PEER →
    s.role = 2 → s.rd F.TWN_STAT_TKO ≤ 3 → b.rcd = some r → s.twn.exp = some n → b.tseq.toNat ≠ n → later b.tseq.toNat n = true →
    s.twn.gap = false → Answers (.twinRecord) s (fun t => t.twn.gap = true ∧ t.twn.group = s.twn.group ∧
    t.out.any (fun o => match o with | .twin _ x => x.kind == 4 && x.tseq == BitVec.ofNat 32 n | _ => false) = true)) ∧
  (∀ (b : TwinBurst) (u s : State), s.twnUp = true → s.twinFor? 3 = some (b, u) → b.node.toNat = s.rd F.TWN_CFG_PEER → s.role = 1 →
    b.role = 2 → s.twn.handing = false → s.twn.needFull = false → Answers (.twinAck) s (fun t => t.rd F.TWN_ACKED_TSEQ_TSEQ = b.tseq.toNat ∧
    t.twn.buf = s.twn.buf.filter (fun x => later x.n b.tseq.toNat) ∧ t.rd F.TWN_STAT_DESYNC = 0)) ∧
  (∀ (b : TwinBurst) (u s : State), s.twnUp = true → s.twinFor? 4 = some (b, u) → b.node.toNat = s.rd F.TWN_CFG_PEER → s.role = 1 →
    b.role = 2 → Answers (.twinNak) s (fun t => t.twn.resend = s.twn.buf.filter (fun x => !later b.tseq.toNat x.n) ∧ t.twn.buf = s.twn.buf)) ∧
  (∀ (b : TwinBurst) (u s : State), s.twnUp = true → s.twinFor? 5 = some (b, u) → b.node.toNat = s.rd F.TWN_CFG_PEER → s.role = 1 →
    b.role = 3 → (s.twn.sendq ++ s.twn.resend).any (fun x => x.total != 0) = false → s.twn.needFull = true → Answers (.pull) s (fun t =>
    t.twn.needFull = false ∧ t.twn.buf = s.twn.buf ∧ t.twn.resend = [] ∧
    t.twn.sendq.map (fun x => x.rcd.pay) = s.fullGroup ++ [fullCommit (s.rd F.CSQ_LAST_EPOCH_EPOCH) s.fullGroup.length] ∧
    (∀ x ∈ t.twn.sendq, x.total = s.fullGroup.length + 1))) ∧
  (∀ (b : TwinBurst) (u s : State), s.twnUp = true → s.twinFor? 5 = some (b, u) → b.node.toNat = s.rd F.TWN_CFG_PEER → s.role = 1 →
    b.role = 3 → (s.twn.sendq ++ s.twn.resend).any (fun x => x.total != 0) = false → s.twn.needFull = false →
    b.gen.toNat = s.rd F.TWN_GEN_GEN → s.twn.ackEpoch = b.epoch.toNat → afterEpoch b.epoch.toNat s.twn.buf ≠ [] → Answers (.pull) s (fun t =>
    t.twn.resend = (afterEpoch b.epoch.toNat s.twn.buf).map (fun x => { x with total := (afterEpoch b.epoch.toNat s.twn.buf).length }) ∧
    t.twn.sendq = s.twn.sendq)) ∧
  (∀ (b : TwinBurst) (u s : State), s.twnUp = true → s.twinFor? 6 = some (b, u) → b.node.toNat = s.rd F.TWN_CFG_PEER → s.role = 2 →
    s.rd F.TWN_STAT_TKO ≤ 3 → s.frozen 8 = false → Answers (.handover) s (fun t => t.rd F.TWN_STAT_TKO = 5 ∧ t.twn.group = [])) ∧
  (∀ (s : State), s.rd F.TWN_STAT_TKO = 5 → s.en 8 = true → s.twn.mirror.isEmpty = true → s.que.inflight = [] →
    Answers (.takeoverLoadDone) s (fun t => t.rd F.TWN_STAT_ROLE = 1 ∧ t.rd F.TWN_STAT_TKO = 6 ∧ t.rd F.TWN_STAT_PCT = 100 ∧
    t.rd F.TWN_GEN_GEN = (s.rd F.TWN_GEN_GEN + 1) % 2 ^ 32 ∧ bitOf (t.rd (F.INT_CAUSE_CAUSE 0x8000)) 0 = true))

/-- MSS_TRAIN_STAGE_END that passed goes on, from the last stage to READY with the stack's contents cleared and the READY cause; one that
failed leaves FAILED and raises source 39 (R281). SCRUB_ACCESS moves the position; at the end it wraps, counts the pass and a corrected
word (R261). SCRUB_BEHIND of a stack that is more than an hour of work behind its schedule shows it in BEHIND with the cause; of another one it
changes nothing. MEMORY_ACCESS_DONE of a write stores the enabled bytes of its 64 B granule, leaves
every other byte, and a whole granule loses its poison; an uncorrectable read poisons the granule, shows it in UE_ADDR and raises
source 38 (R259). -/
def Obligations.MemoryStacks : Prop :=
  (∀ (st : StackIx) (s : State), s.live 0x0A = true → s.domOn 4 = true → s.rd (tstate st.val) = 1 →
    Answers (.mssTrainStageEnd st true) s (fun t => t.rd (tstate st.val) = 2)) ∧
  (∀ (st : StackIx) (s : State), s.live 0x0A = true → s.domOn 4 = true → s.rd (tstate st.val) = 3 →
    Answers (.mssTrainStageEnd st true) s (fun t => t.rd (tstate st.val) = 4 ∧
    t.mss.mem = s.mss.mem.filter (fun c => c.1 / 2 ^ 34 != st.val) ∧ bitOf (t.rd (F.INT_CAUSE_CAUSE 0xA000)) 2 = true)) ∧
  (∀ (st : StackIx) (s : State), s.live 0x0A = true → s.domOn 4 = true → (1 ≤ s.rd (tstate st.val) ∧ s.rd (tstate st.val) ≤ 3) →
    Answers (.mssTrainStageEnd st false) s (fun t => t.rd (tstate st.val) = 5 ∧
    t.fcu.raised.any (fun o => o.src.val == 39 && o.scope == st.val) = true)) ∧
  (∀ (st : StackIx) (s : State), s.scrubRuns st.val = true → s.rd (F.MSS_SCRUB_POS_POS st.val) < 2 ^ 28 - 1 →
    Answers (.scrubAccess st .clean) s (fun t => t.rd (F.MSS_SCRUB_POS_POS st.val) = s.rd (F.MSS_SCRUB_POS_POS st.val) + 1 ∧ t.mss = s.mss)) ∧
  (∀ (st : StackIx) (s : State), s.scrubRuns st.val = true → s.rd (F.MSS_SCRUB_POS_POS st.val) = 2 ^ 28 - 1 →
    Answers (.scrubAccess st .corrected) s (fun t => t.rd (F.MSS_SCRUB_POS_POS st.val) = 0 ∧
    t.rd (F.MSS_SCRUB_PASS_COUNT st.val) = min (s.rd (F.MSS_SCRUB_PASS_COUNT st.val) + 1) (2 ^ 32 - 1) ∧
    t.rd (F.MSS_CE_COUNT_COUNT st.val) = min (s.rd (F.MSS_CE_COUNT_COUNT st.val) + 1) (2 ^ 32 - 1))) ∧
  (∀ (st : StackIx) (s : State), s.scrubRuns st.val = true → s.scrubLags st.val = true → Answers (.scrubBehind st) s (fun t =>
    bitOf (t.rd F.MSS_STAT_BEHIND) st.val = true ∧ bitOf (t.rd (F.INT_CAUSE_CAUSE 0xA000)) 1 = true)) ∧
  (∀ (st : StackIx) (s : State), s.scrubLags st.val = false → Answers (.scrubBehind st) s (fun t => t = s)) ∧
  (∀ (cl : MemClass) (off : BitVec 35) (bs : List (Option Byte)) (res : EccResult) (s : State), s.stackCheck (off.toNat / 64 * 64) 64 = 0 →
    bs.length = 64 → Answers (.memoryAccessDone cl off (.write bs) res) s (fun t =>
    (upTo 64).all (fun k => match bs.getD k none with | some b => t.memByte (off.toNat / 64 * 64 + k) == b | none => t.memByte (off.toNat / 64 * 64 + k) == s.memByte (off.toNat / 64 * 64 + k)) = true ∧
    (∀ a : Nat, a < 2 ^ 35 → a / 64 ≠ off.toNat / 64 → t.memByte a = s.memByte a) ∧ (bs.all (fun b => b.isSome) = true →
    t.poisoned (off.toNat / 64) = false))) ∧
  (∀ (cl : MemClass) (off : BitVec 35) (s : State), s.stackCheck (off.toNat / 64 * 64) 64 = 0 → s.poisoned (off.toNat / 64) = false →
    Answers (.memoryAccessDone cl off .read .uncorrectable) s (fun t => t.poisoned (off.toNat / 64) = true ∧
    t.rd F.MSS_UE_ADDR_HI_VALID = 1 ∧ t.fcu.raised.any (fun o => o.src.val == 38) = true))

/-- A die conversion within the thresholds shows with VALID and raises nothing; above TEMP_HI it sets HI, the cause and source 53. An
external conversion at full scale shows code 0x7FFFFF with RANGE and no value; in range it shows the temperature that the mode's
equation gives (its rounding is the model's opaque choice, log entry 12); below -41,943 it is REVERSED. An open loop sets OPEN, WIRE 1,
full scale and source 50. A supply outside its window shows its value, the side and source 52 (rail 0 only while the operating point
rests); on recovery both flags clear (R403 to R414). -/
def Obligations.EnvironmentMonitor : Prop :=
  (∀ (n : Fin 64) (v : BitVec 16) (s : State), s.en 0x21 = true → toSigned 16 (s.rd F.ENV_CFG_TEMP_LO) ≤ v.toInt →
    v.toInt ≤ toSigned 16 (s.rd F.ENV_CFG_TEMP_HI) → Answers (.dieSensorConversion n v) s (fun t =>
    t.rd (F.ENV_DIE_TEMP_TEMP n.val) = v.toNat ∧ t.rd (F.ENV_DIE_TEMP_VALID n.val) = 1 ∧ t.fcu = s.fcu)) ∧
  (∀ (n : Fin 64) (v : BitVec 16) (s : State), s.en 0x21 = true → toSigned 16 (s.rd F.ENV_CFG_TEMP_LO) ≤ v.toInt →
    toSigned 16 (s.rd F.ENV_CFG_TEMP_HI) < v.toInt → s.on (F.ENV_DIE_TEMP_HI n.val) = false → Answers (.dieSensorConversion n v) s (fun t =>
    t.rd (F.ENV_DIE_TEMP_HI n.val) = 1 ∧ t.fcu.raised.any (fun o => o.src.val == 53) = true ∧
    bitOf (t.rd (F.INT_CAUSE_CAUSE 0x21000)) 3 = true)) ∧
  (∀ (n : Fin 4) (x : ExtConv) (s : State), s.extRuns n.val = true → (∀ up, 2 ^ 23 - 1 ≤ s.extRaw n.val x up) → s.extNoValue n.val = false →
    Answers (.extConversionDone n x) s (fun t => t.rd (F.ENV_EXT_RAW_CODE n.val) = 0x7FFFFF ∧ t.rd (F.ENV_EXT_RAW_RANGE n.val) = 1 ∧
    t.rd (F.ENV_EXT_RAW_VALID n.val) = 0 ∧ t.rd (F.ENV_EXT_TEMP_VALID n.val) = 0 ∧ t.rd (F.ENV_EXT_RAW_OPEN n.val) = 0)) ∧
  (∀ (n : Fin 4) (x : ExtConv) (s : State), s.extRuns n.val = true → (∀ up, -41943 ≤ s.extRaw n.val x up) →
    (∀ up, (s.extTemp n.val (s.extRaw n.val x up)).isSome = true) →
    s.extNoValue n.val = false → Answers (.extConversionDone n x) s (fun t =>
    (∃ up, some (t.rd (F.ENV_EXT_TEMP_TEMP n.val)) = (s.extTemp n.val (s.extRaw n.val x up)).map (fun v => ofSigned 16 v % 2 ^ 16)) ∧
    t.rd (F.ENV_EXT_RAW_VALID n.val) = 1 ∧ t.rd (F.ENV_EXT_TEMP_VALID n.val) = 1 ∧ t.rd (F.ENV_EXT_RAW_RANGE n.val) = 0)) ∧
  (∀ (n : Fin 4) (x : ExtConv) (s : State), s.extRuns n.val = true → (∀ up, s.extRaw n.val x up < -41943) → Answers (.extConversionDone n x) s (fun t =>
    t.rd (F.ENV_EXT_RAW_REVERSED n.val) = 1 ∧ t.rd (F.ENV_EXT_RAW_VALID n.val) = 0)) ∧
  (∀ (n : Fin 4) (s : State), s.extRuns n.val = true → s.on (F.ENV_EXT_RAW_OPEN n.val) = false →
    Answers (.extOpenDetect n .loopWire) s (fun t => t.rd (F.ENV_EXT_RAW_OPEN n.val) = 1 ∧ t.rd (F.ENV_EXT_RAW_WIRE n.val) = 1 ∧
    t.rd (F.ENV_EXT_RAW_CODE n.val) = 0x7FFFFF ∧ t.rd (F.ENV_EXT_RAW_VALID n.val) = 0 ∧
    t.fcu.raised.any (fun o => o.src.val == 50 && o.code == BitVec.ofNat 16 n.val) = true)) ∧
  (∀ (k : Fin 7) (mv : BitVec 13) f (s : State), (k.val ≠ 0 ∨ s.rd F.CPM_OP_OPSTATE = 0) → s.domOn 1 = true →
    withinPct (if k = 6 then 2 else 5) (s.supplyNominal k.val) mv.toNat = false →
    f = (if s.supplyNominal k.val < mv.toNat then F.ENV_SUP_HIGH k.val else F.ENV_SUP_LOW k.val) → s.on f = false →
    Answers (.supplyOutOfWindow k mv) s (fun t => t.rd (F.ENV_SUP_MV k.val) = mv.toNat ∧ t.rd (F.ENV_SUP_VALID k.val) = 1 ∧ t.rd f = 1 ∧
    t.fcu.raised.any (fun o => o.src.val == 52) = true)) ∧
  (∀ (k : Fin 7) (mv : BitVec 13) (s : State), withinPct (if k = 6 then 2 else 5) (s.supplyNominal k.val) mv.toNat = true →
    Answers (.supplyOutOfWindow k mv) s (fun t => t.fcu = s.fcu ∧ t.rd (F.ENV_SUP_LOW k.val) = s.rd (F.ENV_SUP_LOW k.val) ∧
    t.rd (F.ENV_SUP_HIGH k.val) = s.rd (F.ENV_SUP_HIGH k.val))) ∧
  (∀ (k : Fin 7) (mv : BitVec 13) (s : State), s.domOn 1 = true → withinPct 4 (s.supplyNominal k.val) mv.toNat = true →
    Answers (.supplyRecover k mv) s (fun t => t.rd (F.ENV_SUP_MV k.val) = mv.toNat ∧ t.rd (F.ENV_SUP_LOW k.val) = 0 ∧
    t.rd (F.ENV_SUP_HIGH k.val) = 0)) ∧
  (∀ (k : Fin 7) (mv : BitVec 13) (s : State), withinPct 4 (s.supplyNominal k.val) mv.toNat = false →
    Answers (.supplyRecover k mv) s (fun t => t.rd (F.ENV_SUP_LOW k.val) = s.rd (F.ENV_SUP_LOW k.val) ∧
    t.rd (F.ENV_SUP_HIGH k.val) = s.rd (F.ENV_SUP_HIGH k.val)))

/-- VF_FLR and PF0_FLR reset the function's queues and end its commands; PF0's also ends NumVFs and VF enable; FLR_COMPLETE ends it with
the FLR cause (R92, R93). VF_ENABLE_CHANGE sets or clears NUM_VFS and VF_EN (R62, R63). HOST_LINK_DOWN clears the link's state and
raises source 11; a PERST-like one of a form other than -C also clears NumVFs. HOST_LINK_UP after start-up shows the link; in form -C
as sideband, mainband and modules (R58); a link that the form does not support comes up nowhere (R55, R58). NON_MASKABLE_ALERT sends the
alert, as a sideband message in form -C and as a memory write by vector 0's table entry in the others, counts it and ends its request (R68
to R70). The bus master enable changes only itself; unmasking a pending vector sends it by its table entry (R471). In D3 a function makes
no access (log entry 88). A write of an address or data word of the MSI-X table is what a read of BAR4 returns (R61). -/
def Obligations.FunctionsAndHostLink : Prop :=
  (∀ (f : Fn) (s : State), f.val ≠ 0 → s.partExists f.val = true → Answers (.vfFlr f) s (fun t => t.host.flr.contains f.val = true ∧
    t.rd (F.CMDQ_TAIL_TAIL (qBase f.val)) = 0 ∧ t.rd (F.Q_CTRL_CMD_EN (qBase f.val)) = 0 ∧ t.inflight f.val = 0)) ∧
  (∀ (s : State), Answers (.pf0Flr) s (fun t => t.rd F.HIF_VF_STAT_NUM_VFS = 0 ∧ t.rd F.HIF_VF_STAT_VF_EN = 0 ∧
    t.rd (F.CMDQ_TAIL_TAIL (qBase 0)) = 0 ∧ t.rd (F.Q_CTRL_CMD_EN (qBase 0)) = 0)) ∧
  (∀ (f : Fn) (s : State), s.host.flr.contains f.val = true → Answers (.flrComplete f) s (fun t =>
    t.host.flr = s.host.flr.filter (fun x => x != f.val) ∧ bitOf (t.rd (F.INT_CAUSE_CAUSE 0x2000)) 2 = true)) ∧
  (∀ (n : Fn) (s : State), Answers (.vfEnableChange true n) s (fun t => t.rd F.HIF_VF_STAT_NUM_VFS = n.val ∧
    t.rd F.HIF_VF_STAT_VF_EN = 1)) ∧
  (∀ (n : Fn) (s : State), Answers (.vfEnableChange false n) s (fun t => t.rd F.HIF_VF_STAT_NUM_VFS = 0 ∧ t.rd F.HIF_VF_STAT_VF_EN = 0)) ∧
  (∀ (b : Bool) (s : State), s.on F.HIF_LINK_STAT_UP = true → Answers (.hostLinkDown b) s (fun t => t.rd F.HIF_LINK_STAT_UP = 0 ∧
    t.rd F.HIF_LINK_STAT_SPEED = 0 ∧ t.fcu.raised.any (fun o => o.src.val == 11) = true ∧ (b = true → s.rd F.GLB_FORM_FORM ≠ 0 →
    t.rd F.HIF_VF_STAT_NUM_VFS = 0))) ∧
  (∀ (l : LinkParams) (s : State), (s.rd F.CPM_BOOT_STAGE = 8 ∨ s.rd F.CPM_BOOT_STAGE = 10) →
    (s.rd F.GLB_FORM_FORM = 1 ∨ s.rd F.GLB_FORM_FORM = 2) → s.domOn 1 = true → s.linkOk l = true → Answers (.hostLinkUp l) s (fun t =>
    t.rd F.HIF_LINK_STAT_UP = 1 ∧ t.rd F.HIF_LINK_STAT_SPEED = l.speed.toNat % 2 ^ F.HIF_LINK_STAT_SPEED.width ∧
    t.rd F.HIF_LINK_STAT_WIDTH = l.width.toNat % 2 ^ F.HIF_LINK_STAT_WIDTH.width)) ∧
  (∀ (l : LinkParams) (s : State), (s.rd F.CPM_BOOT_STAGE = 8 ∨ s.rd F.CPM_BOOT_STAGE = 10) → s.rd F.GLB_FORM_FORM = 0 →
    s.domOn 1 = true → s.linkOk l = true → Answers (.hostLinkUp l) s (fun t => t.rd F.HIF_LINK_STAT_UP = 1 ∧ t.rd F.HIF_UCIE_STAT_SB_UP = 1 ∧
    t.rd F.HIF_UCIE_STAT_MB_UP = 1 ∧ t.rd F.HIF_UCIE_STAT_MODULES = l.modules.toNat % 2 ^ F.HIF_UCIE_STAT_MODULES.width ∧
    t.rd F.HIF_LINK_STAT_SPEED = 0)) ∧
  (∀ (l : LinkParams) (s : State), s.linkOk l = false → Answers (.hostLinkUp l) s (fun t => t = s)) ∧
  (∀ (f : Fn) (s : State), bitOf (s.rd (nmaFld f.val).1) (nmaFld f.val).2 = true → s.canHost f.val = true → (s.hostFn f.val).msix = true →
    Answers (.nonMaskableAlert f) s (fun t => t.out = s.out ++ [.alert f (if s.rd F.GLB_FORM_FORM = 0 then none else some (s.vecMsg f.val 0))] ∧ bitOf (t.rd (nmaFld f.val).1) (nmaFld f.val).2 = false ∧
    t.rd F.HIF_NMA_COUNT_COUNT = min (s.rd F.HIF_NMA_COUNT_COUNT + 1) (2 ^ 32 - 1))) ∧
  (∀ (f : Fn) on (s : State), s.fnExists f.val = true → Answers (.vectorMaskOrEnableWrite f (.busMaster on)) s (fun t =>
    (t.hostFn f.val).bme = on ∧ (t.hostFn f.val).msix = (s.hostFn f.val).msix ∧ (t.hostFn f.val).unmasked = (s.hostFn f.val).unmasked)) ∧
  (∀ (f : Fn) (v : Fin 64) (s : State), s.fnExists f.val = true → s.canHost f.val = true → ((s.hostFn f.val).msix = true ∧
    (s.hostFn f.val).fmask = false) → v.val < vecCount f.val → (s.hostFn f.val).pba = [v.val] → s.host.waiting = [] →
    Answers (.vectorMaskOrEnableWrite f (.vecMask v false)) s (fun t =>
    .vector f v.val (s.vecMsg f.val v.val).1 (s.vecMsg f.val v.val).2 ∈ t.out ∧ (t.hostFn f.val).pba = [])) ∧
  (∀ (f : Fn) (d3 : Bool) (s : State), s.fnExists f.val = true → Answers (.vectorMaskOrEnableWrite f (.powerState d3)) s (fun t =>
    (t.hostFn f.val).d3 = d3 ∧ (d3 = true → t.canHost f.val = false))) ∧
  (∀ (f : Fn) (off : BitVec 13) (v : Word) (s : State), s.fnExists f.val = true → s.inD0 f.val = true → s.domOn 1 = true → off.toNat / 4 < 4 * vecCount f.val →
    off.toNat / 4 % 4 ≠ 3 → Answers (.vectorMaskOrEnableWrite f (.bar4Write off v)) s (fun t =>
    (t.hostFn f.val).bar4 f.val (off.toNat / 4) = v.toNat)) ∧
  (∀ (f : Fn) (off : BitVec 13) (s : State), s.fnExists f.val = true → s.inD0 f.val = true → s.domOn 1 = true →
    Answers (.vectorMaskOrEnableWrite f (.bar4Read off)) s (fun t =>
    .bar4Data f off.toNat (BitVec.ofNat 32 ((s.hostFn f.val).bar4 f.val (off.toNat / 4))) ∈ t.out))

/-- A BAR2 read of this node that every check lets through returns the bytes and leaves memory; one that no window maps returns UR, sends
an AER record of its function and is counted (R265, R267); one outside the function's BAR, or of a function that does not exist or is not
in D0, reaches nothing (R57, R61). A BAR2 write stores exactly its enabled bytes and leaves every other byte; a poisoned one is
dropped, counted and logged with code 6 (R260). RME_ISSUE runs a stalled write of the function (R273). MEM_COPY with bad operands
completes with status 4 and its DETAIL and changes nothing; between two local ranges it copies the bytes and completes with its length
(R269, R270). -/
def Obligations.LocalAccesses : Prop :=
  (∀ (f : Fn) (x : BitVec 34) (n : Nat) (ro : Bool) (off : Nat) (s : State), (1 ≤ n ∧ n ≤ 4096) →
    s.inBar2 f x.toNat n = true → s.bar2Addr f x.toNat n false = some (s.nodeId, off) → s.runs 0x0B = true →
    (s.rme.ops = [] ∧ s.rme.dma.length ≤ 64) → s.partFenced f.val = false → s.rd (F.RME_TAG_QUOTA_QUOTA f.val) ≠ 0 → s.windowCheck s.nodeId f.val off n false = 0 → s.stackCheck off n = 0 → s.poisonIn off n = [] →
    Answers (.bar2Read f x n ro) s (fun t => .bar2Cpl f 0 false (s.memBytes off n) ∈ t.out ∧ t.rme.ops = [] ∧ t.mss = s.mss)) ∧
  (∀ (f : Fn) (x : BitVec 34) (n : Nat) (ro : Bool) (s : State), (1 ≤ n ∧ n ≤ 4096) → s.inBar2 f x.toNat n = true →
    s.bar2Addr f x.toNat n false = none → Answers (.bar2Read f x n ro) s (fun t => .bar2Cpl f 1 false [] ∈ t.out ∧ .aer f 1 ∈ t.out ∧
    t.rd F.RME_BAD_ADDR_COUNT = min (s.rd F.RME_BAD_ADDR_COUNT + 1) (2 ^ 32 - 1))) ∧
  (∀ (f : Fn) (x : BitVec 34) (n : Nat) (ro : Bool) (s : State), (1 ≤ n ∧ n ≤ 4096) → s.inBar2 f x.toNat n = false →
    Answers (.bar2Read f x n ro) s (fun t => t = s)) ∧
  (∀ (f : Fn) (x : BitVec 34) (bs : List (Option Byte)) (off : Nat) (s : State), (1 ≤ bs.length ∧ bs.length ≤ 4096) →
    s.inBar2 f x.toNat bs.length = true → s.bar2Addr f x.toNat bs.length true = some (s.nodeId, off) → s.runs 0x0B = true →
    (s.rme.ops = [] ∧ s.rme.dma.length ≤ 64) → s.partFenced f.val = false →
    s.rd (F.RME_TAG_QUOTA_QUOTA f.val) ≠ 0 → s.windowCheck s.nodeId f.val off bs.length true = 0 → s.stackCheck off bs.length = 0 →
    Answers (.bar2Write f x bs false) s (fun t => t.mss = (s.store off bs).mss ∧ (∀ a : Nat, a < 2 ^ 35 → (a < off ∨ off + bs.length ≤ a) →
    t.memByte a = s.memByte a) ∧ t.rme.ops = [])) ∧
  (∀ (f : Fn) (x : BitVec 34) (bs : List (Option Byte)) (s : State), (1 ≤ bs.length ∧ bs.length ≤ 4096) →
    s.inBar2 f x.toNat bs.length = true → Answers (.bar2Write f x bs true) s (fun t => t.mss = s.mss ∧ t.rd F.RME_LAST_ERR_CODE = 6 ∧ t.rd F.RME_LAST_ERR_PART = f.val ∧
    t.rd F.RME_POISON_COUNT = min (s.rd F.RME_POISON_COUNT + 1) (2 ^ 32 - 1))) ∧
  (∀ (f : Fn) o (s : State), s.runs 0x0B = true → s.rme.ops = [o] → s.rme.dma = [] → s.que.inflight = [] → s.fnExists f.val = true →
    (o.fn = f ∧ o.part = f.val ∧ o.src = .write) → o.kind = 1 → o.stage = .stalled → o.tag = none → s.rd (F.RME_TAG_QUOTA_QUOTA f.val) ≠ 0 → s.partFenced f.val = false →
    o.node = s.nodeId → o.offset + o.len ≤ 2 ^ 35 → s.windowCheck s.nodeId f.val o.offset o.len true = 0 → s.stackCheck o.offset o.len = 0 →
    Answers (.rmeIssue f) s (fun t => t.rme.ops = [] ∧ t.mss = (s.store o.offset o.data).mss)) ∧
  (∀ (f : Fn) (e : Block64) d u (x : Nat) (s : State), s.begins? 0x0B f e = some (d, u) → opcode e = 0x20 → u.copyBad f e = some x →
    u.que.inflight = [d] → s.completes f = true → Answers (.memCopy f e) s (fun t => s.cplOut f d { status := 4, detail := x } ∈ t.out ∧
    t.mss = s.mss)) ∧
  (∀ (f : Fn) (e : Block64) d u (s : State), s.begins? 0x0B f e = some (d, u) → opcode e = 0x20 → u.copyBad f e = none →
    u.que.inflight = [d] → s.completes f = true → s.live 0x0B = true → (s.rme.dma = [] ∧ s.rme.ops = []) → (hostSide e 0 = false ∧
    hostSide e 1 = false) → (copyNode e 0 = s.nodeId ∧ copyNode e 1 = s.nodeId) → copyChunk e 0 = copyLen e →
    s.partThere d.owner = true →
    s.rd (F.RME_TAG_QUOTA_QUOTA f.val) ≠ 0 → s.windowCheck s.nodeId f.val (copyAddr e 0 % 2 ^ 35) (copyLen e) false = 0 →
    s.windowCheck s.nodeId f.val (copyAddr e 1 % 2 ^ 35) (copyLen e) true = 0 → s.stackCheck (copyAddr e 0 % 2 ^ 35) (copyLen e) = 0 →
    s.stackCheck (copyAddr e 1 % 2 ^ 35) (copyLen e) = 0 → s.poisonIn (copyAddr e 0 % 2 ^ 35) (copyLen e) = [] →
    Answers (.memCopy f e) s (fun t =>
    t.mss = (s.store (copyAddr e 1 % 2 ^ 35) ((s.memBytes (copyAddr e 0 % 2 ^ 35) (copyLen e)).map some)).mss ∧
    s.cplOut f d { result := copyLen e + 2 ^ 96 } ∈ t.out ∧ t.rme.dma = []))

/-- The first request of a circuit's receive buffer that cannot be answered yet stays there, and nothing changes (R276). A READ_REQ that every
check lets through is answered with the bytes, its flits leave the buffer, memory unchanged; a WRITE_REQ stores its bytes and is
acknowledged; one beyond the address space is answered with code 4 and stores nothing; an ATOMIC_REQ of 64 bits with fetch-add adds and
answers the old value, every other byte unchanged (R267, R280, R315). RME_TARGET_RESPOND answers a write that had to wait. -/
def Obligations.RemoteRequests : Prop :=
  (∀ (c : CircIx) h (s : State), s.nextRequest c.val = some h → s.canAnswer c.val h = false → Answers (.readReq c) s (fun t => t = s) ∧
    Answers (.writeReq c) s (fun t => t = s) ∧ Answers (.atomicReq c) s (fun t => t = s) ∧ Answers (.rmeTargetRespond c) s (fun t => t = s)) ∧
  (∀ (c : CircIx) h (s : State), s.nextRequest c.val = some h → h.mtype = 1 → s.canAnswer c.val h = true →
    h.m.offset.toNat + h.m.len.toNat ≤ 2 ^ 35 → h.m.len.toNat ≤ 208 →
    s.windowCheck h.m.srcNode.toNat h.m.part.toNat h.m.offset.toNat h.m.len.toNat false = 0 →
    s.stackCheck h.m.offset.toNat h.m.len.toNat = 0 → s.poisonIn h.m.offset.toNat h.m.len.toNat = [] → Answers (.readReq c) s (fun t =>
    (t.circLink c.val).txq = (s.circLink c.val).txq ++ [(1, rspHeader 0x81 0 h.m h.m.len.toNat h.cseq ++ s.memBytes h.m.offset.toNat h.m.len.toNat)] ∧
    (t.circLink c.val).inbox = (s.circLink c.val).inbox.filter (fun x => !(h.msg.map (fun y => y.1)).contains x.1) ∧ t.mss = s.mss)) ∧
  (∀ (c : CircIx) h (s : State), s.nextRequest c.val = some h → h.mtype = 2 → s.canAnswer c.val h = true →
    h.m.offset.toNat + h.m.len.toNat ≤ 2 ^ 35 →
    s.windowCheck h.m.srcNode.toNat h.m.part.toNat h.m.offset.toNat h.m.len.toNat true = 0 →
    s.stackCheck h.m.offset.toNat h.m.len.toNat = 0 → Answers (.writeReq c) s (fun t =>
    t.mss = (s.store h.m.offset.toNat (h.data.map some)).mss ∧
    (t.circLink c.val).txq = (s.circLink c.val).txq ++ [(1, rspHeader 0x82 0 h.m 0 h.cseq)])) ∧
  (∀ (c : CircIx) h (s : State), s.nextRequest c.val = some h → h.mtype = 2 → s.canAnswer c.val h = true →
    2 ^ 35 < h.m.offset.toNat + h.m.len.toNat → Answers (.writeReq c) s (fun t => t.mss = s.mss ∧
    (t.circLink c.val).txq = (s.circLink c.val).txq ++ [(1, rspHeader 0x82 4 h.m 0 h.cseq)])) ∧
  (∀ (c : CircIx) h (s : State), s.nextRequest c.val = some h → h.mtype = 3 → s.canAnswer c.val h = true → h.m.a64 = true →
    h.m.aop = 0 → h.m.offset.toNat % 8 = 0 → s.windowCheck h.m.srcNode.toNat h.m.part.toNat h.m.offset.toNat 8 true = 0 →
    s.stackCheck h.m.offset.toNat 8 = 0 → s.poisonIn h.m.offset.toNat 8 = [] → Answers (.atomicReq c) s (fun t =>
    bytesNum (t.memBytes h.m.offset.toNat 8) = (bytesNum (s.memBytes h.m.offset.toNat 8) + h.opa) % 2 ^ 64 ∧ (∀ x : Nat, x < 2 ^ 35 →
    (x < h.m.offset.toNat ∨ h.m.offset.toNat + 8 ≤ x) → t.memByte x = s.memByte x) ∧
    (t.circLink c.val).txq = (s.circLink c.val).txq ++ [(1, rspHeader 0x83 0 h.m 8 h.cseq ++ s.memBytes h.m.offset.toNat 8)])) ∧
  (∀ (c : CircIx) h (s : State), s.nextRequest c.val = some h → h.mtype = 2 → s.canAnswer c.val h = true →
    h.m.offset.toNat + h.m.len.toNat ≤ 2 ^ 35 →
    s.windowCheck h.m.srcNode.toNat h.m.part.toNat h.m.offset.toNat h.m.len.toNat true = 0 →
    s.stackCheck h.m.offset.toNat h.m.len.toNat = 0 → Answers (.rmeTargetRespond c) s (fun t =>
    t.mss = (s.store h.m.offset.toNat (h.data.map some)).mss ∧
    (t.circLink c.val).inbox = (s.circLink c.val).inbox.filter (fun x => !(h.msg.map (fun y => y.1)).contains x.1)))

/-- READ_RSP to a BAR2 read returns the data and ends the operation; one that matches none is counted as late with its cause. WRITE_ACK
with code 3 ends the write, counts DENIED and logs code 3. ATOMIC_RSP ends the slot: not BUSY, status 0, the old value as result. A response
to an operation whose function was reset is discarded, and its tag is free (R92). REQ_AGE_EXPIRE quarantines the tag, counts CONGESTED
and logs code 1; TAG_QUARANTINE_EXPIRE frees it and changes nothing else (R272, R277). Each response is the first of its kind in its
circuit's receive buffer. -/
def Obligations.RemoteResponses : Prop :=
  (∀ (c : CircIx) g o (s : State), s.nextResponse c.val 0 = some g → s.endsHere c.val = true → s.runs 0x0B = true → s.rme.ops = [o] →
    (s.rme.dma = [] ∧ s.que.inflight = []) → (o.tag = some (memMsgOf g.bytes).tag.toNat ∧ o.circ = some c.val ∧
    o.cseq = (memMsgOf g.bytes).reqCseq.toNat ∧ o.kind = 0 ∧ o.stage = .sent) → o.src = .read → o.flr = false →
    (memMsgOf g.bytes).rcode = 0 → Answers (.readRsp c) s (fun t =>
    .bar2Cpl o.fn 0 false ((g.bytes.drop 16).take (memMsgOf g.bytes).len.toNat) ∈ t.out ∧ t.rme.ops = [] ∧
    (t.circLink c.val).inbox = (s.circLink c.val).inbox.filter (fun x => !(g.map (fun y => y.1)).contains x.1))) ∧
  (∀ (c : CircIx) g (s : State), s.nextResponse c.val 0 = some g → s.endsHere c.val = true → s.runs 0x0B = true → s.rme.ops = [] →
    Answers (.readRsp c) s (fun t => t.rd F.RME_LATE_RSP_COUNT = min (s.rd F.RME_LATE_RSP_COUNT + 1) (2 ^ 32 - 1) ∧
    bitOf (t.rd (F.INT_CAUSE_CAUSE 0xB000)) 4 = true)) ∧
  (∀ (c : CircIx) g o (s : State), s.nextResponse c.val 0 = some g → s.endsHere c.val = true → s.runs 0x0B = true → s.rme.ops = [o] →
    (o.tag = some (memMsgOf g.bytes).tag.toNat ∧ o.circ = some c.val ∧ o.cseq = (memMsgOf g.bytes).reqCseq.toNat ∧ o.kind = 0 ∧
    o.stage = .sent) → o.flr = true → Answers (.readRsp c) s (fun t => t.rme.ops = [] ∧ t.out = s.out ∧
    t.rd F.RME_LATE_RSP_COUNT = s.rd F.RME_LATE_RSP_COUNT)) ∧
  (∀ (c : CircIx) g o (s : State), s.nextResponse c.val 1 = some g → s.endsHere c.val = true → s.runs 0x0B = true → s.rme.ops = [o] →
    (s.rme.dma = [] ∧ s.que.inflight = []) → (o.tag = some (memMsgOf g.bytes).tag.toNat ∧ o.circ = some c.val ∧
    o.cseq = (memMsgOf g.bytes).reqCseq.toNat ∧ o.kind = 1 ∧ o.stage = .sent) → o.src = .write → o.flr = false →
    (memMsgOf g.bytes).rcode = 3 → Answers (.writeAck c) s (fun t => t.rme.ops = [] ∧ t.rd F.RME_LAST_ERR_CODE = 3 ∧
    t.rd F.RME_LAST_ERR_PART = o.fn.val ∧ t.rd F.RME_DENIED_COUNT = min (s.rd F.RME_DENIED_COUNT + 1) (2 ^ 32 - 1))) ∧
  (∀ (c : CircIx) g o (n : Nat) (s : State), s.nextResponse c.val 2 = some g → s.endsHere c.val = true → s.runs 0x0B = true →
    s.rme.ops = [o] → (s.rme.dma = [] ∧ s.que.inflight = []) → (o.tag = some (memMsgOf g.bytes).tag.toNat ∧ o.circ = some c.val ∧
    o.cseq = (memMsgOf g.bytes).reqCseq.toNat ∧ o.kind = 2 ∧ o.stage = .sent) → o.src = .atomic n → o.flr = false →
    (memMsgOf g.bytes).rcode = 0 → (memMsgOf g.bytes).len = 8 → Answers (.atomicRsp c) s (fun t =>
    t.rme.ops = [] ∧ t.rd (F.ATM_STAT_BUSY (atmBase o.fn.val) n) = 0 ∧ t.rd (F.ATM_STAT_STATUS (atmBase o.fn.val) n) = 0 ∧
    t.rd (F.ATM_RESULT_RESULT (atmBase o.fn.val) n) = numAt g.bytes 16 8)) ∧
  (∀ (tag : Fin 8192) o (s : State), s.rme.ops = [o] → (s.rme.dma = [] ∧ s.que.inflight = []) → o.tag = some tag.val → o.stage = .sent →
    o.flr = false → o.src = .write → Answers (.reqAgeExpire tag) s (fun t => t.rme.ops = [{ o with stage := .quarantined }] ∧
    t.rd F.RME_CONGESTED_COUNT = min (s.rd F.RME_CONGESTED_COUNT + 1) (2 ^ 32 - 1) ∧ t.rd F.RME_LAST_ERR_CODE = 1)) ∧
  (∀ (tag : Fin 8192) o (s : State), s.rme.ops = [o] → o.tag = some tag.val → o.stage = .quarantined →
    Answers (.tagQuarantineExpire tag) s (fun t => t = s.setRme { s.rme with ops := [] }))

/-- REDUCE with a misaligned list or a bad count completes with status 4, DETAIL 0x10 and result FFFFFFFF in its step word; a good one
reads up to 128 steps (R287, R293). STEP_LIST_READ_DONE takes a good step; a failed read ends the command with DETAIL 0x15 (R288,
R293). COLLECTIVE_MESSAGE takes the first collective message of a circuit's receive buffer: one with no match is held, or, with no room,
left there with its cause; of another format it is counted BADMSG and applies nothing; one that meets a plain RECV writes its element
converted to the destination's format, leaves every other byte and counts the element as got (R285, R291, R292); under a fence it stays
where it is (R21). RDX_ORPHAN discards a held message, counts it and raises source 42. -/
def Obligations.ReduceCommands : Prop :=
  (∀ (f : Fn) (e : Block64) d u (s : State), s.begins? 0x0C f e = some (d, u) → opcode e = 0x28 →
    (byteField e 16 0 64 % 32 ≠ 0 ∨ byteField e 24 0 32 = 0 ∨ 65536 < byteField e 24 0 32) → u.que.inflight = [d] → s.completes f = true →
    Answers (.reduce f e) s (fun t => s.cplOut f d { status := 4, detail := 0x10, result := 0xFFFFFFFF * 2 ^ 96 } ∈ t.out)) ∧
  (∀ (f : Fn) (e : Block64) d u o (s : State), s.begins? 0x0C f e = some (d, u) → opcode e = 0x28 → (byteField e 16 0 64 % 32 = 0 ∧
    1 ≤ byteField e 24 0 32 ∧ byteField e 24 0 32 ≤ 65536) → (fmtOk (byteField e 32 0 4) = true ∧ byteField e 32 4 2 ≤ 2) →
    (s.rdx.cmds = [] ∧ s.rdx.waiting = []) →
    o = .hostRead f (cmdId e) (BitVec.ofNat 64 (byteField e 16 0 64)) (32 * min 128 (byteField e 24 0 32)) → s.canMake f.val o = true →
    Answers (.reduce f e) s (fun t =>
    t.rdx.cmds = [{ id := d.id, fn := f, e := e, owner := d.owner, asked := min 128 (byteField e 24 0 32) }] ∧ o ∈ t.out)) ∧
  (∀ (f : Fn) (k : Word) c st u (s : State), (s.rdx.cmds = [c] ∧ s.rdx.waiting = []) → (c.fn = f ∧ c.coll = k.toNat) → (c.steps = [] ∧
    c.asked = 1 ∧ c.fail = none ∧ c.done = 0 ∧ c.nsteps = 1) → s.stepsBack? c = some u → s.stepBad c 0 st = none →
    Answers (.stepListReadDone f k 0 (some [st])) s (fun t => t.rdx.cmds.map (fun y => y.steps) = [[{ ix := 0, e := st }]])) ∧
  (∀ (f : Fn) (k : Word) c d u (s : State), (s.rdx.cmds = [c] ∧ s.rdx.waiting = []) → (c.fn = f ∧ c.coll = k.toNat) → (c.steps = [] ∧
    c.asked ≠ 0 ∧ c.fail = none ∧ c.done = 0 ∧ c.poisoned = 0 ∧ c.sat = 0) → s.stepsBack? c = some u → s.host.waiting = [] →
    s.que.inflight = [d] → (d.id = c.id ∧ d.fn = f ∧ d.noEntry = false) → s.completes f = true →
    Answers (.stepListReadDone f k 0 none) s (fun t => s.cplOut f d { status := 4, detail := 0x15 } ∈ t.out ∧ t.rdx.cmds = [])) ∧
  (∀ (c : CircIx) g (s : State), s.nextColl c.val = some g → s.takesColl c.val = true → s.matchRecv c.val (collMsgOf g.bytes) = none →
    s.unexpUsed + msgBytes (collMsgOf g.bytes) ≤ 2097152 → Answers (.collectiveMessage c) s (fun t =>
    t.rdx.unexp = s.rdx.unexp ++ [(c.val, collMsgOf g.bytes)] ∧ t.mss = s.mss ∧
    (t.circLink c.val).inbox = (s.circLink c.val).inbox.filter (fun x => !(g.map (fun y => y.1)).contains x.1))) ∧
  (∀ (c : CircIx) g (s : State), s.nextColl c.val = some g → s.takesColl c.val = true → s.matchRecv c.val (collMsgOf g.bytes) = none →
    2097152 < s.unexpUsed + msgBytes (collMsgOf g.bytes) → Answers (.collectiveMessage c) s (fun t => t.rdx.unexp = s.rdx.unexp ∧
    t.circLink c.val = s.circLink c.val ∧ bitOf (t.rd (F.INT_CAUSE_CAUSE 0xC000)) 2 = true)) ∧
  (∀ (c : CircIx) (s : State), s.takesColl c.val = false → Answers (.collectiveMessage c) s (fun t => t = s)) ∧
  (∀ (c : CircIx) g r x (s : State), s.nextColl c.val = some g → s.takesColl c.val = true →
    s.matchRecv c.val (collMsgOf g.bytes) = some (r, x) → s.recvReady r x = true → (collMsgOf g.bytes).fmt.toNat ≠ r.fmt →
    Answers (.collectiveMessage c) s (fun t =>
    t.rd F.RDX_BADMSG_COUNT = min (s.rd F.RDX_BADMSG_COUNT + 1) (2 ^ 32 - 1) ∧ t.rdx = s.rdx ∧ t.mss = s.mss)) ∧
  (∀ (c : CircIx) g m r x (s : State), s.nextColl c.val = some g → s.takesColl c.val = true → m = collMsgOf g.bytes →
    (s.rdx.cmds = [r] ∧ r.steps = [x]) →
    s.matchRecv c.val m = some (r, x) → s.recvReady r x = true → m.fmt.toNat = r.fmt → (stepKind x.e = 3 ∧ x.got = 0 ∧ 1 < stepLen x.e) →
    (m.elemOfs = 0 ∧ m.data.length = elemSize r.fmt m.wide) → stepOff x.e 1 + stepBytes r.fmt x.e 1 ≤ 2 ^ 35 →
    Answers (.collectiveMessage c) s (fun t =>
    t.elem (stepOff x.e 1) (elemSize r.fmt (stepWide x.e 1)) 0 = (convertElem (bufFmt r.fmt m.wide) (bytesNum m.data) (bufFmt r.fmt (stepWide x.e 1))).1 % 256 ^ elemSize r.fmt (stepWide x.e 1) ∧
    (∀ a : Nat, a < 2 ^ 35 → (a < stepOff x.e 1 ∨ stepOff x.e 1 + elemSize r.fmt (stepWide x.e 1) ≤ a) → t.memByte a = s.memByte a) ∧
    t.rdx.cmds.map (fun y => y.steps) = [[{ x with got := 1 }]])) ∧
  (∀ (c : CircIx) (k : Word) (g : BitVec 16) y (s : State), s.rdx.unexp = [y] → (y.1 = c.val ∧ y.2.coll = k ∧ y.2.tag = g) →
    Answers (.rdxOrphan c k g) s (fun t => t.rdx.unexp = [] ∧ t.rd F.RDX_ORPHAN_COUNT = min (s.rd F.RDX_ORPHAN_COUNT + 1) (2 ^ 32 - 1) ∧
    t.fcu.raised.any (fun o => o.src.val == 42) = true))

/-- RDX_STEP_START of a BARRIER step whose dependencies are done completes it and counts it; of a step that a fence covers it ends the
command with status 2 (R282). RDX_STEP_DONE of a one-element LOCAL_REDUCE writes B OP A to the destination in its format, leaves every
other byte and counts the step (R284, R285, R289). RDX_STEP_AGE_EXPIRE ends the command with status 1 (R290). -/
def Obligations.ReduceSteps : Prop :=
  (∀ (f : Fn) (k : Word) c x (s : State), (s.rdx.cmds = [c] ∧ s.rdx.waiting = []) → (c.fn = f ∧ c.coll = k.toNat) → (c.steps = [x] ∧
    c.asked = 1 ∧ c.fail = none ∧ c.done = 0 ∧ 1 < c.nsteps) → (x.ix = 0 ∧ x.st = 0) → s.live 0x0C = true → c.depsDone x = true →
    stepKind x.e = 0 → s.stepFenced c x.e = false → Answers (.rdxStepStart f k 0) s (fun t =>
    t.rd F.RDX_STEPS_DONE_COUNT = min (s.rd F.RDX_STEPS_DONE_COUNT + 1) (2 ^ 32 - 1) ∧
    t.rdx.cmds.map (fun y => (y.done, y.steps)) = [(1, [{ x with st := 2 }])])) ∧
  (∀ (f : Fn) (k : Word) c x d (s : State), (s.rdx.cmds = [c] ∧ s.rdx.waiting = []) → (c.fn = f ∧ c.coll = k.toNat) → (c.steps = [x] ∧
    c.fail = none) → (x.ix = 0 ∧ x.st = 0) → s.live 0x0C = true → c.depsDone x = true →
    (stepKind x.e ≠ 1 ∨ s.partThere c.owner = true) → s.stepFenced c x.e = true → s.que.inflight = [d] →
    (d.id = c.id ∧ d.fn = f ∧ d.noEntry = false) → s.completes f = true → Answers (.rdxStepStart f k 0) s (fun t =>
    s.cplOut f d (RCmd.cpl { c with fail := some (2, 0, 0) }) ∈ t.out ∧ t.rdx.cmds = [])) ∧
  (∀ (f : Fn) (k : Word) c x (s : State), (s.rdx.cmds = [c] ∧ s.rdx.waiting = []) → (c.fn = f ∧ c.coll = k.toNat) → (c.steps = [x] ∧
    c.asked = 1 ∧ c.fail = none ∧ c.done = 0 ∧ 1 < c.nsteps) → (x.ix = 0 ∧ x.st = 1) → s.runs 0x0C = true → (stepKind x.e = 4 ∧
    stepLen x.e = 1) → s.stackCheck (stepOff x.e 0) (stepBytes c.fmt x.e 0) = 0 → s.stackCheck (stepOff x.e 1) (stepBytes c.fmt x.e 1) = 0 →
    stepOff x.e 1 + stepBytes c.fmt x.e 1 ≤ 2 ^ 35 → Answers (.rdxStepDone f k 0) s (fun t =>
    t.elem (stepOff x.e 1) (elemSize c.fmt (stepWide x.e 1)) 0 = (reduceElem c.op (bufFmt c.fmt (stepWide x.e 0)) (s.elem (stepOff x.e 0) (elemSize c.fmt (stepWide x.e 0)) 0) (bufFmt c.fmt (stepWide x.e 1)) (s.elem (stepOff x.e 1) (elemSize c.fmt (stepWide x.e 1)) 0) (bufFmt c.fmt (stepWide x.e 1))).1 % 256 ^ elemSize c.fmt (stepWide x.e 1) ∧
    (∀ a : Nat, a < 2 ^ 35 → (a < stepOff x.e 1 ∨ stepOff x.e 1 + stepBytes c.fmt x.e 1 ≤ a) → t.memByte a = s.memByte a) ∧
    t.rd F.RDX_STEPS_DONE_COUNT = min (s.rd F.RDX_STEPS_DONE_COUNT + 1) (2 ^ 32 - 1))) ∧
  (∀ (f : Fn) (k : Word) c x d (s : State), (s.rdx.cmds = [c] ∧ s.rdx.waiting = []) → (c.fn = f ∧ c.coll = k.toNat) → (c.steps = [x] ∧
    c.fail = none) → (x.ix = 0 ∧ x.st = 1) → s.que.inflight = [d] → (d.id = c.id ∧ d.fn = f ∧ d.noEntry = false) → s.completes f = true →
    Answers (.rdxStepAgeExpire f k 0) s (fun t => s.cplOut f d (RCmd.cpl { c with fail := some (1, 0, 0) }) ∈ t.out ∧ t.rdx.cmds = []))

/-- PSM_REDUCE with bad operands completes with their status and DETAIL; a good one starts a run on its port in state 1, CLAIM (R296,
R297). PSM_CLAIM_DONE of a summer waits for its start, LINEARISE_DONE of a sender too, with its ring's time kept. PSM_ALIGN_START at
the start time aligns (fabric time is then at least the start time), a run not yet ready fails with reason 4 and source 44.
PSM_TRIM_SEND records flight time and level of a line and sends its TRIM frame; without light the run fails with reason 1. TRIM sets the
sender's flight time; a downstream frame of another type, without SYNC or with a bad CRC changes nothing (R301). DOWNSTREAM_LOSS fails a sender with reason 3 (R299 to R301, R310). -/
def Obligations.SummationStart : Prop :=
  (∀ (f : Fn) (e : Block64) d u (st : Nat) (x : Nat) (s : State), s.begins? 0x23 f e = some (d, u) → opcode e = 0x29 →
    u.psmBad f d.owner e = some (st, x) → u.que.inflight = [d] → s.completes f = true → Answers (.psmReduce f e) s (fun t =>
    s.cplOut f d { status := st, detail := x } ∈ t.out ∧ t.psm = s.psm)) ∧
  (∀ (f : Fn) (e : Block64) d u (s : State), s.begins? 0x23 f e = some (d, u) → opcode e = 0x29 → u.psmBad f d.owner e = none →
    Answers (.psmReduce f e) s (fun t => t.psm.runs = s.psm.runs ++ [(psmPort e, { id := d.id, fn := f, e := e, owner := d.owner })] ∧
    t.rd (F.PSM_STAT_STATE (psmPort e)) = 1 ∧ t.rd (F.PSM_STAT_REASON (psmPort e)) = 0)) ∧
  (∀ (p : Port) r (s : State), s.psm.runs = [(p.val, r)] → s.psmState p.val = 1 → s.live 0x23 = true → psmSummer r.e = true →
    Answers (.psmClaimDone p) s (fun t => t.psmState p.val = 3)) ∧
  (∀ (p : Port) r (s : State), s.psm.runs = [(p.val, r)] → s.psmState p.val = 2 → s.live 0x23 = true →
    Answers (.lineariseDone p) s (fun t => t.psmState p.val = 3 ∧
    t.psm.lin.any (fun y => y.1 == modRing p.val ((psmLineList r.e).headD 0) && y.2.1 == s.time.now.toNat) = true)) ∧
  (∀ (p : Port) r (s : State), s.psm.runs = [(p.val, r)] → s.psmState p.val = 3 → s.frozen 0x23 = false →
    Answers (.psmAlignStart p) s (fun t => t.psmState p.val = 4 ∧
    t.time.now = (if s.time.now < BitVec.ofNat 64 (psmStart r.e) then BitVec.ofNat 64 (psmStart r.e) else s.time.now))) ∧
  (∀ (p : Port) r (s : State), s.psm.runs = [(p.val, r)] → (s.psmState p.val = 1 ∨ s.psmState p.val = 2) → s.frozen 0x23 = false →
    r.failed = false → r.owner = 0 → Answers (.psmAlignStart p) s (fun t => t.psmState p.val = 9 ∧ t.rd (F.PSM_STAT_REASON p.val) = 4 ∧
    t.fcu.raised.any (fun o => o.src.val == 44) = true)) ∧
  (∀ (p : Port) r (k : Fin 8) (fk : Word) (dbm : Int) (s : State), s.psm.runs = [(p.val, r)] → s.psmState p.val = 4 →
    psmSummer r.e = true → psmLineList r.e = [k.val] → bitOf (psmLines r.e) k.val = true → -180 ≤ dbm →
    Answers (.psmTrimSend p [(k, fk, dbm)]) s (fun t => t.psmState p.val = 4 ∧ t.rd (F.PSM_ALIGN_W0_F (8 * p.val + k.val)) = fk.toNat ∧
    t.rd (F.PSM_ALIGN_W1_ATTEN (8 * p.val + k.val)) = 0 ∧ t.rd (F.PSM_ALIGN_W1_SEEN (8 * p.val + k.val)) = 1 ∧
    .psmFrame p k.val (PsmFrame.bits { typ := 2, line := k.val, payload := fk.toNat * 2 ^ 40 }) ∈ t.out)) ∧
  (∀ (p : Port) r (s : State), s.psm.runs = [(p.val, r)] → s.psmState p.val = 4 → psmSummer r.e = true → r.failed = false → r.owner = 0 →
    Answers (.psmTrimSend p []) s (fun t => t.psmState p.val = 9 ∧ t.rd (F.PSM_STAT_REASON p.val) = 1)) ∧
  (∀ (p : Port) r (b : BitVec 128) x (s : State), s.psm.runs = [(p.val, r)] → s.psmState p.val = 4 → psmSummer r.e = false →
    frameFor 2 b = some x → Answers (.trim p b) s (fun t => t.rd (F.PSM_TRIM_F p.val) = x.payload / 2 ^ 40 ∧
    t.psm.runs = [(p.val, { r with trimmed := true })])) ∧
  (∀ (p : Port) (b : BitVec 128) (s : State), (frameFor 2 b = none → Answers (.trim p b) s (fun t => t = s)) ∧
    (frameFor 3 b = none → Answers (.repair p b) s (fun t => t = s)) ∧ (frameFor 4 b = none → Answers (.status p b) s (fun t => t = s))) ∧
  (∀ (p : Port) r (s : State), s.psm.runs = [(p.val, r)] → (4 ≤ s.psmState p.val ∧ s.psmState p.val ≤ 6) → psmSummer r.e = false →
    r.failed = false → r.owner = 0 → Answers (.downstreamLoss p) s (fun t => t.psmState p.val = 9 ∧ t.rd (F.PSM_STAT_REASON p.val) = 3))

/-- PSM_STREAM_START of a trimmed sender launches its codes; of an untrimmed one it fails with reason 2. PSM_OVER_RANGE counts and lists
the sample. PSM_GUARD_CHECK with the guard at its nominal value writes the sample's word, leaves every other byte of memory and goes
on; beyond 0.3 × N + LSB of it the run fails with reason 5 (R306). PSM_STREAM_END of a sender waits for repair at PCT 100; of a repairing summer it sends
the repair list in frames of three (R302, R303, R305 to R307). -/
def Obligations.SummationStream : Prop :=
  (∀ (p : Port) r (s : State), s.psm.runs = [(p.val, r)] → s.psmState p.val = 4 → psmSummer r.e = false → r.trimmed = true →
    r.flr = false → Answers (.psmStreamStart p) s (fun t => t.psmState p.val = 5 ∧
    .psmLaunch p (s.activeBits (unitOf p.val ((psmLineList r.e).headD 0))) (streamCodes (s.memBytes (psmAddr r.e) (psmCount r.e))) ∈ t.out)) ∧
  (∀ (p : Port) r (s : State), s.psm.runs = [(p.val, r)] → s.psmState p.val = 4 → psmSummer r.e = false → r.trimmed = false →
    r.failed = false → r.owner = 0 → Answers (.psmStreamStart p) s (fun t => t.psmState p.val = 9 ∧ t.rd (F.PSM_STAT_REASON p.val) = 2)) ∧
  (∀ (p : Port) r (i : BitVec 24) (s : State), s.psm.runs = [(p.val, r)] → s.psmState p.val = 5 → psmSummer r.e = true →
    i.toNat < psmCount r.e → r.ovr = [] → Answers (.psmOverRange p i) s (fun t => t.psm.runs = [(p.val, { r with ovr := [i.toNat] })] ∧
    t.rd (F.PSM_OVR_COUNT p.val) = min (s.rd (F.PSM_OVR_COUNT p.val) + 1) (2 ^ 32 - 1) ∧ bitOf (t.rd (F.INT_CAUSE_CAUSE 0x23000)) 2 = true)) ∧
  (∀ (p : Port) r (m : Nat) v (s : State), s.psm.runs = [(p.val, r)] → s.psmState p.val = 5 → psmSummer r.e = true → (r.done = 0 ∧
    1 < psmCount r.e) → psmAddr r.e + 2 * psmCount r.e ≤ 2 ^ 35 →
    m * psmLsb (psmLineList r.e).length = 128 * (psmLineList r.e).length * 1024 → Answers (.psmGuardCheck p m [v]) s (fun t =>
    t.psmState p.val = 5 ∧ bytesNum (t.memBytes (psmAddr r.e) 2) = r.word 0 v.toNat % 2 ^ 16 ∧ (∀ a : Nat, a < 2 ^ 35 →
    (a < psmAddr r.e ∨ psmAddr r.e + 2 ≤ a) → t.memByte a = s.memByte a) ∧ t.psm.runs.map (fun y => y.2.done) = [1])) ∧
  (∀ (p : Port) r (m : Nat) (s : State), s.psm.runs = [(p.val, r)] → s.psmState p.val = 5 → psmSummer r.e = true → r.failed = false →
    r.owner = 0 →
    1280 * (psmLineList r.e).length * 1024 + (3 * (psmLineList r.e).length + 10 * psmLsb (psmLineList r.e).length) * 1024 < 10 * m * psmLsb (psmLineList r.e).length →
    Answers (.psmGuardCheck p m []) s (fun t => t.psmState p.val = 9 ∧ t.rd (F.PSM_STAT_REASON p.val) = 5)) ∧
  (∀ (p : Port) r (s : State), s.psm.runs = [(p.val, r)] → s.psmState p.val = 5 → psmSummer r.e = false →
    Answers (.psmStreamEnd p []) s (fun t => t.psmState p.val = 6 ∧ t.rd (F.PSM_STAT_PCT p.val) = 100 ∧ t.psm = s.psm)) ∧
  (∀ (p : Port) r (s : State), s.psm.runs = [(p.val, r)] → s.psmState p.val = 5 → psmSummer r.e = true → psmRepair r.e = true →
    r.done = psmCount r.e → psmLineList r.e = [0] → r.repairList ≠ [] → Answers (.psmStreamEnd p []) s (fun t => t.psmState p.val = 6 ∧
    t.psm.runs.map (fun y => y.2.listed) = [r.repairList] ∧ (∀ x ∈ repairFrames 0 r.repairList, .psmFrame p x.line x.bits ∈ t.out)))

/-- REPAIR adds its indexes to a sender's list; PSM_REPAIR_WINDOW launches the listed element's bits and counts it. PSM_STATUS_SEND of a
summer writes the repaired sample's word and no other byte, sends the status and completes the command with one repaired; STATUS at a
sender completes it with the status received, PSM_STATUS_TIMEOUT with status 3 (R307, R308). PSM_RELEASE_DONE ends the run: DONE with
its cause, or FAILED stays (R310). -/
def Obligations.SummationRepair : Prop :=
  (∀ (p : Port) r (b : BitVec 128) x (s : State), s.psm.runs = [(p.val, r)] → s.psmState p.val = 6 → psmSummer r.e = false →
    frameFor 3 b = some x → Answers (.repair p b) s (fun t => t.psm.runs = [(p.val, { r with listed := r.listed ++ x.indices })])) ∧
  (∀ (p : Port) r (i : Nat) (s : State), s.psm.runs = [(p.val, r)] → s.psmState p.val = 6 → psmSummer r.e = false → r.listed = [i] →
    r.flr = false → Answers (.psmRepairWindow p) s (fun t => .psmLaunch p (s.activeBits (unitOf p.val ((psmLineList r.e).headD 0))) (bitCodes (s.memByte (psmAddr r.e + i))) ∈ t.out ∧
    t.rd (F.PSM_REPAIR_COUNT p.val) = min (s.rd (F.PSM_REPAIR_COUNT p.val) + 1) (2 ^ 32 - 1))) ∧
  (∀ (p : Port) r d (i : Nat) (v : Int) (s : State), s.psm.runs = [(p.val, r)] → s.psmState p.val = 6 → psmSummer r.e = true →
    psmLineList r.e = [0] → r.listed = [i] → psmAddr r.e + 2 * i + 2 ≤ 2 ^ 35 → (r.completed = false ∧ r.flr = false) →
    s.que.inflight = [d] → (d.id = r.id ∧ d.fn = r.fn ∧ d.noEntry = false) → s.completes r.fn = true →
    Answers (.psmStatusSend p [some v]) s (fun t => t.psmState p.val = 7 ∧
    bytesNum (t.memBytes (psmAddr r.e + 2 * i) 2) = (ofSigned 12 v + 2 ^ 14) % 2 ^ 16 ∧ (∀ a : Nat, a < 2 ^ 35 →
    (a < psmAddr r.e + 2 * i ∨ psmAddr r.e + 2 * i + 2 ≤ a) → t.memByte a = s.memByte a) ∧ .psmFrame p 0 (PsmFrame.bits { typ := 4, line := 0, payload := 0 }) ∈ t.out ∧
    s.cplOut r.fn d { result := PRun.result { r with repaired := 1 } } ∈ t.out)) ∧
  (∀ (p : Port) r d (b : BitVec 128) x (s : State), frameFor 4 b = some x → s.psm.runs = [(p.val, r)] → s.psmState p.val = 6 → psmSummer r.e = false →
    (r.completed = false ∧ r.flr = false) → s.que.inflight = [d] → (d.id = r.id ∧ d.fn = r.fn ∧ d.noEntry = false) →
    s.completes r.fn = true → Answers (.status p b) s (fun t => t.psmState p.val = 7 ∧
    s.cplOut r.fn d { status := x.payload / 2 ^ 68, result := r.result } ∈ t.out)) ∧
  (∀ (p : Port) r d (s : State), s.psm.runs = [(p.val, r)] → s.psmState p.val = 6 → psmSummer r.e = false → (r.completed = false ∧
    r.flr = false) → s.que.inflight = [d] → (d.id = r.id ∧ d.fn = r.fn ∧ d.noEntry = false) → s.completes r.fn = true →
    Answers (.psmStatusTimeout p) s (fun t => t.psmState p.val = 7 ∧ s.cplOut r.fn d { status := 3, result := r.result } ∈ t.out)) ∧
  (∀ (p : Port) r (s : State), s.psm.runs = [(p.val, r)] → s.psmState p.val = 7 → r.owner = 0 → Answers (.psmReleaseDone p) s (fun t =>
    t.psm.runs = [] ∧ t.psmState p.val = 8 ∧ bitOf (t.rd (F.INT_CAUSE_CAUSE 0x23000)) 0 = true)) ∧
  (∀ (p : Port) r (s : State), s.psm.runs = [(p.val, r)] → s.psmState p.val = 9 → Answers (.psmReleaseDone p) s (fun t =>
    t.psm.runs = [] ∧ t.psmState p.val = 9))

/-- V_CMD_DONE going up waits for the voltage and changes only OPSTATE; going down it ends the change with its cause; failed it ends with
OP_FAIL, the old voltage ordered and source 8. READ_VOUT_DONE within 10 mV settles and shows the reading; below it reads again, the
16th time it fails. SETTLE_DONE takes the new point (R342, R355). ALERT_N with a status bit that the model takes from PMBus (log entry
24) clears the alert and raises source 52 (R456). AON_TRIM with an exact ratio shows it (R334). ROOT_PLL_LOCK_LOSS clears ROOT_LOCK and
raises source 3; a lane PLL's loss clears its bit and raises source 7 for its port group, its return sets the bit (R335). -/
def Obligations.ClocksAndOperatingPoints : Prop :=
  (∀ (s : State), s.rd F.CPM_OP_OPSTATE = 2 → s.rd F.CPM_OP_CUR < s.cpm.goal → Answers (.vCmdDone .done) s (fun t =>
    t = s.wr F.CPM_OP_OPSTATE 3)) ∧
  (∀ (s : State), s.rd F.CPM_OP_OPSTATE = 2 → s.cpm.goal ≤ s.rd F.CPM_OP_CUR → s.cpm.target = none → s.pstate = 0 →
    Answers (.vCmdDone .done) s (fun t => t.rd F.CPM_OP_OPSTATE = 0 ∧ bitOf (t.rd (F.INT_CAUSE_CAUSE 0x1000)) 1 = true)) ∧
  (∀ (s : State), s.rd F.CPM_OP_OPSTATE = 2 → s.cpm.target = none → s.pstate = 0 → Answers (.vCmdDone .failed) s (fun t =>
    t.rd F.CPM_OP_OPSTATE = 0 ∧ t.rd F.CPM_OP_OP_FAIL = 1 ∧ .pmbus 0x21 s.cpm.prevMv ∈ t.out ∧
    t.fcu.raised.any (fun o => o.src.val == 8) = true)) ∧
  (∀ (mv : BitVec 12) (s : State), s.rd F.CPM_OP_OPSTATE = 3 → (opMv s.cpm.goal ≤ mv.toNat + 10 ∧ mv.toNat ≤ opMv s.cpm.goal + 10) →
    Answers (.readVoutDone mv .done) s (fun t => t.rd F.CPM_OP_OPSTATE = 4 ∧ t.rd F.CPM_VOUT_READ_MV = mv.toNat)) ∧
  (∀ (mv : BitVec 12) (s : State), s.rd F.CPM_OP_OPSTATE = 3 → mv.toNat + 10 < opMv s.cpm.goal → s.cpm.reads < 15 →
    Answers (.readVoutDone mv .done) s (fun t => t.rd F.CPM_OP_OPSTATE = 3 ∧ t.cpm.reads = s.cpm.reads + 1)) ∧
  (∀ (mv : BitVec 12) (s : State), s.rd F.CPM_OP_OPSTATE = 3 → mv.toNat + 10 < opMv s.cpm.goal → s.cpm.reads = 15 → s.cpm.target = none →
    s.pstate = 0 → Answers (.readVoutDone mv .done) s (fun t => t.rd F.CPM_OP_OPSTATE = 0 ∧ t.rd F.CPM_OP_OP_FAIL = 1)) ∧
  (∀ (s : State), s.rd F.CPM_OP_OPSTATE = 4 → s.cpm.goal < 4 → s.cpm.target = none → s.pstate = 0 → Answers (.settleDone) s (fun t =>
    t.rd F.CPM_OP_CUR = s.cpm.goal ∧ t.rd F.CPM_OP_OPSTATE = 0 ∧ bitOf (t.rd (F.INT_CAUSE_CAUSE 0x1000)) 1 = true)) ∧
  (∀ (w : BitVec 16) (s : State), s.domOn 1 = true → (bitOf w.toNat 5 = true ∨ bitOf w.toNat 11 = true ∨ bitOf w.toNat 15 = true) →
    Answers (.alertN w) s (fun t => t = (s.send (.pmbus 0x79 0)).fault 52)) ∧
  (∀ (n : Nat) (s : State), s.domOn 1 = true → 1 ≤ n → n * (2 ^ 32 - 1) > 10 ^ 9 * 65536 → 10 ^ 9 * 65536 % n = 0 →
    Answers (.aonTrim n) s (fun t => t.rd F.CPM_AON_TRIM_K = 10 ^ 9 * 65536 / n)) ∧
  (∀ (s : State), s.domOn 1 = true → s.on F.CPM_CLK_STAT_ROOT_LOCK = true → Answers (.rootPllLockLoss) s (fun t =>
    t = (s.wr F.CPM_CLK_STAT_ROOT_LOCK 0).fault 3)) ∧
  (∀ (g : Fin 4) (s : State), s.domOn 3 = true → bitOf (s.rd F.CPM_CLK_STAT_LANE_LOCK) g.val = true →
    Answers (.lanePllLockChange g false) s (fun t => bitOf (t.rd F.CPM_CLK_STAT_LANE_LOCK) g.val = false ∧
    t.fcu.raised.any (fun o => o.src.val == 7 && o.scope == 4 * g.val) = true)) ∧
  (∀ (g : Fin 4) (s : State), s.domOn 3 = true → Answers (.lanePllLockChange g true) s (fun t =>
    bitOf (t.rd F.CPM_CLK_STAT_LANE_LOCK) g.val = true ∧ t.fcu = s.fcu))

/-- SLEEP_WAIT that may not sleep completes with status 4 and its DETAIL; else PSTATE is DRAIN and the mode of CPM_PWR_MODE is taken (log
entry 95). SLEEP_DRAIN_DONE completes it and waits for
the link; SLEEP_DRAIN_TIMEOUT completes it with status 3, awake, with its cause. SLEEP_LINK_IDLE turns HOST off: ASLEEP.
LINK_WAIT_EXPIRE sleeps with HOST kept, and LANE off where LANE_OFF says so (R343, R344, R356, R358). -/
def Obligations.SleepEntry : Prop :=
  (∀ (e : Block64) d u (x : Nat) (s : State), s.begins? 1 0 e = some (d, u) → opcode e = 2 → s.que.inflight = [] → u.sleepBad = some x →
    s.completes 0 = true → Answers (.sleepWait 0 e) s (fun t => s.cplOut 0 d { status := 4, detail := x } ∈ t.out ∧ t.pstate = s.pstate)) ∧
  (∀ (e : Block64) d u (s : State), s.begins? 1 0 e = some (d, u) → opcode e = 2 → s.que.inflight = [] → u.sleepBad = none →
    s.on F.CPM_PWR_MODE_DROP_THROUGH = false → Answers (.sleepWait 0 e) s (fun t => t.pstate = 1 ∧ t.cpm.mode = (s.peek 0x1060).toNat ∧ (∃ c, t.cmd? d.id = some c ∧
    c.wait = .drain))) ∧
  (∀ c (s : State), s.sleeper = some c → s.que.inflight = [c] → (c.fn = 0 ∧ c.noEntry = false) → s.drained c = true → s.erasing = false →
    s.modeBit 5 = true → s.completes 0 = true → Answers (.sleepDrainDone) s (fun t => t.pstate = 3 ∧
    s.cplOut 0 c {} ∈ t.out)) ∧
  (∀ c (s : State), s.sleeper = some c → s.que.inflight = [c] → (c.fn = 0 ∧ c.noEntry = false) → s.completes 0 = true →
    s.rd F.CPM_OP_OPSTATE ≠ 0 → Answers (.sleepDrainTimeout) s (fun t => t.pstate = 0 ∧ s.cplOut 0 c { status := 3 } ∈ t.out ∧
    bitOf (t.rd (F.INT_CAUSE_CAUSE 0x1000)) 5 = true)) ∧
  (∀ (s : State), s.pstate = 3 → s.erasing = false → s.cpm.wake = none → Answers (.sleepLinkIdle) s (fun t => t.pstate = 5 ∧
    t.domOn 1 = false ∧ t.cpm.hostOff = true)) ∧
  (∀ (s : State), s.pstate = 3 → s.erasing = false → s.cpm.wake = none → s.domOn 1 = true → Answers (.linkWaitExpire) s (fun t =>
    t.pstate = 5 ∧ t.rd F.CPM_PWR_STAT_HOST_KEPT = 1 ∧ t.domOn 1 = true ∧ (s.modeBit 1 = true → t.domOn 3 = false)))

/-- WAKE_N wakes from ASLEEP with source 1: with HOST off it orders the supply, with HOST kept it goes to the domains; while still going to
sleep it is remembered. HOST_WAKE, LINK_DATA_WAKE, WAKE_RX and WAKE_TIMER wake with sources 2 to 5 where enabled (WAKE_RX with its
port); a pattern received awake is a cause of its port. W_SUPPLY_DONE goes on, or records the failure; SUPPLY_RETRY goes on when the
supply answers. W_HOST_DONE with the reference within 1 % restores HOST: the clock locked, fabric time from the sleep time and the
counted ticks, ESTIMATED; else it stays with REFCLK_CHANGED and BYPASS. W_DOMAINS_DONE and W_ENGINE_DONE end the wake, awake with its
cause (R345, R354, R357, R358). -/
def Obligations.WakeUp : Prop :=
  (∀ (s : State), s.pstate = 5 → s.cpm.hostOff = true → Answers (.wakeN) s (fun t => t.pstate = 6 ∧ t.rd F.CPM_PWR_STAT_WAKE_SRC = 1 ∧
    t.rd F.CPM_PWR_STAT_WAKE_PORT = 0 ∧ .pmbus 0x01 0x80 ∈ t.out)) ∧
  (∀ (s : State), s.pstate = 5 → s.cpm.hostOff = false → Answers (.wakeN) s (fun t => t.pstate = 8 ∧ t.domOn 2 = true ∧ t.domOn 3 = true ∧
    t.domOn 4 = true)) ∧
  (∀ (s : State), (s.pstate = 3 ∨ s.pstate = 4) → s.cpm.wake = none → Answers (.wakeN) s (fun t =>
    t = s.setCpm { s.cpm with wake := some (1, 0) })) ∧
  (∀ (s : State), s.pstate = 5 → s.cpm.hostOff = true → s.on F.CPM_WAKE_EN_HOST = true → Answers (.hostWake) s (fun t => t.pstate = 6 ∧
    t.rd F.CPM_PWR_STAT_WAKE_SRC = 2)) ∧
  (∀ (s : State), s.pstate = 5 → s.cpm.hostOff = true → s.on F.CPM_WAKE_EN_LINK_DATA = true → s.domOn 5 = false →
    Answers (.linkDataWake) s (fun t => t.pstate = 6 ∧ t.rd F.CPM_PWR_STAT_WAKE_SRC = 3)) ∧
  (∀ (p : Port) (s : State), s.pstate = 5 → s.cpm.hostOff = true → s.domOn 1 = false → s.on F.CPM_WAKE_EN_OPT = true →
    bitOf (s.rd F.CPM_WAKE_PORTS_PORTS) p.val = true → Answers (.wakeRx p) s (fun t => t.pstate = 6 ∧ t.rd F.CPM_PWR_STAT_WAKE_SRC = 4 ∧
    t.rd F.CPM_PWR_STAT_WAKE_PORT = p.val)) ∧
  (∀ (p : Port) (s : State), s.domOn 1 = true → s.on F.CPM_WAKE_EN_OPT = false → Answers (.wakeRx p) s (fun t =>
    t = s.cause0 (0x10 + p.val) 12)) ∧
  (∀ (s : State), s.pstate = 5 → s.cpm.hostOff = true → s.on F.CPM_WAKE_EN_TIMER = true → s.rd F.CPM_WAKE_TIMER_MS ≠ 0 →
    Answers (.wakeTimer) s (fun t => t.pstate = 6 ∧ t.rd F.CPM_PWR_STAT_WAKE_SRC = 5)) ∧
  (∀ (s : State), s.pstate = 6 → Answers (.wSupplyDone true) s (fun t => t.pstate = 7 ∧ t.fcu.supplyFail = false)) ∧
  (∀ (s : State), s.pstate = 6 → Answers (.wSupplyDone false) s (fun t => t.pstate = 6 ∧ t.fcu.supplyFail = true ∧
    t.fcu.wakeSupply = true)) ∧
  (∀ (s : State), s.fcu.supplyFail = true → s.pstate = 6 → Answers (.supplyRetry true) s (fun t => t.pstate = 7 ∧
    t.fcu.supplyFail = false ∧ .pmbus 0x01 0x80 ∈ t.out)) ∧
  (∀ (n : Nat) (k : Nat) (inv : Bool) (s : State), s.pstate = 7 → s.cpm.hostOff = true →
    (1024 * (k : Int) - 10 * (s.rd F.CPM_AON_TRIM_K : Int)).natAbs * 1000 ≤ 10 * s.rd F.CPM_AON_TRIM_K →
    Answers (.wHostDone n k inv) s (fun t => t.domOn 1 = true ∧ t.cpm.hostOff = false ∧ t.pstate = 8 ∧ t.rd F.CPM_CLK_STAT_ROOT_LOCK = 1 ∧
    t.rd F.CPM_CLK_STAT_REFCLK_INV = b2n inv ∧
    t.rd F.CPM_TIME_STAT_TIME_STATE = 5 ∧ t.time.now = BitVec.ofNat 64 (s.cpm.tSleep + min n (2 ^ 48 - 1) * s.rd F.CPM_AON_TRIM_K))) ∧
  (∀ (n : Nat) (k : Nat) (inv : Bool) (s : State), s.pstate = 7 → s.cpm.hostOff = true →
    10 * s.rd F.CPM_AON_TRIM_K < (1024 * (k : Int) - 10 * (s.rd F.CPM_AON_TRIM_K : Int)).natAbs * 1000 →
    Answers (.wHostDone n k inv) s (fun t => t.domOn 1 = true ∧ t.pstate = 7 ∧ t.rd F.CPM_CLK_STAT_REFCLK_CHANGED = 1 ∧
    t.rd F.CPM_CLK_STAT_BYPASS = 1)) ∧
  (∀ (s : State), s.pstate = 8 → (4 ≤ s.rd (tstate 0) ∨ s.rd (tstate 0) = 0) → (4 ≤ s.rd (tstate 1) ∨ s.rd (tstate 1) = 0) →
    Answers (.wDomainsDone) s (fun t => t = s.wr F.CPM_PWR_STAT_PSTATE 9)) ∧
  (∀ (s : State), s.pstate = 9 → s.rd F.CPM_OP_OPSTATE = 0 → s.rd F.CPM_OP_TARGET = s.rd F.CPM_OP_CUR → Answers (.wEngineDone) s (fun t =>
    t.pstate = 0 ∧ t.domOn 5 = true ∧ bitOf (t.rd (F.INT_CAUSE_CAUSE 0x1000)) 0 = true))

/-- A sampled onset of class up to 1 on an empty record opens it: class, COUNT 1, scope, CODE and the time now; a further one of the same
scope counts it, and class and MULTI stay (R361, R366). A FATAL one resets the chip and shows in RST_CAUSE and FCU_PRIOR (R372). A
TERMINAL one latches TERM with its source and ends the reductions (R373). Both are for an onset that is not injected, or with DRY = 0
(R378). DRY_ERRN_END ends only the DRY pulse. -/
def Obligations.FaultOnsets : Prop :=
  (∀ (p : PairTrace) (o : Onset) (s : State), s.traceOnset? p = some o → s.on (F.FCU_REC_W0_VALID o.src.val) = false → s.riseClass o (s.onsetClass o) ≤ 1 →
    s.fcu.fatal = false → Answers (.faultOnset p) s (fun t => t.rd (F.FCU_REC_W0_VALID o.src.val) = 1 ∧
    t.rd (F.FCU_REC_W0_CLASS o.src.val) = s.riseClass o (s.onsetClass o) ∧ t.rd (F.FCU_REC_W0_COUNT o.src.val) = 1 ∧
    t.rd (F.FCU_REC_W1_SCOPE_KIND o.src.val) = o.kind.val ∧ t.rd (F.FCU_REC_W1_CODE o.src.val) = o.code.toNat ∧
    t.rd (F.FCU_REC_FIRST_TIME o.src.val) = s.time.now.toNat)) ∧
  (∀ (p : PairTrace) (o : Onset) (s : State), s.traceOnset? p = some o → s.on (F.FCU_REC_W0_VALID o.src.val) = true → s.rd (F.FCU_REC_W0_CLASS o.src.val) = 1 →
    s.onsetClass o ≤ 1 → (o.kind.val = s.rd (F.FCU_REC_W1_SCOPE_KIND o.src.val) ∧ o.scope = s.rd (F.FCU_REC_W1_SCOPE o.src.val)) →
    s.fcu.fatal = false → Answers (.faultOnset p) s (fun t =>
    t.rd (F.FCU_REC_W0_COUNT o.src.val) = min (s.rd (F.FCU_REC_W0_COUNT o.src.val) + 1) 0xFFFF ∧ t.rd (F.FCU_REC_W0_CLASS o.src.val) = 1 ∧
    t.rd (F.FCU_REC_W0_MULTI o.src.val) = s.rd (F.FCU_REC_W0_MULTI o.src.val))) ∧
  (∀ (p : PairTrace) (o : Onset) (s : State), s.traceOnset? p = some o → s.on (F.FCU_REC_W0_VALID o.src.val) = false → s.riseClass o (s.onsetClass o) = 3 →
    (o.inj = false ∨ s.on F.FCU_CTRL_DRY = false) → Answers (.faultOnset p) s (fun t => t.rd F.CPM_RST_CAUSE_FATAL = 1 ∧
    t.rd F.CPM_BOOT_STAGE = 2 ∧ t.rd F.FCU_PRIOR_VALID = 1 ∧ t.rd F.FCU_PRIOR_SRC = o.src.val ∧ t.rd F.FCU_PRIOR_CLASS = 3)) ∧
  (∀ (p : PairTrace) (o : Onset) (s : State), s.traceOnset? p = some o → s.on (F.FCU_REC_W0_VALID o.src.val) = false → s.riseClass o (s.onsetClass o) = 4 →
    (o.inj = false ∨ s.on F.FCU_CTRL_DRY = false) → s.terminal = false → s.fcu.fatal = false → Answers (.faultOnset p) s (fun t =>
    t.rd F.FCU_TERM_LATCHED = 1 ∧ t.rd F.FCU_TERM_SRC = o.src.val ∧ t.rdx.cmds = [])) ∧
  (∀ (p : PairTrace) v vs (s : State), p.samples = v :: vs → Answers (.faultOnset { p with samples := [v] }) s (fun t =>
    exec (.faultOnset p) s = exec (.faultOnset { p with samples := vs }) t)) ∧
  (∀ (p : PairTrace) (s : State), p.samples = [3, 0] → s.sampled (traceOnset p false) = true → (s.pairMem p.src).rail ≠ .wire →
    s.on (F.FCU_REC_W0_VALID p.src.val) = false → s.riseClass (traceOnset p true) (s.onsetClass (traceOnset p true)) ≤ 1 →
    s.fcu.fatal = false → Answers (.faultOnset p) s (fun t => t.rd (F.FCU_REC_W0_VALID p.src.val) = 1 ∧
    t.rd (F.FCU_REC_W0_RAIL p.src.val) = 1 ∧ (t.pairMem p.src).rail = .wire)) ∧
  (∀ (s : State), Answers (.dryErrnEnd) s (fun t => t = { s with fcu := { s.fcu with dryErrn := false } }))

/-- POWER_ON_RESET leaves the queues, circuits, stacks, faults and keys at reset, stage 0, and the flash as it was. PERST before stage 4 is
only remembered; later it is a chip reset. PERST_RELEASE lets stage 3 go on. POR_DONE takes the strap. STARTUP_SUPPLY_DONE goes to
stage 3 or 4 with the supply ordered on; a described supply is shown and set to 700 mV; a failed one stays. FUSE_DONE turns HOST on and
derives the KEK. CLOCK_DONE goes on by form with the clock locked and the inversion shown; DOMAINS_DONE turns every domain on;
LINK_DONE brings the link up: RUN, or HALT when TERMINAL (R53, R317, R421 to R424). -/
def Obligations.StartUp : Prop :=
  (∀ (b : Bool) (s : State), Answers (.powerOnReset b) s (fun t => t.boot.aon = b ∧ t.rd F.CPM_BOOT_STAGE = 0 ∧
    t.rd F.CPM_PWR_STAT_DOM_ON = 1 ∧ t.que = State.reset.que ∧ t.csq = State.reset.csq ∧ t.mss = State.reset.mss ∧ t.fcu = State.reset.fcu ∧
    t.sec = State.reset.sec ∧ (s.jnl.prog = [] → t.jnl.regA = s.jnl.regA ∧ t.jnl.regB = s.jnl.regB))) ∧
  (∀ (s : State), s.stage < 4 → Answers (.perst) s (fun t => t = { s with boot := { s.boot with perstLow := true } })) ∧
  (∀ (s : State), 4 ≤ s.stage → Answers (.perst) s (fun t => t.rd F.CPM_RST_CAUSE_PERST = 1 ∧ t.rd F.CPM_BOOT_STAGE = 2 ∧
    t.rd F.CPM_PWR_STAT_DOM_ON = 1 ∧ t.boot.perstLow = true)) ∧
  (∀ (s : State), Answers (.perstRelease) s (fun t => t.boot.perstLow = false ∧ t.stage = (if s.stage = 3 then 4 else s.stage))) ∧
  (∀ (st : BitVec 3) (s : State), s.stage = 0 → s.boot.aon = true → Answers (.porDone st) s (fun t => t.rd F.GLB_FORM_STRAP = st.toNat ∧
    t.rd F.GLB_FORM_FORM = formOf st.toNat ∧ t.stage = 2)) ∧
  (∀ (s : State), s.stage = 2 → Answers (.startupSupplyDone none true) s (fun t =>
    (t.stage = (if s.rd F.GLB_FORM_FORM = 3 ∨ s.boot.perstLow = false then 4 else 3)) ∧
    t.rd F.CPM_PMB_CFG_PMB_OK = s.rd F.CPM_PMB_CFG_PMB_OK ∧ .pmbus 0x01 0x80 ∈ t.out)) ∧
  (∀ x (s : State), s.stage = 2 → Answers (.startupSupplyDone (some x) true) s (fun t =>
    (t.stage = (if s.rd F.GLB_FORM_FORM = 3 ∨ s.boot.perstLow = false then 4 else 3)) ∧ t.rd F.CPM_PMB_CFG_PMB_OK = 1 ∧
    t.rd F.CPM_PMB_CFG_VOUT_EXP = x.toNat ∧ .pmbus 0x21 700 ∈ t.out ∧ .pmbus 0x01 0x80 ∈ t.out)) ∧
  (∀ x (s : State), s.stage = 2 → Answers (.startupSupplyDone (some x) false) s (fun t => t.stage = 2 ∧ t.fcu.supplyFail = true)) ∧
  (∀ (s : State), s.stage = 4 → s.on F.SEC_STAT_ROOT_LOCKED = false → Answers (.fuseDone true) s (fun t => t.stage = 5 ∧
    t.domOn 1 = true ∧ t.sec.kek = some (kekOf Config.root))) ∧
  (∀ (b : Bool) (s : State), s.stage = 5 → Answers (.clockDone b) s (fun t => t.stage = (if s.rd F.GLB_FORM_FORM = 3 then 9 else 6) ∧
    t.rd F.CPM_CLK_STAT_ROOT_LOCK = 1 ∧ t.rd F.CPM_CLK_STAT_REFCLK_INV = b2n b)) ∧
  (∀ (s : State), s.stage = 6 → Answers (.domainsDone) s (fun t => t.stage = 7 ∧ t.rd F.CPM_PWR_STAT_DOM_ON = 0x3F ∧
    t.rd F.CPM_CLK_STAT_LANE_LOCK = 0xF)) ∧
  (∀ (l : LinkParams) (s : State), s.stage = 7 → s.linkOk l = true → Answers (.linkDone l) s (fun t => t.stage = (if s.terminal then 10 else 8) ∧
    t.rd F.HIF_LINK_STAT_UP = 1)) ∧
  (∀ (l : LinkParams) (s : State), s.linkOk l = false → Answers (.linkDone l) s (fun t => t = s))

/-- IDCODE selects it and returns 0x1001654F; TEST_LOGIC_RESET selects it and sends nothing; EXTEST drives the pins with the boundary
register; SAMPLE_PRELOAD loads the register and returns a free value (pins that the model does not hold, log entry 5); an unlisted
instruction is BYPASS, and with HOST off it does nothing. DBG_CHAL gives a fresh free challenge, or 0 where unlocking is barred.
DBG_RESP with E(KEK, challenge) unlocks; a wrong one counts, holds off and uses up the challenge. DBG_CHAL_EXPIRE and HOLDOFF_END
change only what they end (R438, R439, R442 to R444). -/
def Obligations.DebugPort : Prop :=
  (∀ (s : State), s.domOn 1 = true → Answers (.idcode) s (fun t => t.dbg.ir = 2 ∧ t.dbg.drvPins = false ∧ .tdo 2 0x1001654F ∈ t.out)) ∧
  (∀ (s : State), s.domOn 1 = true → Answers (.testLogicReset) s (fun t => t.dbg.ir = 2 ∧ t.dbg.drvPins = false ∧ t.out = s.out)) ∧
  (∀ (s : State), s.domOn 1 = true → Answers (.extest) s (fun t => t.dbg.ir = 0 ∧ t.dbg.drvPins = true ∧ t.dbg.boundary = s.dbg.boundary)) ∧
  (∀ (v : BitVec 64) (s : State), s.domOn 1 = true → Answers (.samplePreload v) s (fun t => t.dbg.boundary = v.toNat ∧ t.dbg.ir = 1 ∧
    t.dbg.drvPins = false ∧ .tdo 1 (Config.freeValue s.freeCtr) ∈ t.out)) ∧
  (∀ (code : BitVec 6) (s : State), s.domOn 1 = true → [0, 1, 2, 0x10, 0x11, 0x12].contains code.toNat = false →
    Answers (.bypassInstruction code) s (fun t => t.dbg.ir = 0x3F ∧ t.dbg.drvPins = false)) ∧
  (∀ (code : BitVec 6) (s : State), s.domOn 1 = false → Answers (.bypassInstruction code) s (fun t => t = s)) ∧
  (∀ (s : State), s.domOn 1 = true → s.noUnlock = false → Answers (.dbgChal) s (fun t => t.dbg.chal = some (Config.freeValue s.freeCtr) ∧
    .tdo 0x10 (Config.freeValue s.freeCtr) ∈ t.out)) ∧
  (∀ (s : State), s.domOn 1 = true → s.noUnlock = true → Answers (.dbgChal) s (fun t => t.dbg.chal = s.dbg.chal ∧ .tdo 0x10 0 ∈ t.out)) ∧
  (∀ k c (s : State), s.domOn 1 = true → s.noUnlock = false → s.sec.kek = some k → s.dbg.chal = some c →
    Answers (.dbgResp (unlockAnswer k c)) s (fun t => t.rd F.DBG_STAT_UNLOCKED = 1 ∧ t.dbg.chal = none)) ∧
  (∀ (v : BitVec 128) (s : State), s.domOn 1 = true → s.noUnlock = false → s.answers v = false →
    s.rd F.SEC_DBG_FAILS_COUNT + 1 < s.rd F.SEC_TAMPER_POL_DBG_LIMIT → Answers (.dbgResp v) s (fun t =>
    t.rd F.SEC_DBG_FAILS_COUNT = min (s.rd F.SEC_DBG_FAILS_COUNT + 1) (2 ^ F.SEC_DBG_FAILS_COUNT.width - 1) ∧ t.rd F.DBG_STAT_HOLDOFF = 1 ∧
    t.rd F.DBG_STAT_UNLOCKED = s.rd F.DBG_STAT_UNLOCKED ∧ t.dbg.chal = none)) ∧
  (∀ (s : State), Answers (.dbgChalExpire) s (fun t => t = s.setDbg { s.dbg with chal := none })) ∧
  (∀ (s : State), Answers (.holdoffEnd) s (fun t => t = s.wr F.DBG_STAT_HOLDOFF 0))

/-- For each of these writes, every register field but the ones listed, and every part of the state behind the registers but the ones
listed, is as before; a write with a reserved bit set also records RSVD_WR (R32): GLB_SCRATCH; INT_MASK; PAGE_LOCK arming and locking; INT_FORCE; a staged window word and a committed label; a
pair's high half; both doorbells, accepted and ignored; queue BASE and SIZE; ABORT_REFUSED; UNFENCE and KEYRANGE of SEC; a deferred
TAKEOVER; PRIOR_ACK; the EVR cursor; OP_TARGET asleep; TIME_SET (STA's flags and counters, TIME_STATE); the acknowledgement of a TERMINAL record (nothing
changes). A write that is refused with BADVAL changes GLB_ACCESS_ERR and PF0's INT_CAUSE of the GLB page only: a queue SIZE in use,
SEARCH_START without anchor or RING (its MODE is written), UNFENCE with an active source, an overlapping KEYRANGE, REPLAY, TWN_CFG, ATOMIC_GO of a busy slot,
FENCE_SET of an illegal scope, UNFENCE of a held scope, TIME_SET under a parent, SOFTWARE_RESET without its key, DBG_FREEZE from PF0. -/
def Obligations.RegisterWriteFrames : Prop :=
  (∀ v (s : State), s.domOn 1 = true → s.on (F.PAGE_STAT_RST_BUSY 0) = false → Answers (.regWrite 0 ⟨0x60, 4, 15, v⟩) s (fun t =>
    Frame s t [F.GLB_SCRATCH_SCRATCH] [])) ∧
  (∀ (pg : PageIx) (v : DWord) (s : State), s.domOn 1 = true → implAt (0x1000 * pg.val) = true →
    Answers (.regWrite 0 ⟨BitVec.ofNat 20 (0x1000 * pg.val + 0x14), 4, 15, v⟩) s (fun t =>
    Frame s t [F.INT_MASK_MASK (0x1000 * pg.val)] [.outputs, .host])) ∧
  (∀ (r : Req) (pg : PageIx) (s : State), (r.val = 0 ∨ r.val = 65) → s.reaches r (0x1000 * pg.val) = true → lockable pg.val = true →
    s.on (F.PAGE_STAT_LOCKED (0x1000 * pg.val)) = false → s.locks.find? (fun x => x.1 == pg.val) = none →
    Answers (.pageLock r pg 0x4C4B) s (fun t => Frame s t [F.PAGE_STAT_LOCK_ARMED (0x1000 * pg.val)] [.locks])) ∧
  (∀ (r : Req) (pg : PageIx) (s : State), (r.val = 0 ∨ r.val = 65) → s.reaches r (0x1000 * pg.val) = true → lockable pg.val = true →
    s.on (F.PAGE_STAT_LOCKED (0x1000 * pg.val)) = false → s.locks.find? (fun x => x.1 == pg.val) = some (pg.val, r) →
    Answers (.pageLock r pg 0x4B4C) s (fun t =>
    Frame s t [F.PAGE_STAT_LOCKED (0x1000 * pg.val), F.PAGE_STAT_LOCK_ARMED (0x1000 * pg.val)] [.locks])) ∧
  (∀ (r : Req) (pg : PageIx) (v : Word) (s : State), (r.val = 0 ∨ r.val = 65) → s.reaches r (0x1000 * pg.val) = true →
    implAt (0x1000 * pg.val) = true → Answers (.intForce r pg v) s (fun t =>
    Frame s t [F.INT_CAUSE_CAUSE (0x1000 * pg.val)] [.outputs, .host])) ∧
  (∀ (r : Req) (win : Fin 5) (word : Fin 512) (v : Word) i w (s : State), s.pfWrites r (0x40 + win.val) = true →
    winSlot (s.winOf r.val (0x40 + win.val)) (0x40 + win.val) (0x800 + 4 * word.val) = (i, w) → i < (winInfo (0x40 + win.val)).1 →
    4 * w + 4 ≠ (winInfo (0x40 + win.val)).2 → (s.winOf r.val (0x40 + win.val)).staged = none → win.val ≠ 3 →
    Answers (.tableWindowWrite r win word v) s (fun t =>
    WriteFrame s t (v.toNat &&& (0xFFFFFFFF - fieldMask (0x40 + win.val) i w)) [] [.requesters])) ∧
  (∀ (r : Req) (word : Fin 512) (v : Word) i l (s : State), s.pfWrites r 0x40 = true →
    winSlot (s.winOf r.val 0x40) 0x40 (0x800 + 4 * word.val) = (i, 15) → i < 1024 → (s.winOf r.val 0x40).staged = some (i, [(4, l)]) →
    Answers (.tableWindowWrite r 0 word v) s (fun t => WriteFrame s t v.toNat [] [.requesters, .circuits])) ∧
  (∀ (r : Req) (n : Fin 8) (v : Word) lo (s : State), s.pfWrites r 0x0B = true → s.on (F.ATM_STAT_BUSY 0xB000 n.val) = false →
    (s.reqOf r.val).hold.find? (fun h => h.1 == 0xBC08 + 64 * n.val) = some (0xBC08 + 64 * n.val, lo) → lo < 2 ^ 32 →
    Answers (.pairHiWrite r (BitVec.ofNat 20 (0xBC0C + 64 * n.val)) v) s (fun t => Frame s t [F.ATM_OPA_OPA 0xB000 n.val] [.requesters])) ∧
  (∀ (f : Fn) (v : Word) (s : State), s.queWrites f = true → v.toNat % 2 ^ 12 < depth s (F.CMDQ_SIZE_SIZE (qBase f.val)) →
    modSub (depth s (F.CMDQ_SIZE_SIZE (qBase f.val))) (v.toNat % 2 ^ 12) (s.rd (F.CMDQ_TAIL_TAIL (qBase f.val))) ≤ modSub (depth s (F.CMDQ_SIZE_SIZE (qBase f.val))) (s.rd (F.CMDQ_HEAD_HEAD (qBase f.val)) + depth s (F.CMDQ_SIZE_SIZE (qBase f.val)) - 1) (s.rd (F.CMDQ_TAIL_TAIL (qBase f.val))) →
    Answers (.commandDoorbell f v) s (fun t => WriteFrame s t (v.toNat / 2 ^ 12) [F.CMDQ_TAIL_TAIL (qBase f.val)] [.remoteOps])) ∧
  (∀ (f : Fn) (v : Word) (s : State), s.queWrites f = true → depth s (F.CMDQ_SIZE_SIZE (qBase f.val)) ≤ v.toNat % 2 ^ 12 →
    Answers (.commandDoorbell f v) s (fun t =>
    WriteFrame s t (v.toNat / 2 ^ 12) [F.Q_STAT_DB_OVR (qBase f.val), F.INT_CAUSE_CAUSE (pageBase f.val (qPage f.val))] [.outputs, .host])) ∧
  (∀ (f : Fn) (v : Word) (s : State), s.queWrites f = true → v.toNat % 2 ^ 12 < depth s (F.CPLQ_SIZE_SIZE (qBase f.val)) →
    modSub (depth s (F.CPLQ_SIZE_SIZE (qBase f.val))) (v.toNat % 2 ^ 12) (s.rd (F.CPLQ_HEAD_HEAD (qBase f.val))) ≤ modSub (depth s (F.CPLQ_SIZE_SIZE (qBase f.val))) (s.rd (F.CPLQ_TAIL_TAIL (qBase f.val))) (s.rd (F.CPLQ_HEAD_HEAD (qBase f.val))) →
    Answers (.completionDoorbell f v) s (fun t => WriteFrame s t (v.toNat / 2 ^ 12) [F.CPLQ_HEAD_HEAD (qBase f.val)] [])) ∧
  (∀ (f : Fn) (v : DWord) (s : State), s.queWrites f = true → s.cmdqOpen f = true → (4 ≤ v.toNat % 16 ∧ v.toNat % 16 ≤ 12) →
    Answers (.queueConfigWrite f .cmdSize v) s (fun t =>
    WriteFrame s t (v.toNat % 2 ^ 32 / 2 ^ 4) [F.CMDQ_SIZE_SIZE (qBase f.val), F.CMDQ_HEAD_HEAD (qBase f.val), F.CMDQ_TAIL_TAIL (qBase f.val)] [])) ∧
  (∀ (f : Fn) (v : DWord) (s : State), s.queWrites f = true → s.cmdqOpen f = true → Answers (.queueConfigWrite f .cmdBase v) s (fun t =>
    WriteFrame s t (v.toNat % 2 ^ 12) [F.CMDQ_BASE_BASE (qBase f.val), F.CMDQ_HEAD_HEAD (qBase f.val), F.CMDQ_TAIL_TAIL (qBase f.val)] [])) ∧
  (∀ (f : Fn) (v : DWord) (s : State), s.queWrites f = true → s.on (F.Q_CTRL_CPL_EN (qBase f.val)) = false →
    Answers (.queueConfigWrite f .cplBase v) s (fun t =>
    WriteFrame s t (v.toNat % 2 ^ 12) [F.CPLQ_BASE_BASE (qBase f.val), F.CPLQ_HEAD_HEAD (qBase f.val), F.CPLQ_TAIL_TAIL (qBase f.val), F.CPLQ_TAIL_PHASE (qBase f.val)] [])) ∧
  (∀ (f : Fn) (v : DWord) (s : State), s.queWrites f = true → s.on (F.Q_CTRL_CPL_EN (qBase f.val)) = false → (4 ≤ v.toNat % 16 ∧
    v.toNat % 16 ≤ 12) → Answers (.queueConfigWrite f .cplSize v) s (fun t =>
    WriteFrame s t (v.toNat % 2 ^ 32 / 2 ^ 4) [F.CPLQ_SIZE_SIZE (qBase f.val), F.CPLQ_HEAD_HEAD (qBase f.val), F.CPLQ_TAIL_TAIL (qBase f.val), F.CPLQ_TAIL_PHASE (qBase f.val)] [])) ∧
  (∀ (f : Fn) (v : DWord) (s : State), s.queWrites f = true → s.cmdqOpen f = false → Answers (.queueConfigWrite f .cmdSize v) s (fun t =>
    WriteFrame s t (v.toNat % 2 ^ 32 / 2 ^ 4) (accessErrFields F.GLB_ACCESS_ERR_BADVAL) [.outputs, .host])) ∧
  (∀ (r : Req) (v : Word) (s : State), s.pfWrites r 7 = true → (∀ x ∈ s.epoch? v.toNat, 3 ≤ x.st) → Answers (.csqAbort r v) s (fun t =>
    Frame s t [F.CSQ_ABORT_STAT_ABORT_REFUSED] [])) ∧
  (∀ (r : Req) (v : Word) (s : State), s.pfWrites r 5 = true → (s.on F.PFE_LI0_LINES_ANCHOR_OK = false ∨ s.domOn 2 = false) →
    v.getLsbD 1 = false → Answers (.searchStart r v) s (fun t => WriteFrame s t (v.toNat / 2 ^ 3)
    (F.RCU_SEARCH_CTRL_MODE :: accessErrFields F.GLB_ACCESS_ERR_BADVAL) [.outputs, .host])) ∧
  (∀ (r : Req) (s : State), s.pfWrites r 0x0D = true →
    (upTo 5).all (fun i => !bitOf (s.rd F.SEC_TAMPER_STAT_ACTIVE) i || s.tamperPolicy i == 0) = false → Answers (.unfence r) s (fun t =>
    Frame s t (accessErrFields F.GLB_ACCESS_ERR_BADVAL) [.outputs, .host])) ∧
  (∀ (r : Req) (s : State), s.pfWrites r 0x0D = true →
    (upTo 5).all (fun i => !bitOf (s.rd F.SEC_TAMPER_STAT_ACTIVE) i || s.tamperPolicy i == 0) = true → Answers (.unfence r) s (fun t =>
    Frame s t [F.SEC_STAT_FENCE] [])) ∧
  (∀ (r : Req) (n : Fn) (v : Word) (s : State), s.pfWrites r 0x0D = true → n.val ≠ 0 → v.toNat / 2 ^ 16 % 2 ^ 11 ≤ 1024 →
    s.keyrangeOk n.val (v.toNat % 1024) (v.toNat / 2 ^ 16 % 2 ^ 11) = true → Answers (.secKeyrangeWrite r n v) s (fun t =>
    WriteFrame s t (v.toNat &&& 0xF800FC00) [F.SEC_KEYRANGE_BASE n.val, F.SEC_KEYRANGE_COUNT n.val] [])) ∧
  (∀ (r : Req) (n : Fn) (v : Word) (s : State), s.pfWrites r 0x0D = true → n.val ≠ 0 → v.toNat / 2 ^ 16 % 2 ^ 11 ≤ 1024 →
    s.keyrangeOk n.val (v.toNat % 1024) (v.toNat / 2 ^ 16 % 2 ^ 11) = false → Answers (.secKeyrangeWrite r n v) s (fun t =>
    WriteFrame s t (v.toNat &&& 0xF800FC00) (accessErrFields F.GLB_ACCESS_ERR_BADVAL) [.outputs, .host])) ∧
  (∀ (r : Req) (s : State), s.pfWrites r 9 = true →
    (s.en 7 = false ∨ s.en 0x0D = false ∨ s.en 5 = false ∨ s.rd F.JNL_STAT_CSTATE ≠ 0 ∨ s.csq.epochs ≠ []) → Answers (.replay r) s (fun t =>
    Frame s t (accessErrFields F.GLB_ACCESS_ERR_BADVAL) [.outputs, .host])) ∧
  (∀ (r : Req) (v : Word) (s : State), s.pfWrites r 8 = true → (v.toNat % 8 = 7 ∨ v.toNat % 8 = 1 ∨ s.rd F.TWN_CFG_EN = 1 ∧
    v.toNat / 2 ^ 4 % 16 ≠ s.rd F.TWN_CFG_PORT) → Answers (.twnCfgWrite r v) s (fun t =>
    WriteFrame s t (v.toNat &&& 0xC000FF08) (accessErrFields F.GLB_ACCESS_ERR_BADVAL) [.outputs, .host])) ∧
  (∀ (r : Req) (s : State), s.pfWrites r 8 = true → s.role = 2 → s.rd F.TWN_STAT_TKO < 4 → s.frozen 8 = true →
    Answers (.takeover r) s (fun t => Frame s t [F.PAGE_STAT_FREEZE_PEND 0x8000, F.DBG_PEND_PEND] [.twin])) ∧
  (∀ (r : Req) (n : Fin 8) (s : State), s.pfWrites r 0x0B = true → s.on (F.ATM_STAT_BUSY 0xB000 n.val) = true →
    Answers (.atomicGo r n) s (fun t => Frame s t (accessErrFields F.GLB_ACCESS_ERR_BADVAL) [.outputs, .host])) ∧
  (∀ (r : Req) (src : SrcIx) (s : State), s.pfWrites r 0x0E = true → s.on (F.FCU_REC_W0_VALID src.val) = true →
    s.rd (F.FCU_REC_W0_CLASS src.val) = 4 → Answers (.fcuRecordAck r src) s (fun t => Frame s t [] [])) ∧
  (∀ (r : Req) (v : Word) (s : State), s.pfWrites r 0x0E = true → scopeOk (v.toNat % 4) (v.toNat / 2 ^ 8 % 2 ^ 7) = false →
    Answers (.fcuFenceSet r v) s (fun t => WriteFrame s t (v.toNat &&& 0xFFFF80FC) (accessErrFields F.GLB_ACCESS_ERR_BADVAL) [.outputs, .host])) ∧
  (∀ (r : Req) (v : Word) (s : State), s.pfWrites r 0x0E = true →
    s.fcu.fences.any (fun x => x.2 == (v.toNat % 4, v.toNat / 2 ^ 8 % 2 ^ 7) && s.on (F.FCU_REC_W0_VALID x.1)) = true →
    Answers (.fcuUnfence r v) s (fun t =>
    WriteFrame s t (v.toNat &&& 0xFFFF80FC) (accessErrFields F.GLB_ACCESS_ERR_BADVAL) [.outputs, .host])) ∧
  (∀ (r : Req) (s : State), s.pfWrites r 0x0E = true → Answers (.fcuPriorAck r) s (fun t => Frame s t [F.FCU_PRIOR_VALID] [])) ∧
  (∀ (r : Req) (v : BitVec 48) (s : State), s.pfWrites r 0x0F = true → Answers (.evrCursorWrite r v) s (fun t =>
    Frame s t [] [.requesters])) ∧
  (∀ (r : Req) (v : Word) (s : State), s.pfWrites r 1 = true → s.pstate ≠ 0 → Answers (.opTargetWrite r v) s (fun t =>
    WriteFrame s t (v.toNat &&& 0xFFFF8CCC) [F.CPM_OP_TARGET] [.power])) ∧
  (∀ (r : Req) (v : DWord) (s : State), s.pfWrites r 1 = true →
    (s.on F.LNK_TIME_CTRL_ROOT = true ∨ s.on F.LNK_TIME_CTRL_PARENT_EN = false) → Answers (.cpmTimeSet r v) s (fun t =>
    Frame s t [F.STA_FLAGS_FLAGS, F.CPM_TIME_STAT_TIME_STATE] [.time, .partCounters])) ∧
  (∀ (r : Req) (v : DWord) (s : State), s.pfWrites r 1 = true → (s.on F.LNK_TIME_CTRL_ROOT = false ∧
    s.on F.LNK_TIME_CTRL_PARENT_EN = true) → Answers (.cpmTimeSet r v) s (fun t =>
    Frame s t (accessErrFields F.GLB_ACCESS_ERR_BADVAL) [.outputs, .host])) ∧
  (∀ (r : Req) (v : Word) (s : State), s.pfWrites r 1 = true → v.toNat % 2 ^ 16 ≠ 0xA5C3 → Answers (.softwareReset r v) s (fun t =>
    WriteFrame s t (v.toNat / 2 ^ 16) (accessErrFields F.GLB_ACCESS_ERR_BADVAL) [.outputs, .host])) ∧
  (∀ (on : Bool) (s : State), s.pfWrites 0 0x22 = true → Answers (.dbgFreezeAll 0 on) s (fun t =>
    Frame s t (accessErrFields F.GLB_ACCESS_ERR_BADVAL) [.outputs, .host]))

end
end

