-- ==== Sys2Proof/Laws/Tbl.lean ====
section
/-! SUPPORT. Sparse tables: a read after a write, the frame of a write, and the forms a write keeps. -/

namespace Sys2Proof.Machine

variable {α : Type}

theorem Tbl.get_filter_self (d : α) (t : List (Nat × α)) (i : Nat) : Tbl.get d (t.filter (fun x => x.1 != i)) i = d := by
  induction t with
  | nil => rfl
  | cons x t ih =>
    obtain ⟨k, w⟩ := x
    by_cases h : k = i
    · simpa [h] using ih
    · simp [h, Tbl.get, ih]

theorem Tbl.get_filter_ne (d : α) (t : List (Nat × α)) {i j : Nat} (h : j ≠ i) :
    Tbl.get d (t.filter (fun x => x.1 != i)) j = Tbl.get d t j := by
  induction t with
  | nil => rfl
  | cons x t ih =>
    obtain ⟨k, w⟩ := x
    by_cases hk : k = i
    · have hj : ¬ i = j := fun e => h e.symm
      simp [hk, Tbl.get, ih, hj]
    · simp [hk, Tbl.get, ih]

variable [DecidableEq α]

/-- A read after a write of the same key. -/
@[simp] theorem Tbl.get_set_same (d : α) (t : List (Nat × α)) (i : Nat) (v : α) : Tbl.get d (Tbl.set d t i v) i = v := by
  induction t with
  | nil => by_cases h : v = d <;> simp [Tbl.set, Tbl.get, h]
  | cons x t ih =>
    obtain ⟨k, w⟩ := x
    by_cases hik : i ≤ k
    · by_cases hv : v = d
      · simp only [Tbl.set, hik, if_true, hv]
        exact Tbl.get_filter_self d _ i
      · simp [Tbl.set, hik, hv, Tbl.get]
    · have hk : ¬ k = i := by omega
      simp [Tbl.set, hik, Tbl.get, hk, ih]

/-- A write leaves every other key alone. -/
theorem Tbl.get_set_ne (d e : α) (t : List (Nat × α)) {i j : Nat} (v : α) (h : j ≠ i) : Tbl.get d (Tbl.set e t i v) j = Tbl.get d t j := by
  have h' : ¬ i = j := fun e => h e.symm
  induction t with
  | nil => by_cases hv : v = e <;> simp [Tbl.set, Tbl.get, hv, h']
  | cons x t ih =>
    obtain ⟨k, w⟩ := x
    by_cases hik : i ≤ k
    · by_cases hv : v = e
      · simp only [Tbl.set, hik, if_true, hv]
        by_cases he : i = k
        · have hkj : ¬ k = j := by omega
          simp only [he, if_true, Tbl.get, hkj, if_false]
          rw [← he]
          exact Tbl.get_filter_ne d t h
        · simp only [he, if_false]
          exact Tbl.get_filter_ne d _ h
      · by_cases he : i = k
        · have hkj : ¬ k = j := by omega
          simp [Tbl.set, hv, Tbl.get, he, hkj]
        · simp [Tbl.set, hik, hv, Tbl.get, he, h']
    · simp only [Tbl.set, hik, if_false, Tbl.get, ih]

/-- A read after a write, of any key. -/
theorem Tbl.get_set (d : α) (t : List (Nat × α)) (i j : Nat) (v : α) :
    Tbl.get d (Tbl.set d t i v) j = if j = i then v else Tbl.get d t j := by
  split
  · next h => rw [h, Tbl.get_set_same]
  · next h => exact Tbl.get_set_ne d d t v h

omit [DecidableEq α] in
theorem risingFrom_mono {a b : Nat} (t : List (Nat × α)) (h : a ≤ b) (ht : risingFrom b t = true) : risingFrom a t = true := by
  cases t with
  | nil => rfl
  | cons x t =>
    obtain ⟨k, w⟩ := x
    simp only [risingFrom, Bool.and_eq_true, decide_eq_true_eq] at ht ⊢
    exact ⟨by omega, ht.2⟩

omit [DecidableEq α] in
theorem risingFrom_filter (p : Nat × α → Bool) (t : List (Nat × α)) (b : Nat) (ht : risingFrom b t = true) :
    risingFrom b (t.filter p) = true := by
  induction t generalizing b with
  | nil => rfl
  | cons x t ih =>
    obtain ⟨k, w⟩ := x
    simp only [risingFrom, Bool.and_eq_true, decide_eq_true_eq] at ht
    by_cases hp : p (k, w)
    · simp only [List.filter, hp, risingFrom, Bool.and_eq_true, decide_eq_true_eq]
      exact ⟨ht.1, ih _ ht.2⟩
    · simp only [List.filter, hp]
      exact ih _ (risingFrom_mono t (by omega) ht.2)

/-- A write keeps the keys rising. -/
theorem risingFrom_set (d : α) (t : List (Nat × α)) (i : Nat) (v : α) (b : Nat) (hb : b ≤ i) (ht : risingFrom b t = true) :
    risingFrom b (Tbl.set d t i v) = true := by
  induction t generalizing b with
  | nil => by_cases hv : v = d <;> simp [Tbl.set, hv, risingFrom, hb]
  | cons x t ih =>
    obtain ⟨k, w⟩ := x
    have ht' := ht
    simp only [risingFrom, Bool.and_eq_true, decide_eq_true_eq] at ht
    by_cases hik : i ≤ k
    · have hrest : risingFrom (i + 1) (if i = k then t else (k, w) :: t) = true := by
        split
        · next h => rw [h]; exact ht.2
        · next h =>
          simp only [risingFrom, Bool.and_eq_true, decide_eq_true_eq]
          exact ⟨by omega, ht.2⟩
      simp only [Tbl.set, hik, if_true]
      split
      · refine risingFrom_filter _ _ _ (risingFrom_mono _ ?_ hrest)
        omega
      · simp only [risingFrom, Bool.and_eq_true, decide_eq_true_eq]
        exact ⟨hb, hrest⟩
    · simp only [Tbl.set, hik, if_false, risingFrom, Bool.and_eq_true, decide_eq_true_eq]
      exact ⟨ht.1, ih _ (by omega) ht.2⟩

theorem Tbl.wfFrom_mono (d : α) {a b : Nat} (t : List (Nat × α)) (h : a ≤ b) (ht : Tbl.wfFrom d b t = true) : Tbl.wfFrom d a t = true := by
  cases t with
  | nil => rfl
  | cons x t =>
    obtain ⟨k, w⟩ := x
    simp only [Tbl.wfFrom, Bool.and_eq_true, decide_eq_true_eq] at ht ⊢
    exact ⟨⟨by omega, ht.1.2⟩, ht.2⟩

theorem Tbl.wfFrom_filter (d : α) (p : Nat × α → Bool) (t : List (Nat × α)) (b : Nat) (ht : Tbl.wfFrom d b t = true) :
    Tbl.wfFrom d b (t.filter p) = true := by
  induction t generalizing b with
  | nil => rfl
  | cons x t ih =>
    obtain ⟨k, w⟩ := x
    simp only [Tbl.wfFrom, Bool.and_eq_true, decide_eq_true_eq] at ht
    by_cases hp : p (k, w)
    · simp only [List.filter, hp, Tbl.wfFrom, Bool.and_eq_true, decide_eq_true_eq]
      exact ⟨ht.1, ih _ ht.2⟩
    · simp only [List.filter, hp]
      exact ih _ (Tbl.wfFrom_mono d t (by omega) ht.2)

/-- A write keeps the canonical form. -/
theorem Tbl.wfFrom_set (d : α) (t : List (Nat × α)) (i : Nat) (v : α) (b : Nat) (hb : b ≤ i) (ht : Tbl.wfFrom d b t = true) :
    Tbl.wfFrom d b (Tbl.set d t i v) = true := by
  induction t generalizing b with
  | nil => by_cases hv : v = d <;> simp [Tbl.set, hv, Tbl.wfFrom, hb]
  | cons x t ih =>
    obtain ⟨k, w⟩ := x
    simp only [Tbl.wfFrom, Bool.and_eq_true, decide_eq_true_eq] at ht
    by_cases hik : i ≤ k
    · have hrest : Tbl.wfFrom d (i + 1) (if i = k then t else (k, w) :: t) = true := by
        split
        · next h => rw [h]; exact ht.2
        · next h =>
          simp only [Tbl.wfFrom, Bool.and_eq_true, decide_eq_true_eq]
          exact ⟨⟨by omega, ht.1.2⟩, ht.2⟩
      simp only [Tbl.set, hik, if_true]
      split
      · refine Tbl.wfFrom_filter _ _ _ _ (Tbl.wfFrom_mono _ _ ?_ hrest)
        omega
      · next hv =>
        simp only [Tbl.wfFrom, Bool.and_eq_true, decide_eq_true_eq]
        exact ⟨⟨hb, hv⟩, hrest⟩
    · simp only [Tbl.set, hik, if_false, Tbl.wfFrom, Bool.and_eq_true, decide_eq_true_eq]
      exact ⟨ht.1, ih _ (by omega) ht.2⟩

end Sys2Proof.Machine
end

