-- ==== Sys2Proof/Laws/Memory.lean ====
section
/-! SUPPORT. The stacks' memory: the canonical form holds at reset and every write keeps it; a read after a write, and its frame. -/

namespace Sys2Proof.Machine

theorem Memory.wf_nil : Memory.wf [] = true := rfl

theorem Memory.wf_write (m : List Host.Cell) (a : Nat) (b : Byte) (h : Memory.wf m = true) : Memory.wf (Memory.write m a b) = true :=
  Tbl.wfFrom_set 0 m a b 0 (Nat.zero_le a) h

theorem Memory.wf_filter (p : Host.Cell → Bool) (m : List Host.Cell) (h : Memory.wf m = true) : Memory.wf (m.filter p) = true :=
  Tbl.wfFrom_filter 0 p m 0 h

@[simp] theorem Memory.read_write_same (m : List Host.Cell) (a : Nat) (b : Byte) : Memory.read (Memory.write m a b) a = b :=
  Tbl.get_set_same 0 m a b

theorem Memory.read_write_ne (m : List Host.Cell) {a c : Nat} (b : Byte) (h : c ≠ a) : Memory.read (Memory.write m a b) c = Memory.read m c :=
  Tbl.get_set_ne 0 0 m b h

@[simp] theorem Memory.read_nil (a : Nat) : Memory.read [] a = 0 := rfl

theorem reset_memory_wf : Memory.wf State.reset.mss.mem = true := rfl

theorem reset_wf : State.reset.wf = true := rfl

end Sys2Proof.Machine
end

