-- ==== Sys2Proof/Laws/State.lean ====
section
/-! SUPPORT. Each field of the state after each update of one component, and register fields read after a write. -/

namespace Sys2Proof.Machine

/-- A register field reads as last written, cut to its width. -/
@[simp] theorem State.rd_wr_same (s : State) (f : Fld) (v : Nat) : (s.wr f v).rd f = v % 2 ^ f.width := by
  simp [State.rd, State.wr, Tbl.get_set_same]

/-- A write leaves every other register field alone. -/
theorem State.rd_wr_ne (s : State) {f g : Fld} (v : Nat) (h : g.key ≠ f.key) : (s.wr f v).rd g = s.rd g := by
  simp [State.rd, State.wr, Tbl.get_set_ne _ _ _ _ h]

/-- A field's value fits the field. -/
theorem State.rd_lt (s : State) (f : Fld) : s.rd f < 2 ^ f.width := Nat.mod_lt _ (Nat.two_pow_pos _)

theorem State.on_wr_ne (s : State) {f g : Fld} (v : Nat) (h : g.key ≠ f.key) : (s.wr f v).on g = s.on g := by
  unfold State.on; rw [State.rd_wr_ne s v h]

@[simp] theorem State.wrs_nil (s : State) : s.wrs [] = s := rfl

@[simp] theorem State.wrs_cons (s : State) (f : Fld) (v : Nat) (l : List (Fld × Nat)) : s.wrs ((f, v) :: l) = (s.wr f v).wrs l := rfl

@[simp] theorem State.clr_nil (s : State) : s.clr [] = s := rfl

@[simp] theorem State.clr_cons (s : State) (f : Fld) (l : List Fld) : s.clr (f :: l) = (s.wr f f.reset).clr l := rfl

/-! wr -/

@[simp] theorem State.wr_pending (s : State) (f : Fld) (v : Nat) : (s.wr f v).pending = s.pending := rfl
@[simp] theorem State.wr_out (s : State) (f : Fld) (v : Nat) : (s.wr f v).out = s.out := rfl
@[simp] theorem State.wr_freeCtr (s : State) (f : Fld) (v : Nat) : (s.wr f v).freeCtr = s.freeCtr := rfl
@[simp] theorem State.wr_time (s : State) (f : Fld) (v : Nat) : (s.wr f v).time = s.time := rfl
@[simp] theorem State.wr_host (s : State) (f : Fld) (v : Nat) : (s.wr f v).host = s.host := rfl
@[simp] theorem State.wr_req (s : State) (f : Fld) (v : Nat) : (s.wr f v).req = s.req := rfl
@[simp] theorem State.wr_locks (s : State) (f : Fld) (v : Nat) : (s.wr f v).locks = s.locks := rfl
@[simp] theorem State.wr_que (s : State) (f : Fld) (v : Nat) : (s.wr f v).que = s.que := rfl
@[simp] theorem State.wr_rcu (s : State) (f : Fld) (v : Nat) : (s.wr f v).rcu = s.rcu := rfl
@[simp] theorem State.wr_lnk (s : State) (f : Fld) (v : Nat) : (s.wr f v).lnk = s.lnk := rfl
@[simp] theorem State.wr_csq (s : State) (f : Fld) (v : Nat) : (s.wr f v).csq = s.csq := rfl
@[simp] theorem State.wr_twn (s : State) (f : Fld) (v : Nat) : (s.wr f v).twn = s.twn := rfl
@[simp] theorem State.wr_jnl (s : State) (f : Fld) (v : Nat) : (s.wr f v).jnl = s.jnl := rfl
@[simp] theorem State.wr_mss (s : State) (f : Fld) (v : Nat) : (s.wr f v).mss = s.mss := rfl
@[simp] theorem State.wr_rme (s : State) (f : Fld) (v : Nat) : (s.wr f v).rme = s.rme := rfl
@[simp] theorem State.wr_rdx (s : State) (f : Fld) (v : Nat) : (s.wr f v).rdx = s.rdx := rfl
@[simp] theorem State.wr_psm (s : State) (f : Fld) (v : Nat) : (s.wr f v).psm = s.psm := rfl
@[simp] theorem State.wr_sec (s : State) (f : Fld) (v : Nat) : (s.wr f v).sec = s.sec := rfl
@[simp] theorem State.wr_fcu (s : State) (f : Fld) (v : Nat) : (s.wr f v).fcu = s.fcu := rfl
@[simp] theorem State.wr_evr (s : State) (f : Fld) (v : Nat) : (s.wr f v).evr = s.evr := rfl
@[simp] theorem State.wr_sta (s : State) (f : Fld) (v : Nat) : (s.wr f v).sta = s.sta := rfl
@[simp] theorem State.wr_cpm (s : State) (f : Fld) (v : Nat) : (s.wr f v).cpm = s.cpm := rfl
@[simp] theorem State.wr_boot (s : State) (f : Fld) (v : Nat) : (s.wr f v).boot = s.boot := rfl
@[simp] theorem State.wr_dbg (s : State) (f : Fld) (v : Nat) : (s.wr f v).dbg = s.dbg := rfl

/-! send -/

@[simp] theorem State.send_pending (s : State) (o : Output) : (s.send o).pending = s.pending := rfl
@[simp] theorem State.send_out (s : State) (o : Output) : (s.send o).out = s.out ++ [o] := rfl
@[simp] theorem State.send_freeCtr (s : State) (o : Output) : (s.send o).freeCtr = s.freeCtr := rfl
@[simp] theorem State.send_regs (s : State) (o : Output) : (s.send o).regs = s.regs := rfl
@[simp] theorem State.send_time (s : State) (o : Output) : (s.send o).time = s.time := rfl
@[simp] theorem State.send_host (s : State) (o : Output) : (s.send o).host = s.host := rfl
@[simp] theorem State.send_req (s : State) (o : Output) : (s.send o).req = s.req := rfl
@[simp] theorem State.send_locks (s : State) (o : Output) : (s.send o).locks = s.locks := rfl
@[simp] theorem State.send_que (s : State) (o : Output) : (s.send o).que = s.que := rfl
@[simp] theorem State.send_rcu (s : State) (o : Output) : (s.send o).rcu = s.rcu := rfl
@[simp] theorem State.send_lnk (s : State) (o : Output) : (s.send o).lnk = s.lnk := rfl
@[simp] theorem State.send_csq (s : State) (o : Output) : (s.send o).csq = s.csq := rfl
@[simp] theorem State.send_twn (s : State) (o : Output) : (s.send o).twn = s.twn := rfl
@[simp] theorem State.send_jnl (s : State) (o : Output) : (s.send o).jnl = s.jnl := rfl
@[simp] theorem State.send_mss (s : State) (o : Output) : (s.send o).mss = s.mss := rfl
@[simp] theorem State.send_rme (s : State) (o : Output) : (s.send o).rme = s.rme := rfl
@[simp] theorem State.send_rdx (s : State) (o : Output) : (s.send o).rdx = s.rdx := rfl
@[simp] theorem State.send_psm (s : State) (o : Output) : (s.send o).psm = s.psm := rfl
@[simp] theorem State.send_sec (s : State) (o : Output) : (s.send o).sec = s.sec := rfl
@[simp] theorem State.send_fcu (s : State) (o : Output) : (s.send o).fcu = s.fcu := rfl
@[simp] theorem State.send_evr (s : State) (o : Output) : (s.send o).evr = s.evr := rfl
@[simp] theorem State.send_sta (s : State) (o : Output) : (s.send o).sta = s.sta := rfl
@[simp] theorem State.send_cpm (s : State) (o : Output) : (s.send o).cpm = s.cpm := rfl
@[simp] theorem State.send_boot (s : State) (o : Output) : (s.send o).boot = s.boot := rfl
@[simp] theorem State.send_dbg (s : State) (o : Output) : (s.send o).dbg = s.dbg := rfl
@[simp] theorem State.send_rd (s : State) (o : Output) (g : Fld) : (s.send o).rd g = s.rd g := rfl
@[simp] theorem State.send_on (s : State) (o : Output) (g : Fld) : (s.send o).on g = s.on g := rfl

/-! setHostFn -/

@[simp] theorem State.setHostFn_pending (s : State) (f : Nat) (x : HostFn) : (s.setHostFn f x).pending = s.pending := rfl
@[simp] theorem State.setHostFn_out (s : State) (f : Nat) (x : HostFn) : (s.setHostFn f x).out = s.out := rfl
@[simp] theorem State.setHostFn_freeCtr (s : State) (f : Nat) (x : HostFn) : (s.setHostFn f x).freeCtr = s.freeCtr := rfl
@[simp] theorem State.setHostFn_regs (s : State) (f : Nat) (x : HostFn) : (s.setHostFn f x).regs = s.regs := rfl
@[simp] theorem State.setHostFn_time (s : State) (f : Nat) (x : HostFn) : (s.setHostFn f x).time = s.time := rfl
@[simp] theorem State.setHostFn_host (s : State) (f : Nat) (x : HostFn) : (s.setHostFn f x).host = { s.host with fns := Tbl.set {} s.host.fns f x } := rfl
@[simp] theorem State.setHostFn_req (s : State) (f : Nat) (x : HostFn) : (s.setHostFn f x).req = s.req := rfl
@[simp] theorem State.setHostFn_locks (s : State) (f : Nat) (x : HostFn) : (s.setHostFn f x).locks = s.locks := rfl
@[simp] theorem State.setHostFn_que (s : State) (f : Nat) (x : HostFn) : (s.setHostFn f x).que = s.que := rfl
@[simp] theorem State.setHostFn_rcu (s : State) (f : Nat) (x : HostFn) : (s.setHostFn f x).rcu = s.rcu := rfl
@[simp] theorem State.setHostFn_lnk (s : State) (f : Nat) (x : HostFn) : (s.setHostFn f x).lnk = s.lnk := rfl
@[simp] theorem State.setHostFn_csq (s : State) (f : Nat) (x : HostFn) : (s.setHostFn f x).csq = s.csq := rfl
@[simp] theorem State.setHostFn_twn (s : State) (f : Nat) (x : HostFn) : (s.setHostFn f x).twn = s.twn := rfl
@[simp] theorem State.setHostFn_jnl (s : State) (f : Nat) (x : HostFn) : (s.setHostFn f x).jnl = s.jnl := rfl
@[simp] theorem State.setHostFn_mss (s : State) (f : Nat) (x : HostFn) : (s.setHostFn f x).mss = s.mss := rfl
@[simp] theorem State.setHostFn_rme (s : State) (f : Nat) (x : HostFn) : (s.setHostFn f x).rme = s.rme := rfl
@[simp] theorem State.setHostFn_rdx (s : State) (f : Nat) (x : HostFn) : (s.setHostFn f x).rdx = s.rdx := rfl
@[simp] theorem State.setHostFn_psm (s : State) (f : Nat) (x : HostFn) : (s.setHostFn f x).psm = s.psm := rfl
@[simp] theorem State.setHostFn_sec (s : State) (f : Nat) (x : HostFn) : (s.setHostFn f x).sec = s.sec := rfl
@[simp] theorem State.setHostFn_fcu (s : State) (f : Nat) (x : HostFn) : (s.setHostFn f x).fcu = s.fcu := rfl
@[simp] theorem State.setHostFn_evr (s : State) (f : Nat) (x : HostFn) : (s.setHostFn f x).evr = s.evr := rfl
@[simp] theorem State.setHostFn_sta (s : State) (f : Nat) (x : HostFn) : (s.setHostFn f x).sta = s.sta := rfl
@[simp] theorem State.setHostFn_cpm (s : State) (f : Nat) (x : HostFn) : (s.setHostFn f x).cpm = s.cpm := rfl
@[simp] theorem State.setHostFn_boot (s : State) (f : Nat) (x : HostFn) : (s.setHostFn f x).boot = s.boot := rfl
@[simp] theorem State.setHostFn_dbg (s : State) (f : Nat) (x : HostFn) : (s.setHostFn f x).dbg = s.dbg := rfl
@[simp] theorem State.setHostFn_rd (s : State) (f : Nat) (x : HostFn) (g : Fld) : (s.setHostFn f x).rd g = s.rd g := rfl
@[simp] theorem State.setHostFn_on (s : State) (f : Nat) (x : HostFn) (g : Fld) : (s.setHostFn f x).on g = s.on g := rfl

/-! setCmds -/

@[simp] theorem State.setCmds_pending (s : State) (l : List Cmd) : (s.setCmds l).pending = s.pending := rfl
@[simp] theorem State.setCmds_out (s : State) (l : List Cmd) : (s.setCmds l).out = s.out := rfl
@[simp] theorem State.setCmds_freeCtr (s : State) (l : List Cmd) : (s.setCmds l).freeCtr = s.freeCtr := rfl
@[simp] theorem State.setCmds_regs (s : State) (l : List Cmd) : (s.setCmds l).regs = s.regs := rfl
@[simp] theorem State.setCmds_time (s : State) (l : List Cmd) : (s.setCmds l).time = s.time := rfl
@[simp] theorem State.setCmds_host (s : State) (l : List Cmd) : (s.setCmds l).host = s.host := rfl
@[simp] theorem State.setCmds_req (s : State) (l : List Cmd) : (s.setCmds l).req = s.req := rfl
@[simp] theorem State.setCmds_locks (s : State) (l : List Cmd) : (s.setCmds l).locks = s.locks := rfl
@[simp] theorem State.setCmds_que (s : State) (l : List Cmd) : (s.setCmds l).que = { s.que with inflight := l } := rfl
@[simp] theorem State.setCmds_rcu (s : State) (l : List Cmd) : (s.setCmds l).rcu = s.rcu := rfl
@[simp] theorem State.setCmds_lnk (s : State) (l : List Cmd) : (s.setCmds l).lnk = s.lnk := rfl
@[simp] theorem State.setCmds_csq (s : State) (l : List Cmd) : (s.setCmds l).csq = s.csq := rfl
@[simp] theorem State.setCmds_twn (s : State) (l : List Cmd) : (s.setCmds l).twn = s.twn := rfl
@[simp] theorem State.setCmds_jnl (s : State) (l : List Cmd) : (s.setCmds l).jnl = s.jnl := rfl
@[simp] theorem State.setCmds_mss (s : State) (l : List Cmd) : (s.setCmds l).mss = s.mss := rfl
@[simp] theorem State.setCmds_rme (s : State) (l : List Cmd) : (s.setCmds l).rme = s.rme := rfl
@[simp] theorem State.setCmds_rdx (s : State) (l : List Cmd) : (s.setCmds l).rdx = s.rdx := rfl
@[simp] theorem State.setCmds_psm (s : State) (l : List Cmd) : (s.setCmds l).psm = s.psm := rfl
@[simp] theorem State.setCmds_sec (s : State) (l : List Cmd) : (s.setCmds l).sec = s.sec := rfl
@[simp] theorem State.setCmds_fcu (s : State) (l : List Cmd) : (s.setCmds l).fcu = s.fcu := rfl
@[simp] theorem State.setCmds_evr (s : State) (l : List Cmd) : (s.setCmds l).evr = s.evr := rfl
@[simp] theorem State.setCmds_sta (s : State) (l : List Cmd) : (s.setCmds l).sta = s.sta := rfl
@[simp] theorem State.setCmds_cpm (s : State) (l : List Cmd) : (s.setCmds l).cpm = s.cpm := rfl
@[simp] theorem State.setCmds_boot (s : State) (l : List Cmd) : (s.setCmds l).boot = s.boot := rfl
@[simp] theorem State.setCmds_dbg (s : State) (l : List Cmd) : (s.setCmds l).dbg = s.dbg := rfl
@[simp] theorem State.setCmds_rd (s : State) (l : List Cmd) (g : Fld) : (s.setCmds l).rd g = s.rd g := rfl
@[simp] theorem State.setCmds_on (s : State) (l : List Cmd) (g : Fld) : (s.setCmds l).on g = s.on g := rfl

/-! advanceTo -/

@[simp] theorem State.advanceTo_pending (s : State) (t : DWord) : (s.advanceTo t).pending = s.pending := rfl
@[simp] theorem State.advanceTo_out (s : State) (t : DWord) : (s.advanceTo t).out = s.out := rfl
@[simp] theorem State.advanceTo_freeCtr (s : State) (t : DWord) : (s.advanceTo t).freeCtr = s.freeCtr := rfl
@[simp] theorem State.advanceTo_regs (s : State) (t : DWord) : (s.advanceTo t).regs = s.regs := rfl
@[simp] theorem State.advanceTo_host (s : State) (t : DWord) : (s.advanceTo t).host = s.host := rfl
@[simp] theorem State.advanceTo_req (s : State) (t : DWord) : (s.advanceTo t).req = s.req := rfl
@[simp] theorem State.advanceTo_locks (s : State) (t : DWord) : (s.advanceTo t).locks = s.locks := rfl
@[simp] theorem State.advanceTo_que (s : State) (t : DWord) : (s.advanceTo t).que = s.que := rfl
@[simp] theorem State.advanceTo_rcu (s : State) (t : DWord) : (s.advanceTo t).rcu = s.rcu := rfl
@[simp] theorem State.advanceTo_lnk (s : State) (t : DWord) : (s.advanceTo t).lnk = s.lnk := rfl
@[simp] theorem State.advanceTo_csq (s : State) (t : DWord) : (s.advanceTo t).csq = s.csq := rfl
@[simp] theorem State.advanceTo_twn (s : State) (t : DWord) : (s.advanceTo t).twn = s.twn := rfl
@[simp] theorem State.advanceTo_jnl (s : State) (t : DWord) : (s.advanceTo t).jnl = s.jnl := rfl
@[simp] theorem State.advanceTo_mss (s : State) (t : DWord) : (s.advanceTo t).mss = s.mss := rfl
@[simp] theorem State.advanceTo_rme (s : State) (t : DWord) : (s.advanceTo t).rme = s.rme := rfl
@[simp] theorem State.advanceTo_rdx (s : State) (t : DWord) : (s.advanceTo t).rdx = s.rdx := rfl
@[simp] theorem State.advanceTo_psm (s : State) (t : DWord) : (s.advanceTo t).psm = s.psm := rfl
@[simp] theorem State.advanceTo_sec (s : State) (t : DWord) : (s.advanceTo t).sec = s.sec := rfl
@[simp] theorem State.advanceTo_fcu (s : State) (t : DWord) : (s.advanceTo t).fcu = s.fcu := rfl
@[simp] theorem State.advanceTo_evr (s : State) (t : DWord) : (s.advanceTo t).evr = s.evr := rfl
@[simp] theorem State.advanceTo_sta (s : State) (t : DWord) : (s.advanceTo t).sta = s.sta := rfl
@[simp] theorem State.advanceTo_cpm (s : State) (t : DWord) : (s.advanceTo t).cpm = s.cpm := rfl
@[simp] theorem State.advanceTo_boot (s : State) (t : DWord) : (s.advanceTo t).boot = s.boot := rfl
@[simp] theorem State.advanceTo_dbg (s : State) (t : DWord) : (s.advanceTo t).dbg = s.dbg := rfl
@[simp] theorem State.advanceTo_rd (s : State) (t : DWord) (g : Fld) : (s.advanceTo t).rd g = s.rd g := rfl
@[simp] theorem State.advanceTo_on (s : State) (t : DWord) (g : Fld) : (s.advanceTo t).on g = s.on g := rfl

/-! setReq -/

@[simp] theorem State.setReq_pending (s : State) (r : Nat) (x : ReqState) : (s.setReq r x).pending = s.pending := rfl
@[simp] theorem State.setReq_out (s : State) (r : Nat) (x : ReqState) : (s.setReq r x).out = s.out := rfl
@[simp] theorem State.setReq_freeCtr (s : State) (r : Nat) (x : ReqState) : (s.setReq r x).freeCtr = s.freeCtr := rfl
@[simp] theorem State.setReq_regs (s : State) (r : Nat) (x : ReqState) : (s.setReq r x).regs = s.regs := rfl
@[simp] theorem State.setReq_time (s : State) (r : Nat) (x : ReqState) : (s.setReq r x).time = s.time := rfl
@[simp] theorem State.setReq_host (s : State) (r : Nat) (x : ReqState) : (s.setReq r x).host = s.host := rfl
@[simp] theorem State.setReq_req (s : State) (r : Nat) (x : ReqState) : (s.setReq r x).req = Tbl.set {} s.req r x := rfl
@[simp] theorem State.setReq_locks (s : State) (r : Nat) (x : ReqState) : (s.setReq r x).locks = s.locks := rfl
@[simp] theorem State.setReq_que (s : State) (r : Nat) (x : ReqState) : (s.setReq r x).que = s.que := rfl
@[simp] theorem State.setReq_rcu (s : State) (r : Nat) (x : ReqState) : (s.setReq r x).rcu = s.rcu := rfl
@[simp] theorem State.setReq_lnk (s : State) (r : Nat) (x : ReqState) : (s.setReq r x).lnk = s.lnk := rfl
@[simp] theorem State.setReq_csq (s : State) (r : Nat) (x : ReqState) : (s.setReq r x).csq = s.csq := rfl
@[simp] theorem State.setReq_twn (s : State) (r : Nat) (x : ReqState) : (s.setReq r x).twn = s.twn := rfl
@[simp] theorem State.setReq_jnl (s : State) (r : Nat) (x : ReqState) : (s.setReq r x).jnl = s.jnl := rfl
@[simp] theorem State.setReq_mss (s : State) (r : Nat) (x : ReqState) : (s.setReq r x).mss = s.mss := rfl
@[simp] theorem State.setReq_rme (s : State) (r : Nat) (x : ReqState) : (s.setReq r x).rme = s.rme := rfl
@[simp] theorem State.setReq_rdx (s : State) (r : Nat) (x : ReqState) : (s.setReq r x).rdx = s.rdx := rfl
@[simp] theorem State.setReq_psm (s : State) (r : Nat) (x : ReqState) : (s.setReq r x).psm = s.psm := rfl
@[simp] theorem State.setReq_sec (s : State) (r : Nat) (x : ReqState) : (s.setReq r x).sec = s.sec := rfl
@[simp] theorem State.setReq_fcu (s : State) (r : Nat) (x : ReqState) : (s.setReq r x).fcu = s.fcu := rfl
@[simp] theorem State.setReq_evr (s : State) (r : Nat) (x : ReqState) : (s.setReq r x).evr = s.evr := rfl
@[simp] theorem State.setReq_sta (s : State) (r : Nat) (x : ReqState) : (s.setReq r x).sta = s.sta := rfl
@[simp] theorem State.setReq_cpm (s : State) (r : Nat) (x : ReqState) : (s.setReq r x).cpm = s.cpm := rfl
@[simp] theorem State.setReq_boot (s : State) (r : Nat) (x : ReqState) : (s.setReq r x).boot = s.boot := rfl
@[simp] theorem State.setReq_dbg (s : State) (r : Nat) (x : ReqState) : (s.setReq r x).dbg = s.dbg := rfl
@[simp] theorem State.setReq_rd (s : State) (r : Nat) (x : ReqState) (g : Fld) : (s.setReq r x).rd g = s.rd g := rfl
@[simp] theorem State.setReq_on (s : State) (r : Nat) (x : ReqState) (g : Fld) : (s.setReq r x).on g = s.on g := rfl

/-! setCsq -/

@[simp] theorem State.setCsq_pending (s : State) (x : CsqState) : (s.setCsq x).pending = s.pending := rfl
@[simp] theorem State.setCsq_out (s : State) (x : CsqState) : (s.setCsq x).out = s.out := rfl
@[simp] theorem State.setCsq_freeCtr (s : State) (x : CsqState) : (s.setCsq x).freeCtr = s.freeCtr := rfl
@[simp] theorem State.setCsq_regs (s : State) (x : CsqState) : (s.setCsq x).regs = s.regs := rfl
@[simp] theorem State.setCsq_time (s : State) (x : CsqState) : (s.setCsq x).time = s.time := rfl
@[simp] theorem State.setCsq_host (s : State) (x : CsqState) : (s.setCsq x).host = s.host := rfl
@[simp] theorem State.setCsq_req (s : State) (x : CsqState) : (s.setCsq x).req = s.req := rfl
@[simp] theorem State.setCsq_locks (s : State) (x : CsqState) : (s.setCsq x).locks = s.locks := rfl
@[simp] theorem State.setCsq_que (s : State) (x : CsqState) : (s.setCsq x).que = s.que := rfl
@[simp] theorem State.setCsq_rcu (s : State) (x : CsqState) : (s.setCsq x).rcu = s.rcu := rfl
@[simp] theorem State.setCsq_lnk (s : State) (x : CsqState) : (s.setCsq x).lnk = s.lnk := rfl
@[simp] theorem State.setCsq_csq (s : State) (x : CsqState) : (s.setCsq x).csq = x := rfl
@[simp] theorem State.setCsq_twn (s : State) (x : CsqState) : (s.setCsq x).twn = s.twn := rfl
@[simp] theorem State.setCsq_jnl (s : State) (x : CsqState) : (s.setCsq x).jnl = s.jnl := rfl
@[simp] theorem State.setCsq_mss (s : State) (x : CsqState) : (s.setCsq x).mss = s.mss := rfl
@[simp] theorem State.setCsq_rme (s : State) (x : CsqState) : (s.setCsq x).rme = s.rme := rfl
@[simp] theorem State.setCsq_rdx (s : State) (x : CsqState) : (s.setCsq x).rdx = s.rdx := rfl
@[simp] theorem State.setCsq_psm (s : State) (x : CsqState) : (s.setCsq x).psm = s.psm := rfl
@[simp] theorem State.setCsq_sec (s : State) (x : CsqState) : (s.setCsq x).sec = s.sec := rfl
@[simp] theorem State.setCsq_fcu (s : State) (x : CsqState) : (s.setCsq x).fcu = s.fcu := rfl
@[simp] theorem State.setCsq_evr (s : State) (x : CsqState) : (s.setCsq x).evr = s.evr := rfl
@[simp] theorem State.setCsq_sta (s : State) (x : CsqState) : (s.setCsq x).sta = s.sta := rfl
@[simp] theorem State.setCsq_cpm (s : State) (x : CsqState) : (s.setCsq x).cpm = s.cpm := rfl
@[simp] theorem State.setCsq_boot (s : State) (x : CsqState) : (s.setCsq x).boot = s.boot := rfl
@[simp] theorem State.setCsq_dbg (s : State) (x : CsqState) : (s.setCsq x).dbg = s.dbg := rfl
@[simp] theorem State.setCsq_rd (s : State) (x : CsqState) (g : Fld) : (s.setCsq x).rd g = s.rd g := rfl
@[simp] theorem State.setCsq_on (s : State) (x : CsqState) (g : Fld) : (s.setCsq x).on g = s.on g := rfl

/-! setCircuit -/

@[simp] theorem State.setCircuit_pending (s : State) (c : Nat) (x : Circuit) : (s.setCircuit c x).pending = s.pending := rfl
@[simp] theorem State.setCircuit_out (s : State) (c : Nat) (x : Circuit) : (s.setCircuit c x).out = s.out := rfl
@[simp] theorem State.setCircuit_freeCtr (s : State) (c : Nat) (x : Circuit) : (s.setCircuit c x).freeCtr = s.freeCtr := rfl
@[simp] theorem State.setCircuit_regs (s : State) (c : Nat) (x : Circuit) : (s.setCircuit c x).regs = s.regs := rfl
@[simp] theorem State.setCircuit_time (s : State) (c : Nat) (x : Circuit) : (s.setCircuit c x).time = s.time := rfl
@[simp] theorem State.setCircuit_host (s : State) (c : Nat) (x : Circuit) : (s.setCircuit c x).host = s.host := rfl
@[simp] theorem State.setCircuit_req (s : State) (c : Nat) (x : Circuit) : (s.setCircuit c x).req = s.req := rfl
@[simp] theorem State.setCircuit_locks (s : State) (c : Nat) (x : Circuit) : (s.setCircuit c x).locks = s.locks := rfl
@[simp] theorem State.setCircuit_que (s : State) (c : Nat) (x : Circuit) : (s.setCircuit c x).que = s.que := rfl
@[simp] theorem State.setCircuit_rcu (s : State) (c : Nat) (x : Circuit) : (s.setCircuit c x).rcu = s.rcu := rfl
@[simp] theorem State.setCircuit_lnk (s : State) (c : Nat) (x : Circuit) : (s.setCircuit c x).lnk = s.lnk := rfl
@[simp] theorem State.setCircuit_twn (s : State) (c : Nat) (x : Circuit) : (s.setCircuit c x).twn = s.twn := rfl
@[simp] theorem State.setCircuit_jnl (s : State) (c : Nat) (x : Circuit) : (s.setCircuit c x).jnl = s.jnl := rfl
@[simp] theorem State.setCircuit_mss (s : State) (c : Nat) (x : Circuit) : (s.setCircuit c x).mss = s.mss := rfl
@[simp] theorem State.setCircuit_rme (s : State) (c : Nat) (x : Circuit) : (s.setCircuit c x).rme = s.rme := rfl
@[simp] theorem State.setCircuit_rdx (s : State) (c : Nat) (x : Circuit) : (s.setCircuit c x).rdx = s.rdx := rfl
@[simp] theorem State.setCircuit_psm (s : State) (c : Nat) (x : Circuit) : (s.setCircuit c x).psm = s.psm := rfl
@[simp] theorem State.setCircuit_sec (s : State) (c : Nat) (x : Circuit) : (s.setCircuit c x).sec = s.sec := rfl
@[simp] theorem State.setCircuit_fcu (s : State) (c : Nat) (x : Circuit) : (s.setCircuit c x).fcu = s.fcu := rfl
@[simp] theorem State.setCircuit_evr (s : State) (c : Nat) (x : Circuit) : (s.setCircuit c x).evr = s.evr := rfl
@[simp] theorem State.setCircuit_sta (s : State) (c : Nat) (x : Circuit) : (s.setCircuit c x).sta = s.sta := rfl
@[simp] theorem State.setCircuit_cpm (s : State) (c : Nat) (x : Circuit) : (s.setCircuit c x).cpm = s.cpm := rfl
@[simp] theorem State.setCircuit_boot (s : State) (c : Nat) (x : Circuit) : (s.setCircuit c x).boot = s.boot := rfl
@[simp] theorem State.setCircuit_dbg (s : State) (c : Nat) (x : Circuit) : (s.setCircuit c x).dbg = s.dbg := rfl
@[simp] theorem State.setCircuit_rd (s : State) (c : Nat) (x : Circuit) (g : Fld) : (s.setCircuit c x).rd g = s.rd g := rfl
@[simp] theorem State.setCircuit_on (s : State) (c : Nat) (x : Circuit) (g : Fld) : (s.setCircuit c x).on g = s.on g := rfl

/-! setSlot -/

@[simp] theorem State.setSlot_pending (s : State) (n : Nat) (x : Slot) : (s.setSlot n x).pending = s.pending := rfl
@[simp] theorem State.setSlot_out (s : State) (n : Nat) (x : Slot) : (s.setSlot n x).out = s.out := rfl
@[simp] theorem State.setSlot_freeCtr (s : State) (n : Nat) (x : Slot) : (s.setSlot n x).freeCtr = s.freeCtr := rfl
@[simp] theorem State.setSlot_regs (s : State) (n : Nat) (x : Slot) : (s.setSlot n x).regs = s.regs := rfl
@[simp] theorem State.setSlot_time (s : State) (n : Nat) (x : Slot) : (s.setSlot n x).time = s.time := rfl
@[simp] theorem State.setSlot_host (s : State) (n : Nat) (x : Slot) : (s.setSlot n x).host = s.host := rfl
@[simp] theorem State.setSlot_req (s : State) (n : Nat) (x : Slot) : (s.setSlot n x).req = s.req := rfl
@[simp] theorem State.setSlot_locks (s : State) (n : Nat) (x : Slot) : (s.setSlot n x).locks = s.locks := rfl
@[simp] theorem State.setSlot_que (s : State) (n : Nat) (x : Slot) : (s.setSlot n x).que = s.que := rfl
@[simp] theorem State.setSlot_rcu (s : State) (n : Nat) (x : Slot) : (s.setSlot n x).rcu = s.rcu := rfl
@[simp] theorem State.setSlot_lnk (s : State) (n : Nat) (x : Slot) : (s.setSlot n x).lnk = s.lnk := rfl
@[simp] theorem State.setSlot_twn (s : State) (n : Nat) (x : Slot) : (s.setSlot n x).twn = s.twn := rfl
@[simp] theorem State.setSlot_jnl (s : State) (n : Nat) (x : Slot) : (s.setSlot n x).jnl = s.jnl := rfl
@[simp] theorem State.setSlot_mss (s : State) (n : Nat) (x : Slot) : (s.setSlot n x).mss = s.mss := rfl
@[simp] theorem State.setSlot_rme (s : State) (n : Nat) (x : Slot) : (s.setSlot n x).rme = s.rme := rfl
@[simp] theorem State.setSlot_rdx (s : State) (n : Nat) (x : Slot) : (s.setSlot n x).rdx = s.rdx := rfl
@[simp] theorem State.setSlot_psm (s : State) (n : Nat) (x : Slot) : (s.setSlot n x).psm = s.psm := rfl
@[simp] theorem State.setSlot_sec (s : State) (n : Nat) (x : Slot) : (s.setSlot n x).sec = s.sec := rfl
@[simp] theorem State.setSlot_fcu (s : State) (n : Nat) (x : Slot) : (s.setSlot n x).fcu = s.fcu := rfl
@[simp] theorem State.setSlot_evr (s : State) (n : Nat) (x : Slot) : (s.setSlot n x).evr = s.evr := rfl
@[simp] theorem State.setSlot_sta (s : State) (n : Nat) (x : Slot) : (s.setSlot n x).sta = s.sta := rfl
@[simp] theorem State.setSlot_cpm (s : State) (n : Nat) (x : Slot) : (s.setSlot n x).cpm = s.cpm := rfl
@[simp] theorem State.setSlot_boot (s : State) (n : Nat) (x : Slot) : (s.setSlot n x).boot = s.boot := rfl
@[simp] theorem State.setSlot_dbg (s : State) (n : Nat) (x : Slot) : (s.setSlot n x).dbg = s.dbg := rfl
@[simp] theorem State.setSlot_rd (s : State) (n : Nat) (x : Slot) (g : Fld) : (s.setSlot n x).rd g = s.rd g := rfl
@[simp] theorem State.setSlot_on (s : State) (n : Nat) (x : Slot) (g : Fld) : (s.setSlot n x).on g = s.on g := rfl

/-! setJnl -/

@[simp] theorem State.setJnl_pending (s : State) (x : JnlState) : (s.setJnl x).pending = s.pending := rfl
@[simp] theorem State.setJnl_out (s : State) (x : JnlState) : (s.setJnl x).out = s.out := rfl
@[simp] theorem State.setJnl_freeCtr (s : State) (x : JnlState) : (s.setJnl x).freeCtr = s.freeCtr := rfl
@[simp] theorem State.setJnl_regs (s : State) (x : JnlState) : (s.setJnl x).regs = s.regs := rfl
@[simp] theorem State.setJnl_time (s : State) (x : JnlState) : (s.setJnl x).time = s.time := rfl
@[simp] theorem State.setJnl_host (s : State) (x : JnlState) : (s.setJnl x).host = s.host := rfl
@[simp] theorem State.setJnl_req (s : State) (x : JnlState) : (s.setJnl x).req = s.req := rfl
@[simp] theorem State.setJnl_locks (s : State) (x : JnlState) : (s.setJnl x).locks = s.locks := rfl
@[simp] theorem State.setJnl_que (s : State) (x : JnlState) : (s.setJnl x).que = s.que := rfl
@[simp] theorem State.setJnl_rcu (s : State) (x : JnlState) : (s.setJnl x).rcu = s.rcu := rfl
@[simp] theorem State.setJnl_lnk (s : State) (x : JnlState) : (s.setJnl x).lnk = s.lnk := rfl
@[simp] theorem State.setJnl_csq (s : State) (x : JnlState) : (s.setJnl x).csq = s.csq := rfl
@[simp] theorem State.setJnl_twn (s : State) (x : JnlState) : (s.setJnl x).twn = s.twn := rfl
@[simp] theorem State.setJnl_jnl (s : State) (x : JnlState) : (s.setJnl x).jnl = x := rfl
@[simp] theorem State.setJnl_mss (s : State) (x : JnlState) : (s.setJnl x).mss = s.mss := rfl
@[simp] theorem State.setJnl_rme (s : State) (x : JnlState) : (s.setJnl x).rme = s.rme := rfl
@[simp] theorem State.setJnl_rdx (s : State) (x : JnlState) : (s.setJnl x).rdx = s.rdx := rfl
@[simp] theorem State.setJnl_psm (s : State) (x : JnlState) : (s.setJnl x).psm = s.psm := rfl
@[simp] theorem State.setJnl_sec (s : State) (x : JnlState) : (s.setJnl x).sec = s.sec := rfl
@[simp] theorem State.setJnl_fcu (s : State) (x : JnlState) : (s.setJnl x).fcu = s.fcu := rfl
@[simp] theorem State.setJnl_evr (s : State) (x : JnlState) : (s.setJnl x).evr = s.evr := rfl
@[simp] theorem State.setJnl_sta (s : State) (x : JnlState) : (s.setJnl x).sta = s.sta := rfl
@[simp] theorem State.setJnl_cpm (s : State) (x : JnlState) : (s.setJnl x).cpm = s.cpm := rfl
@[simp] theorem State.setJnl_boot (s : State) (x : JnlState) : (s.setJnl x).boot = s.boot := rfl
@[simp] theorem State.setJnl_dbg (s : State) (x : JnlState) : (s.setJnl x).dbg = s.dbg := rfl
@[simp] theorem State.setJnl_rd (s : State) (x : JnlState) (g : Fld) : (s.setJnl x).rd g = s.rd g := rfl
@[simp] theorem State.setJnl_on (s : State) (x : JnlState) (g : Fld) : (s.setJnl x).on g = s.on g := rfl

/-! setRing -/

@[simp] theorem State.setRing_pending (s : State) (r : Nat) (x : Ring) : (s.setRing r x).pending = s.pending := rfl
@[simp] theorem State.setRing_out (s : State) (r : Nat) (x : Ring) : (s.setRing r x).out = s.out := rfl
@[simp] theorem State.setRing_freeCtr (s : State) (r : Nat) (x : Ring) : (s.setRing r x).freeCtr = s.freeCtr := rfl
@[simp] theorem State.setRing_regs (s : State) (r : Nat) (x : Ring) : (s.setRing r x).regs = s.regs := rfl
@[simp] theorem State.setRing_time (s : State) (r : Nat) (x : Ring) : (s.setRing r x).time = s.time := rfl
@[simp] theorem State.setRing_host (s : State) (r : Nat) (x : Ring) : (s.setRing r x).host = s.host := rfl
@[simp] theorem State.setRing_req (s : State) (r : Nat) (x : Ring) : (s.setRing r x).req = s.req := rfl
@[simp] theorem State.setRing_locks (s : State) (r : Nat) (x : Ring) : (s.setRing r x).locks = s.locks := rfl
@[simp] theorem State.setRing_que (s : State) (r : Nat) (x : Ring) : (s.setRing r x).que = s.que := rfl
@[simp] theorem State.setRing_lnk (s : State) (r : Nat) (x : Ring) : (s.setRing r x).lnk = s.lnk := rfl
@[simp] theorem State.setRing_csq (s : State) (r : Nat) (x : Ring) : (s.setRing r x).csq = s.csq := rfl
@[simp] theorem State.setRing_twn (s : State) (r : Nat) (x : Ring) : (s.setRing r x).twn = s.twn := rfl
@[simp] theorem State.setRing_jnl (s : State) (r : Nat) (x : Ring) : (s.setRing r x).jnl = s.jnl := rfl
@[simp] theorem State.setRing_mss (s : State) (r : Nat) (x : Ring) : (s.setRing r x).mss = s.mss := rfl
@[simp] theorem State.setRing_rme (s : State) (r : Nat) (x : Ring) : (s.setRing r x).rme = s.rme := rfl
@[simp] theorem State.setRing_rdx (s : State) (r : Nat) (x : Ring) : (s.setRing r x).rdx = s.rdx := rfl
@[simp] theorem State.setRing_psm (s : State) (r : Nat) (x : Ring) : (s.setRing r x).psm = s.psm := rfl
@[simp] theorem State.setRing_sec (s : State) (r : Nat) (x : Ring) : (s.setRing r x).sec = s.sec := rfl
@[simp] theorem State.setRing_fcu (s : State) (r : Nat) (x : Ring) : (s.setRing r x).fcu = s.fcu := rfl
@[simp] theorem State.setRing_evr (s : State) (r : Nat) (x : Ring) : (s.setRing r x).evr = s.evr := rfl
@[simp] theorem State.setRing_sta (s : State) (r : Nat) (x : Ring) : (s.setRing r x).sta = s.sta := rfl
@[simp] theorem State.setRing_cpm (s : State) (r : Nat) (x : Ring) : (s.setRing r x).cpm = s.cpm := rfl
@[simp] theorem State.setRing_boot (s : State) (r : Nat) (x : Ring) : (s.setRing r x).boot = s.boot := rfl
@[simp] theorem State.setRing_dbg (s : State) (r : Nat) (x : Ring) : (s.setRing r x).dbg = s.dbg := rfl
@[simp] theorem State.setRing_rd (s : State) (r : Nat) (x : Ring) (g : Fld) : (s.setRing r x).rd g = s.rd g := rfl
@[simp] theorem State.setRing_on (s : State) (r : Nat) (x : Ring) (g : Fld) : (s.setRing r x).on g = s.on g := rfl

/-! setUnit -/

@[simp] theorem State.setUnit_pending (s : State) (u : Nat) (x : LinkUnit) : (s.setUnit u x).pending = s.pending := rfl
@[simp] theorem State.setUnit_out (s : State) (u : Nat) (x : LinkUnit) : (s.setUnit u x).out = s.out := rfl
@[simp] theorem State.setUnit_freeCtr (s : State) (u : Nat) (x : LinkUnit) : (s.setUnit u x).freeCtr = s.freeCtr := rfl
@[simp] theorem State.setUnit_regs (s : State) (u : Nat) (x : LinkUnit) : (s.setUnit u x).regs = s.regs := rfl
@[simp] theorem State.setUnit_time (s : State) (u : Nat) (x : LinkUnit) : (s.setUnit u x).time = s.time := rfl
@[simp] theorem State.setUnit_host (s : State) (u : Nat) (x : LinkUnit) : (s.setUnit u x).host = s.host := rfl
@[simp] theorem State.setUnit_req (s : State) (u : Nat) (x : LinkUnit) : (s.setUnit u x).req = s.req := rfl
@[simp] theorem State.setUnit_locks (s : State) (u : Nat) (x : LinkUnit) : (s.setUnit u x).locks = s.locks := rfl
@[simp] theorem State.setUnit_que (s : State) (u : Nat) (x : LinkUnit) : (s.setUnit u x).que = s.que := rfl
@[simp] theorem State.setUnit_rcu (s : State) (u : Nat) (x : LinkUnit) : (s.setUnit u x).rcu = s.rcu := rfl
@[simp] theorem State.setUnit_csq (s : State) (u : Nat) (x : LinkUnit) : (s.setUnit u x).csq = s.csq := rfl
@[simp] theorem State.setUnit_twn (s : State) (u : Nat) (x : LinkUnit) : (s.setUnit u x).twn = s.twn := rfl
@[simp] theorem State.setUnit_jnl (s : State) (u : Nat) (x : LinkUnit) : (s.setUnit u x).jnl = s.jnl := rfl
@[simp] theorem State.setUnit_mss (s : State) (u : Nat) (x : LinkUnit) : (s.setUnit u x).mss = s.mss := rfl
@[simp] theorem State.setUnit_rme (s : State) (u : Nat) (x : LinkUnit) : (s.setUnit u x).rme = s.rme := rfl
@[simp] theorem State.setUnit_rdx (s : State) (u : Nat) (x : LinkUnit) : (s.setUnit u x).rdx = s.rdx := rfl
@[simp] theorem State.setUnit_psm (s : State) (u : Nat) (x : LinkUnit) : (s.setUnit u x).psm = s.psm := rfl
@[simp] theorem State.setUnit_sec (s : State) (u : Nat) (x : LinkUnit) : (s.setUnit u x).sec = s.sec := rfl
@[simp] theorem State.setUnit_fcu (s : State) (u : Nat) (x : LinkUnit) : (s.setUnit u x).fcu = s.fcu := rfl
@[simp] theorem State.setUnit_evr (s : State) (u : Nat) (x : LinkUnit) : (s.setUnit u x).evr = s.evr := rfl
@[simp] theorem State.setUnit_sta (s : State) (u : Nat) (x : LinkUnit) : (s.setUnit u x).sta = s.sta := rfl
@[simp] theorem State.setUnit_cpm (s : State) (u : Nat) (x : LinkUnit) : (s.setUnit u x).cpm = s.cpm := rfl
@[simp] theorem State.setUnit_boot (s : State) (u : Nat) (x : LinkUnit) : (s.setUnit u x).boot = s.boot := rfl
@[simp] theorem State.setUnit_dbg (s : State) (u : Nat) (x : LinkUnit) : (s.setUnit u x).dbg = s.dbg := rfl
@[simp] theorem State.setUnit_rd (s : State) (u : Nat) (x : LinkUnit) (g : Fld) : (s.setUnit u x).rd g = s.rd g := rfl
@[simp] theorem State.setUnit_on (s : State) (u : Nat) (x : LinkUnit) (g : Fld) : (s.setUnit u x).on g = s.on g := rfl

/-! setCircLink -/

@[simp] theorem State.setCircLink_pending (s : State) (c : Nat) (x : CircLink) : (s.setCircLink c x).pending = s.pending := rfl
@[simp] theorem State.setCircLink_out (s : State) (c : Nat) (x : CircLink) : (s.setCircLink c x).out = s.out := rfl
@[simp] theorem State.setCircLink_freeCtr (s : State) (c : Nat) (x : CircLink) : (s.setCircLink c x).freeCtr = s.freeCtr := rfl
@[simp] theorem State.setCircLink_regs (s : State) (c : Nat) (x : CircLink) : (s.setCircLink c x).regs = s.regs := rfl
@[simp] theorem State.setCircLink_time (s : State) (c : Nat) (x : CircLink) : (s.setCircLink c x).time = s.time := rfl
@[simp] theorem State.setCircLink_host (s : State) (c : Nat) (x : CircLink) : (s.setCircLink c x).host = s.host := rfl
@[simp] theorem State.setCircLink_req (s : State) (c : Nat) (x : CircLink) : (s.setCircLink c x).req = s.req := rfl
@[simp] theorem State.setCircLink_locks (s : State) (c : Nat) (x : CircLink) : (s.setCircLink c x).locks = s.locks := rfl
@[simp] theorem State.setCircLink_que (s : State) (c : Nat) (x : CircLink) : (s.setCircLink c x).que = s.que := rfl
@[simp] theorem State.setCircLink_rcu (s : State) (c : Nat) (x : CircLink) : (s.setCircLink c x).rcu = s.rcu := rfl
@[simp] theorem State.setCircLink_csq (s : State) (c : Nat) (x : CircLink) : (s.setCircLink c x).csq = s.csq := rfl
@[simp] theorem State.setCircLink_twn (s : State) (c : Nat) (x : CircLink) : (s.setCircLink c x).twn = s.twn := rfl
@[simp] theorem State.setCircLink_jnl (s : State) (c : Nat) (x : CircLink) : (s.setCircLink c x).jnl = s.jnl := rfl
@[simp] theorem State.setCircLink_mss (s : State) (c : Nat) (x : CircLink) : (s.setCircLink c x).mss = s.mss := rfl
@[simp] theorem State.setCircLink_rme (s : State) (c : Nat) (x : CircLink) : (s.setCircLink c x).rme = s.rme := rfl
@[simp] theorem State.setCircLink_rdx (s : State) (c : Nat) (x : CircLink) : (s.setCircLink c x).rdx = s.rdx := rfl
@[simp] theorem State.setCircLink_psm (s : State) (c : Nat) (x : CircLink) : (s.setCircLink c x).psm = s.psm := rfl
@[simp] theorem State.setCircLink_sec (s : State) (c : Nat) (x : CircLink) : (s.setCircLink c x).sec = s.sec := rfl
@[simp] theorem State.setCircLink_fcu (s : State) (c : Nat) (x : CircLink) : (s.setCircLink c x).fcu = s.fcu := rfl
@[simp] theorem State.setCircLink_evr (s : State) (c : Nat) (x : CircLink) : (s.setCircLink c x).evr = s.evr := rfl
@[simp] theorem State.setCircLink_sta (s : State) (c : Nat) (x : CircLink) : (s.setCircLink c x).sta = s.sta := rfl
@[simp] theorem State.setCircLink_cpm (s : State) (c : Nat) (x : CircLink) : (s.setCircLink c x).cpm = s.cpm := rfl
@[simp] theorem State.setCircLink_boot (s : State) (c : Nat) (x : CircLink) : (s.setCircLink c x).boot = s.boot := rfl
@[simp] theorem State.setCircLink_dbg (s : State) (c : Nat) (x : CircLink) : (s.setCircLink c x).dbg = s.dbg := rfl
@[simp] theorem State.setCircLink_rd (s : State) (c : Nat) (x : CircLink) (g : Fld) : (s.setCircLink c x).rd g = s.rd g := rfl
@[simp] theorem State.setCircLink_on (s : State) (c : Nat) (x : CircLink) (g : Fld) : (s.setCircLink c x).on g = s.on g := rfl

/-! setPsm -/

@[simp] theorem State.setPsm_pending (s : State) (x : PsmState) : (s.setPsm x).pending = s.pending := rfl
@[simp] theorem State.setPsm_out (s : State) (x : PsmState) : (s.setPsm x).out = s.out := rfl
@[simp] theorem State.setPsm_freeCtr (s : State) (x : PsmState) : (s.setPsm x).freeCtr = s.freeCtr := rfl
@[simp] theorem State.setPsm_regs (s : State) (x : PsmState) : (s.setPsm x).regs = s.regs := rfl
@[simp] theorem State.setPsm_time (s : State) (x : PsmState) : (s.setPsm x).time = s.time := rfl
@[simp] theorem State.setPsm_host (s : State) (x : PsmState) : (s.setPsm x).host = s.host := rfl
@[simp] theorem State.setPsm_req (s : State) (x : PsmState) : (s.setPsm x).req = s.req := rfl
@[simp] theorem State.setPsm_locks (s : State) (x : PsmState) : (s.setPsm x).locks = s.locks := rfl
@[simp] theorem State.setPsm_que (s : State) (x : PsmState) : (s.setPsm x).que = s.que := rfl
@[simp] theorem State.setPsm_rcu (s : State) (x : PsmState) : (s.setPsm x).rcu = s.rcu := rfl
@[simp] theorem State.setPsm_lnk (s : State) (x : PsmState) : (s.setPsm x).lnk = s.lnk := rfl
@[simp] theorem State.setPsm_csq (s : State) (x : PsmState) : (s.setPsm x).csq = s.csq := rfl
@[simp] theorem State.setPsm_twn (s : State) (x : PsmState) : (s.setPsm x).twn = s.twn := rfl
@[simp] theorem State.setPsm_jnl (s : State) (x : PsmState) : (s.setPsm x).jnl = s.jnl := rfl
@[simp] theorem State.setPsm_mss (s : State) (x : PsmState) : (s.setPsm x).mss = s.mss := rfl
@[simp] theorem State.setPsm_rme (s : State) (x : PsmState) : (s.setPsm x).rme = s.rme := rfl
@[simp] theorem State.setPsm_rdx (s : State) (x : PsmState) : (s.setPsm x).rdx = s.rdx := rfl
@[simp] theorem State.setPsm_psm (s : State) (x : PsmState) : (s.setPsm x).psm = x := rfl
@[simp] theorem State.setPsm_sec (s : State) (x : PsmState) : (s.setPsm x).sec = s.sec := rfl
@[simp] theorem State.setPsm_fcu (s : State) (x : PsmState) : (s.setPsm x).fcu = s.fcu := rfl
@[simp] theorem State.setPsm_evr (s : State) (x : PsmState) : (s.setPsm x).evr = s.evr := rfl
@[simp] theorem State.setPsm_sta (s : State) (x : PsmState) : (s.setPsm x).sta = s.sta := rfl
@[simp] theorem State.setPsm_cpm (s : State) (x : PsmState) : (s.setPsm x).cpm = s.cpm := rfl
@[simp] theorem State.setPsm_boot (s : State) (x : PsmState) : (s.setPsm x).boot = s.boot := rfl
@[simp] theorem State.setPsm_dbg (s : State) (x : PsmState) : (s.setPsm x).dbg = s.dbg := rfl
@[simp] theorem State.setPsm_rd (s : State) (x : PsmState) (g : Fld) : (s.setPsm x).rd g = s.rd g := rfl
@[simp] theorem State.setPsm_on (s : State) (x : PsmState) (g : Fld) : (s.setPsm x).on g = s.on g := rfl

/-! setKeySlot -/

@[simp] theorem State.setKeySlot_pending (s : State) (n : Nat) (x : KeySlot) : (s.setKeySlot n x).pending = s.pending := rfl
@[simp] theorem State.setKeySlot_out (s : State) (n : Nat) (x : KeySlot) : (s.setKeySlot n x).out = s.out := rfl
@[simp] theorem State.setKeySlot_freeCtr (s : State) (n : Nat) (x : KeySlot) : (s.setKeySlot n x).freeCtr = s.freeCtr := rfl
@[simp] theorem State.setKeySlot_regs (s : State) (n : Nat) (x : KeySlot) : (s.setKeySlot n x).regs = s.regs := rfl
@[simp] theorem State.setKeySlot_time (s : State) (n : Nat) (x : KeySlot) : (s.setKeySlot n x).time = s.time := rfl
@[simp] theorem State.setKeySlot_host (s : State) (n : Nat) (x : KeySlot) : (s.setKeySlot n x).host = s.host := rfl
@[simp] theorem State.setKeySlot_req (s : State) (n : Nat) (x : KeySlot) : (s.setKeySlot n x).req = s.req := rfl
@[simp] theorem State.setKeySlot_locks (s : State) (n : Nat) (x : KeySlot) : (s.setKeySlot n x).locks = s.locks := rfl
@[simp] theorem State.setKeySlot_que (s : State) (n : Nat) (x : KeySlot) : (s.setKeySlot n x).que = s.que := rfl
@[simp] theorem State.setKeySlot_rcu (s : State) (n : Nat) (x : KeySlot) : (s.setKeySlot n x).rcu = s.rcu := rfl
@[simp] theorem State.setKeySlot_lnk (s : State) (n : Nat) (x : KeySlot) : (s.setKeySlot n x).lnk = s.lnk := rfl
@[simp] theorem State.setKeySlot_csq (s : State) (n : Nat) (x : KeySlot) : (s.setKeySlot n x).csq = s.csq := rfl
@[simp] theorem State.setKeySlot_twn (s : State) (n : Nat) (x : KeySlot) : (s.setKeySlot n x).twn = s.twn := rfl
@[simp] theorem State.setKeySlot_jnl (s : State) (n : Nat) (x : KeySlot) : (s.setKeySlot n x).jnl = s.jnl := rfl
@[simp] theorem State.setKeySlot_mss (s : State) (n : Nat) (x : KeySlot) : (s.setKeySlot n x).mss = s.mss := rfl
@[simp] theorem State.setKeySlot_rme (s : State) (n : Nat) (x : KeySlot) : (s.setKeySlot n x).rme = s.rme := rfl
@[simp] theorem State.setKeySlot_rdx (s : State) (n : Nat) (x : KeySlot) : (s.setKeySlot n x).rdx = s.rdx := rfl
@[simp] theorem State.setKeySlot_psm (s : State) (n : Nat) (x : KeySlot) : (s.setKeySlot n x).psm = s.psm := rfl
@[simp] theorem State.setKeySlot_fcu (s : State) (n : Nat) (x : KeySlot) : (s.setKeySlot n x).fcu = s.fcu := rfl
@[simp] theorem State.setKeySlot_evr (s : State) (n : Nat) (x : KeySlot) : (s.setKeySlot n x).evr = s.evr := rfl
@[simp] theorem State.setKeySlot_sta (s : State) (n : Nat) (x : KeySlot) : (s.setKeySlot n x).sta = s.sta := rfl
@[simp] theorem State.setKeySlot_cpm (s : State) (n : Nat) (x : KeySlot) : (s.setKeySlot n x).cpm = s.cpm := rfl
@[simp] theorem State.setKeySlot_boot (s : State) (n : Nat) (x : KeySlot) : (s.setKeySlot n x).boot = s.boot := rfl
@[simp] theorem State.setKeySlot_dbg (s : State) (n : Nat) (x : KeySlot) : (s.setKeySlot n x).dbg = s.dbg := rfl
@[simp] theorem State.setKeySlot_rd (s : State) (n : Nat) (x : KeySlot) (g : Fld) : (s.setKeySlot n x).rd g = s.rd g := rfl
@[simp] theorem State.setKeySlot_on (s : State) (n : Nat) (x : KeySlot) (g : Fld) : (s.setKeySlot n x).on g = s.on g := rfl

/-! setChan -/

@[simp] theorem State.setChan_pending (s : State) (c : Nat) (x : Chan) : (s.setChan c x).pending = s.pending := rfl
@[simp] theorem State.setChan_out (s : State) (c : Nat) (x : Chan) : (s.setChan c x).out = s.out := rfl
@[simp] theorem State.setChan_freeCtr (s : State) (c : Nat) (x : Chan) : (s.setChan c x).freeCtr = s.freeCtr := rfl
@[simp] theorem State.setChan_regs (s : State) (c : Nat) (x : Chan) : (s.setChan c x).regs = s.regs := rfl
@[simp] theorem State.setChan_time (s : State) (c : Nat) (x : Chan) : (s.setChan c x).time = s.time := rfl
@[simp] theorem State.setChan_host (s : State) (c : Nat) (x : Chan) : (s.setChan c x).host = s.host := rfl
@[simp] theorem State.setChan_req (s : State) (c : Nat) (x : Chan) : (s.setChan c x).req = s.req := rfl
@[simp] theorem State.setChan_locks (s : State) (c : Nat) (x : Chan) : (s.setChan c x).locks = s.locks := rfl
@[simp] theorem State.setChan_que (s : State) (c : Nat) (x : Chan) : (s.setChan c x).que = s.que := rfl
@[simp] theorem State.setChan_lnk (s : State) (c : Nat) (x : Chan) : (s.setChan c x).lnk = s.lnk := rfl
@[simp] theorem State.setChan_csq (s : State) (c : Nat) (x : Chan) : (s.setChan c x).csq = s.csq := rfl
@[simp] theorem State.setChan_twn (s : State) (c : Nat) (x : Chan) : (s.setChan c x).twn = s.twn := rfl
@[simp] theorem State.setChan_jnl (s : State) (c : Nat) (x : Chan) : (s.setChan c x).jnl = s.jnl := rfl
@[simp] theorem State.setChan_mss (s : State) (c : Nat) (x : Chan) : (s.setChan c x).mss = s.mss := rfl
@[simp] theorem State.setChan_rme (s : State) (c : Nat) (x : Chan) : (s.setChan c x).rme = s.rme := rfl
@[simp] theorem State.setChan_rdx (s : State) (c : Nat) (x : Chan) : (s.setChan c x).rdx = s.rdx := rfl
@[simp] theorem State.setChan_psm (s : State) (c : Nat) (x : Chan) : (s.setChan c x).psm = s.psm := rfl
@[simp] theorem State.setChan_sec (s : State) (c : Nat) (x : Chan) : (s.setChan c x).sec = s.sec := rfl
@[simp] theorem State.setChan_fcu (s : State) (c : Nat) (x : Chan) : (s.setChan c x).fcu = s.fcu := rfl
@[simp] theorem State.setChan_evr (s : State) (c : Nat) (x : Chan) : (s.setChan c x).evr = s.evr := rfl
@[simp] theorem State.setChan_sta (s : State) (c : Nat) (x : Chan) : (s.setChan c x).sta = s.sta := rfl
@[simp] theorem State.setChan_cpm (s : State) (c : Nat) (x : Chan) : (s.setChan c x).cpm = s.cpm := rfl
@[simp] theorem State.setChan_boot (s : State) (c : Nat) (x : Chan) : (s.setChan c x).boot = s.boot := rfl
@[simp] theorem State.setChan_dbg (s : State) (c : Nat) (x : Chan) : (s.setChan c x).dbg = s.dbg := rfl
@[simp] theorem State.setChan_rd (s : State) (c : Nat) (x : Chan) (g : Fld) : (s.setChan c x).rd g = s.rd g := rfl
@[simp] theorem State.setChan_on (s : State) (c : Nat) (x : Chan) (g : Fld) : (s.setChan c x).on g = s.on g := rfl

/-! setLane -/

@[simp] theorem State.setLane_pending (s : State) (p k : Nat) (x : Lane) : (s.setLane p k x).pending = s.pending := rfl
@[simp] theorem State.setLane_out (s : State) (p k : Nat) (x : Lane) : (s.setLane p k x).out = s.out := rfl
@[simp] theorem State.setLane_freeCtr (s : State) (p k : Nat) (x : Lane) : (s.setLane p k x).freeCtr = s.freeCtr := rfl
@[simp] theorem State.setLane_regs (s : State) (p k : Nat) (x : Lane) : (s.setLane p k x).regs = s.regs := rfl
@[simp] theorem State.setLane_time (s : State) (p k : Nat) (x : Lane) : (s.setLane p k x).time = s.time := rfl
@[simp] theorem State.setLane_host (s : State) (p k : Nat) (x : Lane) : (s.setLane p k x).host = s.host := rfl
@[simp] theorem State.setLane_req (s : State) (p k : Nat) (x : Lane) : (s.setLane p k x).req = s.req := rfl
@[simp] theorem State.setLane_locks (s : State) (p k : Nat) (x : Lane) : (s.setLane p k x).locks = s.locks := rfl
@[simp] theorem State.setLane_que (s : State) (p k : Nat) (x : Lane) : (s.setLane p k x).que = s.que := rfl
@[simp] theorem State.setLane_rcu (s : State) (p k : Nat) (x : Lane) : (s.setLane p k x).rcu = s.rcu := rfl
@[simp] theorem State.setLane_csq (s : State) (p k : Nat) (x : Lane) : (s.setLane p k x).csq = s.csq := rfl
@[simp] theorem State.setLane_twn (s : State) (p k : Nat) (x : Lane) : (s.setLane p k x).twn = s.twn := rfl
@[simp] theorem State.setLane_jnl (s : State) (p k : Nat) (x : Lane) : (s.setLane p k x).jnl = s.jnl := rfl
@[simp] theorem State.setLane_mss (s : State) (p k : Nat) (x : Lane) : (s.setLane p k x).mss = s.mss := rfl
@[simp] theorem State.setLane_rme (s : State) (p k : Nat) (x : Lane) : (s.setLane p k x).rme = s.rme := rfl
@[simp] theorem State.setLane_rdx (s : State) (p k : Nat) (x : Lane) : (s.setLane p k x).rdx = s.rdx := rfl
@[simp] theorem State.setLane_psm (s : State) (p k : Nat) (x : Lane) : (s.setLane p k x).psm = s.psm := rfl
@[simp] theorem State.setLane_sec (s : State) (p k : Nat) (x : Lane) : (s.setLane p k x).sec = s.sec := rfl
@[simp] theorem State.setLane_fcu (s : State) (p k : Nat) (x : Lane) : (s.setLane p k x).fcu = s.fcu := rfl
@[simp] theorem State.setLane_evr (s : State) (p k : Nat) (x : Lane) : (s.setLane p k x).evr = s.evr := rfl
@[simp] theorem State.setLane_sta (s : State) (p k : Nat) (x : Lane) : (s.setLane p k x).sta = s.sta := rfl
@[simp] theorem State.setLane_cpm (s : State) (p k : Nat) (x : Lane) : (s.setLane p k x).cpm = s.cpm := rfl
@[simp] theorem State.setLane_boot (s : State) (p k : Nat) (x : Lane) : (s.setLane p k x).boot = s.boot := rfl
@[simp] theorem State.setLane_dbg (s : State) (p k : Nat) (x : Lane) : (s.setLane p k x).dbg = s.dbg := rfl
@[simp] theorem State.setLane_rd (s : State) (p k : Nat) (x : Lane) (g : Fld) : (s.setLane p k x).rd g = s.rd g := rfl
@[simp] theorem State.setLane_on (s : State) (p k : Nat) (x : Lane) (g : Fld) : (s.setLane p k x).on g = s.on g := rfl

/-! setBeacon -/

@[simp] theorem State.setBeacon_pending (s : State) (p : Nat) (x : BeaconSt) : (s.setBeacon p x).pending = s.pending := rfl
@[simp] theorem State.setBeacon_out (s : State) (p : Nat) (x : BeaconSt) : (s.setBeacon p x).out = s.out := rfl
@[simp] theorem State.setBeacon_freeCtr (s : State) (p : Nat) (x : BeaconSt) : (s.setBeacon p x).freeCtr = s.freeCtr := rfl
@[simp] theorem State.setBeacon_regs (s : State) (p : Nat) (x : BeaconSt) : (s.setBeacon p x).regs = s.regs := rfl
@[simp] theorem State.setBeacon_time (s : State) (p : Nat) (x : BeaconSt) : (s.setBeacon p x).time = s.time := rfl
@[simp] theorem State.setBeacon_host (s : State) (p : Nat) (x : BeaconSt) : (s.setBeacon p x).host = s.host := rfl
@[simp] theorem State.setBeacon_req (s : State) (p : Nat) (x : BeaconSt) : (s.setBeacon p x).req = s.req := rfl
@[simp] theorem State.setBeacon_locks (s : State) (p : Nat) (x : BeaconSt) : (s.setBeacon p x).locks = s.locks := rfl
@[simp] theorem State.setBeacon_que (s : State) (p : Nat) (x : BeaconSt) : (s.setBeacon p x).que = s.que := rfl
@[simp] theorem State.setBeacon_rcu (s : State) (p : Nat) (x : BeaconSt) : (s.setBeacon p x).rcu = s.rcu := rfl
@[simp] theorem State.setBeacon_csq (s : State) (p : Nat) (x : BeaconSt) : (s.setBeacon p x).csq = s.csq := rfl
@[simp] theorem State.setBeacon_twn (s : State) (p : Nat) (x : BeaconSt) : (s.setBeacon p x).twn = s.twn := rfl
@[simp] theorem State.setBeacon_jnl (s : State) (p : Nat) (x : BeaconSt) : (s.setBeacon p x).jnl = s.jnl := rfl
@[simp] theorem State.setBeacon_mss (s : State) (p : Nat) (x : BeaconSt) : (s.setBeacon p x).mss = s.mss := rfl
@[simp] theorem State.setBeacon_rme (s : State) (p : Nat) (x : BeaconSt) : (s.setBeacon p x).rme = s.rme := rfl
@[simp] theorem State.setBeacon_rdx (s : State) (p : Nat) (x : BeaconSt) : (s.setBeacon p x).rdx = s.rdx := rfl
@[simp] theorem State.setBeacon_psm (s : State) (p : Nat) (x : BeaconSt) : (s.setBeacon p x).psm = s.psm := rfl
@[simp] theorem State.setBeacon_sec (s : State) (p : Nat) (x : BeaconSt) : (s.setBeacon p x).sec = s.sec := rfl
@[simp] theorem State.setBeacon_fcu (s : State) (p : Nat) (x : BeaconSt) : (s.setBeacon p x).fcu = s.fcu := rfl
@[simp] theorem State.setBeacon_evr (s : State) (p : Nat) (x : BeaconSt) : (s.setBeacon p x).evr = s.evr := rfl
@[simp] theorem State.setBeacon_sta (s : State) (p : Nat) (x : BeaconSt) : (s.setBeacon p x).sta = s.sta := rfl
@[simp] theorem State.setBeacon_cpm (s : State) (p : Nat) (x : BeaconSt) : (s.setBeacon p x).cpm = s.cpm := rfl
@[simp] theorem State.setBeacon_boot (s : State) (p : Nat) (x : BeaconSt) : (s.setBeacon p x).boot = s.boot := rfl
@[simp] theorem State.setBeacon_dbg (s : State) (p : Nat) (x : BeaconSt) : (s.setBeacon p x).dbg = s.dbg := rfl
@[simp] theorem State.setBeacon_rd (s : State) (p : Nat) (x : BeaconSt) (g : Fld) : (s.setBeacon p x).rd g = s.rd g := rfl
@[simp] theorem State.setBeacon_on (s : State) (p : Nat) (x : BeaconSt) (g : Fld) : (s.setBeacon p x).on g = s.on g := rfl

/-! setTwn -/

@[simp] theorem State.setTwn_pending (s : State) (x : TwnState) : (s.setTwn x).pending = s.pending := rfl
@[simp] theorem State.setTwn_out (s : State) (x : TwnState) : (s.setTwn x).out = s.out := rfl
@[simp] theorem State.setTwn_freeCtr (s : State) (x : TwnState) : (s.setTwn x).freeCtr = s.freeCtr := rfl
@[simp] theorem State.setTwn_regs (s : State) (x : TwnState) : (s.setTwn x).regs = s.regs := rfl
@[simp] theorem State.setTwn_time (s : State) (x : TwnState) : (s.setTwn x).time = s.time := rfl
@[simp] theorem State.setTwn_host (s : State) (x : TwnState) : (s.setTwn x).host = s.host := rfl
@[simp] theorem State.setTwn_req (s : State) (x : TwnState) : (s.setTwn x).req = s.req := rfl
@[simp] theorem State.setTwn_locks (s : State) (x : TwnState) : (s.setTwn x).locks = s.locks := rfl
@[simp] theorem State.setTwn_que (s : State) (x : TwnState) : (s.setTwn x).que = s.que := rfl
@[simp] theorem State.setTwn_rcu (s : State) (x : TwnState) : (s.setTwn x).rcu = s.rcu := rfl
@[simp] theorem State.setTwn_lnk (s : State) (x : TwnState) : (s.setTwn x).lnk = s.lnk := rfl
@[simp] theorem State.setTwn_csq (s : State) (x : TwnState) : (s.setTwn x).csq = s.csq := rfl
@[simp] theorem State.setTwn_twn (s : State) (x : TwnState) : (s.setTwn x).twn = x := rfl
@[simp] theorem State.setTwn_jnl (s : State) (x : TwnState) : (s.setTwn x).jnl = s.jnl := rfl
@[simp] theorem State.setTwn_mss (s : State) (x : TwnState) : (s.setTwn x).mss = s.mss := rfl
@[simp] theorem State.setTwn_rme (s : State) (x : TwnState) : (s.setTwn x).rme = s.rme := rfl
@[simp] theorem State.setTwn_rdx (s : State) (x : TwnState) : (s.setTwn x).rdx = s.rdx := rfl
@[simp] theorem State.setTwn_psm (s : State) (x : TwnState) : (s.setTwn x).psm = s.psm := rfl
@[simp] theorem State.setTwn_sec (s : State) (x : TwnState) : (s.setTwn x).sec = s.sec := rfl
@[simp] theorem State.setTwn_fcu (s : State) (x : TwnState) : (s.setTwn x).fcu = s.fcu := rfl
@[simp] theorem State.setTwn_evr (s : State) (x : TwnState) : (s.setTwn x).evr = s.evr := rfl
@[simp] theorem State.setTwn_sta (s : State) (x : TwnState) : (s.setTwn x).sta = s.sta := rfl
@[simp] theorem State.setTwn_cpm (s : State) (x : TwnState) : (s.setTwn x).cpm = s.cpm := rfl
@[simp] theorem State.setTwn_boot (s : State) (x : TwnState) : (s.setTwn x).boot = s.boot := rfl
@[simp] theorem State.setTwn_dbg (s : State) (x : TwnState) : (s.setTwn x).dbg = s.dbg := rfl
@[simp] theorem State.setTwn_rd (s : State) (x : TwnState) (g : Fld) : (s.setTwn x).rd g = s.rd g := rfl
@[simp] theorem State.setTwn_on (s : State) (x : TwnState) (g : Fld) : (s.setTwn x).on g = s.on g := rfl

/-! setMss -/

@[simp] theorem State.setMss_pending (s : State) (x : MssState) : (s.setMss x).pending = s.pending := rfl
@[simp] theorem State.setMss_out (s : State) (x : MssState) : (s.setMss x).out = s.out := rfl
@[simp] theorem State.setMss_freeCtr (s : State) (x : MssState) : (s.setMss x).freeCtr = s.freeCtr := rfl
@[simp] theorem State.setMss_regs (s : State) (x : MssState) : (s.setMss x).regs = s.regs := rfl
@[simp] theorem State.setMss_time (s : State) (x : MssState) : (s.setMss x).time = s.time := rfl
@[simp] theorem State.setMss_host (s : State) (x : MssState) : (s.setMss x).host = s.host := rfl
@[simp] theorem State.setMss_req (s : State) (x : MssState) : (s.setMss x).req = s.req := rfl
@[simp] theorem State.setMss_locks (s : State) (x : MssState) : (s.setMss x).locks = s.locks := rfl
@[simp] theorem State.setMss_que (s : State) (x : MssState) : (s.setMss x).que = s.que := rfl
@[simp] theorem State.setMss_rcu (s : State) (x : MssState) : (s.setMss x).rcu = s.rcu := rfl
@[simp] theorem State.setMss_lnk (s : State) (x : MssState) : (s.setMss x).lnk = s.lnk := rfl
@[simp] theorem State.setMss_csq (s : State) (x : MssState) : (s.setMss x).csq = s.csq := rfl
@[simp] theorem State.setMss_twn (s : State) (x : MssState) : (s.setMss x).twn = s.twn := rfl
@[simp] theorem State.setMss_jnl (s : State) (x : MssState) : (s.setMss x).jnl = s.jnl := rfl
@[simp] theorem State.setMss_mss (s : State) (x : MssState) : (s.setMss x).mss = x := rfl
@[simp] theorem State.setMss_rme (s : State) (x : MssState) : (s.setMss x).rme = s.rme := rfl
@[simp] theorem State.setMss_rdx (s : State) (x : MssState) : (s.setMss x).rdx = s.rdx := rfl
@[simp] theorem State.setMss_psm (s : State) (x : MssState) : (s.setMss x).psm = s.psm := rfl
@[simp] theorem State.setMss_sec (s : State) (x : MssState) : (s.setMss x).sec = s.sec := rfl
@[simp] theorem State.setMss_fcu (s : State) (x : MssState) : (s.setMss x).fcu = s.fcu := rfl
@[simp] theorem State.setMss_evr (s : State) (x : MssState) : (s.setMss x).evr = s.evr := rfl
@[simp] theorem State.setMss_sta (s : State) (x : MssState) : (s.setMss x).sta = s.sta := rfl
@[simp] theorem State.setMss_cpm (s : State) (x : MssState) : (s.setMss x).cpm = s.cpm := rfl
@[simp] theorem State.setMss_boot (s : State) (x : MssState) : (s.setMss x).boot = s.boot := rfl
@[simp] theorem State.setMss_dbg (s : State) (x : MssState) : (s.setMss x).dbg = s.dbg := rfl
@[simp] theorem State.setMss_rd (s : State) (x : MssState) (g : Fld) : (s.setMss x).rd g = s.rd g := rfl
@[simp] theorem State.setMss_on (s : State) (x : MssState) (g : Fld) : (s.setMss x).on g = s.on g := rfl

/-! setRme -/

@[simp] theorem State.setRme_pending (s : State) (x : RmeState) : (s.setRme x).pending = s.pending := rfl
@[simp] theorem State.setRme_out (s : State) (x : RmeState) : (s.setRme x).out = s.out := rfl
@[simp] theorem State.setRme_freeCtr (s : State) (x : RmeState) : (s.setRme x).freeCtr = s.freeCtr := rfl
@[simp] theorem State.setRme_regs (s : State) (x : RmeState) : (s.setRme x).regs = s.regs := rfl
@[simp] theorem State.setRme_time (s : State) (x : RmeState) : (s.setRme x).time = s.time := rfl
@[simp] theorem State.setRme_host (s : State) (x : RmeState) : (s.setRme x).host = s.host := rfl
@[simp] theorem State.setRme_req (s : State) (x : RmeState) : (s.setRme x).req = s.req := rfl
@[simp] theorem State.setRme_locks (s : State) (x : RmeState) : (s.setRme x).locks = s.locks := rfl
@[simp] theorem State.setRme_que (s : State) (x : RmeState) : (s.setRme x).que = s.que := rfl
@[simp] theorem State.setRme_rcu (s : State) (x : RmeState) : (s.setRme x).rcu = s.rcu := rfl
@[simp] theorem State.setRme_lnk (s : State) (x : RmeState) : (s.setRme x).lnk = s.lnk := rfl
@[simp] theorem State.setRme_csq (s : State) (x : RmeState) : (s.setRme x).csq = s.csq := rfl
@[simp] theorem State.setRme_twn (s : State) (x : RmeState) : (s.setRme x).twn = s.twn := rfl
@[simp] theorem State.setRme_jnl (s : State) (x : RmeState) : (s.setRme x).jnl = s.jnl := rfl
@[simp] theorem State.setRme_mss (s : State) (x : RmeState) : (s.setRme x).mss = s.mss := rfl
@[simp] theorem State.setRme_rme (s : State) (x : RmeState) : (s.setRme x).rme = x := rfl
@[simp] theorem State.setRme_rdx (s : State) (x : RmeState) : (s.setRme x).rdx = s.rdx := rfl
@[simp] theorem State.setRme_psm (s : State) (x : RmeState) : (s.setRme x).psm = s.psm := rfl
@[simp] theorem State.setRme_sec (s : State) (x : RmeState) : (s.setRme x).sec = s.sec := rfl
@[simp] theorem State.setRme_fcu (s : State) (x : RmeState) : (s.setRme x).fcu = s.fcu := rfl
@[simp] theorem State.setRme_evr (s : State) (x : RmeState) : (s.setRme x).evr = s.evr := rfl
@[simp] theorem State.setRme_sta (s : State) (x : RmeState) : (s.setRme x).sta = s.sta := rfl
@[simp] theorem State.setRme_cpm (s : State) (x : RmeState) : (s.setRme x).cpm = s.cpm := rfl
@[simp] theorem State.setRme_boot (s : State) (x : RmeState) : (s.setRme x).boot = s.boot := rfl
@[simp] theorem State.setRme_dbg (s : State) (x : RmeState) : (s.setRme x).dbg = s.dbg := rfl
@[simp] theorem State.setRme_rd (s : State) (x : RmeState) (g : Fld) : (s.setRme x).rd g = s.rd g := rfl
@[simp] theorem State.setRme_on (s : State) (x : RmeState) (g : Fld) : (s.setRme x).on g = s.on g := rfl

/-! setRdx -/

@[simp] theorem State.setRdx_pending (s : State) (x : RdxState) : (s.setRdx x).pending = s.pending := rfl
@[simp] theorem State.setRdx_out (s : State) (x : RdxState) : (s.setRdx x).out = s.out := rfl
@[simp] theorem State.setRdx_freeCtr (s : State) (x : RdxState) : (s.setRdx x).freeCtr = s.freeCtr := rfl
@[simp] theorem State.setRdx_regs (s : State) (x : RdxState) : (s.setRdx x).regs = s.regs := rfl
@[simp] theorem State.setRdx_time (s : State) (x : RdxState) : (s.setRdx x).time = s.time := rfl
@[simp] theorem State.setRdx_host (s : State) (x : RdxState) : (s.setRdx x).host = s.host := rfl
@[simp] theorem State.setRdx_req (s : State) (x : RdxState) : (s.setRdx x).req = s.req := rfl
@[simp] theorem State.setRdx_locks (s : State) (x : RdxState) : (s.setRdx x).locks = s.locks := rfl
@[simp] theorem State.setRdx_que (s : State) (x : RdxState) : (s.setRdx x).que = s.que := rfl
@[simp] theorem State.setRdx_rcu (s : State) (x : RdxState) : (s.setRdx x).rcu = s.rcu := rfl
@[simp] theorem State.setRdx_lnk (s : State) (x : RdxState) : (s.setRdx x).lnk = s.lnk := rfl
@[simp] theorem State.setRdx_csq (s : State) (x : RdxState) : (s.setRdx x).csq = s.csq := rfl
@[simp] theorem State.setRdx_twn (s : State) (x : RdxState) : (s.setRdx x).twn = s.twn := rfl
@[simp] theorem State.setRdx_jnl (s : State) (x : RdxState) : (s.setRdx x).jnl = s.jnl := rfl
@[simp] theorem State.setRdx_mss (s : State) (x : RdxState) : (s.setRdx x).mss = s.mss := rfl
@[simp] theorem State.setRdx_rme (s : State) (x : RdxState) : (s.setRdx x).rme = s.rme := rfl
@[simp] theorem State.setRdx_rdx (s : State) (x : RdxState) : (s.setRdx x).rdx = x := rfl
@[simp] theorem State.setRdx_psm (s : State) (x : RdxState) : (s.setRdx x).psm = s.psm := rfl
@[simp] theorem State.setRdx_sec (s : State) (x : RdxState) : (s.setRdx x).sec = s.sec := rfl
@[simp] theorem State.setRdx_fcu (s : State) (x : RdxState) : (s.setRdx x).fcu = s.fcu := rfl
@[simp] theorem State.setRdx_evr (s : State) (x : RdxState) : (s.setRdx x).evr = s.evr := rfl
@[simp] theorem State.setRdx_sta (s : State) (x : RdxState) : (s.setRdx x).sta = s.sta := rfl
@[simp] theorem State.setRdx_cpm (s : State) (x : RdxState) : (s.setRdx x).cpm = s.cpm := rfl
@[simp] theorem State.setRdx_boot (s : State) (x : RdxState) : (s.setRdx x).boot = s.boot := rfl
@[simp] theorem State.setRdx_dbg (s : State) (x : RdxState) : (s.setRdx x).dbg = s.dbg := rfl
@[simp] theorem State.setRdx_rd (s : State) (x : RdxState) (g : Fld) : (s.setRdx x).rd g = s.rd g := rfl
@[simp] theorem State.setRdx_on (s : State) (x : RdxState) (g : Fld) : (s.setRdx x).on g = s.on g := rfl

/-! setEvr -/

@[simp] theorem State.setEvr_pending (s : State) (x : EvrState) : (s.setEvr x).pending = s.pending := rfl
@[simp] theorem State.setEvr_out (s : State) (x : EvrState) : (s.setEvr x).out = s.out := rfl
@[simp] theorem State.setEvr_freeCtr (s : State) (x : EvrState) : (s.setEvr x).freeCtr = s.freeCtr := rfl
@[simp] theorem State.setEvr_regs (s : State) (x : EvrState) : (s.setEvr x).regs = s.regs := rfl
@[simp] theorem State.setEvr_time (s : State) (x : EvrState) : (s.setEvr x).time = s.time := rfl
@[simp] theorem State.setEvr_host (s : State) (x : EvrState) : (s.setEvr x).host = s.host := rfl
@[simp] theorem State.setEvr_req (s : State) (x : EvrState) : (s.setEvr x).req = s.req := rfl
@[simp] theorem State.setEvr_locks (s : State) (x : EvrState) : (s.setEvr x).locks = s.locks := rfl
@[simp] theorem State.setEvr_que (s : State) (x : EvrState) : (s.setEvr x).que = s.que := rfl
@[simp] theorem State.setEvr_rcu (s : State) (x : EvrState) : (s.setEvr x).rcu = s.rcu := rfl
@[simp] theorem State.setEvr_lnk (s : State) (x : EvrState) : (s.setEvr x).lnk = s.lnk := rfl
@[simp] theorem State.setEvr_csq (s : State) (x : EvrState) : (s.setEvr x).csq = s.csq := rfl
@[simp] theorem State.setEvr_twn (s : State) (x : EvrState) : (s.setEvr x).twn = s.twn := rfl
@[simp] theorem State.setEvr_jnl (s : State) (x : EvrState) : (s.setEvr x).jnl = s.jnl := rfl
@[simp] theorem State.setEvr_mss (s : State) (x : EvrState) : (s.setEvr x).mss = s.mss := rfl
@[simp] theorem State.setEvr_rme (s : State) (x : EvrState) : (s.setEvr x).rme = s.rme := rfl
@[simp] theorem State.setEvr_rdx (s : State) (x : EvrState) : (s.setEvr x).rdx = s.rdx := rfl
@[simp] theorem State.setEvr_psm (s : State) (x : EvrState) : (s.setEvr x).psm = s.psm := rfl
@[simp] theorem State.setEvr_sec (s : State) (x : EvrState) : (s.setEvr x).sec = s.sec := rfl
@[simp] theorem State.setEvr_fcu (s : State) (x : EvrState) : (s.setEvr x).fcu = s.fcu := rfl
@[simp] theorem State.setEvr_evr (s : State) (x : EvrState) : (s.setEvr x).evr = x := rfl
@[simp] theorem State.setEvr_sta (s : State) (x : EvrState) : (s.setEvr x).sta = s.sta := rfl
@[simp] theorem State.setEvr_cpm (s : State) (x : EvrState) : (s.setEvr x).cpm = s.cpm := rfl
@[simp] theorem State.setEvr_boot (s : State) (x : EvrState) : (s.setEvr x).boot = s.boot := rfl
@[simp] theorem State.setEvr_dbg (s : State) (x : EvrState) : (s.setEvr x).dbg = s.dbg := rfl
@[simp] theorem State.setEvr_rd (s : State) (x : EvrState) (g : Fld) : (s.setEvr x).rd g = s.rd g := rfl
@[simp] theorem State.setEvr_on (s : State) (x : EvrState) (g : Fld) : (s.setEvr x).on g = s.on g := rfl

/-! setQue -/

@[simp] theorem State.setQue_pending (s : State) (x : QueState) : (s.setQue x).pending = s.pending := rfl
@[simp] theorem State.setQue_out (s : State) (x : QueState) : (s.setQue x).out = s.out := rfl
@[simp] theorem State.setQue_freeCtr (s : State) (x : QueState) : (s.setQue x).freeCtr = s.freeCtr := rfl
@[simp] theorem State.setQue_regs (s : State) (x : QueState) : (s.setQue x).regs = s.regs := rfl
@[simp] theorem State.setQue_time (s : State) (x : QueState) : (s.setQue x).time = s.time := rfl
@[simp] theorem State.setQue_host (s : State) (x : QueState) : (s.setQue x).host = s.host := rfl
@[simp] theorem State.setQue_req (s : State) (x : QueState) : (s.setQue x).req = s.req := rfl
@[simp] theorem State.setQue_locks (s : State) (x : QueState) : (s.setQue x).locks = s.locks := rfl
@[simp] theorem State.setQue_que (s : State) (x : QueState) : (s.setQue x).que = x := rfl
@[simp] theorem State.setQue_rcu (s : State) (x : QueState) : (s.setQue x).rcu = s.rcu := rfl
@[simp] theorem State.setQue_lnk (s : State) (x : QueState) : (s.setQue x).lnk = s.lnk := rfl
@[simp] theorem State.setQue_csq (s : State) (x : QueState) : (s.setQue x).csq = s.csq := rfl
@[simp] theorem State.setQue_twn (s : State) (x : QueState) : (s.setQue x).twn = s.twn := rfl
@[simp] theorem State.setQue_jnl (s : State) (x : QueState) : (s.setQue x).jnl = s.jnl := rfl
@[simp] theorem State.setQue_mss (s : State) (x : QueState) : (s.setQue x).mss = s.mss := rfl
@[simp] theorem State.setQue_rme (s : State) (x : QueState) : (s.setQue x).rme = s.rme := rfl
@[simp] theorem State.setQue_rdx (s : State) (x : QueState) : (s.setQue x).rdx = s.rdx := rfl
@[simp] theorem State.setQue_psm (s : State) (x : QueState) : (s.setQue x).psm = s.psm := rfl
@[simp] theorem State.setQue_sec (s : State) (x : QueState) : (s.setQue x).sec = s.sec := rfl
@[simp] theorem State.setQue_fcu (s : State) (x : QueState) : (s.setQue x).fcu = s.fcu := rfl
@[simp] theorem State.setQue_evr (s : State) (x : QueState) : (s.setQue x).evr = s.evr := rfl
@[simp] theorem State.setQue_sta (s : State) (x : QueState) : (s.setQue x).sta = s.sta := rfl
@[simp] theorem State.setQue_cpm (s : State) (x : QueState) : (s.setQue x).cpm = s.cpm := rfl
@[simp] theorem State.setQue_boot (s : State) (x : QueState) : (s.setQue x).boot = s.boot := rfl
@[simp] theorem State.setQue_dbg (s : State) (x : QueState) : (s.setQue x).dbg = s.dbg := rfl
@[simp] theorem State.setQue_rd (s : State) (x : QueState) (g : Fld) : (s.setQue x).rd g = s.rd g := rfl
@[simp] theorem State.setQue_on (s : State) (x : QueState) (g : Fld) : (s.setQue x).on g = s.on g := rfl

/-! setCpm -/

@[simp] theorem State.setCpm_pending (s : State) (x : CpmState) : (s.setCpm x).pending = s.pending := rfl
@[simp] theorem State.setCpm_out (s : State) (x : CpmState) : (s.setCpm x).out = s.out := rfl
@[simp] theorem State.setCpm_freeCtr (s : State) (x : CpmState) : (s.setCpm x).freeCtr = s.freeCtr := rfl
@[simp] theorem State.setCpm_regs (s : State) (x : CpmState) : (s.setCpm x).regs = s.regs := rfl
@[simp] theorem State.setCpm_time (s : State) (x : CpmState) : (s.setCpm x).time = s.time := rfl
@[simp] theorem State.setCpm_host (s : State) (x : CpmState) : (s.setCpm x).host = s.host := rfl
@[simp] theorem State.setCpm_req (s : State) (x : CpmState) : (s.setCpm x).req = s.req := rfl
@[simp] theorem State.setCpm_locks (s : State) (x : CpmState) : (s.setCpm x).locks = s.locks := rfl
@[simp] theorem State.setCpm_que (s : State) (x : CpmState) : (s.setCpm x).que = s.que := rfl
@[simp] theorem State.setCpm_rcu (s : State) (x : CpmState) : (s.setCpm x).rcu = s.rcu := rfl
@[simp] theorem State.setCpm_lnk (s : State) (x : CpmState) : (s.setCpm x).lnk = s.lnk := rfl
@[simp] theorem State.setCpm_csq (s : State) (x : CpmState) : (s.setCpm x).csq = s.csq := rfl
@[simp] theorem State.setCpm_twn (s : State) (x : CpmState) : (s.setCpm x).twn = s.twn := rfl
@[simp] theorem State.setCpm_jnl (s : State) (x : CpmState) : (s.setCpm x).jnl = s.jnl := rfl
@[simp] theorem State.setCpm_mss (s : State) (x : CpmState) : (s.setCpm x).mss = s.mss := rfl
@[simp] theorem State.setCpm_rme (s : State) (x : CpmState) : (s.setCpm x).rme = s.rme := rfl
@[simp] theorem State.setCpm_rdx (s : State) (x : CpmState) : (s.setCpm x).rdx = s.rdx := rfl
@[simp] theorem State.setCpm_psm (s : State) (x : CpmState) : (s.setCpm x).psm = s.psm := rfl
@[simp] theorem State.setCpm_sec (s : State) (x : CpmState) : (s.setCpm x).sec = s.sec := rfl
@[simp] theorem State.setCpm_fcu (s : State) (x : CpmState) : (s.setCpm x).fcu = s.fcu := rfl
@[simp] theorem State.setCpm_evr (s : State) (x : CpmState) : (s.setCpm x).evr = s.evr := rfl
@[simp] theorem State.setCpm_sta (s : State) (x : CpmState) : (s.setCpm x).sta = s.sta := rfl
@[simp] theorem State.setCpm_cpm (s : State) (x : CpmState) : (s.setCpm x).cpm = x := rfl
@[simp] theorem State.setCpm_boot (s : State) (x : CpmState) : (s.setCpm x).boot = s.boot := rfl
@[simp] theorem State.setCpm_dbg (s : State) (x : CpmState) : (s.setCpm x).dbg = s.dbg := rfl
@[simp] theorem State.setCpm_rd (s : State) (x : CpmState) (g : Fld) : (s.setCpm x).rd g = s.rd g := rfl
@[simp] theorem State.setCpm_on (s : State) (x : CpmState) (g : Fld) : (s.setCpm x).on g = s.on g := rfl

/-! setFcu -/

@[simp] theorem State.setFcu_pending (s : State) (x : FcuState) : (s.setFcu x).pending = s.pending := rfl
@[simp] theorem State.setFcu_out (s : State) (x : FcuState) : (s.setFcu x).out = s.out := rfl
@[simp] theorem State.setFcu_freeCtr (s : State) (x : FcuState) : (s.setFcu x).freeCtr = s.freeCtr := rfl
@[simp] theorem State.setFcu_regs (s : State) (x : FcuState) : (s.setFcu x).regs = s.regs := rfl
@[simp] theorem State.setFcu_time (s : State) (x : FcuState) : (s.setFcu x).time = s.time := rfl
@[simp] theorem State.setFcu_host (s : State) (x : FcuState) : (s.setFcu x).host = s.host := rfl
@[simp] theorem State.setFcu_req (s : State) (x : FcuState) : (s.setFcu x).req = s.req := rfl
@[simp] theorem State.setFcu_locks (s : State) (x : FcuState) : (s.setFcu x).locks = s.locks := rfl
@[simp] theorem State.setFcu_que (s : State) (x : FcuState) : (s.setFcu x).que = s.que := rfl
@[simp] theorem State.setFcu_rcu (s : State) (x : FcuState) : (s.setFcu x).rcu = s.rcu := rfl
@[simp] theorem State.setFcu_lnk (s : State) (x : FcuState) : (s.setFcu x).lnk = s.lnk := rfl
@[simp] theorem State.setFcu_csq (s : State) (x : FcuState) : (s.setFcu x).csq = s.csq := rfl
@[simp] theorem State.setFcu_twn (s : State) (x : FcuState) : (s.setFcu x).twn = s.twn := rfl
@[simp] theorem State.setFcu_jnl (s : State) (x : FcuState) : (s.setFcu x).jnl = s.jnl := rfl
@[simp] theorem State.setFcu_mss (s : State) (x : FcuState) : (s.setFcu x).mss = s.mss := rfl
@[simp] theorem State.setFcu_rme (s : State) (x : FcuState) : (s.setFcu x).rme = s.rme := rfl
@[simp] theorem State.setFcu_rdx (s : State) (x : FcuState) : (s.setFcu x).rdx = s.rdx := rfl
@[simp] theorem State.setFcu_psm (s : State) (x : FcuState) : (s.setFcu x).psm = s.psm := rfl
@[simp] theorem State.setFcu_sec (s : State) (x : FcuState) : (s.setFcu x).sec = s.sec := rfl
@[simp] theorem State.setFcu_fcu (s : State) (x : FcuState) : (s.setFcu x).fcu = x := rfl
@[simp] theorem State.setFcu_evr (s : State) (x : FcuState) : (s.setFcu x).evr = s.evr := rfl
@[simp] theorem State.setFcu_sta (s : State) (x : FcuState) : (s.setFcu x).sta = s.sta := rfl
@[simp] theorem State.setFcu_cpm (s : State) (x : FcuState) : (s.setFcu x).cpm = s.cpm := rfl
@[simp] theorem State.setFcu_boot (s : State) (x : FcuState) : (s.setFcu x).boot = s.boot := rfl
@[simp] theorem State.setFcu_dbg (s : State) (x : FcuState) : (s.setFcu x).dbg = s.dbg := rfl
@[simp] theorem State.setFcu_rd (s : State) (x : FcuState) (g : Fld) : (s.setFcu x).rd g = s.rd g := rfl
@[simp] theorem State.setFcu_on (s : State) (x : FcuState) (g : Fld) : (s.setFcu x).on g = s.on g := rfl

/-! setDbg -/

@[simp] theorem State.setDbg_pending (s : State) (x : DbgState) : (s.setDbg x).pending = s.pending := rfl
@[simp] theorem State.setDbg_out (s : State) (x : DbgState) : (s.setDbg x).out = s.out := rfl
@[simp] theorem State.setDbg_freeCtr (s : State) (x : DbgState) : (s.setDbg x).freeCtr = s.freeCtr := rfl
@[simp] theorem State.setDbg_regs (s : State) (x : DbgState) : (s.setDbg x).regs = s.regs := rfl
@[simp] theorem State.setDbg_time (s : State) (x : DbgState) : (s.setDbg x).time = s.time := rfl
@[simp] theorem State.setDbg_host (s : State) (x : DbgState) : (s.setDbg x).host = s.host := rfl
@[simp] theorem State.setDbg_req (s : State) (x : DbgState) : (s.setDbg x).req = s.req := rfl
@[simp] theorem State.setDbg_locks (s : State) (x : DbgState) : (s.setDbg x).locks = s.locks := rfl
@[simp] theorem State.setDbg_que (s : State) (x : DbgState) : (s.setDbg x).que = s.que := rfl
@[simp] theorem State.setDbg_rcu (s : State) (x : DbgState) : (s.setDbg x).rcu = s.rcu := rfl
@[simp] theorem State.setDbg_lnk (s : State) (x : DbgState) : (s.setDbg x).lnk = s.lnk := rfl
@[simp] theorem State.setDbg_csq (s : State) (x : DbgState) : (s.setDbg x).csq = s.csq := rfl
@[simp] theorem State.setDbg_twn (s : State) (x : DbgState) : (s.setDbg x).twn = s.twn := rfl
@[simp] theorem State.setDbg_jnl (s : State) (x : DbgState) : (s.setDbg x).jnl = s.jnl := rfl
@[simp] theorem State.setDbg_mss (s : State) (x : DbgState) : (s.setDbg x).mss = s.mss := rfl
@[simp] theorem State.setDbg_rme (s : State) (x : DbgState) : (s.setDbg x).rme = s.rme := rfl
@[simp] theorem State.setDbg_rdx (s : State) (x : DbgState) : (s.setDbg x).rdx = s.rdx := rfl
@[simp] theorem State.setDbg_psm (s : State) (x : DbgState) : (s.setDbg x).psm = s.psm := rfl
@[simp] theorem State.setDbg_sec (s : State) (x : DbgState) : (s.setDbg x).sec = s.sec := rfl
@[simp] theorem State.setDbg_fcu (s : State) (x : DbgState) : (s.setDbg x).fcu = s.fcu := rfl
@[simp] theorem State.setDbg_evr (s : State) (x : DbgState) : (s.setDbg x).evr = s.evr := rfl
@[simp] theorem State.setDbg_sta (s : State) (x : DbgState) : (s.setDbg x).sta = s.sta := rfl
@[simp] theorem State.setDbg_cpm (s : State) (x : DbgState) : (s.setDbg x).cpm = s.cpm := rfl
@[simp] theorem State.setDbg_boot (s : State) (x : DbgState) : (s.setDbg x).boot = s.boot := rfl
@[simp] theorem State.setDbg_dbg (s : State) (x : DbgState) : (s.setDbg x).dbg = x := rfl
@[simp] theorem State.setDbg_rd (s : State) (x : DbgState) (g : Fld) : (s.setDbg x).rd g = s.rd g := rfl
@[simp] theorem State.setDbg_on (s : State) (x : DbgState) (g : Fld) : (s.setDbg x).on g = s.on g := rfl

/-! setPlink -/

@[simp] theorem State.setPlink_pending (s : State) (p : Nat) (x : PortLink) : (s.setPlink p x).pending = s.pending := rfl
@[simp] theorem State.setPlink_out (s : State) (p : Nat) (x : PortLink) : (s.setPlink p x).out = s.out := rfl
@[simp] theorem State.setPlink_freeCtr (s : State) (p : Nat) (x : PortLink) : (s.setPlink p x).freeCtr = s.freeCtr := rfl
@[simp] theorem State.setPlink_regs (s : State) (p : Nat) (x : PortLink) : (s.setPlink p x).regs = s.regs := rfl
@[simp] theorem State.setPlink_time (s : State) (p : Nat) (x : PortLink) : (s.setPlink p x).time = s.time := rfl
@[simp] theorem State.setPlink_host (s : State) (p : Nat) (x : PortLink) : (s.setPlink p x).host = s.host := rfl
@[simp] theorem State.setPlink_req (s : State) (p : Nat) (x : PortLink) : (s.setPlink p x).req = s.req := rfl
@[simp] theorem State.setPlink_locks (s : State) (p : Nat) (x : PortLink) : (s.setPlink p x).locks = s.locks := rfl
@[simp] theorem State.setPlink_que (s : State) (p : Nat) (x : PortLink) : (s.setPlink p x).que = s.que := rfl
@[simp] theorem State.setPlink_rcu (s : State) (p : Nat) (x : PortLink) : (s.setPlink p x).rcu = s.rcu := rfl
@[simp] theorem State.setPlink_lnk (s : State) (p : Nat) (x : PortLink) : (s.setPlink p x).lnk = { s.lnk with ports := Tbl.set {} s.lnk.ports p x } := rfl
@[simp] theorem State.setPlink_csq (s : State) (p : Nat) (x : PortLink) : (s.setPlink p x).csq = s.csq := rfl
@[simp] theorem State.setPlink_twn (s : State) (p : Nat) (x : PortLink) : (s.setPlink p x).twn = s.twn := rfl
@[simp] theorem State.setPlink_jnl (s : State) (p : Nat) (x : PortLink) : (s.setPlink p x).jnl = s.jnl := rfl
@[simp] theorem State.setPlink_mss (s : State) (p : Nat) (x : PortLink) : (s.setPlink p x).mss = s.mss := rfl
@[simp] theorem State.setPlink_rme (s : State) (p : Nat) (x : PortLink) : (s.setPlink p x).rme = s.rme := rfl
@[simp] theorem State.setPlink_rdx (s : State) (p : Nat) (x : PortLink) : (s.setPlink p x).rdx = s.rdx := rfl
@[simp] theorem State.setPlink_psm (s : State) (p : Nat) (x : PortLink) : (s.setPlink p x).psm = s.psm := rfl
@[simp] theorem State.setPlink_sec (s : State) (p : Nat) (x : PortLink) : (s.setPlink p x).sec = s.sec := rfl
@[simp] theorem State.setPlink_fcu (s : State) (p : Nat) (x : PortLink) : (s.setPlink p x).fcu = s.fcu := rfl
@[simp] theorem State.setPlink_evr (s : State) (p : Nat) (x : PortLink) : (s.setPlink p x).evr = s.evr := rfl
@[simp] theorem State.setPlink_sta (s : State) (p : Nat) (x : PortLink) : (s.setPlink p x).sta = s.sta := rfl
@[simp] theorem State.setPlink_cpm (s : State) (p : Nat) (x : PortLink) : (s.setPlink p x).cpm = s.cpm := rfl
@[simp] theorem State.setPlink_boot (s : State) (p : Nat) (x : PortLink) : (s.setPlink p x).boot = s.boot := rfl
@[simp] theorem State.setPlink_dbg (s : State) (p : Nat) (x : PortLink) : (s.setPlink p x).dbg = s.dbg := rfl
@[simp] theorem State.setPlink_rd (s : State) (p : Nat) (x : PortLink) (g : Fld) : (s.setPlink p x).rd g = s.rd g := rfl
@[simp] theorem State.setPlink_on (s : State) (p : Nat) (x : PortLink) (g : Fld) : (s.setPlink p x).on g = s.on g := rfl

/-! setChanges -/

@[simp] theorem State.setChanges_pending (s : State) (l : List Change) : (s.setChanges l).pending = s.pending := rfl
@[simp] theorem State.setChanges_out (s : State) (l : List Change) : (s.setChanges l).out = s.out := rfl
@[simp] theorem State.setChanges_freeCtr (s : State) (l : List Change) : (s.setChanges l).freeCtr = s.freeCtr := rfl
@[simp] theorem State.setChanges_regs (s : State) (l : List Change) : (s.setChanges l).regs = s.regs := rfl
@[simp] theorem State.setChanges_time (s : State) (l : List Change) : (s.setChanges l).time = s.time := rfl
@[simp] theorem State.setChanges_host (s : State) (l : List Change) : (s.setChanges l).host = s.host := rfl
@[simp] theorem State.setChanges_req (s : State) (l : List Change) : (s.setChanges l).req = s.req := rfl
@[simp] theorem State.setChanges_locks (s : State) (l : List Change) : (s.setChanges l).locks = s.locks := rfl
@[simp] theorem State.setChanges_que (s : State) (l : List Change) : (s.setChanges l).que = s.que := rfl
@[simp] theorem State.setChanges_rcu (s : State) (l : List Change) : (s.setChanges l).rcu = s.rcu := rfl
@[simp] theorem State.setChanges_lnk (s : State) (l : List Change) : (s.setChanges l).lnk = s.lnk := rfl
@[simp] theorem State.setChanges_csq (s : State) (l : List Change) : (s.setChanges l).csq = { s.csq with changes := l } := rfl
@[simp] theorem State.setChanges_twn (s : State) (l : List Change) : (s.setChanges l).twn = s.twn := rfl
@[simp] theorem State.setChanges_jnl (s : State) (l : List Change) : (s.setChanges l).jnl = s.jnl := rfl
@[simp] theorem State.setChanges_mss (s : State) (l : List Change) : (s.setChanges l).mss = s.mss := rfl
@[simp] theorem State.setChanges_rme (s : State) (l : List Change) : (s.setChanges l).rme = s.rme := rfl
@[simp] theorem State.setChanges_rdx (s : State) (l : List Change) : (s.setChanges l).rdx = s.rdx := rfl
@[simp] theorem State.setChanges_psm (s : State) (l : List Change) : (s.setChanges l).psm = s.psm := rfl
@[simp] theorem State.setChanges_sec (s : State) (l : List Change) : (s.setChanges l).sec = s.sec := rfl
@[simp] theorem State.setChanges_fcu (s : State) (l : List Change) : (s.setChanges l).fcu = s.fcu := rfl
@[simp] theorem State.setChanges_evr (s : State) (l : List Change) : (s.setChanges l).evr = s.evr := rfl
@[simp] theorem State.setChanges_sta (s : State) (l : List Change) : (s.setChanges l).sta = s.sta := rfl
@[simp] theorem State.setChanges_cpm (s : State) (l : List Change) : (s.setChanges l).cpm = s.cpm := rfl
@[simp] theorem State.setChanges_boot (s : State) (l : List Change) : (s.setChanges l).boot = s.boot := rfl
@[simp] theorem State.setChanges_dbg (s : State) (l : List Change) : (s.setChanges l).dbg = s.dbg := rfl
@[simp] theorem State.setChanges_rd (s : State) (l : List Change) (g : Fld) : (s.setChanges l).rd g = s.rd g := rfl
@[simp] theorem State.setChanges_on (s : State) (l : List Change) (g : Fld) : (s.setChanges l).on g = s.on g := rfl

/-! setOps -/

@[simp] theorem State.setOps_pending (s : State) (l : List RmeOp) : (s.setOps l).pending = s.pending := rfl
@[simp] theorem State.setOps_out (s : State) (l : List RmeOp) : (s.setOps l).out = s.out := rfl
@[simp] theorem State.setOps_freeCtr (s : State) (l : List RmeOp) : (s.setOps l).freeCtr = s.freeCtr := rfl
@[simp] theorem State.setOps_regs (s : State) (l : List RmeOp) : (s.setOps l).regs = s.regs := rfl
@[simp] theorem State.setOps_time (s : State) (l : List RmeOp) : (s.setOps l).time = s.time := rfl
@[simp] theorem State.setOps_host (s : State) (l : List RmeOp) : (s.setOps l).host = s.host := rfl
@[simp] theorem State.setOps_req (s : State) (l : List RmeOp) : (s.setOps l).req = s.req := rfl
@[simp] theorem State.setOps_locks (s : State) (l : List RmeOp) : (s.setOps l).locks = s.locks := rfl
@[simp] theorem State.setOps_que (s : State) (l : List RmeOp) : (s.setOps l).que = s.que := rfl
@[simp] theorem State.setOps_rcu (s : State) (l : List RmeOp) : (s.setOps l).rcu = s.rcu := rfl
@[simp] theorem State.setOps_lnk (s : State) (l : List RmeOp) : (s.setOps l).lnk = s.lnk := rfl
@[simp] theorem State.setOps_csq (s : State) (l : List RmeOp) : (s.setOps l).csq = s.csq := rfl
@[simp] theorem State.setOps_twn (s : State) (l : List RmeOp) : (s.setOps l).twn = s.twn := rfl
@[simp] theorem State.setOps_jnl (s : State) (l : List RmeOp) : (s.setOps l).jnl = s.jnl := rfl
@[simp] theorem State.setOps_mss (s : State) (l : List RmeOp) : (s.setOps l).mss = s.mss := rfl
@[simp] theorem State.setOps_rme (s : State) (l : List RmeOp) : (s.setOps l).rme = { s.rme with ops := l } := rfl
@[simp] theorem State.setOps_rdx (s : State) (l : List RmeOp) : (s.setOps l).rdx = s.rdx := rfl
@[simp] theorem State.setOps_psm (s : State) (l : List RmeOp) : (s.setOps l).psm = s.psm := rfl
@[simp] theorem State.setOps_sec (s : State) (l : List RmeOp) : (s.setOps l).sec = s.sec := rfl
@[simp] theorem State.setOps_fcu (s : State) (l : List RmeOp) : (s.setOps l).fcu = s.fcu := rfl
@[simp] theorem State.setOps_evr (s : State) (l : List RmeOp) : (s.setOps l).evr = s.evr := rfl
@[simp] theorem State.setOps_sta (s : State) (l : List RmeOp) : (s.setOps l).sta = s.sta := rfl
@[simp] theorem State.setOps_cpm (s : State) (l : List RmeOp) : (s.setOps l).cpm = s.cpm := rfl
@[simp] theorem State.setOps_boot (s : State) (l : List RmeOp) : (s.setOps l).boot = s.boot := rfl
@[simp] theorem State.setOps_dbg (s : State) (l : List RmeOp) : (s.setOps l).dbg = s.dbg := rfl
@[simp] theorem State.setOps_rd (s : State) (l : List RmeOp) (g : Fld) : (s.setOps l).rd g = s.rd g := rfl
@[simp] theorem State.setOps_on (s : State) (l : List RmeOp) (g : Fld) : (s.setOps l).on g = s.on g := rfl

/-! setPair -/

@[simp] theorem State.setPair_pending (s : State) (o : Onset) (x : PairMem) : (s.setPair o x).pending = s.pending := rfl
@[simp] theorem State.setPair_out (s : State) (o : Onset) (x : PairMem) : (s.setPair o x).out = s.out := rfl
@[simp] theorem State.setPair_freeCtr (s : State) (o : Onset) (x : PairMem) : (s.setPair o x).freeCtr = s.freeCtr := rfl
@[simp] theorem State.setPair_regs (s : State) (o : Onset) (x : PairMem) : (s.setPair o x).regs = s.regs := rfl
@[simp] theorem State.setPair_time (s : State) (o : Onset) (x : PairMem) : (s.setPair o x).time = s.time := rfl
@[simp] theorem State.setPair_host (s : State) (o : Onset) (x : PairMem) : (s.setPair o x).host = s.host := rfl
@[simp] theorem State.setPair_req (s : State) (o : Onset) (x : PairMem) : (s.setPair o x).req = s.req := rfl
@[simp] theorem State.setPair_locks (s : State) (o : Onset) (x : PairMem) : (s.setPair o x).locks = s.locks := rfl
@[simp] theorem State.setPair_que (s : State) (o : Onset) (x : PairMem) : (s.setPair o x).que = s.que := rfl
@[simp] theorem State.setPair_rcu (s : State) (o : Onset) (x : PairMem) : (s.setPair o x).rcu = s.rcu := rfl
@[simp] theorem State.setPair_lnk (s : State) (o : Onset) (x : PairMem) : (s.setPair o x).lnk = s.lnk := rfl
@[simp] theorem State.setPair_csq (s : State) (o : Onset) (x : PairMem) : (s.setPair o x).csq = s.csq := rfl
@[simp] theorem State.setPair_twn (s : State) (o : Onset) (x : PairMem) : (s.setPair o x).twn = s.twn := rfl
@[simp] theorem State.setPair_jnl (s : State) (o : Onset) (x : PairMem) : (s.setPair o x).jnl = s.jnl := rfl
@[simp] theorem State.setPair_mss (s : State) (o : Onset) (x : PairMem) : (s.setPair o x).mss = s.mss := rfl
@[simp] theorem State.setPair_rme (s : State) (o : Onset) (x : PairMem) : (s.setPair o x).rme = s.rme := rfl
@[simp] theorem State.setPair_rdx (s : State) (o : Onset) (x : PairMem) : (s.setPair o x).rdx = s.rdx := rfl
@[simp] theorem State.setPair_psm (s : State) (o : Onset) (x : PairMem) : (s.setPair o x).psm = s.psm := rfl
@[simp] theorem State.setPair_sec (s : State) (o : Onset) (x : PairMem) : (s.setPair o x).sec = s.sec := rfl
@[simp] theorem State.setPair_fcu (s : State) (o : Onset) (x : PairMem) : (s.setPair o x).fcu = { s.fcu with pairs := s.fcu.pairs.filter (fun y => y.1.src != o.src) ++ (if x = {} then [] else [(o, x)]) } := rfl
@[simp] theorem State.setPair_evr (s : State) (o : Onset) (x : PairMem) : (s.setPair o x).evr = s.evr := rfl
@[simp] theorem State.setPair_sta (s : State) (o : Onset) (x : PairMem) : (s.setPair o x).sta = s.sta := rfl
@[simp] theorem State.setPair_cpm (s : State) (o : Onset) (x : PairMem) : (s.setPair o x).cpm = s.cpm := rfl
@[simp] theorem State.setPair_boot (s : State) (o : Onset) (x : PairMem) : (s.setPair o x).boot = s.boot := rfl
@[simp] theorem State.setPair_dbg (s : State) (o : Onset) (x : PairMem) : (s.setPair o x).dbg = s.dbg := rfl
@[simp] theorem State.setPair_rd (s : State) (o : Onset) (x : PairMem) (g : Fld) : (s.setPair o x).rd g = s.rd g := rfl
@[simp] theorem State.setPair_on (s : State) (o : Onset) (x : PairMem) (g : Fld) : (s.setPair o x).on g = s.on g := rfl

/-! free: the state in which a free value is taken -/

@[simp] theorem State.free_pending (s : State) : (s.free.2).pending = s.pending := rfl
@[simp] theorem State.free_out (s : State) : (s.free.2).out = s.out := rfl
@[simp] theorem State.free_freeCtr (s : State) : (s.free.2).freeCtr = s.freeCtr + 1 := rfl
@[simp] theorem State.free_regs (s : State) : (s.free.2).regs = s.regs := rfl
@[simp] theorem State.free_time (s : State) : (s.free.2).time = s.time := rfl
@[simp] theorem State.free_host (s : State) : (s.free.2).host = s.host := rfl
@[simp] theorem State.free_req (s : State) : (s.free.2).req = s.req := rfl
@[simp] theorem State.free_locks (s : State) : (s.free.2).locks = s.locks := rfl
@[simp] theorem State.free_que (s : State) : (s.free.2).que = s.que := rfl
@[simp] theorem State.free_rcu (s : State) : (s.free.2).rcu = s.rcu := rfl
@[simp] theorem State.free_lnk (s : State) : (s.free.2).lnk = s.lnk := rfl
@[simp] theorem State.free_csq (s : State) : (s.free.2).csq = s.csq := rfl
@[simp] theorem State.free_twn (s : State) : (s.free.2).twn = s.twn := rfl
@[simp] theorem State.free_jnl (s : State) : (s.free.2).jnl = s.jnl := rfl
@[simp] theorem State.free_mss (s : State) : (s.free.2).mss = s.mss := rfl
@[simp] theorem State.free_rme (s : State) : (s.free.2).rme = s.rme := rfl
@[simp] theorem State.free_rdx (s : State) : (s.free.2).rdx = s.rdx := rfl
@[simp] theorem State.free_psm (s : State) : (s.free.2).psm = s.psm := rfl
@[simp] theorem State.free_sec (s : State) : (s.free.2).sec = s.sec := rfl
@[simp] theorem State.free_fcu (s : State) : (s.free.2).fcu = s.fcu := rfl
@[simp] theorem State.free_evr (s : State) : (s.free.2).evr = s.evr := rfl
@[simp] theorem State.free_sta (s : State) : (s.free.2).sta = s.sta := rfl
@[simp] theorem State.free_cpm (s : State) : (s.free.2).cpm = s.cpm := rfl
@[simp] theorem State.free_boot (s : State) : (s.free.2).boot = s.boot := rfl
@[simp] theorem State.free_dbg (s : State) : (s.free.2).dbg = s.dbg := rfl
@[simp] theorem State.free_rd (s : State) (g : Fld) : (s.free.2).rd g = s.rd g := rfl
@[simp] theorem State.free_on (s : State) (g : Fld) : (s.free.2).on g = s.on g := rfl

/-! A component read back at the place it was set. -/

@[simp] theorem State.setPlink_plink (s : State) (p : Nat) (x : PortLink) : (s.setPlink p x).plink p = x := Tbl.get_set_same _ _ _ _
@[simp] theorem State.setUnit_unit (s : State) (u : Nat) (x : LinkUnit) : (s.setUnit u x).unit u = x := Tbl.get_set_same _ _ _ _
@[simp] theorem State.setRing_ring (s : State) (r : Nat) (x : Ring) : (s.setRing r x).ring r = x := Tbl.get_set_same _ _ _ _
@[simp] theorem State.setLane_lane (s : State) (p k : Nat) (x : Lane) : (s.setLane p k x).lane p k = x := Tbl.get_set_same _ _ _ _
@[simp] theorem State.setCircLink_circLink (s : State) (c : Nat) (x : CircLink) : (s.setCircLink c x).circLink c = x := Tbl.get_set_same _ _ _ _
@[simp] theorem State.setKeySlot_keySlot (s : State) (n : Nat) (x : KeySlot) : (s.setKeySlot n x).keySlot n = x := Tbl.get_set_same _ _ _ _
@[simp] theorem State.setSlot_slot (s : State) (n : Nat) (x : Slot) : (s.setSlot n x).slot n = x := Tbl.get_set_same _ _ _ _

end Sys2Proof.Machine
end

