-- ==== Sys2Proof/Laws/Kept.lean ====
section
/-! SUPPORT. What an operation keeps: the queue of waiting commands, the outputs sent so far, the free values used so far, the canonical forms,
and every part of the state outside a set given as a bit mask. How this is carried through conditions, folds, record updates and the outcomes
of partial operations. -/

namespace Sys2Proof.Machine

/-- The number of a part: its bit in a mask. -/
def Part.ix : Part → Nat
  | .page n => n.val
  | .headers => 16 | .ports => 17 | .upper => 18 | .outputs => 19 | .freeValues => 20 | .time => 21 | .host => 22 | .requesters => 23
  | .locks => 24 | .queues => 25 | .rings => 26 | .links => 27 | .circuits => 28 | .twin => 29 | .journal => 30 | .memory => 31
  | .stackState => 32 | .remoteOps => 33 | .reductions => 34 | .sums => 35 | .keys => 36 | .faults => 37 | .events => 38
  | .partCounters => 39 | .power => 40 | .boot => 41 | .debug => 42

/-- Every bit of a is a bit of m. -/
def Sub (a m : Nat) : Prop := m ||| a = m

theorem Sub.of {A a m : Nat} (h : Sub A m) (d : A ||| a = A) : Sub a m := by
  unfold Sub at *
  rw [← h, Nat.or_assoc, d]

theorem Sub.refl (a : Nat) : Sub a a := Nat.or_self a

theorem Sub.bit {i m : Nat} (h : Sub (2 ^ i) m) : m.testBit i = true := by
  unfold Sub at h
  rw [← h, Nat.testBit_or, Nat.testBit_two_pow_self, Bool.or_true]

/-- Between s and t: the queue is left alone, no output is taken back, no free value is used twice, the canonical forms stay, and the parts
whose bits are not in m are the same. -/
structure Kept (m : Nat) (s t : State) : Prop where
  queue : t.pending = s.pending
  outputs : s.out <+: t.out
  free : s.freeCtr ≤ t.freeCtr
  memory : Memory.wf s.mss.mem = true → Memory.wf t.mss.mem = true
  fields : s.fieldsWf = true → t.fieldsWf = true
  parts : ∀ p : Part, m.testBit p.ix = false → p.Same s t

theorem Part.Same.refl (p : Part) (s : State) : p.Same s s := by
  cases p <;> first | rfl | exact fun _ _ => rfl | exact fun _ => rfl | exact ⟨rfl, rfl, rfl, rfl⟩

theorem Kept.refl (m : Nat) (s : State) : Kept m s s :=
  ⟨rfl, List.prefix_refl _, Nat.le_refl _, id, id, fun p _ => Part.Same.refl p s⟩

theorem Kept.ite {m : Nat} {s0 a b : State} {c : Prop} [Decidable c] (ha : Kept m s0 a) (hb : Kept m s0 b) :
    Kept m s0 (if c then a else b) := by
  split <;> assumption

theorem Kept.dite {m : Nat} {s0 : State} {c : Prop} [Decidable c] {a : c → State} {b : ¬ c → State} (ha : ∀ h, Kept m s0 (a h))
    (hb : ∀ h, Kept m s0 (b h)) : Kept m s0 (if h : c then a h else b h) := by
  split <;> solve_by_elim

theorem Kept.foldl {m : Nat} {s0 : State} {β : Type} {f : State → β → State} {l : List β} {s : State}
    (hf : ∀ a x, Kept m s0 a → Kept m s0 (f a x)) (h : Kept m s0 s) : Kept m s0 (l.foldl f s) := by
  induction l generalizing s with
  | nil => exact h
  | cons x l ih => exact ih (hf s x h)

theorem Kept.foldlFst {m : Nat} {s0 : State} {β γ : Type} {f : State × γ → β → State × γ} {l : List β} {s : State × γ}
    (hf : ∀ a x, Kept m s0 a.1 → Kept m s0 (f a x).1) (h : Kept m s0 s.1) : Kept m s0 (l.foldl f s).1 := by
  induction l generalizing s with
  | nil => exact h
  | cons x l ih => exact ih (hf s x h)

theorem Kept.foldlSnd {m : Nat} {s0 : State} {β γ : Type} {f : γ × State → β → γ × State} {l : List β} {s : γ × State}
    (hf : ∀ a x, Kept m s0 a.2 → Kept m s0 (f a x).2) (h : Kept m s0 s.2) : Kept m s0 (l.foldl f s).2 := by
  induction l generalizing s with
  | nil => exact h
  | cons x l ih => exact ih (hf s x h)

/-- A register field is written. -/
theorem State.wr_kept {m : Nat} {s0 s : State} {f : Fld} {v : Nat} (hf : Sub (2 ^ f.part.ix) m) (hs : Kept m s0 s) :
    Kept m s0 (s.wr f v) := by
  refine ⟨hs.queue, hs.outputs, hs.free, hs.memory, fun w => risingFrom_set _ _ _ _ _ (Nat.zero_le _) (hs.fields w), fun p hp => ?_⟩
  have hq := hs.parts p hp
  have hne : ∀ g : Fld, g.part = p → g.key ≠ f.key := by
    intro g hg hk
    have hfp : f.part = p := by rw [← hg]; unfold Fld.part; rw [hk]
    rw [hfp] at hf
    rw [hf.bit] at hp
    cases hp
  cases p <;> first
    | exact hq
    | exact fun g hg => (State.rd_wr_ne s v (hne g hg)).trans (hq g hg)

/-- A free value is taken. -/
theorem State.free_kept {m : Nat} (hm : Sub 0x100000 m) {s0 s : State} (hs : Kept m s0 s) : Kept m s0 s.free.2 := by
  refine ⟨hs.queue, hs.outputs, Nat.le_succ_of_le hs.free, hs.memory, hs.fields, fun p hp => ?_⟩
  have hq := hs.parts p hp
  cases p <;> first
    | exact hq
    | exact absurd ((Sub.bit (i := 20) hm).symm.trans hp) (by decide)

/-- Free values are taken. -/
theorem Kept.updFree {m n : Nat} {s0 s : State} (hs : Kept m s0 s) (hm : Sub 0x100000 m) (h : s.freeCtr ≤ n) : Kept m s0 { s with freeCtr := n } := by
  refine ⟨hs.queue, hs.outputs, hs.free.trans h, hs.memory, hs.fields, fun p hp => ?_⟩
  have hq := hs.parts p hp
  cases p <;> first
    | exact hq
    | exact absurd ((Sub.bit (i := 20) hm).symm.trans hp) (by decide)

/-- The table of register fields is filtered. -/
theorem Kept.setRegs {m : Nat} (hm : Sub 0x7FFFF m) {s0 s : State} {q : Nat × Nat → Bool} (hs : Kept m s0 s) :
    Kept m s0 { s with regs := s.regs.filter q } := by
  refine ⟨hs.queue, hs.outputs, hs.free, hs.memory, fun w => risingFrom_filter _ _ _ (hs.fields w), fun p hp => ?_⟩
  have all : ∀ n : Fin 16, Nat.testBit 0x7FFFF n.val = true := by decide
  have hq := hs.parts p hp
  cases p
  case page n =>
    have : m.testBit n.val = true := by
      unfold Sub at hm
      rw [← hm, Nat.testBit_or, Bool.or_eq_true]
      exact .inr (all n)
    exact absurd (this.symm.trans hp) (by decide)
  case headers => exact absurd ((Sub.bit (i := 16) (hm.of (by decide))).symm.trans hp) (by decide)
  case ports => exact absurd ((Sub.bit (i := 17) (hm.of (by decide))).symm.trans hp) (by decide)
  case upper => exact absurd ((Sub.bit (i := 18) (hm.of (by decide))).symm.trans hp) (by decide)
  all_goals exact hq

/-- A change of the bytes of the stacks that keeps the canonical form. -/
theorem Kept.setMem {m : Nat} (hm : Sub 0x80000000 m) {s0 s : State} {l : List Host.Cell} (hl : Memory.wf s.mss.mem = true → Memory.wf l = true)
    (hs : Kept m s0 s) : Kept m s0 { s with mss := { s.mss with mem := l } } := by
  refine ⟨hs.queue, hs.outputs, hs.free, fun w => hl (hs.memory w), hs.fields, fun p hp => ?_⟩
  have hq := hs.parts p hp
  cases p <;> first
    | exact hq
    | exact absurd ((Sub.bit (i := 31) hm).symm.trans hp) (by decide)

theorem State.setMemByte_kept {m : Nat} (hm : Sub 0x80000000 m) {s0 s : State} {off : Nat} {b : Byte} (hs : Kept m s0 s) :
    Kept m s0 (s.setMemByte off b) :=
  Kept.setMem hm (Memory.wf_write _ _ _) hs

/-- An update of anything but the queue of waiting commands, the free-value counter, the register fields and the stacks' bytes. -/
theorem Kept.upd {m : Nat} {s0 s : State} {o ti ho re lo qu rc ln cs tw jn ms rm rd ps se fc ev st cp bo db} (h : Kept m s0 s)
    (h19 : (Sub 0x80000 m ∧ s.out <+: o) ∨ o = s.out)
    (h21 : Sub 0x200000 m ∨ ti = s.time) (h22 : Sub 0x400000 m ∨ ho = s.host) (h23 : Sub 0x800000 m ∨ re = s.req)
    (h24 : Sub 0x1000000 m ∨ lo = s.locks) (h25 : Sub 0x2000000 m ∨ qu = s.que) (h26 : Sub 0x4000000 m ∨ rc = s.rcu)
    (h27 : Sub 0x8000000 m ∨ ln = s.lnk) (h28 : Sub 0x10000000 m ∨ cs = s.csq) (h29 : Sub 0x20000000 m ∨ tw = s.twn)
    (h30 : Sub 0x40000000 m ∨ jn = s.jnl) (h31 : ms.mem = s.mss.mem) (h32 : Sub 0x100000000 m ∨ ms = s.mss)
    (h33 : Sub 0x200000000 m ∨ rm = s.rme) (h34 : Sub 0x400000000 m ∨ rd = s.rdx) (h35 : Sub 0x800000000 m ∨ ps = s.psm)
    (h36 : Sub 0x1000000000 m ∨ se = s.sec) (h37 : Sub 0x2000000000 m ∨ fc = s.fcu) (h38 : Sub 0x4000000000 m ∨ ev = s.evr)
    (h39 : Sub 0x8000000000 m ∨ st = s.sta) (h40 : Sub 0x10000000000 m ∨ cp = s.cpm) (h41 : Sub 0x20000000000 m ∨ bo = s.boot)
    (h42 : Sub 0x40000000000 m ∨ db = s.dbg) :
    Kept m s0 ⟨s.pending, o, s.freeCtr, s.regs, ti, ho, re, lo, qu, rc, ln, cs, tw, jn, ms, rm, rd, ps, se, fc, ev, st, cp, bo, db⟩ := by
  have bit {i a : Nat} {P : Prop} (h : Sub a m ∨ P) (e : a = 2 ^ i) (hp : m.testBit i = false) : P := by
    rcases h with h | h
    · rw [e] at h; rw [h.bit] at hp; cases hp
    · exact h
  refine ⟨h.queue, ?_, h.free, fun w => ?_, h.fields, fun p hp => ?_⟩
  · rcases h19 with ⟨-, k⟩ | k
    · exact h.outputs.trans k
    · exact h.outputs.trans (k ▸ List.prefix_refl _)
  · show Memory.wf ms.mem = true
    rw [h31]; exact h.memory w
  · have hq := h.parts p hp
    cases p
    case outputs =>
      rcases h19 with ⟨hb, -⟩ | k
      · exact absurd ((Sub.bit (i := 19) hb).symm.trans hp) (by decide)
      · exact k.trans hq
    case memory => intro a; show Memory.read ms.mem a = _; rw [h31]; exact hq a
    case stackState =>
      have e : ms = s.mss := bit h32 (i := 32) rfl hp
      subst e; exact hq
    case time => exact (bit h21 (i := 21) rfl hp).trans hq
    case host => exact (bit h22 (i := 22) rfl hp).trans hq
    case requesters => exact (bit h23 (i := 23) rfl hp).trans hq
    case locks => exact (bit h24 (i := 24) rfl hp).trans hq
    case queues => exact (bit h25 (i := 25) rfl hp).trans hq
    case rings => exact (bit h26 (i := 26) rfl hp).trans hq
    case links => exact (bit h27 (i := 27) rfl hp).trans hq
    case circuits => exact (bit h28 (i := 28) rfl hp).trans hq
    case twin => exact (bit h29 (i := 29) rfl hp).trans hq
    case journal => exact (bit h30 (i := 30) rfl hp).trans hq
    case remoteOps => exact (bit h33 (i := 33) rfl hp).trans hq
    case reductions => exact (bit h34 (i := 34) rfl hp).trans hq
    case sums => exact (bit h35 (i := 35) rfl hp).trans hq
    case keys => exact (bit h36 (i := 36) rfl hp).trans hq
    case faults => exact (bit h37 (i := 37) rfl hp).trans hq
    case events => exact (bit h38 (i := 38) rfl hp).trans hq
    case partCounters => exact (bit h39 (i := 39) rfl hp).trans hq
    case power => exact (bit h40 (i := 40) rfl hp).trans hq
    case boot => exact (bit h41 (i := 41) rfl hp).trans hq
    case debug => exact (bit h42 (i := 42) rfl hp).trans hq
    all_goals exact hq

/-- What a command's outcome keeps. -/
def KeptOut (m : Nat) (s0 : State) : Host.Outcome State Fault Refusal → Prop
  | .next t => Kept m s0 t
  | _ => True

theorem KeptOut.next {m : Nat} {s0 t : State} (h : Kept m s0 t) : KeptOut m s0 (.next t) := h

theorem KeptOut.refused {m : Nat} {s0 : State} {r : Refusal} : KeptOut m s0 (.refused r) := trivial

theorem KeptOut.ite {m : Nat} {s0 : State} {c : Prop} [Decidable c] {a b : Host.Outcome State Fault Refusal} (ha : KeptOut m s0 a)
    (hb : KeptOut m s0 b) : KeptOut m s0 (if c then a else b) := by
  split <;> assumption

/-- What a partial operation keeps where it answers. -/
structure KeptOpt (m : Nat) (s0 : State) (o : Option State) : Prop where
  kept : ∀ t, o = some t → Kept m s0 t

theorem KeptOpt.none {m : Nat} {s0 : State} : KeptOpt m s0 none := ⟨fun _ h => nomatch h⟩

theorem KeptOpt.some {m : Nat} {s0 t : State} (h : Kept m s0 t) : KeptOpt m s0 (some t) := ⟨fun _ e => Option.some.inj e ▸ h⟩

theorem KeptOpt.ite {m : Nat} {s0 : State} {c : Prop} [Decidable c] {a b : Option State} (ha : KeptOpt m s0 a) (hb : KeptOpt m s0 b) :
    KeptOpt m s0 (if c then a else b) := by
  split <;> assumption

theorem KeptOpt.findSome {m : Nat} {s0 : State} {β : Type} {f : β → Option State} {l : List β} (h : ∀ x, KeptOpt m s0 (f x)) :
    KeptOpt m s0 (l.findSome? f) :=
  ⟨fun t e => let ⟨x, _, hx⟩ := List.exists_of_findSome?_eq_some e; (h x).kept t hx⟩

theorem KeptOpt.bind {m : Nat} {s0 : State} {β : Type} {f : β → Option State} {o : Option β} (h : ∀ x, KeptOpt m s0 (f x)) :
    KeptOpt m s0 (o.bind f) :=
  ⟨fun t e => let ⟨x, _, hx⟩ := Option.bind_eq_some_iff.1 e; (h x).kept t hx⟩

theorem KeptOpt.getD {m : Nat} {s0 s : State} {o : Option State} (h : KeptOpt m s0 o) (hs : Kept m s0 s) : Kept m s0 (o.getD s) := by
  cases o with
  | none => exact hs
  | some t => exact h.kept t rfl

theorem Kept.ofSome {m : Nat} {s0 t : State} {o : Option State} (e : o = some t) (h : KeptOpt m s0 o) : Kept m s0 t := h.kept t e

theorem Kept.ofFst {m : Nat} {s0 t : State} {β : Type} {b : β} {x : State × β} (e : x = (t, b)) (h : Kept m s0 x.1) : Kept m s0 t := by
  subst e; exact h

theorem Kept.ofSnd {m : Nat} {s0 t : State} {β : Type} {b : β} {x : β × State} (e : x = (b, t)) (h : Kept m s0 x.2) : Kept m s0 t := by
  subst e; exact h

theorem Kept.iteFst {m : Nat} {s0 : State} {β : Type} {c : Prop} [Decidable c] {a b : State × β} (ha : Kept m s0 a.1) (hb : Kept m s0 b.1) :
    Kept m s0 (if c then a else b).1 := by
  split <;> assumption

theorem Kept.iteSnd {m : Nat} {s0 : State} {β : Type} {c : Prop} [Decidable c] {a b : β × State} (ha : Kept m s0 a.2) (hb : Kept m s0 b.2) :
    Kept m s0 (if c then a else b).2 := by
  split <;> assumption

/-! Which part a register field belongs to, from its address. -/

theorem Sub.upper {A m : Nat} {f : Fld} (hm : Sub A m) (h : 0x20000 ≤ f.key / 32) (d : A ||| 2 ^ 18 = A) : Sub (2 ^ f.part.ix) m := by
  have e : f.part = .upper := by unfold Fld.part partAt; rw [if_pos h]
  rw [e]; exact hm.of d

theorem Sub.header {A m : Nat} {f : Fld} (hm : Sub A m) (h : f.key / 32 % 0x1000 < 0x40) (d : A ||| (2 ^ 16 ||| 2 ^ 18) = A) :
    Sub (2 ^ f.part.ix) m := by
  by_cases hu : 0x20000 ≤ f.key / 32
  · exact Sub.upper hm hu (by rw [← d, Nat.or_assoc]; exact congrArg _ (by decide))
  · have e : f.part = .headers := by unfold Fld.part partAt; rw [if_neg hu, if_pos h]
    rw [e]; exact hm.of (by rw [← d, Nat.or_assoc]; exact congrArg _ (by decide))

theorem Sub.ports {A m : Nat} {f : Fld} (hm : Sub A m) (h : 0x10000 ≤ f.key / 32 ∧ f.key / 32 < 0x20000 ∧ 0x40 ≤ f.key / 32 % 0x1000)
    (d : A ||| 2 ^ 17 = A) : Sub (2 ^ f.part.ix) m := by
  have e : f.part = .ports := by
    unfold Fld.part partAt; rw [if_neg (by omega), if_neg (by omega), if_pos h.1]
  rw [e]; exact hm.of d

theorem Sub.page {A m : Nat} {f : Fld} (n : Nat) (hm : Sub A m) (h : f.key / 32 / 0x1000 = n ∧ n < 16 ∧ 0x40 ≤ f.key / 32 % 0x1000)
    (d : A ||| 2 ^ n = A) : Sub (2 ^ f.part.ix) m := by
  have e : f.part = .page (Fin.ofNat 16 n) := by
    unfold Fld.part partAt; rw [if_neg (by omega), if_neg (by omega), if_neg (by omega), h.1]
  rw [e]
  have : (Part.page (Fin.ofNat 16 n)).ix = n := Nat.mod_eq_of_lt h.2.1
  rw [this]; exact hm.of d

theorem Sub.any {A m : Nat} {f : Fld} (hm : Sub A m) (d : A ||| 0x7FFFF = A) : Sub (2 ^ f.part.ix) m := by
  have key : ∀ p : Part, (∃ n, p = .page n) ∨ p = .headers ∨ p = .ports ∨ p = .upper → Sub (2 ^ p.ix) m := by
    rintro p (⟨n, rfl⟩ | rfl | rfl | rfl)
    · refine Sub.of (hm.of d) ?_
      show 0x7FFFF ||| 2 ^ n.val = 0x7FFFF
      revert n; decide
    all_goals exact Sub.of (hm.of d) (by decide)
  refine key f.part ?_
  unfold Fld.part partAt
  split
  · exact .inr (.inr (.inr rfl))
  · split
    · exact .inr (.inl rfl)
    · split
      · exact .inr (.inr (.inl rfl))
      · exact .inl ⟨_, rfl⟩

/-- Every part stands in the mask of all parts. -/
theorem Part.sub_all {m : Nat} (p : Part) (hm : Sub 0x7FFFFFFFFFF m) : Sub (2 ^ p.ix) m := by
  have all : ∀ n : Fin 16, 0x7FFFFFFFFFF ||| 2 ^ n.val = 0x7FFFFFFFFFF := by decide
  cases p
  case page n => exact hm.of (all n)
  all_goals exact hm.of (by decide)

/-- Where every part may change, the waiting queue, the outputs and the free values stay and the canonical forms are kept, that is all. -/
theorem Kept.whole {m : Nat} (hm : Sub 0x7FFFFFFFFFF m) {s0 s t : State} (hs : Kept m s0 s) (hq : t.pending = s.pending) (ho : t.out = s.out)
    (hf : t.freeCtr = s.freeCtr) (hw : Memory.wf s.mss.mem = true → Memory.wf t.mss.mem = true) (hr : s.fieldsWf = true → t.fieldsWf = true) :
    Kept m s0 t := by
  refine ⟨hq.trans hs.queue, ho ▸ hs.outputs, hf ▸ hs.free, fun w => hw (hs.memory w), fun w => hr (hs.fields w), fun p hp => ?_⟩
  have hall : Sub (2 ^ p.ix) m := p.sub_all hm
  rw [hall.bit] at hp; cases hp

theorem State.wrs_nil_kept {m : Nat} {s0 s : State} (hs : Kept m s0 s) : Kept m s0 (s.wrs []) := hs

theorem State.wrs_cons_kept {m : Nat} {s0 s : State} {f : Fld} {v : Nat} {l : List (Fld × Nat)} (hs : Kept m s0 ((s.wr f v).wrs l)) :
    Kept m s0 (s.wrs ((f, v) :: l)) := hs

theorem State.wrs_ite_kept {m : Nat} {s0 s : State} {c : Prop} [Decidable c] {a b : List (Fld × Nat)} (ha : Kept m s0 (s.wrs a))
    (hb : Kept m s0 (s.wrs b)) : Kept m s0 (s.wrs (if c then a else b)) := by
  split <;> assumption

theorem State.clr_nil_kept {m : Nat} {s0 s : State} (hs : Kept m s0 s) : Kept m s0 (s.clr []) := hs

theorem State.clr_cons_kept {m : Nat} {s0 s : State} {f : Fld} {l : List Fld} (hs : Kept m s0 ((s.wr f f.reset).clr l)) :
    Kept m s0 (s.clr (f :: l)) := hs

theorem State.wrs_kept {m : Nat} {s0 s : State} {l : List (Fld × Nat)} (hl : ∀ p ∈ l, Sub (2 ^ p.1.part.ix) m) (hs : Kept m s0 s) :
    Kept m s0 (s.wrs l) := by
  induction l generalizing s with
  | nil => exact hs
  | cons p l ih => exact ih (fun q hq => hl q (List.mem_cons_of_mem _ hq)) (State.wr_kept (hl p List.mem_cons_self) hs)

theorem State.clr_kept {m : Nat} {s0 s : State} {l : List Fld} (hl : ∀ f ∈ l, Sub (2 ^ f.part.ix) m) (hs : Kept m s0 s) :
    Kept m s0 (s.clr l) := by
  induction l generalizing s with
  | nil => exact hs
  | cons f l ih => exact ih (fun q hq => hl q (List.mem_cons_of_mem _ hq)) (State.wr_kept (hl f List.mem_cons_self) hs)

theorem Kept.updTime {m : Nat} {s0 s : State} {x : _} (h : Kept m s0 s) (hm : Sub 0x200000 m) : Kept m s0 { s with time := x } :=
  Kept.upd h (.inr rfl) (.inl hm) (.inr rfl) (.inr rfl) (.inr rfl) (.inr rfl) (.inr rfl) (.inr rfl) (.inr rfl) (.inr rfl) (.inr rfl) rfl (.inr rfl) (.inr rfl) (.inr rfl) (.inr rfl) (.inr rfl) (.inr rfl) (.inr rfl) (.inr rfl) (.inr rfl) (.inr rfl) (.inr rfl)

theorem Kept.updHost {m : Nat} {s0 s : State} {x : _} (h : Kept m s0 s) (hm : Sub 0x400000 m) : Kept m s0 { s with host := x } :=
  Kept.upd h (.inr rfl) (.inr rfl) (.inl hm) (.inr rfl) (.inr rfl) (.inr rfl) (.inr rfl) (.inr rfl) (.inr rfl) (.inr rfl) (.inr rfl) rfl (.inr rfl) (.inr rfl) (.inr rfl) (.inr rfl) (.inr rfl) (.inr rfl) (.inr rfl) (.inr rfl) (.inr rfl) (.inr rfl) (.inr rfl)

theorem Kept.updReq {m : Nat} {s0 s : State} {x : _} (h : Kept m s0 s) (hm : Sub 0x800000 m) : Kept m s0 { s with req := x } :=
  Kept.upd h (.inr rfl) (.inr rfl) (.inr rfl) (.inl hm) (.inr rfl) (.inr rfl) (.inr rfl) (.inr rfl) (.inr rfl) (.inr rfl) (.inr rfl) rfl (.inr rfl) (.inr rfl) (.inr rfl) (.inr rfl) (.inr rfl) (.inr rfl) (.inr rfl) (.inr rfl) (.inr rfl) (.inr rfl) (.inr rfl)

theorem Kept.updLocks {m : Nat} {s0 s : State} {x : _} (h : Kept m s0 s) (hm : Sub 0x1000000 m) : Kept m s0 { s with locks := x } :=
  Kept.upd h (.inr rfl) (.inr rfl) (.inr rfl) (.inr rfl) (.inl hm) (.inr rfl) (.inr rfl) (.inr rfl) (.inr rfl) (.inr rfl) (.inr rfl) rfl (.inr rfl) (.inr rfl) (.inr rfl) (.inr rfl) (.inr rfl) (.inr rfl) (.inr rfl) (.inr rfl) (.inr rfl) (.inr rfl) (.inr rfl)

theorem Kept.updQue {m : Nat} {s0 s : State} {x : _} (h : Kept m s0 s) (hm : Sub 0x2000000 m) : Kept m s0 { s with que := x } :=
  Kept.upd h (.inr rfl) (.inr rfl) (.inr rfl) (.inr rfl) (.inr rfl) (.inl hm) (.inr rfl) (.inr rfl) (.inr rfl) (.inr rfl) (.inr rfl) rfl (.inr rfl) (.inr rfl) (.inr rfl) (.inr rfl) (.inr rfl) (.inr rfl) (.inr rfl) (.inr rfl) (.inr rfl) (.inr rfl) (.inr rfl)

theorem Kept.updRcu {m : Nat} {s0 s : State} {x : _} (h : Kept m s0 s) (hm : Sub 0x4000000 m) : Kept m s0 { s with rcu := x } :=
  Kept.upd h (.inr rfl) (.inr rfl) (.inr rfl) (.inr rfl) (.inr rfl) (.inr rfl) (.inl hm) (.inr rfl) (.inr rfl) (.inr rfl) (.inr rfl) rfl (.inr rfl) (.inr rfl) (.inr rfl) (.inr rfl) (.inr rfl) (.inr rfl) (.inr rfl) (.inr rfl) (.inr rfl) (.inr rfl) (.inr rfl)

theorem Kept.updLnk {m : Nat} {s0 s : State} {x : _} (h : Kept m s0 s) (hm : Sub 0x8000000 m) : Kept m s0 { s with lnk := x } :=
  Kept.upd h (.inr rfl) (.inr rfl) (.inr rfl) (.inr rfl) (.inr rfl) (.inr rfl) (.inr rfl) (.inl hm) (.inr rfl) (.inr rfl) (.inr rfl) rfl (.inr rfl) (.inr rfl) (.inr rfl) (.inr rfl) (.inr rfl) (.inr rfl) (.inr rfl) (.inr rfl) (.inr rfl) (.inr rfl) (.inr rfl)

theorem Kept.updCsq {m : Nat} {s0 s : State} {x : _} (h : Kept m s0 s) (hm : Sub 0x10000000 m) : Kept m s0 { s with csq := x } :=
  Kept.upd h (.inr rfl) (.inr rfl) (.inr rfl) (.inr rfl) (.inr rfl) (.inr rfl) (.inr rfl) (.inr rfl) (.inl hm) (.inr rfl) (.inr rfl) rfl (.inr rfl) (.inr rfl) (.inr rfl) (.inr rfl) (.inr rfl) (.inr rfl) (.inr rfl) (.inr rfl) (.inr rfl) (.inr rfl) (.inr rfl)

theorem Kept.updTwn {m : Nat} {s0 s : State} {x : _} (h : Kept m s0 s) (hm : Sub 0x20000000 m) : Kept m s0 { s with twn := x } :=
  Kept.upd h (.inr rfl) (.inr rfl) (.inr rfl) (.inr rfl) (.inr rfl) (.inr rfl) (.inr rfl) (.inr rfl) (.inr rfl) (.inl hm) (.inr rfl) rfl (.inr rfl) (.inr rfl) (.inr rfl) (.inr rfl) (.inr rfl) (.inr rfl) (.inr rfl) (.inr rfl) (.inr rfl) (.inr rfl) (.inr rfl)

theorem Kept.updJnl {m : Nat} {s0 s : State} {x : _} (h : Kept m s0 s) (hm : Sub 0x40000000 m) : Kept m s0 { s with jnl := x } :=
  Kept.upd h (.inr rfl) (.inr rfl) (.inr rfl) (.inr rfl) (.inr rfl) (.inr rfl) (.inr rfl) (.inr rfl) (.inr rfl) (.inr rfl) (.inl hm) rfl (.inr rfl) (.inr rfl) (.inr rfl) (.inr rfl) (.inr rfl) (.inr rfl) (.inr rfl) (.inr rfl) (.inr rfl) (.inr rfl) (.inr rfl)

theorem Kept.updMss {m : Nat} {s0 s : State} {x : _} (h : Kept m s0 s) (hm : Sub 0x100000000 m) (e : x.mem = s.mss.mem) : Kept m s0 { s with mss := x } :=
  Kept.upd h (.inr rfl) (.inr rfl) (.inr rfl) (.inr rfl) (.inr rfl) (.inr rfl) (.inr rfl) (.inr rfl) (.inr rfl) (.inr rfl) (.inr rfl) e (.inl hm) (.inr rfl) (.inr rfl) (.inr rfl) (.inr rfl) (.inr rfl) (.inr rfl) (.inr rfl) (.inr rfl) (.inr rfl) (.inr rfl)

theorem Kept.updRme {m : Nat} {s0 s : State} {x : _} (h : Kept m s0 s) (hm : Sub 0x200000000 m) : Kept m s0 { s with rme := x } :=
  Kept.upd h (.inr rfl) (.inr rfl) (.inr rfl) (.inr rfl) (.inr rfl) (.inr rfl) (.inr rfl) (.inr rfl) (.inr rfl) (.inr rfl) (.inr rfl) rfl (.inr rfl) (.inl hm) (.inr rfl) (.inr rfl) (.inr rfl) (.inr rfl) (.inr rfl) (.inr rfl) (.inr rfl) (.inr rfl) (.inr rfl)

theorem Kept.updRdx {m : Nat} {s0 s : State} {x : _} (h : Kept m s0 s) (hm : Sub 0x400000000 m) : Kept m s0 { s with rdx := x } :=
  Kept.upd h (.inr rfl) (.inr rfl) (.inr rfl) (.inr rfl) (.inr rfl) (.inr rfl) (.inr rfl) (.inr rfl) (.inr rfl) (.inr rfl) (.inr rfl) rfl (.inr rfl) (.inr rfl) (.inl hm) (.inr rfl) (.inr rfl) (.inr rfl) (.inr rfl) (.inr rfl) (.inr rfl) (.inr rfl) (.inr rfl)

theorem Kept.updPsm {m : Nat} {s0 s : State} {x : _} (h : Kept m s0 s) (hm : Sub 0x800000000 m) : Kept m s0 { s with psm := x } :=
  Kept.upd h (.inr rfl) (.inr rfl) (.inr rfl) (.inr rfl) (.inr rfl) (.inr rfl) (.inr rfl) (.inr rfl) (.inr rfl) (.inr rfl) (.inr rfl) rfl (.inr rfl) (.inr rfl) (.inr rfl) (.inl hm) (.inr rfl) (.inr rfl) (.inr rfl) (.inr rfl) (.inr rfl) (.inr rfl) (.inr rfl)

theorem Kept.updSec {m : Nat} {s0 s : State} {x : _} (h : Kept m s0 s) (hm : Sub 0x1000000000 m) : Kept m s0 { s with sec := x } :=
  Kept.upd h (.inr rfl) (.inr rfl) (.inr rfl) (.inr rfl) (.inr rfl) (.inr rfl) (.inr rfl) (.inr rfl) (.inr rfl) (.inr rfl) (.inr rfl) rfl (.inr rfl) (.inr rfl) (.inr rfl) (.inr rfl) (.inl hm) (.inr rfl) (.inr rfl) (.inr rfl) (.inr rfl) (.inr rfl) (.inr rfl)

theorem Kept.updFcu {m : Nat} {s0 s : State} {x : _} (h : Kept m s0 s) (hm : Sub 0x2000000000 m) : Kept m s0 { s with fcu := x } :=
  Kept.upd h (.inr rfl) (.inr rfl) (.inr rfl) (.inr rfl) (.inr rfl) (.inr rfl) (.inr rfl) (.inr rfl) (.inr rfl) (.inr rfl) (.inr rfl) rfl (.inr rfl) (.inr rfl) (.inr rfl) (.inr rfl) (.inr rfl) (.inl hm) (.inr rfl) (.inr rfl) (.inr rfl) (.inr rfl) (.inr rfl)

theorem Kept.updEvr {m : Nat} {s0 s : State} {x : _} (h : Kept m s0 s) (hm : Sub 0x4000000000 m) : Kept m s0 { s with evr := x } :=
  Kept.upd h (.inr rfl) (.inr rfl) (.inr rfl) (.inr rfl) (.inr rfl) (.inr rfl) (.inr rfl) (.inr rfl) (.inr rfl) (.inr rfl) (.inr rfl) rfl (.inr rfl) (.inr rfl) (.inr rfl) (.inr rfl) (.inr rfl) (.inr rfl) (.inl hm) (.inr rfl) (.inr rfl) (.inr rfl) (.inr rfl)

theorem Kept.updSta {m : Nat} {s0 s : State} {x : _} (h : Kept m s0 s) (hm : Sub 0x8000000000 m) : Kept m s0 { s with sta := x } :=
  Kept.upd h (.inr rfl) (.inr rfl) (.inr rfl) (.inr rfl) (.inr rfl) (.inr rfl) (.inr rfl) (.inr rfl) (.inr rfl) (.inr rfl) (.inr rfl) rfl (.inr rfl) (.inr rfl) (.inr rfl) (.inr rfl) (.inr rfl) (.inr rfl) (.inr rfl) (.inl hm) (.inr rfl) (.inr rfl) (.inr rfl)

theorem Kept.updCpm {m : Nat} {s0 s : State} {x : _} (h : Kept m s0 s) (hm : Sub 0x10000000000 m) : Kept m s0 { s with cpm := x } :=
  Kept.upd h (.inr rfl) (.inr rfl) (.inr rfl) (.inr rfl) (.inr rfl) (.inr rfl) (.inr rfl) (.inr rfl) (.inr rfl) (.inr rfl) (.inr rfl) rfl (.inr rfl) (.inr rfl) (.inr rfl) (.inr rfl) (.inr rfl) (.inr rfl) (.inr rfl) (.inr rfl) (.inl hm) (.inr rfl) (.inr rfl)

theorem Kept.updBoot {m : Nat} {s0 s : State} {x : _} (h : Kept m s0 s) (hm : Sub 0x20000000000 m) : Kept m s0 { s with boot := x } :=
  Kept.upd h (.inr rfl) (.inr rfl) (.inr rfl) (.inr rfl) (.inr rfl) (.inr rfl) (.inr rfl) (.inr rfl) (.inr rfl) (.inr rfl) (.inr rfl) rfl (.inr rfl) (.inr rfl) (.inr rfl) (.inr rfl) (.inr rfl) (.inr rfl) (.inr rfl) (.inr rfl) (.inr rfl) (.inl hm) (.inr rfl)

theorem Kept.updDbg {m : Nat} {s0 s : State} {x : _} (h : Kept m s0 s) (hm : Sub 0x40000000000 m) : Kept m s0 { s with dbg := x } :=
  Kept.upd h (.inr rfl) (.inr rfl) (.inr rfl) (.inr rfl) (.inr rfl) (.inr rfl) (.inr rfl) (.inr rfl) (.inr rfl) (.inr rfl) (.inr rfl) rfl (.inr rfl) (.inr rfl) (.inr rfl) (.inr rfl) (.inr rfl) (.inr rfl) (.inr rfl) (.inr rfl) (.inr rfl) (.inr rfl) (.inl hm)

/-- A field of PF0's page n or of a VF's page. -/
theorem Sub.queue {A m : Nat} {f : Fld} (n : Nat) (hm : Sub A m)
    (h : (f.key / 32 / 0x1000 = n ∧ n < 16 ∧ 0x40 ≤ f.key / 32 % 0x1000) ∨ 0x20000 ≤ f.key / 32) (d : A ||| (2 ^ n ||| 2 ^ 18) = A) :
    Sub (2 ^ f.part.ix) m := by
  rcases h with h | h
  · exact Sub.page n hm h (by rw [← d, Nat.or_assoc, Nat.or_assoc, Nat.or_comm (2 ^ 18), ← Nat.or_assoc (2 ^ n), Nat.or_self])
  · exact Sub.upper hm h (by rw [← d, Nat.or_assoc, Nat.or_assoc, Nat.or_self])

/-! What an operation's law says of one part. -/

/-- A register field of a part outside the mask reads as before. -/
theorem Kept.rd {m : Nat} {s t : State} (h : Kept m s t) (f : Fld) (hf : m.testBit f.part.ix = false) : t.rd f = s.rd f := by
  have hp := h.parts f.part hf
  have cases (p : Part) (e : f.part = p) (hp : p.Same s t) : t.rd f = s.rd f := by
    have hu : (∃ n, p = .page n) ∨ p = .headers ∨ p = .ports ∨ p = .upper := by
      rw [← e]; unfold Fld.part partAt
      split
      · exact .inr (.inr (.inr rfl))
      · split
        · exact .inr (.inl rfl)
        · split
          · exact .inr (.inr (.inl rfl))
          · exact .inl ⟨_, rfl⟩
    rcases hu with ⟨n, rfl⟩ | rfl | rfl | rfl <;> exact hp f e
  exact cases _ rfl hp

theorem Kept.out {m : Nat} {s t : State} (h : Kept m s t) (hm : m.testBit 19 = false) : t.out = s.out := h.parts .outputs hm

theorem Kept.time {m : Nat} {s t : State} (h : Kept m s t) (hm : m.testBit 21 = false) : t.time = s.time := h.parts .time hm

theorem Kept.host {m : Nat} {s t : State} (h : Kept m s t) (hm : m.testBit 22 = false) : t.host = s.host := h.parts .host hm

theorem Kept.req {m : Nat} {s t : State} (h : Kept m s t) (hm : m.testBit 23 = false) : t.req = s.req := h.parts .requesters hm

theorem Kept.locks {m : Nat} {s t : State} (h : Kept m s t) (hm : m.testBit 24 = false) : t.locks = s.locks := h.parts .locks hm

theorem Kept.que {m : Nat} {s t : State} (h : Kept m s t) (hm : m.testBit 25 = false) : t.que = s.que := h.parts .queues hm

theorem Kept.rcu {m : Nat} {s t : State} (h : Kept m s t) (hm : m.testBit 26 = false) : t.rcu = s.rcu := h.parts .rings hm

theorem Kept.lnk {m : Nat} {s t : State} (h : Kept m s t) (hm : m.testBit 27 = false) : t.lnk = s.lnk := h.parts .links hm

theorem Kept.csq {m : Nat} {s t : State} (h : Kept m s t) (hm : m.testBit 28 = false) : t.csq = s.csq := h.parts .circuits hm

theorem Kept.twn {m : Nat} {s t : State} (h : Kept m s t) (hm : m.testBit 29 = false) : t.twn = s.twn := h.parts .twin hm

theorem Kept.jnl {m : Nat} {s t : State} (h : Kept m s t) (hm : m.testBit 30 = false) : t.jnl = s.jnl := h.parts .journal hm

theorem Kept.rme {m : Nat} {s t : State} (h : Kept m s t) (hm : m.testBit 33 = false) : t.rme = s.rme := h.parts .remoteOps hm

theorem Kept.rdx {m : Nat} {s t : State} (h : Kept m s t) (hm : m.testBit 34 = false) : t.rdx = s.rdx := h.parts .reductions hm

theorem Kept.psm {m : Nat} {s t : State} (h : Kept m s t) (hm : m.testBit 35 = false) : t.psm = s.psm := h.parts .sums hm

theorem Kept.sec {m : Nat} {s t : State} (h : Kept m s t) (hm : m.testBit 36 = false) : t.sec = s.sec := h.parts .keys hm

theorem Kept.fcu {m : Nat} {s t : State} (h : Kept m s t) (hm : m.testBit 37 = false) : t.fcu = s.fcu := h.parts .faults hm

theorem Kept.evr {m : Nat} {s t : State} (h : Kept m s t) (hm : m.testBit 38 = false) : t.evr = s.evr := h.parts .events hm

theorem Kept.sta {m : Nat} {s t : State} (h : Kept m s t) (hm : m.testBit 39 = false) : t.sta = s.sta := h.parts .partCounters hm

theorem Kept.cpm {m : Nat} {s t : State} (h : Kept m s t) (hm : m.testBit 40 = false) : t.cpm = s.cpm := h.parts .power hm

theorem Kept.boot {m : Nat} {s t : State} (h : Kept m s t) (hm : m.testBit 41 = false) : t.boot = s.boot := h.parts .boot hm

theorem Kept.dbg {m : Nat} {s t : State} (h : Kept m s t) (hm : m.testBit 42 = false) : t.dbg = s.dbg := h.parts .debug hm


end Sys2Proof.Machine
end

