-- ==== Sys2Proof/Laws/KeptOps.lean ====
section
/-! SUPPORT. What every operation of Machine/Ops.lean keeps, and which parts of the state it may change. -/

set_option linter.unusedTactic false
set_option linter.unreachableTactic false
set_option linter.unusedVariables false
set_option linter.unusedSimpArgs false

namespace Sys2Proof.Machine

theorem State.inc_kept {m : Nat} (hm : Sub 0x0 m) {s0 : State} {s : State} {f : Fld} {n : Nat} (hff : Sub (2 ^ f.part.ix) m) (hs : Kept m s0 s) :
    Kept m s0 (State.inc s f n) := by
  unfold State.inc
  repeat' first
    | with_reducible assumption | (refine Sub.of hm ?_; decide) | with_reducible apply State.wr_kept

theorem State.setHostFn_kept {m : Nat} (hm : Sub 0x400000 m) {s0 : State} {s : State} {f : Nat} {h : HostFn} (hs : Kept m s0 s) :
    Kept m s0 (State.setHostFn s f h) := by
  unfold State.setHostFn
  repeat' first
    | with_reducible assumption | (refine Sub.of hm ?_; decide) | with_reducible exact Kept.updHost (by assumption) (hm.of (by decide))
    | with_reducible refine Kept.updHost ?_ (hm.of (by decide))

theorem State.send_kept {m : Nat} (hm : Sub 0x80000 m) {s0 : State} {s : State} {o : Output} (hs : Kept m s0 s) :
    Kept m s0 (State.send s o) := by
  unfold State.send
  repeat' first
    | with_reducible assumption | (refine Sub.of hm ?_; decide)
    | with_reducible exact Kept.upd (by assumption) (.inl ⟨hm.of (by decide), List.prefix_append _ _⟩) (.inr rfl) (.inr rfl) (.inr rfl) (.inr rfl) (.inr rfl) (.inr rfl) (.inr rfl) (.inr rfl) (.inr rfl) (.inr rfl) rfl (.inr rfl) (.inr rfl) (.inr rfl) (.inr rfl) (.inr rfl) (.inr rfl) (.inr rfl) (.inr rfl) (.inr rfl) (.inr rfl) (.inr rfl)

theorem State.makeAcc_kept {m : Nat} (hm : Sub 0x480000 m) {s0 : State} {s : State} {f : Fn} {o : Output} (hs : Kept m s0 s) :
    Kept m s0 (State.makeAcc s f o) := by
  unfold State.makeAcc
  repeat' first
    | with_reducible assumption | (refine Sub.of hm ?_; decide)
    | (lift_lets; intro x; with_reducible refine (fun (hx : Kept m s0 x) => ?_) ?_; clear_value x) | (lift_lets; intro x) | with_reducible apply Kept.ite
    | with_reducible apply State.send_kept | with_reducible exact Kept.updHost (by assumption) (hm.of (by decide))
    | (intro x; with_reducible refine (fun (hx : Kept m s0 x) => ?_) ?_; clear_value x) | intro x
    | with_reducible refine Kept.updHost ?_ (hm.of (by decide))

theorem State.hostAcc_kept {m : Nat} (hm : Sub 0x480000 m) {s0 : State} {s : State} {f : Fn} {o : Output} (hs : Kept m s0 s) :
    Kept m s0 (State.hostAcc s f o) := by
  unfold State.hostAcc
  repeat' first
    | with_reducible assumption | (refine Sub.of hm ?_; decide) | with_reducible apply Kept.ite | with_reducible apply State.makeAcc_kept
    | with_reducible exact Kept.updHost (by assumption) (hm.of (by decide)) | with_reducible refine Kept.updHost ?_ (hm.of (by decide))

theorem State.hostWriteAt_kept {m : Nat} (hm : Sub 0x480000 m) {s0 : State} {s : State} {f : Fn} {addr : Nat} {bytes : List Byte} {pois : Bool} (hs : Kept m s0 s) :
    Kept m s0 (State.hostWriteAt s f addr bytes pois) := by
  unfold State.hostWriteAt
  repeat' first
    | with_reducible assumption | (refine Sub.of hm ?_; decide)
    | (lift_lets; intro x; with_reducible refine (fun (hx : Kept m s0 x) => ?_) ?_; clear_value x) | (lift_lets; intro x)
    | with_reducible apply State.hostAcc_kept | (with_reducible refine Kept.foldl ?_ ?_; intro a x hx)
    | (with_reducible refine Kept.foldlFst ?_ ?_; intro a x hx) | (with_reducible refine Kept.foldlSnd ?_ ?_; intro a x hx)
    | with_reducible refine Kept.ofFst (by assumption) ?_ | (intro x; with_reducible refine (fun (hx : Kept m s0 x) => ?_) ?_; clear_value x) | intro x

theorem State.sendVector_kept {m : Nat} (hm : Sub 0x80000 m) {s0 : State} {s : State} {f : Fn} {v : Nat} (hs : Kept m s0 s) :
    Kept m s0 (State.sendVector s f v) := by
  unfold State.sendVector
  repeat' first
    | with_reducible assumption | (refine Sub.of hm ?_; decide) | with_reducible apply State.send_kept

theorem State.vector_kept {m : Nat} (hm : Sub 0x480000 m) {s0 : State} {s : State} {f : Fn} {v : Nat} (hs : Kept m s0 s) :
    Kept m s0 (State.vector s f v) := by
  unfold State.vector
  repeat' first
    | with_reducible assumption | (refine Sub.of hm ?_; decide)
    | (lift_lets; intro x; with_reducible refine (fun (hx : Kept m s0 x) => ?_) ?_; clear_value x) | (lift_lets; intro x) | with_reducible apply Kept.ite
    | with_reducible apply State.sendVector_kept | with_reducible apply State.setHostFn_kept
    | (intro x; with_reducible refine (fun (hx : Kept m s0 x) => ?_) ?_; clear_value x) | intro x

theorem State.setBit_kept {m : Nat} (hm : Sub 0x0 m) {s0 : State} {s : State} {f : Fld} {i : Nat} {on : Bool} (hff : Sub (2 ^ f.part.ix) m) (hs : Kept m s0 s) :
    Kept m s0 (State.setBit s f i on) := by
  unfold State.setBit
  repeat' first
    | with_reducible assumption | (refine Sub.of hm ?_; decide) | with_reducible apply Kept.ite | with_reducible apply State.wr_kept

theorem State.sendAlert_kept {m : Nat} (hm : Sub 0x80004 m) {s0 : State} {s : State} {f : Fn} (hs : Kept m s0 s) :
    Kept m s0 (State.sendAlert s f) := by
  unfold State.sendAlert
  repeat' first
    | with_reducible assumption | (refine Sub.of hm ?_; decide) | with_reducible apply Kept.ite | with_reducible apply State.inc_kept
    | with_reducible apply State.send_kept

theorem State.alert_kept {m : Nat} (hm : Sub 0x80004 m) {s0 : State} {s : State} {f : Fn} (hs : Kept m s0 s) :
    Kept m s0 (State.alert s f) := by
  unfold State.alert
  repeat' first
    | with_reducible assumption | (refine Sub.of hm ?_; decide) | with_reducible apply Kept.ite | with_reducible apply Kept.iteFst
    | with_reducible apply Kept.iteSnd | with_reducible apply State.setBit_kept | with_reducible apply State.sendAlert_kept
    | (unfold nmaFld; split_ifs <;> (dsimp only; refine Sub.of hm ?_; decide))

theorem State.alertHeld_kept {m : Nat} (hm : Sub 0x80004 m) {s0 : State} {s : State} {f : Fn} (hs : Kept m s0 s) :
    Kept m s0 (State.alertHeld s f) := by
  unfold State.alertHeld
  repeat' first
    | with_reducible assumption | (refine Sub.of hm ?_; decide) | with_reducible apply Kept.ite | with_reducible apply Kept.iteFst
    | with_reducible apply Kept.iteSnd | with_reducible apply State.setBit_kept | with_reducible apply State.sendAlert_kept
    | (unfold nmaFld; split_ifs <;> (dsimp only; refine Sub.of hm ?_; decide))

theorem State.intEdge_kept {m : Nat} (hm : Sub 0x480000 m) {s0 s : State} {f : Fn} {pg : Nat} {g : State → State} (hs : Kept m s0 s)
    (hg : ∀ s, Kept m s0 s → Kept m s0 (g s)) : Kept m s0 (State.intEdge s f pg g) := by
  unfold State.intEdge
  exact Kept.ite ((State.vector_kept (hm.of (by decide))) (hg s hs)) (hg s hs)

theorem State.cause_kept {m : Nat} (hm : Sub 0x4D0000 m) {s0 s : State} {f : Fn} {pg i : Nat} (hs : Kept m s0 s) : Kept m s0 (State.cause s f pg i) :=
  State.intEdge_kept (hm.of (by decide)) hs (fun _ h => State.setBit_kept (hm.of (by decide))
    (Sub.header hm (by simp only [Fld.key, pageBase, F.INT_CAUSE_CAUSE]; split_ifs <;> omega) (by decide)) h)

theorem State.cause0_kept {m : Nat} (hm : Sub 0x4D0000 m) {s0 : State} {s : State} {pg : Nat} {i : Nat} (hs : Kept m s0 s) :
    Kept m s0 (State.cause0 s pg i) := by
  unfold State.cause0
  repeat' first
    | with_reducible assumption | (refine Sub.of hm ?_; decide) | with_reducible apply State.cause_kept

theorem State.accErr_kept {m : Nat} (hm : Sub 0x4D0001 m) {s0 : State} {s : State} {flag : Fld} {src : Nat} {page : Nat} {off : Nat} (hfflag : Sub (2 ^ flag.part.ix) m) (hs : Kept m s0 s) :
    Kept m s0 (State.accErr s flag src page off) := by
  unfold State.accErr
  repeat' first
    | with_reducible assumption | (refine Sub.of hm ?_; decide) | with_reducible apply State.wr_kept | with_reducible apply State.cause0_kept

theorem State.forgetPairs_kept {m : Nat} (hm : Sub 0x2000000000 m) {s0 : State} {s : State} {d : Nat} (hs : Kept m s0 s) :
    Kept m s0 (State.forgetPairs s d) := by
  unfold State.forgetPairs
  repeat' first
    | with_reducible assumption | (refine Sub.of hm ?_; decide)
    | (lift_lets; intro x; with_reducible refine (fun (hx : Kept m s0 x) => ?_) ?_; clear_value x) | (lift_lets; intro x)
    | with_reducible exact Kept.updFcu (by assumption) (hm.of (by decide))
    | (intro x; with_reducible refine (fun (hx : Kept m s0 x) => ?_) ?_; clear_value x) | intro x
    | with_reducible refine Kept.updFcu ?_ (hm.of (by decide))

theorem State.errCause_kept {m : Nat} (hm : Sub 0x50000 m) {s0 : State} {s : State} {src : Nat} {scope : Nat} {code : Nat} (hs : Kept m s0 s) :
    Kept m s0 (State.errCause s src scope code) := by
  unfold State.errCause
  repeat' first
    | with_reducible assumption | (refine Sub.of hm ?_; decide) | with_reducible apply State.setBit_kept
    | (refine Sub.header hm ?_ (by decide); simp only [Fld.key, pageBase, F.ERR_CAUSE_ERR]; omega)
    | (refine Sub.header hm ?_ (by decide); simp only [Fld.key, pageBase, F.ERR_CAUSE_ERR]; split_ifs <;> omega) | split

theorem State.onset_kept {m : Nat} (hm : Sub 0x2000050000 m) {s0 s : State} {o : Onset} (hs : Kept m s0 s) : Kept m s0 (State.onset s o) :=
  Kept.updFcu (State.errCause_kept (hm.of (by decide)) hs) (hm.of (by decide))

theorem State.fault_kept {m : Nat} (hm : Sub 0x2000050000 m) {s0 : State} {s : State} {src : SrcIx} {kind : Fin 4} {scope : Nat} {code : Nat} (hs : Kept m s0 s) :
    Kept m s0 (State.fault s src kind scope code) := by
  unfold State.fault
  repeat' first
    | with_reducible assumption | (refine Sub.of hm ?_; decide)
    | (lift_lets; intro x; with_reducible refine (fun (hx : Kept m s0 x) => ?_) ?_; clear_value x) | (lift_lets; intro x) | with_reducible apply Kept.ite
    | with_reducible apply State.onset_kept | (intro x; with_reducible refine (fun (hx : Kept m s0 x) => ?_) ?_; clear_value x) | intro x

theorem State.stat_kept {m : Nat} (hm : Sub 0x40000 m) {s0 : State} {s : State} {i : Nat} {n : Nat} (hs : Kept m s0 s) :
    Kept m s0 (State.stat s i n) := by
  unfold State.stat
  repeat' first
    | with_reducible assumption | (refine Sub.of hm ?_; decide) | with_reducible apply Kept.ite | with_reducible apply State.inc_kept
    | (refine Sub.upper hm ?_ (by decide); simp only [Fld.key, F.STA_LIVE_COUNT]; omega)

theorem State.statPart_kept {m : Nat} (hm : Sub 0x8000000000 m) {s0 : State} {s : State} {p : Nat} {j : Nat} {n : Nat} (hs : Kept m s0 s) :
    Kept m s0 (State.statPart s p j n) := by
  unfold State.statPart
  repeat' first
    | with_reducible assumption | (refine Sub.of hm ?_; decide) | with_reducible apply Kept.ite
    | with_reducible exact Kept.updSta (by assumption) (hm.of (by decide)) | with_reducible refine Kept.updSta ?_ (hm.of (by decide))

theorem State.advanceTo_kept {m : Nat} (hm : Sub 0x200000 m) {s0 : State} {s : State} {t : DWord} (hs : Kept m s0 s) :
    Kept m s0 (State.advanceTo s t) := by
  unfold State.advanceTo
  repeat' first
    | with_reducible assumption | (refine Sub.of hm ?_; decide) | with_reducible apply Kept.ite
    | with_reducible exact Kept.updTime (by assumption) (hm.of (by decide)) | with_reducible refine Kept.updTime ?_ (hm.of (by decide))

theorem State.freezeNow_kept {m : Nat} (hm : Sub 0x4D0000 m) {s0 : State} {s : State} {pg : Nat} {bit : Nat} (hs : Kept m s0 s) :
    Kept m s0 (State.freezeNow s pg bit) := by
  unfold State.freezeNow
  repeat' first
    | with_reducible assumption | (refine Sub.of hm ?_; decide)
    | (lift_lets; intro x; with_reducible refine (fun (hx : Kept m s0 x) => ?_) ?_; clear_value x) | (lift_lets; intro x) | with_reducible apply Kept.ite
    | with_reducible apply State.setBit_kept | with_reducible apply State.wr_kept | with_reducible apply State.cause0_kept
    | (refine Sub.header hm ?_ (by decide); simp only [Fld.key, pageBase, F.PAGE_STAT_FREEZE_PEND, F.PAGE_STAT_FROZEN]; omega)
    | (refine Sub.header hm ?_ (by decide); simp only [Fld.key, pageBase, F.PAGE_STAT_FREEZE_PEND, F.PAGE_STAT_FROZEN]; split_ifs <;> omega)
    | (intro x; with_reducible refine (fun (hx : Kept m s0 x) => ?_) ?_; clear_value x) | intro x

theorem State.setCmds_kept {m : Nat} (hm : Sub 0x2000000 m) {s0 : State} {s : State} {l : List Cmd} (hs : Kept m s0 s) :
    Kept m s0 (State.setCmds s l) := by
  unfold State.setCmds
  repeat' first
    | with_reducible assumption | (refine Sub.of hm ?_; decide) | with_reducible exact Kept.updQue (by assumption) (hm.of (by decide))
    | with_reducible refine Kept.updQue ?_ (hm.of (by decide))

theorem State.setWait_kept {m : Nat} (hm : Sub 0x2000000 m) {s0 : State} {s : State} {id : Nat} {w : Wait} (hs : Kept m s0 s) :
    Kept m s0 (State.setWait s id w) := by
  unfold State.setWait
  repeat' first
    | with_reducible assumption | (refine Sub.of hm ?_; decide)
    | (lift_lets; intro x; with_reducible refine (fun (hx : Kept m s0 x) => ?_) ?_; clear_value x) | (lift_lets; intro x)
    | with_reducible apply State.setCmds_kept | (intro x; with_reducible refine (fun (hx : Kept m s0 x) => ?_) ?_; clear_value x) | intro x

theorem State.coalesce_kept {m : Nat} (hm : Sub 0x2480000 m) {s0 : State} {s : State} {f : Fn} (hs : Kept m s0 s) :
    Kept m s0 (State.coalesce s f) := by
  unfold State.coalesce
  repeat' first
    | with_reducible assumption | (refine Sub.of hm ?_; decide)
    | (lift_lets; intro x; with_reducible refine (fun (hx : Kept m s0 x) => ?_) ?_; clear_value x) | (lift_lets; intro x) | with_reducible apply Kept.ite
    | with_reducible apply State.vector_kept | with_reducible exact Kept.updQue (by assumption) (hm.of (by decide))
    | (intro x; with_reducible refine (fun (hx : Kept m s0 x) => ?_) ?_; clear_value x) | intro x
    | with_reducible refine Kept.updQue ?_ (hm.of (by decide))

theorem State.writeEntry_kept {m : Nat} (hm : Sub 0x24C0008 m) {s0 : State} {s : State} {f : Fn} {nint : Bool} {e : Block64} (hs : Kept m s0 s) :
    Kept m s0 (State.writeEntry s f nint e) := by
  unfold State.writeEntry
  repeat' first
    | with_reducible assumption | (refine Sub.of hm ?_; decide)
    | (lift_lets; intro x; with_reducible refine (fun (hx : Kept m s0 x) => ?_) ?_; clear_value x) | (lift_lets; intro x) | with_reducible apply Kept.ite
    | with_reducible apply State.wr_kept | with_reducible apply State.coalesce_kept | with_reducible apply State.send_kept
    | (refine Sub.queue 3 hm ?_ (by decide); simp +zetaDelta only [Fld.key, qBase, pageBase, F.CPLQ_TAIL_TAIL, F.CPLQ_TAIL_PHASE]; split_ifs <;> omega)
    | (refine Sub.upper hm ?_ (by decide); simp +zetaDelta only [Fld.key, qBase, pageBase, F.CPLQ_TAIL_TAIL, F.CPLQ_TAIL_PHASE]; split_ifs <;> omega)
    | (intro x; with_reducible refine (fun (hx : Kept m s0 x) => ?_) ?_; clear_value x) | intro x

theorem State.deliver1_kept {m : Nat} (hm : Sub 0x24C0008 m) {s0 : State} {s : State} {w : HostWait} (hs : Kept m s0 s) :
    Kept m s0 (State.deliver1 s w) := by
  unfold State.deliver1
  repeat' first
    | with_reducible assumption | (refine Sub.of hm ?_; decide) | with_reducible apply State.writeEntry_kept | with_reducible apply State.makeAcc_kept
    | split

theorem State.releaseWaiting_kept {m : Nat} (hm : Sub 0x24C0008 m) {s0 : State} {s : State} (hs : Kept m s0 s) :
    Kept m s0 (State.releaseWaiting s) := by
  unfold State.releaseWaiting
  repeat' first
    | with_reducible assumption | (refine Sub.of hm ?_; decide)
    | (lift_lets; intro x; with_reducible refine (fun (hx : Kept m s0 x) => ?_) ?_; clear_value x) | (lift_lets; intro x) | with_reducible apply Kept.ite
    | with_reducible apply State.deliver1_kept | with_reducible exact Kept.updHost (by assumption) (hm.of (by decide))
    | (with_reducible refine Kept.foldl ?_ ?_; intro a x hx) | (intro x; with_reducible refine (fun (hx : Kept m s0 x) => ?_) ?_; clear_value x)
    | intro x | with_reducible refine Kept.updHost ?_ (hm.of (by decide))

theorem State.readBack_kept {m : Nat} (hm : Sub 0x24C0008 m) {s0 : State} {s : State} {f : Fn} {p : Output → Bool} (hs : Kept m s0 s) :
    KeptOpt m s0 (State.readBack s f p) := by
  unfold State.readBack
  repeat' first
    | with_reducible assumption | (refine Sub.of hm ?_; decide)
    | (lift_lets; intro x; with_reducible refine (fun (hx : Kept m s0 x) => ?_) ?_; clear_value x) | (lift_lets; intro x)
    | with_reducible apply KeptOpt.none | with_reducible apply KeptOpt.some | with_reducible apply KeptOpt.ite | with_reducible apply Kept.ite
    | with_reducible apply Kept.iteFst | with_reducible apply Kept.iteSnd | with_reducible apply State.releaseWaiting_kept
    | with_reducible exact Kept.updHost (by assumption) (hm.of (by decide))
    | (intro x; with_reducible refine (fun (hx : Kept m s0 x) => ?_) ?_; clear_value x) | intro x
    | with_reducible refine Kept.updHost ?_ (hm.of (by decide))

theorem State.retire_kept {m : Nat} (hm : Sub 0x80024C0008 m) {s0 s : State} {id : Nat} {x : Cpl} (hs : Kept m s0 s) :
    Kept m s0 (State.retire s id x) := by
  unfold State.retire
  split
  · exact hs
  · have ht : ∀ c : Cmd, Kept m s0 (((s.setCmds (dropFirst (fun c => c.id == id) s.que.inflight)).stat 29).statPart c.fn.val 1) :=
      fun c => State.statPart_kept (hm.of (by decide)) (State.stat_kept (hm.of (by decide)) (State.setCmds_kept (hm.of (by decide)) hs))
    exact Kept.ite (ht _) (Kept.ite (State.writeEntry_kept (hm.of (by decide)) (ht _)) (Kept.updHost (ht _) (hm.of (by decide))))

theorem State.settle_kept {m : Nat} (hm : Sub 0x80024C0008 m) {s0 s : State} {n : Nat} (hs : Kept m s0 s) : Kept m s0 (State.settle s n) := by
  induction n generalizing s with
  | zero => exact hs
  | succ n ih =>
    unfold State.settle
    split
    · exact hs
    · exact ih ((State.retire_kept (hm.of (by decide))) hs)

theorem State.complete_kept {m : Nat} (hm : Sub 0x80024C0008 m) {s0 : State} {s : State} {id : Nat} {x : Cpl} (hs : Kept m s0 s) :
    Kept m s0 (State.complete s id x) := by
  unfold State.complete
  repeat' first
    | with_reducible assumption | (refine Sub.of hm ?_; decide)
    | (lift_lets; intro x; with_reducible refine (fun (hx : Kept m s0 x) => ?_) ?_; clear_value x) | (lift_lets; intro x)
    | with_reducible apply State.retire_kept | with_reducible apply State.settle_kept
    | (intro x; with_reducible refine (fun (hx : Kept m s0 x) => ?_) ?_; clear_value x) | intro x

theorem State.finish_kept {m : Nat} (hm : Sub 0x80024C0008 m) {s0 : State} {s : State} {id : Nat} {x : Cpl} (hs : Kept m s0 s) :
    Kept m s0 (State.finish s id x) := by
  unfold State.finish
  repeat' first
    | with_reducible assumption | (refine Sub.of hm ?_; decide)
    | (lift_lets; intro x; with_reducible refine (fun (hx : Kept m s0 x) => ?_) ?_; clear_value x) | (lift_lets; intro x)
    | with_reducible apply State.settle_kept | with_reducible apply State.setWait_kept
    | (intro x; with_reducible refine (fun (hx : Kept m s0 x) => ?_) ?_; clear_value x) | intro x

theorem State.start_kept {m : Nat} (hm : Sub 0x2000000 m) {s0 s t : State} {f : Fn} {e : Block64} {c : Cmd}
    (h : State.start s f e = some (c, t)) (hs : Kept m s0 s) : Kept m s0 t := by
  unfold State.start at h
  split at h
  · cases h
  · split at h
    · split at h
      · cases h; exact State.setWait_kept (hm.of (by decide)) hs
      · cases h
    · cases h; exact Kept.updQue hs (hm.of (by decide))

theorem State.command_kept {m : Nat} (hm : Sub 0x80024C0008 m) {s0 s : State} {op pg : Nat} {f : Fn} {e : Block64} {body : Cmd → State → State} (hs : Kept m s0 s)
    (hbody : ∀ c s, Kept m s0 s → Kept m s0 (body c s)) : Kept m s0 (State.command s op pg f e body) := by
  unfold State.command
  split
  · exact hs
  · split
    · exact hs
    · next h =>
      have ht := (State.start_kept (hm.of (by decide))) h hs
      split
      · exact (State.complete_kept (hm.of (by decide))) ht
      · split
        · exact (State.settle_kept (hm.of (by decide))) (hbody _ _ ht)
        · exact hs

end Sys2Proof.Machine
end

