-- ==== Sys2Proof/Laws/KeptEvr.lean ====
section
/-! SUPPORT. What every operation of Machine/Evr.lean keeps, and which parts of the state it may change. -/

set_option linter.unusedTactic false
set_option linter.unreachableTactic false
set_option linter.unusedVariables false
set_option linter.unusedSimpArgs false

namespace Sys2Proof.Machine

theorem State.setEvr_kept {m : Nat} (hm : Sub 0x4000000000 m) {s0 : State} {s : State} {e : EvrState} (hs : Kept m s0 s) :
    Kept m s0 (State.setEvr s e) := by
  unfold State.setEvr
  repeat' first
    | with_reducible assumption | (refine Sub.of hm ?_; decide) | with_reducible exact Kept.updEvr (by assumption) (hm.of (by decide))
    | with_reducible refine Kept.updEvr ?_ (hm.of (by decide))

theorem State.enstage_kept {m : Nat} (hm : Sub 0x4000000000 m) {s0 : State} {s : State} {e : Event} (hs : Kept m s0 s) :
    KeptOpt m s0 (State.enstage s e) := by
  unfold State.enstage
  repeat' first
    | with_reducible assumption | (refine Sub.of hm ?_; decide) | with_reducible apply KeptOpt.none | with_reducible apply KeptOpt.some
    | with_reducible apply KeptOpt.ite | with_reducible apply Kept.ite | with_reducible apply State.setEvr_kept | split

theorem State.missEvent_kept {m : Nat} (hm : Sub 0x40004D8000 m) {s0 : State} {s : State} {irq : Bool} (hs : Kept m s0 s) :
    Kept m s0 (State.missEvent s irq) := by
  unfold State.missEvent
  repeat' first
    | with_reducible assumption | (refine Sub.of hm ?_; decide)
    | (lift_lets; intro x; with_reducible refine (fun (hx : Kept m s0 x) => ?_) ?_; clear_value x) | (lift_lets; intro x) | with_reducible apply Kept.ite
    | with_reducible apply State.cause0_kept | with_reducible apply State.inc_kept | with_reducible apply State.setEvr_kept
    | (intro x; with_reducible refine (fun (hx : Kept m s0 x) => ?_) ?_; clear_value x) | intro x

theorem State.stageMissed_kept {m : Nat} (hm : Sub 0x4000000000 m) {s0 : State} {s : State} (hs : Kept m s0 s) :
    Kept m s0 (State.stageMissed s) := by
  unfold State.stageMissed
  repeat' first
    | with_reducible assumption | (refine Sub.of hm ?_; decide) | with_reducible apply Kept.ite | with_reducible apply State.enstage_kept
    | with_reducible apply State.setEvr_kept | with_reducible refine Kept.ofSome (by assumption) ?_ | split

theorem State.event_kept {m : Nat} (hm : Sub 0x40004D8000 m) {s0 : State} {s : State} {e : Event} (hs : Kept m s0 s) :
    Kept m s0 (State.event s e) := by
  unfold State.event
  repeat' first
    | with_reducible assumption | (refine Sub.of hm ?_; decide) | with_reducible apply Kept.ite | with_reducible apply State.enstage_kept
    | with_reducible apply State.missEvent_kept | with_reducible refine Kept.ofSome (by assumption) ?_ | split

theorem State.setReq_kept {m : Nat} (hm : Sub 0x800000 m) {s0 : State} {s : State} {r : Nat} {x : ReqState} (hs : Kept m s0 s) :
    Kept m s0 (State.setReq s r x) := by
  unfold State.setReq
  repeat' first
    | with_reducible assumption | (refine Sub.of hm ?_; decide) | with_reducible exact Kept.updReq (by assumption) (hm.of (by decide))
    | with_reducible refine Kept.updReq ?_ (hm.of (by decide))

theorem State.loseRecords_kept {m : Nat} (hm : Sub 0xCD0000 m) {s0 : State} {s : State} {gone : List EvrRec} (hs : Kept m s0 s) :
    Kept m s0 (State.loseRecords s gone) := by
  unfold State.loseRecords
  repeat' first
    | with_reducible assumption | (refine Sub.of hm ?_; decide)
    | (lift_lets; intro x; with_reducible refine (fun (hx : Kept m s0 x) => ?_) ?_; clear_value x) | (lift_lets; intro x) | with_reducible apply Kept.ite
    | with_reducible apply State.setReq_kept | with_reducible apply State.cause_kept | (with_reducible refine Kept.foldl ?_ ?_; intro a x hx)
    | (intro x; with_reducible refine (fun (hx : Kept m s0 x) => ?_) ?_; clear_value x) | intro x

theorem State.logRecord_kept {m : Nat} (hm : Sub 0x40004D8000 m) {s0 : State} {s : State} {r : EvrRec} (hs : Kept m s0 s) :
    Kept m s0 (State.logRecord s r) := by
  unfold State.logRecord
  repeat' first
    | with_reducible assumption | (refine Sub.of hm ?_; decide)
    | (lift_lets; intro x; with_reducible refine (fun (hx : Kept m s0 x) => ?_) ?_; clear_value x) | (lift_lets; intro x) | with_reducible apply Kept.ite
    | with_reducible apply State.wr_kept | with_reducible apply State.cause0_kept | with_reducible apply State.stat_kept
    | with_reducible apply State.cause_kept | with_reducible apply State.setEvr_kept | (with_reducible refine Kept.foldl ?_ ?_; intro a x hx)
    | (intro x; with_reducible refine (fun (hx : Kept m s0 x) => ?_) ?_; clear_value x) | intro x

theorem State.admitRecord_kept {m : Nat} (hm : Sub 0x4000CD8000 m) {s0 : State} {s : State} {r : EvrRec} (hs : Kept m s0 s) :
    Kept m s0 (State.admitRecord s r) := by
  unfold State.admitRecord
  repeat' first
    | with_reducible assumption | (refine Sub.of hm ?_; decide)
    | (lift_lets; intro x; with_reducible refine (fun (hx : Kept m s0 x) => ?_) ?_; clear_value x) | (lift_lets; intro x) | with_reducible apply Kept.ite
    | with_reducible apply State.loseRecords_kept | with_reducible apply State.logRecord_kept | with_reducible apply State.cause0_kept
    | with_reducible apply State.inc_kept | with_reducible apply State.setEvr_kept | split | (clear_value *; split) | (dsimp +zetaDelta only; split)
    | (intro x; with_reducible refine (fun (hx : Kept m s0 x) => ?_) ?_; clear_value x) | intro x

theorem State.logEntry_kept {m : Nat} (hm : Sub 0x4000CD8000 m) {s0 : State} {s : State} {r : EvrRec} (hs : Kept m s0 s) :
    Kept m s0 (State.logEntry s r) := by
  unfold State.logEntry
  repeat' first
    | with_reducible assumption | (refine Sub.of hm ?_; decide)
    | (lift_lets; intro x; with_reducible refine (fun (hx : Kept m s0 x) => ?_) ?_; clear_value x) | (lift_lets; intro x) | with_reducible apply Kept.ite
    | with_reducible apply State.setEvr_kept | with_reducible apply State.admitRecord_kept | split | (clear_value *; split)
    | (dsimp +zetaDelta only; split) | (intro x; with_reducible refine (fun (hx : Kept m s0 x) => ?_) ?_; clear_value x) | intro x

theorem execEvrLogEntry_kept {m : Nat} (hm : Sub 0x4000CD8000 m) {s0 : State} {s : State} (hs : Kept m s0 s) :
    KeptOut m s0 (execEvrLogEntry s) := by
  unfold execEvrLogEntry
  repeat' first
    | with_reducible assumption | (refine Sub.of hm ?_; decide) | with_reducible apply KeptOut.next | with_reducible apply KeptOut.ite
    | with_reducible apply Kept.ite | with_reducible apply State.stageMissed_kept | with_reducible apply State.setEvr_kept
    | with_reducible apply State.logEntry_kept | split

theorem State.clearLog_kept {m : Nat} (hm : Sub 0x4000CD8000 m) {s0 : State} {s : State} (hs : Kept m s0 s) :
    Kept m s0 (State.clearLog s) := by
  unfold State.clearLog
  repeat' first
    | with_reducible assumption | (refine Sub.of hm ?_; decide)
    | (lift_lets; intro x; with_reducible refine (fun (hx : Kept m s0 x) => ?_) ?_; clear_value x) | (lift_lets; intro x)
    | with_reducible apply State.loseRecords_kept | with_reducible apply State.setEvr_kept | with_reducible apply State.event_kept
    | (intro x; with_reducible refine (fun (hx : Kept m s0 x) => ?_) ?_; clear_value x) | intro x

end Sys2Proof.Machine
end

