-- ==== Sys2Proof/Laws/KeptRecord.lean ====
section
/-! SUPPORT. What every operation of Machine/Record.lean keeps, and which parts of the state it may change. -/

set_option linter.unusedTactic false
set_option linter.unreachableTactic false
set_option linter.unusedVariables false
set_option linter.unusedSimpArgs false

namespace Sys2Proof.Machine

theorem State.setCircuit_kept {m : Nat} (hm : Sub 0x10000000 m) {s0 : State} {s : State} {c : Nat} {x : Circuit} (hs : Kept m s0 s) :
    Kept m s0 (State.setCircuit s c x) := by
  unfold State.setCircuit
  repeat' first
    | with_reducible assumption | (refine Sub.of hm ?_; decide) | with_reducible exact Kept.updCsq (by assumption) (hm.of (by decide))
    | with_reducible refine Kept.updCsq ?_ (hm.of (by decide))

theorem State.setSlot_kept {m : Nat} (hm : Sub 0x10000000 m) {s0 : State} {s : State} {n : Nat} {x : Slot} (hs : Kept m s0 s) :
    Kept m s0 (State.setSlot s n x) := by
  unfold State.setSlot
  repeat' first
    | with_reducible assumption | (refine Sub.of hm ?_; decide) | with_reducible exact Kept.updCsq (by assumption) (hm.of (by decide))
    | with_reducible refine Kept.updCsq ?_ (hm.of (by decide))

theorem State.setJnl_kept {m : Nat} (hm : Sub 0x40000000 m) {s0 : State} {s : State} {j : JnlState} (hs : Kept m s0 s) :
    Kept m s0 (State.setJnl s j) := by
  unfold State.setJnl
  repeat' first
    | with_reducible assumption | (refine Sub.of hm ?_; decide) | with_reducible exact Kept.updJnl (by assumption) (hm.of (by decide))
    | with_reducible refine Kept.updJnl ?_ (hm.of (by decide))

theorem State.jnlFull_kept {m : Nat} (hm : Sub 0x20004D0200 m) {s0 : State} {s : State} (hs : Kept m s0 s) :
    Kept m s0 (State.jnlFull s) := by
  unfold State.jnlFull
  repeat' first
    | with_reducible assumption | (refine Sub.of hm ?_; decide) | with_reducible apply Kept.ite | with_reducible apply State.fault_kept
    | with_reducible apply State.wr_kept | with_reducible apply State.cause0_kept

theorem State.stream_kept {m : Nat} (hm : Sub 0x60000000 m) {s0 : State} {s : State} {n : Nat} {r : JRec} (hs : Kept m s0 s) :
    Kept m s0 (State.stream s n r) := by
  unfold State.stream
  repeat' first
    | with_reducible assumption | (refine Sub.of hm ?_; decide)
    | (lift_lets; intro x; with_reducible refine (fun (hx : Kept m s0 x) => ?_) ?_; clear_value x) | (lift_lets; intro x) | with_reducible apply Kept.ite
    | with_reducible apply State.setJnl_kept | with_reducible exact Kept.updTwn (by assumption) (hm.of (by decide))
    | (intro x; with_reducible refine (fun (hx : Kept m s0 x) => ?_) ?_; clear_value x) | intro x
    | with_reducible refine Kept.updTwn ?_ (hm.of (by decide))

theorem State.refill_kept {m : Nat} (hm : Sub 0x20604D0200 m) {s0 : State} {s : State} {a0 : Nat} (hs : Kept m s0 s) :
    Kept m s0 (State.refill s a0) := by
  induction a0 generalizing s with
  | zero =>
    unfold State.refill
    repeat' first
      | with_reducible assumption | (refine Sub.of hm ?_; decide)
      | (lift_lets; intro x; with_reducible refine (fun (hx : Kept m s0 x) => ?_) ?_; clear_value x) | (lift_lets; intro x)
      | with_reducible apply Kept.ite | with_reducible apply State.stream_kept | with_reducible apply State.setJnl_kept
      | with_reducible apply State.wr_kept | with_reducible apply State.jnlFull_kept | split | (clear_value *; split) | (dsimp +zetaDelta only; split)
      | (intro x; with_reducible refine (fun (hx : Kept m s0 x) => ?_) ?_; clear_value x) | intro x
  | succ n ih =>
    unfold State.refill
    repeat' first
      | (with_reducible apply ih) | with_reducible assumption | (refine Sub.of hm ?_; decide)
      | (lift_lets; intro x; with_reducible refine (fun (hx : Kept m s0 x) => ?_) ?_; clear_value x) | (lift_lets; intro x)
      | with_reducible apply Kept.ite | with_reducible apply State.stream_kept | with_reducible apply State.setJnl_kept
      | with_reducible apply State.wr_kept | with_reducible apply State.jnlFull_kept | split | (clear_value *; split) | (dsimp +zetaDelta only; split)
      | (intro x; with_reducible refine (fun (hx : Kept m s0 x) => ?_) ?_; clear_value x) | intro x

theorem State.appendWaiting_kept {m : Nat} (hm : Sub 0x20604D0200 m) {s0 : State} {s : State} (hs : Kept m s0 s) :
    Kept m s0 (State.appendWaiting s) := by
  unfold State.appendWaiting
  repeat' first
    | with_reducible assumption | (refine Sub.of hm ?_; decide) | with_reducible apply State.refill_kept

theorem State.append_kept {m : Nat} (hm : Sub 0x20605D0200 m) {s0 : State} {s : State} {pay : RecPay} {mirror : Bool} (hs : Kept m s0 s) :
    Kept m s0 (State.append s pay mirror) := by
  unfold State.append
  repeat' first
    | with_reducible assumption | (refine Sub.of hm ?_; decide)
    | (lift_lets; intro x; with_reducible refine (fun (hx : Kept m s0 x) => ?_) ?_; clear_value x) | (lift_lets; intro x) | with_reducible apply Kept.ite
    | with_reducible apply Kept.iteSnd | with_reducible apply State.stream_kept | with_reducible apply State.setJnl_kept
    | with_reducible apply State.free_kept | with_reducible apply State.appendWaiting_kept | with_reducible refine Kept.ofSnd (by assumption) ?_ | split
    | (clear_value *; split) | (dsimp +zetaDelta only; split) | (intro x; with_reducible refine (fun (hx : Kept m s0 x) => ?_) ?_; clear_value x)
    | intro x

theorem State.appendGroup_kept {m : Nat} (hm : Sub 0x20605D0200 m) {s0 : State} {s : State} {pays : List RecPay} {epoch : Nat} {time : Nat} {side : Bool} {full : Bool} {takeover : Bool} {mirror : Bool} (hs : Kept m s0 s) :
    Kept m s0 (State.appendGroup s pays epoch time side full takeover mirror) := by
  unfold State.appendGroup
  repeat' first
    | with_reducible assumption | (refine Sub.of hm ?_; decide)
    | (lift_lets; intro x; with_reducible refine (fun (hx : Kept m s0 x) => ?_) ?_; clear_value x) | (lift_lets; intro x)
    | with_reducible apply State.append_kept | (with_reducible refine Kept.foldl ?_ ?_; intro a x hx)
    | (intro x; with_reducible refine (fun (hx : Kept m s0 x) => ?_) ?_; clear_value x) | intro x

theorem State.sideGroup_kept {m : Nat} (hm : Sub 0x20605D0200 m) {s0 : State} {s : State} {pays : List RecPay} (hs : Kept m s0 s) :
    Kept m s0 (State.sideGroup s pays) := by
  unfold State.sideGroup
  repeat' first
    | with_reducible assumption | (refine Sub.of hm ?_; decide) | with_reducible apply State.appendGroup_kept

theorem State.setCsq_kept {m : Nat} (hm : Sub 0x10000000 m) {s0 : State} {s : State} {c : CsqState} (hs : Kept m s0 s) :
    Kept m s0 (State.setCsq s c) := by
  unfold State.setCsq
  repeat' first
    | with_reducible assumption | (refine Sub.of hm ?_; decide) | with_reducible exact Kept.updCsq (by assumption) (hm.of (by decide))
    | with_reducible refine Kept.updCsq ?_ (hm.of (by decide))

theorem State.updEpoch_kept {m : Nat} (hm : Sub 0x10000000 m) {s0 : State} {s : State} {n : Nat} {f : Epoch → Epoch} (hs : Kept m s0 s) :
    Kept m s0 (State.updEpoch s n f) := by
  unfold State.updEpoch
  repeat' first
    | with_reducible assumption | (refine Sub.of hm ?_; decide)
    | (lift_lets; intro x; with_reducible refine (fun (hx : Kept m s0 x) => ?_) ?_; clear_value x) | (lift_lets; intro x)
    | with_reducible apply State.setCsq_kept | (intro x; with_reducible refine (fun (hx : Kept m s0 x) => ?_) ?_; clear_value x) | intro x

theorem State.prepareEpoch_kept {m : Nat} (hm : Sub 0x80124C0088 m) {s0 : State} {s : State} {id : Nat} {e : Block64} (hs : Kept m s0 s) :
    Kept m s0 (State.prepareEpoch s id e) := by
  unfold State.prepareEpoch
  repeat' first
    | with_reducible assumption | (refine Sub.of hm ?_; decide)
    | (lift_lets; intro x; with_reducible refine (fun (hx : Kept m s0 x) => ?_) ?_; clear_value x) | (lift_lets; intro x) | with_reducible apply Kept.ite
    | with_reducible apply State.setCsq_kept | with_reducible apply State.wr_kept | with_reducible apply State.finish_kept | split
    | (clear_value *; split) | (dsimp +zetaDelta only; split) | (intro x; with_reducible refine (fun (hx : Kept m s0 x) => ?_) ?_; clear_value x)
    | intro x

theorem State.resumePrepare_kept {m : Nat} (hm : Sub 0x80124C0088 m) {s0 : State} {s : State} (hs : Kept m s0 s) :
    Kept m s0 (State.resumePrepare s) := by
  unfold State.resumePrepare
  repeat' first
    | with_reducible assumption | (refine Sub.of hm ?_; decide)
    | (lift_lets; intro x; with_reducible refine (fun (hx : Kept m s0 x) => ?_) ?_; clear_value x) | (lift_lets; intro x) | with_reducible apply Kept.ite
    | with_reducible apply State.prepareEpoch_kept | split | (clear_value *; split) | (dsimp +zetaDelta only; split)
    | (intro x; with_reducible refine (fun (hx : Kept m s0 x) => ?_) ?_; clear_value x) | intro x

theorem State.finishCommit_kept {m : Nat} (hm : Sub 0x80024C0008 m) {s0 : State} {s : State} {e : Epoch} {x : Cpl} (hs : Kept m s0 s) :
    Kept m s0 (State.finishCommit s e x) := by
  unfold State.finishCommit
  repeat' first
    | with_reducible assumption | (refine Sub.of hm ?_; decide) | with_reducible apply State.finish_kept | split

theorem State.epochDone_kept {m : Nat} (hm : Sub 0x80124D0088 m) {s0 : State} {s : State} {e : Epoch} (hs : Kept m s0 s) :
    Kept m s0 (State.epochDone s e) := by
  unfold State.epochDone
  repeat' first
    | with_reducible assumption | (refine Sub.of hm ?_; decide)
    | (lift_lets; intro x; with_reducible refine (fun (hx : Kept m s0 x) => ?_) ?_; clear_value x) | (lift_lets; intro x)
    | with_reducible apply State.setCsq_kept | with_reducible apply State.finishCommit_kept | with_reducible apply State.cause0_kept
    | with_reducible apply State.resumePrepare_kept | (intro x; with_reducible refine (fun (hx : Kept m s0 x) => ?_) ?_; clear_value x) | intro x

theorem State.scheduled_kept {m : Nat} (hm : Sub 0x80124C0008 m) {s0 : State} {s : State} {id : Nat} {l : List (Nat × Slot)} (hs : Kept m s0 s) :
    Kept m s0 (State.scheduled s id l) := by
  unfold State.scheduled
  repeat' first
    | with_reducible assumption | (refine Sub.of hm ?_; decide)
    | (lift_lets; intro x; with_reducible refine (fun (hx : Kept m s0 x) => ?_) ?_; clear_value x) | (lift_lets; intro x) | with_reducible apply Kept.ite
    | with_reducible apply Kept.iteFst | with_reducible apply Kept.iteSnd | with_reducible apply State.setSlot_kept
    | with_reducible apply State.finish_kept | (with_reducible refine Kept.foldl ?_ ?_; intro a x hx)
    | (with_reducible refine Kept.foldlFst ?_ ?_; intro a x hx) | (with_reducible refine Kept.foldlSnd ?_ ?_; intro a x hx)
    | (intro x; with_reducible refine (fun (hx : Kept m s0 x) => ?_) ?_; clear_value x) | intro x

theorem State.releaseDurable_kept {m : Nat} (hm : Sub 0x80124D0088 m) {s0 : State} {s : State} {a0 : Nat} (hs : Kept m s0 s) :
    Kept m s0 (State.releaseDurable s a0) := by
  induction a0 generalizing s with
  | zero =>
    unfold State.releaseDurable
    repeat' first
      | with_reducible assumption | (refine Sub.of hm ?_; decide)
      | (lift_lets; intro x; with_reducible refine (fun (hx : Kept m s0 x) => ?_) ?_; clear_value x) | (lift_lets; intro x)
      | with_reducible apply Kept.ite | with_reducible apply State.complete_kept | with_reducible apply State.finish_kept
      | with_reducible apply State.scheduled_kept | with_reducible apply State.epochDone_kept | split | (clear_value *; split)
      | (dsimp +zetaDelta only; split) | (intro x; with_reducible refine (fun (hx : Kept m s0 x) => ?_) ?_; clear_value x) | intro x
  | succ n ih =>
    unfold State.releaseDurable
    repeat' first
      | (with_reducible apply ih) | with_reducible assumption | (refine Sub.of hm ?_; decide)
      | (lift_lets; intro x; with_reducible refine (fun (hx : Kept m s0 x) => ?_) ?_; clear_value x) | (lift_lets; intro x)
      | with_reducible apply Kept.ite | with_reducible apply State.complete_kept | with_reducible apply State.finish_kept
      | with_reducible apply State.scheduled_kept | with_reducible apply State.epochDone_kept | split | (clear_value *; split)
      | (dsimp +zetaDelta only; split) | (intro x; with_reducible refine (fun (hx : Kept m s0 x) => ?_) ?_; clear_value x) | intro x

theorem State.durableNow_kept {m : Nat} (hm : Sub 0x80124D0088 m) {s0 : State} {s : State} (hs : Kept m s0 s) :
    Kept m s0 (State.durableNow s) := by
  unfold State.durableNow
  repeat' first
    | with_reducible assumption | (refine Sub.of hm ?_; decide) | with_reducible apply State.releaseDurable_kept

theorem State.completeDurable_kept {m : Nat} (hm : Sub 0x80124D0088 m) {s0 : State} {s : State} {id : Nat} {x : Cpl} (hs : Kept m s0 s) :
    Kept m s0 (State.completeDurable s id x) := by
  unfold State.completeDurable
  repeat' first
    | with_reducible assumption | (refine Sub.of hm ?_; decide) | with_reducible apply State.setWait_kept | with_reducible apply State.durableNow_kept

end Sys2Proof.Machine
end

