-- ==== Sys2Proof/Laws/KeptLight.lean ====
section
/-! SUPPORT. What every operation of Machine/Light.lean keeps, and which parts of the state it may change. -/

set_option linter.unusedTactic false
set_option linter.unreachableTactic false
set_option linter.unusedVariables false
set_option linter.unusedSimpArgs false

namespace Sys2Proof.Machine

theorem State.setRing_kept {m : Nat} (hm : Sub 0x4000000 m) {s0 : State} {s : State} {r : Nat} {x : Ring} (hs : Kept m s0 s) :
    Kept m s0 (State.setRing s r x) := by
  unfold State.setRing
  repeat' first
    | with_reducible assumption | (refine Sub.of hm ?_; decide) | with_reducible exact Kept.updRcu (by assumption) (hm.of (by decide))
    | with_reducible refine Kept.updRcu ?_ (hm.of (by decide))

theorem State.xcConflict_kept {m : Nat} (hm : Sub 0x4D0010 m) {s0 : State} {s : State} {r : Nat} (hs : Kept m s0 s) :
    Kept m s0 (State.xcConflict s r) := by
  unfold State.xcConflict
  repeat' first
    | with_reducible assumption | (refine Sub.of hm ?_; decide) | with_reducible apply State.wr_kept | with_reducible apply State.cause0_kept

theorem State.restRing_kept {m : Nat} (hm : Sub 0x4000000 m) {s0 : State} {s : State} {r : Nat} (hs : Kept m s0 s) :
    Kept m s0 (State.restRing s r) := by
  unfold State.restRing
  repeat' first
    | with_reducible assumption | (refine Sub.of hm ?_; decide)
    | (lift_lets; intro x; with_reducible refine (fun (hx : Kept m s0 x) => ?_) ?_; clear_value x) | (lift_lets; intro x) | with_reducible apply Kept.ite
    | with_reducible apply State.setRing_kept | with_reducible exact Kept.updRcu (by assumption) (hm.of (by decide))
    | (intro x; with_reducible refine (fun (hx : Kept m s0 x) => ?_) ?_; clear_value x) | intro x
    | with_reducible refine Kept.updRcu ?_ (hm.of (by decide))

theorem State.acquireRing_kept {m : Nat} (hm : Sub 0x4040000 m) {s0 : State} {s : State} {r : Nat} (hs : Kept m s0 s) :
    Kept m s0 (State.acquireRing s r) := by
  unfold State.acquireRing
  repeat' first
    | with_reducible assumption | (refine Sub.of hm ?_; decide)
    | (lift_lets; intro x; with_reducible refine (fun (hx : Kept m s0 x) => ?_) ?_; clear_value x) | (lift_lets; intro x)
    | with_reducible apply State.setRing_kept | with_reducible apply State.stat_kept
    | with_reducible exact Kept.updRcu (by assumption) (hm.of (by decide))
    | (intro x; with_reducible refine (fun (hx : Kept m s0 x) => ?_) ?_; clear_value x) | intro x
    | with_reducible refine Kept.updRcu ?_ (hm.of (by decide))

theorem State.offRing_kept {m : Nat} (hm : Sub 0x4000000 m) {s0 : State} {s : State} {r : Nat} {loop : Nat} (hs : Kept m s0 s) :
    Kept m s0 (State.offRing s r loop) := by
  unfold State.offRing
  repeat' first
    | with_reducible assumption | (refine Sub.of hm ?_; decide) | with_reducible apply State.setRing_kept

theorem State.setUnit_kept {m : Nat} (hm : Sub 0x8000000 m) {s0 : State} {s : State} {u : Nat} {x : LinkUnit} (hs : Kept m s0 s) :
    Kept m s0 (State.setUnit s u x) := by
  unfold State.setUnit
  repeat' first
    | with_reducible assumption | (refine Sub.of hm ?_; decide) | with_reducible exact Kept.updLnk (by assumption) (hm.of (by decide))
    | with_reducible refine Kept.updLnk ?_ (hm.of (by decide))

theorem State.setUnitSt_kept {m : Nat} (hm : Sub 0x20000 m) {s0 : State} {s : State} {u : Nat} {st : Nat} {fail : Nat} (hs : Kept m s0 s) :
    Kept m s0 (State.setUnitSt s u st fail) := by
  unfold State.setUnitSt
  repeat' first
    | with_reducible assumption | (refine Sub.of hm ?_; decide)
    | (lift_lets; intro x; with_reducible refine (fun (hx : Kept m s0 x) => ?_) ?_; clear_value x) | (lift_lets; intro x) | with_reducible apply Kept.ite
    | with_reducible apply State.setBit_kept | with_reducible apply State.wr_kept
    | (refine Sub.ports hm ?_ (by decide); simp only [Fld.key, F.PORT_TRAIN_FAIL, F.PORT_LNK_STAT_PAIR_UP, F.PORT_TRAIN_STATE, F.PORT_LNK_STAT_SPARE_UP]; omega)
    | (intro x; with_reducible refine (fun (hx : Kept m s0 x) => ?_) ?_; clear_value x) | intro x

theorem State.setCircLink_kept {m : Nat} (hm : Sub 0x8000000 m) {s0 : State} {s : State} {c : Nat} {x : CircLink} (hs : Kept m s0 s) :
    Kept m s0 (State.setCircLink s c x) := by
  unfold State.setCircLink
  repeat' first
    | with_reducible assumption | (refine Sub.of hm ?_; decide) | with_reducible exact Kept.updLnk (by assumption) (hm.of (by decide))
    | with_reducible refine Kept.updLnk ?_ (hm.of (by decide))

theorem State.setPlink_kept {m : Nat} (hm : Sub 0x8000000 m) {s0 : State} {s : State} {p : Nat} {x : PortLink} (hs : Kept m s0 s) :
    Kept m s0 (State.setPlink s p x) := by
  unfold State.setPlink
  repeat' first
    | with_reducible assumption | (refine Sub.of hm ?_; decide) | with_reducible exact Kept.updLnk (by assumption) (hm.of (by decide))
    | with_reducible refine Kept.updLnk ?_ (hm.of (by decide))

theorem State.showSubst_kept {m : Nat} (hm : Sub 0x20000 m) {s0 : State} {s : State} {p : Nat} {on : Bool} {k : Nat} (hs : Kept m s0 s) :
    Kept m s0 (State.showSubst s p on k) := by
  unfold State.showSubst
  repeat' first
    | with_reducible assumption | (refine Sub.of hm ?_; decide) | with_reducible apply State.wr_kept
    | (refine Sub.ports hm ?_ (by decide); simp only [Fld.key, F.PORT_LNK_STAT_SUBST_LINE, F.PORT_LNK_STAT_SUBST]; omega)

theorem State.substitute_kept {m : Nat} (hm : Sub 0x8020000 m) {s0 : State} {s : State} {p : Nat} {k : Nat} (hs : Kept m s0 s) :
    Kept m s0 (State.substitute s p k) := by
  unfold State.substitute
  repeat' first
    | with_reducible assumption | (refine Sub.of hm ?_; decide) | with_reducible apply State.showSubst_kept | with_reducible apply State.setPlink_kept

theorem State.substNow_kept {m : Nat} (hm : Sub 0x8020000 m) {s0 : State} {s : State} {p : Nat} {k : Nat} (hs : Kept m s0 s) :
    Kept m s0 (State.substNow s p k) := by
  unfold State.substNow
  repeat' first
    | with_reducible assumption | (refine Sub.of hm ?_; decide)
    | (lift_lets; intro x; with_reducible refine (fun (hx : Kept m s0 x) => ?_) ?_; clear_value x) | (lift_lets; intro x)
    | with_reducible apply State.showSubst_kept | with_reducible apply State.setPlink_kept
    | (intro x; with_reducible refine (fun (hx : Kept m s0 x) => ?_) ?_; clear_value x) | intro x

theorem State.dropSubst_kept {m : Nat} (hm : Sub 0x8020000 m) {s0 : State} {s : State} {p : Nat} (hs : Kept m s0 s) :
    Kept m s0 (State.dropSubst s p) := by
  unfold State.dropSubst
  repeat' first
    | with_reducible assumption | (refine Sub.of hm ?_; decide) | with_reducible apply State.showSubst_kept | with_reducible apply State.setPlink_kept

theorem State.restoreSubst_kept {m : Nat} (hm : Sub 0x8020000 m) {s0 : State} {s : State} {p : Nat} (hs : Kept m s0 s) :
    Kept m s0 (State.restoreSubst s p) := by
  unfold State.restoreSubst
  repeat' first
    | with_reducible assumption | (refine Sub.of hm ?_; decide)
    | (lift_lets; intro x; with_reducible refine (fun (hx : Kept m s0 x) => ?_) ?_; clear_value x) | (lift_lets; intro x) | with_reducible apply Kept.ite
    | with_reducible apply State.showSubst_kept | with_reducible apply State.setPlink_kept | with_reducible apply State.dropSubst_kept | split
    | (clear_value *; split) | (dsimp +zetaDelta only; split) | (intro x; with_reducible refine (fun (hx : Kept m s0 x) => ?_) ?_; clear_value x)
    | intro x

theorem State.settleFor_kept {m : Nat} (hm : Sub 0x8000000 m) {s0 : State} {s : State} {u : Nat} (hs : Kept m s0 s) :
    Kept m s0 (State.settleFor s u) := by
  unfold State.settleFor
  repeat' first
    | with_reducible assumption | (refine Sub.of hm ?_; decide)
    | (lift_lets; intro x; with_reducible refine (fun (hx : Kept m s0 x) => ?_) ?_; clear_value x) | (lift_lets; intro x) | with_reducible apply Kept.ite
    | with_reducible apply State.setPlink_kept | split | (clear_value *; split) | (dsimp +zetaDelta only; split)
    | (intro x; with_reducible refine (fun (hx : Kept m s0 x) => ?_) ?_; clear_value x) | intro x

theorem State.startTraining_kept {m : Nat} (hm : Sub 0x8020000 m) {s0 : State} {s : State} {u : Nat} (hs : Kept m s0 s) :
    Kept m s0 (State.startTraining s u) := by
  unfold State.startTraining
  repeat' first
    | with_reducible assumption | (refine Sub.of hm ?_; decide)
    | (lift_lets; intro x; with_reducible refine (fun (hx : Kept m s0 x) => ?_) ?_; clear_value x) | (lift_lets; intro x) | with_reducible apply Kept.ite
    | with_reducible apply State.settleFor_kept | with_reducible apply State.setUnit_kept | with_reducible apply State.setUnitSt_kept
    | (intro x; with_reducible refine (fun (hx : Kept m s0 x) => ?_) ?_; clear_value x) | intro x

theorem State.takeBack_kept {m : Nat} (hm : Sub 0x8000000 m) {s0 : State} {s : State} {c : Nat} {side : Nat} {l : List Flit} (hs : Kept m s0 s) :
    Kept m s0 (State.takeBack s c side l) := by
  unfold State.takeBack
  repeat' first
    | with_reducible assumption | (refine Sub.of hm ?_; decide)
    | (lift_lets; intro x; with_reducible refine (fun (hx : Kept m s0 x) => ?_) ?_; clear_value x) | (lift_lets; intro x) | with_reducible apply Kept.ite
    | with_reducible apply State.setCircLink_kept | (intro x; with_reducible refine (fun (hx : Kept m s0 x) => ?_) ?_; clear_value x) | intro x

theorem State.releaseUnit_kept {m : Nat} (hm : Sub 0x8020000 m) {s0 : State} {s : State} {u : Nat} (hs : Kept m s0 s) :
    Kept m s0 (State.releaseUnit s u) := by
  unfold State.releaseUnit
  repeat' first
    | with_reducible assumption | (refine Sub.of hm ?_; decide)
    | (lift_lets; intro x; with_reducible refine (fun (hx : Kept m s0 x) => ?_) ?_; clear_value x) | (lift_lets; intro x)
    | with_reducible apply State.takeBack_kept | with_reducible apply State.setUnit_kept | with_reducible apply State.setUnitSt_kept | split
    | (clear_value *; split) | (dsimp +zetaDelta only; split) | (intro x; with_reducible refine (fun (hx : Kept m s0 x) => ?_) ?_; clear_value x)
    | intro x

theorem State.setLane_kept {m : Nat} (hm : Sub 0x8000000 m) {s0 : State} {s : State} {p : Nat} {k : Nat} {x : Lane} (hs : Kept m s0 s) :
    Kept m s0 (State.setLane s p k x) := by
  unfold State.setLane
  repeat' first
    | with_reducible assumption | (refine Sub.of hm ?_; decide) | with_reducible exact Kept.updLnk (by assumption) (hm.of (by decide))
    | with_reducible refine Kept.updLnk ?_ (hm.of (by decide))

theorem State.returnLane_kept {m : Nat} (hm : Sub 0x8020000 m) {s0 : State} {s : State} {a : Attempt} (hs : Kept m s0 s) :
    Kept m s0 (State.returnLane s a) := by
  unfold State.returnLane
  repeat' first
    | with_reducible assumption | (refine Sub.of hm ?_; decide)
    | (lift_lets; intro x; with_reducible refine (fun (hx : Kept m s0 x) => ?_) ?_; clear_value x) | (lift_lets; intro x) | with_reducible apply Kept.ite
    | with_reducible apply State.setLane_kept | with_reducible apply State.restoreSubst_kept | with_reducible apply State.setUnit_kept
    | (with_reducible refine Kept.foldl ?_ ?_; intro a x hx) | (intro x; with_reducible refine (fun (hx : Kept m s0 x) => ?_) ?_; clear_value x)
    | intro x

theorem State.abandon_kept {m : Nat} (hm : Sub 0xC020000 m) {s0 : State} {s : State} {p : Attempt → Bool} (hs : Kept m s0 s) :
    Kept m s0 (State.abandon s p) := by
  unfold State.abandon
  repeat' first
    | with_reducible assumption | (refine Sub.of hm ?_; decide)
    | (lift_lets; intro x; with_reducible refine (fun (hx : Kept m s0 x) => ?_) ?_; clear_value x) | (lift_lets; intro x)
    | with_reducible apply State.returnLane_kept | with_reducible exact Kept.updRcu (by assumption) (hm.of (by decide))
    | (with_reducible refine Kept.foldl ?_ ?_; intro a x hx) | (with_reducible refine Kept.foldlFst ?_ ?_; intro a x hx)
    | (intro x; with_reducible refine (fun (hx : Kept m s0 x) => ?_) ?_; clear_value x) | intro x
    | with_reducible refine Kept.updRcu ?_ (hm.of (by decide))

end Sys2Proof.Machine
end

