-- ==== Sys2Proof/Laws/KeptClaim.lean ====
section
/-! SUPPORT. What every operation of Machine/Claim.lean keeps, and which parts of the state it may change. -/

set_option linter.unusedTactic false
set_option linter.unreachableTactic false
set_option linter.unusedVariables false
set_option linter.unusedSimpArgs false

namespace Sys2Proof.Machine

theorem State.setPsm_kept {m : Nat} (hm : Sub 0x800000000 m) {s0 : State} {s : State} {x : PsmState} (hs : Kept m s0 s) :
    Kept m s0 (State.setPsm s x) := by
  unfold State.setPsm
  repeat' first
    | with_reducible assumption | (refine Sub.of hm ?_; decide) | with_reducible exact Kept.updPsm (by assumption) (hm.of (by decide))
    | with_reducible refine Kept.updPsm ?_ (hm.of (by decide))

theorem State.updRun_kept {m : Nat} (hm : Sub 0x800000000 m) {s0 : State} {s : State} {p : Nat} {f : PRun → PRun} (hs : Kept m s0 s) :
    Kept m s0 (State.updRun s p f) := by
  unfold State.updRun
  repeat' first
    | with_reducible assumption | (refine Sub.of hm ?_; decide)
    | (lift_lets; intro x; with_reducible refine (fun (hx : Kept m s0 x) => ?_) ?_; clear_value x) | (lift_lets; intro x)
    | with_reducible apply State.setPsm_kept | (intro x; with_reducible refine (fun (hx : Kept m s0 x) => ?_) ?_; clear_value x) | intro x

theorem State.psmUnfreeze_kept {m : Nat} (hm : Sub 0x4D0000 m) {s0 : State} {s : State} (hs : Kept m s0 s) :
    Kept m s0 (State.psmUnfreeze s) := by
  unfold State.psmUnfreeze
  repeat' first
    | with_reducible assumption | (refine Sub.of hm ?_; decide) | with_reducible apply Kept.ite | with_reducible apply State.freezeNow_kept

theorem State.psmComplete_kept {m : Nat} (hm : Sub 0x88024C0008 m) {s0 : State} {s : State} {p : Nat} {st : Nat} {samples : Bool} (hs : Kept m s0 s) :
    Kept m s0 (State.psmComplete s p st samples) := by
  unfold State.psmComplete
  repeat' first
    | with_reducible assumption | (refine Sub.of hm ?_; decide)
    | (lift_lets; intro x; with_reducible refine (fun (hx : Kept m s0 x) => ?_) ?_; clear_value x) | (lift_lets; intro x) | with_reducible apply Kept.ite
    | with_reducible apply State.complete_kept | with_reducible apply State.updRun_kept | split | (clear_value *; split) | (dsimp +zetaDelta only; split)
    | (intro x; with_reducible refine (fun (hx : Kept m s0 x) => ?_) ?_; clear_value x) | intro x

theorem State.psmFail_kept {m : Nat} (hm : Sub 0xA8064D0008 m) {s0 : State} {s : State} {p : Nat} {reason : Nat} (hs : Kept m s0 s) :
    Kept m s0 (State.psmFail s p reason) := by
  unfold State.psmFail
  repeat' first
    | with_reducible assumption | (refine Sub.of hm ?_; decide)
    | (lift_lets; intro x; with_reducible refine (fun (hx : Kept m s0 x) => ?_) ?_; clear_value x) | (lift_lets; intro x) | with_reducible apply Kept.ite
    | with_reducible refine Kept.dite (fun h => ?_) (fun h => ?_) | with_reducible apply State.fault_kept | with_reducible apply State.restRing_kept
    | with_reducible apply State.cause0_kept | with_reducible apply State.updRun_kept | with_reducible apply State.psmComplete_kept
    | with_reducible apply State.cause_kept | with_reducible apply State.psmUnfreeze_kept | with_reducible apply State.setWait_kept
    | with_reducible apply State.wrs_nil_kept | with_reducible apply State.wrs_cons_kept | with_reducible apply State.wrs_ite_kept
    | with_reducible apply State.wr_kept | (refine Sub.upper hm ?_ (by decide); simp only [Fld.key, F.PSM_STAT_REASON, F.PSM_STAT_STATE]; omega)
    | (with_reducible refine Kept.foldl ?_ ?_; intro a x hx) | split | (clear_value *; split) | (dsimp +zetaDelta only; split)
    | (intro x; with_reducible refine (fun (hx : Kept m s0 x) => ?_) ?_; clear_value x) | intro x

end Sys2Proof.Machine
end

