-- ==== Sys2Proof/Laws/KeptCsq.lean ====
section
/-! SUPPORT. What every operation of Machine/Csq.lean keeps, and which parts of the state it may change. -/

set_option linter.unusedTactic false
set_option linter.unreachableTactic false
set_option linter.unusedVariables false
set_option linter.unusedSimpArgs false

namespace Sys2Proof.Machine

theorem State.freeQuarantine_kept {m : Nat} (hm : Sub 0x200000000 m) {s0 : State} {s : State} {c : Nat} (hs : Kept m s0 s) :
    Kept m s0 (State.freeQuarantine s c) := by
  unfold State.freeQuarantine
  repeat' first
    | with_reducible assumption | (refine Sub.of hm ?_; decide)
    | (lift_lets; intro x; with_reducible refine (fun (hx : Kept m s0 x) => ?_) ?_; clear_value x) | (lift_lets; intro x)
    | with_reducible exact Kept.updRme (by assumption) (hm.of (by decide))
    | (intro x; with_reducible refine (fun (hx : Kept m s0 x) => ?_) ?_; clear_value x) | intro x
    | with_reducible refine Kept.updRme ?_ (hm.of (by decide))

theorem State.circuitDown_kept {m : Nat} (hm : Sub 0x22104D0000 m) {s0 : State} {s : State} {c : Nat} {reason : Nat} (hs : Kept m s0 s) :
    Kept m s0 (State.circuitDown s c reason) := by
  unfold State.circuitDown
  repeat' first
    | with_reducible assumption | (refine Sub.of hm ?_; decide)
    | (lift_lets; intro x; with_reducible refine (fun (hx : Kept m s0 x) => ?_) ?_; clear_value x) | (lift_lets; intro x) | with_reducible apply Kept.ite
    | with_reducible apply State.fault_kept | with_reducible apply State.setCircuit_kept | with_reducible apply State.cause0_kept
    | with_reducible apply State.freeQuarantine_kept | (intro x; with_reducible refine (fun (hx : Kept m s0 x) => ?_) ?_; clear_value x) | intro x

theorem State.pairLost_kept {m : Nat} (hm : Sub 0x22184D0000 m) {s0 : State} {s : State} {u : Nat} (hs : Kept m s0 s) :
    Kept m s0 (State.pairLost s u) := by
  unfold State.pairLost
  repeat' first
    | with_reducible assumption | (refine Sub.of hm ?_; decide)
    | (lift_lets; intro x; with_reducible refine (fun (hx : Kept m s0 x) => ?_) ?_; clear_value x) | (lift_lets; intro x) | with_reducible apply Kept.ite
    | with_reducible apply State.setCircuit_kept | with_reducible apply State.takeBack_kept | with_reducible apply State.setUnit_kept
    | with_reducible apply State.circuitDown_kept | split | (clear_value *; split) | (dsimp +zetaDelta only; split)
    | (intro x; with_reducible refine (fun (hx : Kept m s0 x) => ?_) ?_; clear_value x) | intro x

theorem State.degrade_kept {m : Nat} (hm : Sub 0x22184F0000 m) {s0 : State} {s : State} {u : Nat} (hs : Kept m s0 s) :
    Kept m s0 (State.degrade s u) := by
  unfold State.degrade
  repeat' first
    | with_reducible assumption | (refine Sub.of hm ?_; decide)
    | (lift_lets; intro x; with_reducible refine (fun (hx : Kept m s0 x) => ?_) ?_; clear_value x) | (lift_lets; intro x) | with_reducible apply Kept.ite
    | with_reducible apply State.fault_kept | with_reducible apply State.pairLost_kept | with_reducible apply State.setBit_kept
    | with_reducible apply State.cause0_kept | with_reducible apply State.setUnitSt_kept
    | (refine Sub.ports hm ?_ (by decide); simp only [Fld.key, F.PORT_LNK_STAT_PAIR_FAILED]; omega)
    | (intro x; with_reducible refine (fun (hx : Kept m s0 x) => ?_) ?_; clear_value x) | intro x

theorem State.setKeySlot_kept {m : Nat} (hm : Sub 0x1000000000 m) {s0 : State} {s : State} {n : Nat} {x : KeySlot} (hs : Kept m s0 s) :
    Kept m s0 (State.setKeySlot s n x) := by
  unfold State.setKeySlot
  repeat' first
    | with_reducible assumption | (refine Sub.of hm ?_; decide) | with_reducible exact Kept.updSec (by assumption) (hm.of (by decide))
    | with_reducible refine Kept.updSec ?_ (hm.of (by decide))

theorem State.setChanges_kept {m : Nat} (hm : Sub 0x10000000 m) {s0 : State} {s : State} {l : List Change} (hs : Kept m s0 s) :
    Kept m s0 (State.setChanges s l) := by
  unfold State.setChanges
  repeat' first
    | with_reducible assumption | (refine Sub.of hm ?_; decide) | with_reducible apply State.setCsq_kept

theorem State.updChange_kept {m : Nat} (hm : Sub 0x10000000 m) {s0 : State} {s : State} {id : Nat} {f : Change → Change} (hs : Kept m s0 s) :
    Kept m s0 (State.updChange s id f) := by
  unfold State.updChange
  repeat' first
    | with_reducible assumption | (refine Sub.of hm ?_; decide) | with_reducible apply State.setChanges_kept

theorem State.unbuild_kept {m : Nat} (hm : Sub 0xC020000 m) {s0 : State} {s : State} {x : Change} (hs : Kept m s0 s) :
    Kept m s0 (State.unbuild s x) := by
  unfold State.unbuild
  repeat' first
    | with_reducible assumption | (refine Sub.of hm ?_; decide)
    | (lift_lets; intro x; with_reducible refine (fun (hx : Kept m s0 x) => ?_) ?_; clear_value x) | (lift_lets; intro x) | with_reducible apply Kept.ite
    | with_reducible apply Kept.iteFst | with_reducible apply State.restRing_kept | with_reducible apply State.restoreSubst_kept
    | with_reducible apply State.releaseUnit_kept | with_reducible exact Kept.updRcu (by assumption) (hm.of (by decide))
    | (with_reducible refine Kept.foldl ?_ ?_; intro a x hx) | (with_reducible refine Kept.foldlFst ?_ ?_; intro a x hx)
    | (intro x; with_reducible refine (fun (hx : Kept m s0 x) => ?_) ?_; clear_value x) | intro x
    | with_reducible refine Kept.updRcu ?_ (hm.of (by decide))

theorem State.noteFail_kept {m : Nat} (hm : Sub 0x80 m) {s0 : State} {s : State} {c : Nat} {reason : Nat} (hs : Kept m s0 s) :
    Kept m s0 (State.noteFail s c reason) := by
  unfold State.noteFail
  repeat' first
    | with_reducible assumption | (refine Sub.of hm ?_; decide) | with_reducible apply State.wr_kept

theorem State.failChange_kept {m : Nat} (hm : Sub 0x201C4F0080 m) {s0 : State} {s : State} {id : Nat} {reason : Nat} (hs : Kept m s0 s) :
    Kept m s0 (State.failChange s id reason) := by
  unfold State.failChange
  repeat' first
    | with_reducible assumption | (refine Sub.of hm ?_; decide)
    | (lift_lets; intro x; with_reducible refine (fun (hx : Kept m s0 x) => ?_) ?_; clear_value x) | (lift_lets; intro x) | with_reducible apply Kept.ite
    | with_reducible apply State.fault_kept | with_reducible apply State.unbuild_kept | with_reducible apply State.cause0_kept
    | with_reducible apply State.updEpoch_kept | with_reducible apply State.updChange_kept | with_reducible apply State.noteFail_kept | split
    | (clear_value *; split) | (dsimp +zetaDelta only; split) | (intro x; with_reducible refine (fun (hx : Kept m s0 x) => ?_) ?_; clear_value x)
    | intro x

theorem State.failChanges_kept {m : Nat} (hm : Sub 0x201C4F0080 m) {s0 : State} {s : State} {p : Change → Bool} {reason : Nat} (hs : Kept m s0 s) :
    Kept m s0 (State.failChanges s p reason) := by
  unfold State.failChanges
  repeat' first
    | with_reducible assumption | (refine Sub.of hm ?_; decide)
    | (lift_lets; intro x; with_reducible refine (fun (hx : Kept m s0 x) => ?_) ?_; clear_value x) | (lift_lets; intro x)
    | with_reducible apply State.failChange_kept | (with_reducible refine Kept.foldl ?_ ?_; intro a x hx)
    | (intro x; with_reducible refine (fun (hx : Kept m s0 x) => ?_) ?_; clear_value x) | intro x

theorem State.changeReady_kept {m : Nat} (hm : Sub 0x10000000 m) {s0 : State} {s : State} {x : Change} (hs : Kept m s0 s) :
    Kept m s0 (State.changeReady s x) := by
  unfold State.changeReady
  repeat' first
    | with_reducible assumption | (refine Sub.of hm ?_; decide)
    | (lift_lets; intro x; with_reducible refine (fun (hx : Kept m s0 x) => ?_) ?_; clear_value x) | (lift_lets; intro x)
    | with_reducible apply State.updChange_kept | (intro x; with_reducible refine (fun (hx : Kept m s0 x) => ?_) ?_; clear_value x) | intro x

theorem State.trainChange_kept {m : Nat} (hm : Sub 0x18020000 m) {s0 : State} {s : State} {x : Change} (hs : Kept m s0 s) :
    Kept m s0 (State.trainChange s x) := by
  unfold State.trainChange
  repeat' first
    | with_reducible assumption | (refine Sub.of hm ?_; decide)
    | (lift_lets; intro x; with_reducible refine (fun (hx : Kept m s0 x) => ?_) ?_; clear_value x) | (lift_lets; intro x)
    | with_reducible apply State.substNow_kept | with_reducible apply State.startTraining_kept | with_reducible apply State.updChange_kept
    | with_reducible apply State.setUnit_kept | (with_reducible refine Kept.foldl ?_ ?_; intro a x hx)
    | (with_reducible refine Kept.foldlFst ?_ ?_; intro a x hx) | (with_reducible refine Kept.foldlSnd ?_ ?_; intro a x hx)
    | (intro x; with_reducible refine (fun (hx : Kept m s0 x) => ?_) ?_; clear_value x) | intro x

theorem State.abortEpoch_kept {m : Nat} (hm : Sub 0xA01E4F0088 m) {s0 : State} {s : State} {e : Epoch} {status : Nat} (hs : Kept m s0 s) :
    Kept m s0 (State.abortEpoch s e status) := by
  unfold State.abortEpoch
  repeat' first
    | with_reducible assumption | (refine Sub.of hm ?_; decide)
    | (lift_lets; intro x; with_reducible refine (fun (hx : Kept m s0 x) => ?_) ?_; clear_value x) | (lift_lets; intro x) | with_reducible apply Kept.ite
    | with_reducible apply State.fault_kept | with_reducible apply State.setCsq_kept | with_reducible apply State.finishCommit_kept
    | with_reducible apply State.wr_kept | with_reducible apply State.unbuild_kept | with_reducible apply State.cause0_kept
    | with_reducible apply State.resumePrepare_kept | with_reducible apply State.inc_kept | with_reducible apply State.stat_kept
    | with_reducible apply State.noteFail_kept | (with_reducible refine Kept.foldl ?_ ?_; intro a x hx)
    | (intro x; with_reducible refine (fun (hx : Kept m s0 x) => ?_) ?_; clear_value x) | intro x

theorem State.bindUnit_kept {m : Nat} (hm : Sub 0x8000000 m) {s0 : State} {s : State} {c : Nat} {side : Nat} {u : Nat} (hs : Kept m s0 s) :
    Kept m s0 (State.bindUnit s c side u) := by
  unfold State.bindUnit
  repeat' first
    | with_reducible assumption | (refine Sub.of hm ?_; decide)
    | (lift_lets; intro x; with_reducible refine (fun (hx : Kept m s0 x) => ?_) ?_; clear_value x) | (lift_lets; intro x) | with_reducible apply Kept.ite
    | with_reducible apply State.takeBack_kept | with_reducible apply State.setUnit_kept | split | (clear_value *; split)
    | (dsimp +zetaDelta only; split) | (intro x; with_reducible refine (fun (hx : Kept m s0 x) => ?_) ?_; clear_value x) | intro x

theorem State.activate_kept {m : Nat} (hm : Sub 0x18000000 m) {s0 : State} {s : State} {x : Change} (hs : Kept m s0 s) :
    Kept m s0 (State.activate s x) := by
  unfold State.activate
  repeat' first
    | with_reducible assumption | (refine Sub.of hm ?_; decide)
    | (lift_lets; intro x; with_reducible refine (fun (hx : Kept m s0 x) => ?_) ?_; clear_value x) | (lift_lets; intro x) | with_reducible apply Kept.ite
    | with_reducible apply State.setCircLink_kept | with_reducible apply State.setCircuit_kept | with_reducible apply State.bindUnit_kept
    | (with_reducible refine Kept.foldl ?_ ?_; intro a x hx) | (intro x; with_reducible refine (fun (hx : Kept m s0 x) => ?_) ?_; clear_value x)
    | intro x

theorem State.takeEffect_kept {m : Nat} (hm : Sub 0x18000080 m) {s0 : State} {s : State} {e : Epoch} (hs : Kept m s0 s) :
    Kept m s0 (State.takeEffect s e) := by
  unfold State.takeEffect
  repeat' first
    | with_reducible assumption | (refine Sub.of hm ?_; decide)
    | (lift_lets; intro x; with_reducible refine (fun (hx : Kept m s0 x) => ?_) ?_; clear_value x) | (lift_lets; intro x) | with_reducible apply Kept.ite
    | with_reducible apply State.setChanges_kept | with_reducible apply State.wr_kept | with_reducible apply State.updEpoch_kept
    | with_reducible apply State.activate_kept | with_reducible apply State.inc_kept | (with_reducible refine Kept.foldl ?_ ?_; intro a x hx)
    | (intro x; with_reducible refine (fun (hx : Kept m s0 x) => ?_) ?_; clear_value x) | intro x

theorem State.withdraw_kept {m : Nat} (hm : Sub 0x10040000 m) {s0 : State} {s : State} {x : Change} (hs : Kept m s0 s) :
    Kept m s0 (State.withdraw s x) := by
  unfold State.withdraw
  repeat' first
    | with_reducible assumption | (refine Sub.of hm ?_; decide)
    | (lift_lets; intro x; with_reducible refine (fun (hx : Kept m s0 x) => ?_) ?_; clear_value x) | (lift_lets; intro x)
    | with_reducible apply State.setChanges_kept | with_reducible apply State.updEpoch_kept | with_reducible apply State.stat_kept
    | (intro x; with_reducible refine (fun (hx : Kept m s0 x) => ?_) ?_; clear_value x) | intro x

theorem State.leavePrev_kept {m : Nat} (hm : Sub 0x10040000 m) {s0 : State} {s : State} {x : Change} (hs : Kept m s0 s) :
    Kept m s0 (State.leavePrev s x) := by
  unfold State.leavePrev
  repeat' first
    | with_reducible assumption | (refine Sub.of hm ?_; decide)
    | (lift_lets; intro x; with_reducible refine (fun (hx : Kept m s0 x) => ?_) ?_; clear_value x) | (lift_lets; intro x) | with_reducible apply Kept.ite
    | with_reducible apply State.updChange_kept | with_reducible apply State.withdraw_kept | split | (clear_value *; split)
    | (dsimp +zetaDelta only; split) | (intro x; with_reducible refine (fun (hx : Kept m s0 x) => ?_) ?_; clear_value x) | intro x

theorem State.csqNext_kept {m : Nat} (hm : Sub 0xA01E4F0088 m) {s0 : State} {s : State} (hs : Kept m s0 s) :
    KeptOpt m s0 (State.csqNext s) := by
  unfold State.csqNext
  repeat' first
    | with_reducible assumption | (refine Sub.of hm ?_; decide)
    | (lift_lets; intro x; with_reducible refine (fun (hx : Kept m s0 x) => ?_) ?_; clear_value x) | (lift_lets; intro x)
    | with_reducible apply KeptOpt.none | with_reducible apply KeptOpt.some | with_reducible apply KeptOpt.ite | with_reducible apply Kept.ite
    | with_reducible apply State.changeReady_kept | with_reducible apply State.takeEffect_kept | with_reducible apply State.trainChange_kept
    | with_reducible apply State.updEpoch_kept | with_reducible apply State.leavePrev_kept | with_reducible apply State.abortEpoch_kept | split
    | (clear_value *; split) | (dsimp +zetaDelta only; split) | (intro x; with_reducible refine (fun (hx : Kept m s0 x) => ?_) ?_; clear_value x)
    | intro x

theorem State.csqRun_kept {m : Nat} (hm : Sub 0xA01E4F0088 m) {s0 : State} {s : State} {a0 : Nat} (hs : Kept m s0 s) :
    Kept m s0 (State.csqRun s a0) := by
  induction a0 generalizing s with
  | zero =>
    unfold State.csqRun
    repeat' first
      | with_reducible assumption | (refine Sub.of hm ?_; decide) | with_reducible apply State.csqNext_kept
      | with_reducible refine Kept.ofSome (by assumption) ?_ | split
  | succ n ih =>
    unfold State.csqRun
    repeat' first
      | (with_reducible apply ih) | with_reducible assumption | (refine Sub.of hm ?_; decide) | with_reducible apply State.csqNext_kept
      | with_reducible refine Kept.ofSome (by assumption) ?_ | split

theorem State.csqSettle_kept {m : Nat} (hm : Sub 0xA01E4F0088 m) {s0 : State} {s : State} (hs : Kept m s0 s) :
    Kept m s0 (State.csqSettle s) := by
  unfold State.csqSettle
  repeat' first
    | with_reducible assumption | (refine Sub.of hm ?_; decide) | with_reducible apply State.csqRun_kept

theorem State.epochLate_kept {m : Nat} (hm : Sub 0xA01E4F0088 m) {s0 : State} {s : State} {e : Epoch} (hs : Kept m s0 s) :
    Kept m s0 (State.epochLate s e) := by
  unfold State.epochLate
  repeat' first
    | with_reducible assumption | (refine Sub.of hm ?_; decide)
    | (lift_lets; intro x; with_reducible refine (fun (hx : Kept m s0 x) => ?_) ?_; clear_value x) | (lift_lets; intro x) | with_reducible apply Kept.ite
    | with_reducible apply State.fault_kept | with_reducible apply State.cause0_kept | with_reducible apply State.updEpoch_kept
    | with_reducible apply State.abortEpoch_kept | (intro x; with_reducible refine (fun (hx : Kept m s0 x) => ?_) ?_; clear_value x) | intro x

theorem State.epochAtT_kept {m : Nat} (hm : Sub 0xA01E4F0088 m) {s0 : State} {s : State} {e : Epoch} (hs : Kept m s0 s) :
    Kept m s0 (State.epochAtT s e) := by
  unfold State.epochAtT
  repeat' first
    | with_reducible assumption | (refine Sub.of hm ?_; decide)
    | (lift_lets; intro x; with_reducible refine (fun (hx : Kept m s0 x) => ?_) ?_; clear_value x) | (lift_lets; intro x) | with_reducible apply Kept.ite
    | with_reducible apply State.epochLate_kept | with_reducible apply State.takeEffect_kept | with_reducible apply State.updEpoch_kept
    | (intro x; with_reducible refine (fun (hx : Kept m s0 x) => ?_) ?_; clear_value x) | intro x

theorem State.admitTo_kept {m : Nat} (hm : Sub 0xA01E4F0088 m) {s0 : State} {s : State} {id : Nat} {owner : Nat} {e : Block64} (hs : Kept m s0 s) :
    Kept m s0 (State.admitTo s id owner e) := by
  unfold State.admitTo
  repeat' first
    | with_reducible assumption | (refine Sub.of hm ?_; decide)
    | (lift_lets; intro x; with_reducible refine (fun (hx : Kept m s0 x) => ?_) ?_; clear_value x) | (lift_lets; intro x) | with_reducible apply Kept.ite
    | with_reducible apply State.setCsq_kept | with_reducible apply State.finish_kept | with_reducible apply State.withdraw_kept
    | with_reducible apply State.stat_kept | with_reducible apply State.setWait_kept | with_reducible apply State.csqSettle_kept | split
    | (clear_value *; split) | (dsimp +zetaDelta only; split) | (intro x; with_reducible refine (fun (hx : Kept m s0 x) => ?_) ?_; clear_value x)
    | intro x

theorem execCircuitSet_kept {m : Nat} (hm : Sub 0xA01E4F0088 m) {s0 : State} {f : Fn} {e : Block64} {s : State} (hs : Kept m s0 s) :
    KeptOut m s0 (execCircuitSet f e s) := by
  unfold execCircuitSet
  repeat' first
    | with_reducible assumption | (refine Sub.of hm ?_; decide) | with_reducible refine fun (y0 : Cmd) (s : State) (h : Kept m s0 s) => ?_
    | (lift_lets; intro x; with_reducible refine (fun (hx : Kept m s0 x) => ?_) ?_; clear_value x) | (lift_lets; intro x)
    | with_reducible apply KeptOut.next | with_reducible apply State.admitTo_kept | with_reducible apply State.command_kept
    | (intro x; with_reducible refine (fun (hx : Kept m s0 x) => ?_) ?_; clear_value x) | intro x

theorem execCircuitClear_kept {m : Nat} (hm : Sub 0xA01E4F0088 m) {s0 : State} {f : Fn} {e : Block64} {s : State} (hs : Kept m s0 s) :
    KeptOut m s0 (execCircuitClear f e s) := by
  unfold execCircuitClear
  repeat' first
    | with_reducible assumption | (refine Sub.of hm ?_; decide) | with_reducible refine fun (y0 : Cmd) (s : State) (h : Kept m s0 s) => ?_
    | (lift_lets; intro x; with_reducible refine (fun (hx : Kept m s0 x) => ?_) ?_; clear_value x) | (lift_lets; intro x)
    | with_reducible apply KeptOut.next | with_reducible apply State.admitTo_kept | with_reducible apply State.command_kept
    | (intro x; with_reducible refine (fun (hx : Kept m s0 x) => ?_) ?_; clear_value x) | intro x

theorem execEpochPrepare_kept {m : Nat} (hm : Sub 0x80124C0088 m) {s0 : State} {f : Fn} {e : Block64} {s : State} (hs : Kept m s0 s) :
    KeptOut m s0 (execEpochPrepare f e s) := by
  unfold execEpochPrepare
  repeat' first
    | with_reducible assumption | (refine Sub.of hm ?_; decide) | with_reducible refine fun (y0 : Cmd) (s : State) (h : Kept m s0 s) => ?_
    | (lift_lets; intro x; with_reducible refine (fun (hx : Kept m s0 x) => ?_) ?_; clear_value x) | (lift_lets; intro x)
    | with_reducible apply KeptOut.next | with_reducible apply KeptOut.ite | with_reducible apply Kept.ite | with_reducible apply State.command_kept
    | with_reducible apply State.prepareEpoch_kept | with_reducible apply State.setWait_kept
    | (intro x; with_reducible refine (fun (hx : Kept m s0 x) => ?_) ?_; clear_value x) | intro x

theorem State.commitEpoch_kept {m : Nat} (hm : Sub 0xA01E4F0088 m) {s0 : State} {s : State} {id : Nat} {e : Block64} (hs : Kept m s0 s) :
    Kept m s0 (State.commitEpoch s id e) := by
  unfold State.commitEpoch
  repeat' first
    | with_reducible assumption | (refine Sub.of hm ?_; decide)
    | (lift_lets; intro x; with_reducible refine (fun (hx : Kept m s0 x) => ?_) ?_; clear_value x) | (lift_lets; intro x) | with_reducible apply Kept.ite
    | with_reducible apply State.epochLate_kept | with_reducible apply State.wr_kept | with_reducible apply State.finish_kept
    | with_reducible apply State.updEpoch_kept | with_reducible apply State.setWait_kept | with_reducible apply State.csqSettle_kept | split
    | (clear_value *; split) | (dsimp +zetaDelta only; split) | (intro x; with_reducible refine (fun (hx : Kept m s0 x) => ?_) ?_; clear_value x)
    | intro x

theorem execEpochCommit_kept {m : Nat} (hm : Sub 0xA01E4F0088 m) {s0 : State} {f : Fn} {e : Block64} {s : State} (hs : Kept m s0 s) :
    KeptOut m s0 (execEpochCommit f e s) := by
  unfold execEpochCommit
  repeat' first
    | with_reducible assumption | (refine Sub.of hm ?_; decide) | with_reducible refine fun (y0 : Cmd) (s : State) (h : Kept m s0 s) => ?_
    | (lift_lets; intro x; with_reducible refine (fun (hx : Kept m s0 x) => ?_) ?_; clear_value x) | (lift_lets; intro x)
    | with_reducible apply KeptOut.next | with_reducible apply State.command_kept | with_reducible apply State.commitEpoch_kept
    | (intro x; with_reducible refine (fun (hx : Kept m s0 x) => ?_) ?_; clear_value x) | intro x

theorem execSchedLoad_kept {m : Nat} (hm : Sub 0x80024C0008 m) {s0 : State} {f : Fn} {e : Block64} {s : State} (hs : Kept m s0 s) :
    KeptOut m s0 (execSchedLoad f e s) := by
  unfold execSchedLoad
  repeat' first
    | with_reducible assumption | (refine Sub.of hm ?_; decide) | with_reducible refine fun (y0 : Cmd) (s : State) (h : Kept m s0 s) => ?_
    | (lift_lets; intro x; with_reducible refine (fun (hx : Kept m s0 x) => ?_) ?_; clear_value x) | (lift_lets; intro x)
    | with_reducible apply KeptOut.next | with_reducible apply KeptOut.ite | with_reducible apply Kept.ite | with_reducible apply State.command_kept
    | with_reducible apply State.hostAcc_kept | with_reducible apply State.finish_kept | with_reducible apply State.setWait_kept
    | (intro x; with_reducible refine (fun (hx : Kept m s0 x) => ?_) ?_; clear_value x) | intro x

theorem State.schedImage_kept {m : Nat} (hm : Sub 0xA0725D0288 m) {s0 : State} {s : State} {c : Cmd} {d : HostData} (hs : Kept m s0 s) :
    Kept m s0 (State.schedImage s c d) := by
  unfold State.schedImage
  repeat' first
    | with_reducible assumption | (refine Sub.of hm ?_; decide)
    | (lift_lets; intro x; with_reducible refine (fun (hx : Kept m s0 x) => ?_) ?_; clear_value x) | (lift_lets; intro x)
    | with_reducible apply State.sideGroup_kept | with_reducible apply State.finish_kept | with_reducible apply State.setWait_kept
    | with_reducible apply State.durableNow_kept | split | (clear_value *; split) | (dsimp +zetaDelta only; split)
    | (intro x; with_reducible refine (fun (hx : Kept m s0 x) => ?_) ?_; clear_value x) | intro x

theorem execChangeAdmit_kept {m : Nat} (hm : Sub 0xA01E4F0088 m) {s0 : State} {s : State} (hs : Kept m s0 s) :
    KeptOut m s0 (execChangeAdmit s) := by
  unfold execChangeAdmit
  repeat' first
    | with_reducible assumption | (refine Sub.of hm ?_; decide)
    | (lift_lets; intro x; with_reducible refine (fun (hx : Kept m s0 x) => ?_) ?_; clear_value x) | (lift_lets; intro x)
    | with_reducible apply KeptOut.next | with_reducible apply KeptOut.ite | with_reducible apply Kept.ite | with_reducible apply State.admitTo_kept
    | split | (clear_value *; split) | (dsimp +zetaDelta only; split) | (intro x; with_reducible refine (fun (hx : Kept m s0 x) => ?_) ?_; clear_value x)
    | intro x

theorem State.parkFirst_kept {m : Nat} (hm : Sub 0x4000000 m) {s0 : State} {s : State} {x : Change} (hs : Kept m s0 s) :
    Kept m s0 (State.parkFirst s x) := by
  unfold State.parkFirst
  repeat' first
    | with_reducible assumption | (refine Sub.of hm ?_; decide)
    | (lift_lets; intro x; with_reducible refine (fun (hx : Kept m s0 x) => ?_) ?_; clear_value x) | (lift_lets; intro x) | with_reducible apply Kept.ite
    | with_reducible apply Kept.iteFst | with_reducible apply Kept.iteSnd | with_reducible apply State.restRing_kept
    | (with_reducible refine Kept.foldl ?_ ?_; intro a x hx) | (with_reducible refine Kept.foldlFst ?_ ?_; intro a x hx)
    | (with_reducible refine Kept.foldlSnd ?_ ?_; intro a x hx) | (intro x; with_reducible refine (fun (hx : Kept m s0 x) => ?_) ?_; clear_value x)
    | intro x

theorem State.buildStart_kept {m : Nat} (hm : Sub 0xA01E4F0088 m) {s0 : State} {s : State} {x : Change} (hs : Kept m s0 s) :
    Kept m s0 (State.buildStart s x) := by
  unfold State.buildStart
  repeat' first
    | with_reducible assumption | (refine Sub.of hm ?_; decide)
    | (lift_lets; intro x; with_reducible refine (fun (hx : Kept m s0 x) => ?_) ?_; clear_value x) | (lift_lets; intro x)
    | with_reducible apply State.parkFirst_kept | with_reducible apply State.updChange_kept | with_reducible apply State.abandon_kept
    | with_reducible apply State.csqSettle_kept | with_reducible exact Kept.updRcu (by assumption) (hm.of (by decide))
    | (intro x; with_reducible refine (fun (hx : Kept m s0 x) => ?_) ?_; clear_value x) | intro x
    | with_reducible refine Kept.updRcu ?_ (hm.of (by decide))

theorem execChangeBuildStart_kept {m : Nat} (hm : Sub 0xA01E4F0088 m) {s0 : State} {c : CircIx} {s : State} (hs : Kept m s0 s) :
    KeptOut m s0 (execChangeBuildStart c s) := by
  unfold execChangeBuildStart
  repeat' first
    | with_reducible assumption | (refine Sub.of hm ?_; decide)
    | (lift_lets; intro x; with_reducible refine (fun (hx : Kept m s0 x) => ?_) ?_; clear_value x) | (lift_lets; intro x)
    | with_reducible apply KeptOut.next | with_reducible apply KeptOut.ite | with_reducible apply Kept.ite | with_reducible apply State.buildStart_kept
    | split | (clear_value *; split) | (dsimp +zetaDelta only; split) | (intro x; with_reducible refine (fun (hx : Kept m s0 x) => ?_) ?_; clear_value x)
    | intro x

theorem State.refuseRing_kept {m : Nat} (hm : Sub 0xA01E4F0088 m) {s0 : State} {s : State} {r : Nat} (hs : Kept m s0 s) :
    Kept m s0 (State.refuseRing s r) := by
  unfold State.refuseRing
  repeat' first
    | with_reducible assumption | (refine Sub.of hm ?_; decide)
    | (lift_lets; intro x; with_reducible refine (fun (hx : Kept m s0 x) => ?_) ?_; clear_value x) | (lift_lets; intro x)
    | with_reducible apply State.failChanges_kept | with_reducible apply State.csqSettle_kept
    | with_reducible exact Kept.updRcu (by assumption) (hm.of (by decide))
    | (intro x; with_reducible refine (fun (hx : Kept m s0 x) => ?_) ?_; clear_value x) | intro x
    | with_reducible refine Kept.updRcu ?_ (hm.of (by decide))

theorem execRingAcquireStart_kept {m : Nat} (hm : Sub 0xA01E4F0098 m) {s0 : State} {ring : RingIx} {s : State} (hs : Kept m s0 s) :
    KeptOut m s0 (execRingAcquireStart ring s) := by
  unfold execRingAcquireStart
  repeat' first
    | with_reducible assumption | (refine Sub.of hm ?_; decide) | with_reducible apply KeptOut.next | with_reducible apply KeptOut.ite
    | with_reducible apply Kept.ite | with_reducible apply State.acquireRing_kept | with_reducible apply State.refuseRing_kept
    | with_reducible apply State.xcConflict_kept | split

theorem State.ringLocked_kept {m : Nat} (hm : Sub 0x14000000 m) {s0 : State} {s : State} {r : Nat} (hs : Kept m s0 s) :
    Kept m s0 (State.ringLocked s r) := by
  unfold State.ringLocked
  repeat' first
    | with_reducible assumption | (refine Sub.of hm ?_; decide)
    | (lift_lets; intro x; with_reducible refine (fun (hx : Kept m s0 x) => ?_) ?_; clear_value x) | (lift_lets; intro x) | with_reducible apply Kept.ite
    | with_reducible apply State.setChanges_kept | with_reducible exact Kept.updRcu (by assumption) (hm.of (by decide))
    | (intro x; with_reducible refine (fun (hx : Kept m s0 x) => ?_) ?_; clear_value x) | intro x
    | with_reducible refine Kept.updRcu ?_ (hm.of (by decide))

theorem State.ringUnlocked_kept {m : Nat} (hm : Sub 0x10000000 m) {s0 : State} {s : State} {r : Nat} (hs : Kept m s0 s) :
    Kept m s0 (State.ringUnlocked s r) := by
  unfold State.ringUnlocked
  repeat' first
    | with_reducible assumption | (refine Sub.of hm ?_; decide)
    | (lift_lets; intro x; with_reducible refine (fun (hx : Kept m s0 x) => ?_) ?_; clear_value x) | (lift_lets; intro x) | with_reducible apply Kept.ite
    | with_reducible apply State.setChanges_kept | (intro x; with_reducible refine (fun (hx : Kept m s0 x) => ?_) ?_; clear_value x) | intro x

theorem State.ringFailed_kept {m : Nat} (hm : Sub 0xA01E4F0088 m) {s0 : State} {s : State} {r : Nat} (hs : Kept m s0 s) :
    Kept m s0 (State.ringFailed s r) := by
  unfold State.ringFailed
  repeat' first
    | with_reducible assumption | (refine Sub.of hm ?_; decide)
    | (lift_lets; intro x; with_reducible refine (fun (hx : Kept m s0 x) => ?_) ?_; clear_value x) | (lift_lets; intro x)
    | with_reducible apply State.failChanges_kept | with_reducible apply State.csqSettle_kept
    | (intro x; with_reducible refine (fun (hx : Kept m s0 x) => ?_) ?_; clear_value x) | intro x

theorem execAcquireTimeout_kept {m : Nat} (hm : Sub 0xA01E4F0088 m) {s0 : State} {ring : RingIx} {s : State} (hs : Kept m s0 s) :
    KeptOut m s0 (execAcquireTimeout ring s) := by
  unfold execAcquireTimeout
  repeat' first
    | with_reducible assumption | (refine Sub.of hm ?_; decide) | with_reducible apply KeptOut.next | with_reducible apply KeptOut.ite
    | with_reducible apply Kept.ite | with_reducible apply State.ringFailed_kept | with_reducible exact Kept.updRcu (by assumption) (hm.of (by decide))
    | with_reducible refine Kept.updRcu ?_ (hm.of (by decide))

theorem execEpochCommitTime_kept {m : Nat} (hm : Sub 0xA01E6F0088 m) {s0 : State} {e : Word} {s : State} (hs : Kept m s0 s) :
    KeptOut m s0 (execEpochCommitTime e s) := by
  unfold execEpochCommitTime
  repeat' first
    | with_reducible assumption | (refine Sub.of hm ?_; decide) | with_reducible apply KeptOut.next | with_reducible apply KeptOut.ite
    | with_reducible apply Kept.ite | with_reducible apply State.advanceTo_kept | with_reducible apply State.epochAtT_kept
    | with_reducible apply State.csqSettle_kept | split

theorem execLateLimitExpire_kept {m : Nat} (hm : Sub 0xA01E6F0088 m) {s0 : State} {e : Word} {s : State} (hs : Kept m s0 s) :
    KeptOut m s0 (execLateLimitExpire e s) := by
  unfold execLateLimitExpire
  repeat' first
    | with_reducible assumption | (refine Sub.of hm ?_; decide) | with_reducible apply KeptOut.next | with_reducible apply KeptOut.ite
    | with_reducible apply Kept.ite | with_reducible apply State.advanceTo_kept | with_reducible apply State.abortEpoch_kept
    | with_reducible apply State.csqSettle_kept | split

theorem State.releaseOld_kept {m : Nat} (hm : Sub 0xC020000 m) {s0 : State} {s : State} {through : Bool} {mm : Nat × Circuit} (hs : Kept m s0 s) :
    Kept m s0 (State.releaseOld s through mm) := by
  unfold State.releaseOld
  repeat' first
    | with_reducible assumption | (refine Sub.of hm ?_; decide)
    | (lift_lets; intro x; with_reducible refine (fun (hx : Kept m s0 x) => ?_) ?_; clear_value x) | (lift_lets; intro x) | with_reducible apply Kept.ite
    | with_reducible apply Kept.iteFst | with_reducible apply Kept.iteSnd | with_reducible apply State.restRing_kept
    | with_reducible apply State.restoreSubst_kept | with_reducible apply State.releaseUnit_kept | (with_reducible refine Kept.foldl ?_ ?_; intro a x hx)
    | (with_reducible refine Kept.foldlFst ?_ ?_; intro a x hx) | (with_reducible refine Kept.foldlSnd ?_ ?_; intro a x hx)
    | (intro x; with_reducible refine (fun (hx : Kept m s0 x) => ?_) ?_; clear_value x) | intro x

theorem State.recordEpoch_kept {m : Nat} (hm : Sub 0xE07E5F8288 m) {s0 : State} {s : State} {num : Nat} (hs : Kept m s0 s) :
    Kept m s0 (State.recordEpoch s num) := by
  unfold State.recordEpoch
  repeat' first
    | with_reducible assumption | (refine Sub.of hm ?_; decide)
    | (lift_lets; intro x; with_reducible refine (fun (hx : Kept m s0 x) => ?_) ?_; clear_value x) | (lift_lets; intro x) | with_reducible apply Kept.ite
    | with_reducible apply Kept.iteFst | with_reducible apply State.appendGroup_kept | with_reducible apply State.freezeNow_kept
    | with_reducible apply State.updEpoch_kept | with_reducible apply State.stat_kept | with_reducible apply State.durableNow_kept
    | with_reducible apply State.csqSettle_kept | with_reducible apply State.event_kept | split | (clear_value *; split) | (dsimp +zetaDelta only; split)
    | (intro x; with_reducible refine (fun (hx : Kept m s0 x) => ?_) ?_; clear_value x) | intro x

theorem execDrainEnd_kept {m : Nat} (hm : Sub 0xE07E5F8288 m) {s0 : State} {e : Word} {s : State} (hs : Kept m s0 s) :
    KeptOut m s0 (execDrainEnd e s) := by
  unfold execDrainEnd
  repeat' first
    | with_reducible assumption | (refine Sub.of hm ?_; decide)
    | (lift_lets; intro x; with_reducible refine (fun (hx : Kept m s0 x) => ?_) ?_; clear_value x) | (lift_lets; intro x)
    | with_reducible apply KeptOut.next | with_reducible apply KeptOut.ite | with_reducible apply Kept.ite | with_reducible apply State.updEpoch_kept
    | with_reducible apply State.recordEpoch_kept | with_reducible apply State.releaseOld_kept | (with_reducible refine Kept.foldl ?_ ?_; intro a x hx)
    | split | (clear_value *; split) | (dsimp +zetaDelta only; split) | (intro x; with_reducible refine (fun (hx : Kept m s0 x) => ?_) ?_; clear_value x)
    | intro x

theorem execThroughRelease_kept {m : Nat} (hm : Sub 0xE07E5F8288 m) {s0 : State} {e : Word} {s : State} (hs : Kept m s0 s) :
    KeptOut m s0 (execThroughRelease e s) := by
  unfold execThroughRelease
  repeat' first
    | with_reducible assumption | (refine Sub.of hm ?_; decide)
    | (lift_lets; intro x; with_reducible refine (fun (hx : Kept m s0 x) => ?_) ?_; clear_value x) | (lift_lets; intro x)
    | with_reducible apply KeptOut.next | with_reducible apply KeptOut.ite | with_reducible apply Kept.ite | with_reducible apply State.updEpoch_kept
    | with_reducible apply State.recordEpoch_kept | with_reducible apply State.releaseOld_kept | (with_reducible refine Kept.foldl ?_ ?_; intro a x hx)
    | split | (clear_value *; split) | (dsimp +zetaDelta only; split) | (intro x; with_reducible refine (fun (hx : Kept m s0 x) => ?_) ?_; clear_value x)
    | intro x

theorem State.abortWrite_kept {m : Nat} (hm : Sub 0xA01E4F0088 m) {s0 : State} {s : State} {v : Nat} (hs : Kept m s0 s) :
    Kept m s0 (State.abortWrite s v) := by
  unfold State.abortWrite
  repeat' first
    | with_reducible assumption | (refine Sub.of hm ?_; decide) | with_reducible apply Kept.ite | with_reducible apply State.wr_kept
    | with_reducible apply State.abortEpoch_kept | with_reducible apply State.csqSettle_kept | split

theorem execSchedSlotFire_kept {m : Nat} (hm : Sub 0xA01E6F0088 m) {s0 : State} {slot : Fin 16} {s : State} (hs : Kept m s0 s) :
    KeptOut m s0 (execSchedSlotFire slot s) := by
  unfold execSchedSlotFire
  repeat' first
    | with_reducible assumption | (refine Sub.of hm ?_; decide)
    | (lift_lets; intro x; with_reducible refine (fun (hx : Kept m s0 x) => ?_) ?_; clear_value x) | (lift_lets; intro x)
    | with_reducible apply KeptOut.next | with_reducible apply KeptOut.ite | with_reducible apply Kept.ite | with_reducible apply State.advanceTo_kept
    | with_reducible apply State.fault_kept | with_reducible apply State.setSlot_kept | with_reducible apply State.cause0_kept
    | with_reducible apply State.updEpoch_kept | with_reducible apply State.epochAtT_kept | with_reducible apply State.csqSettle_kept | split
    | (clear_value *; split) | (dsimp +zetaDelta only; split) | (intro x; with_reducible refine (fun (hx : Kept m s0 x) => ?_) ?_; clear_value x)
    | intro x

theorem State.csqThaw_kept {m : Nat} (hm : Sub 0xA01E4F0088 m) {s0 : State} {s : State} (hs : Kept m s0 s) :
    Kept m s0 (State.csqThaw s) := by
  unfold State.csqThaw
  repeat' first
    | with_reducible assumption | (refine Sub.of hm ?_; decide)
    | (lift_lets; intro x; with_reducible refine (fun (hx : Kept m s0 x) => ?_) ?_; clear_value x) | (lift_lets; intro x)
    | with_reducible apply State.epochLate_kept | with_reducible apply State.resumePrepare_kept | with_reducible apply State.csqSettle_kept
    | (with_reducible refine Kept.foldl ?_ ?_; intro a x hx) | (intro x; with_reducible refine (fun (hx : Kept m s0 x) => ?_) ?_; clear_value x)
    | intro x

end Sys2Proof.Machine
end

