-- ==== Sys2Proof/Laws/KeptPfe.lean ====
section
/-! SUPPORT. What every operation of Machine/Pfe.lean keeps, and which parts of the state it may change. -/

set_option linter.unusedTactic false
set_option linter.unreachableTactic false
set_option linter.unusedVariables false
set_option linter.unusedSimpArgs false

namespace Sys2Proof.Machine

theorem State.trainFailed_kept {m : Nat} (hm : Sub 0xA21E4F0088 m) {s0 : State} {s : State} {u : Nat} {reason : Nat} (hs : Kept m s0 s) :
    Kept m s0 (State.trainFailed s u reason) := by
  unfold State.trainFailed
  repeat' first
    | with_reducible assumption | (refine Sub.of hm ?_; decide)
    | (lift_lets; intro x; with_reducible refine (fun (hx : Kept m s0 x) => ?_) ?_; clear_value x) | (lift_lets; intro x) | with_reducible apply Kept.ite
    | with_reducible apply State.startTraining_kept | with_reducible apply State.cause0_kept | with_reducible apply State.setUnit_kept
    | with_reducible apply State.setUnitSt_kept | with_reducible apply State.degrade_kept | with_reducible apply State.failChanges_kept
    | with_reducible apply State.csqSettle_kept | (intro x; with_reducible refine (fun (hx : Kept m s0 x) => ?_) ?_; clear_value x) | intro x

theorem State.train_kept {m : Nat} (hm : Sub 0xA21E4F0088 m) {s0 : State} {s : State} {u : Nat} (hs : Kept m s0 s) :
    Kept m s0 (State.train s u) := by
  unfold State.train
  repeat' first
    | with_reducible assumption | (refine Sub.of hm ?_; decide) | with_reducible apply Kept.ite | with_reducible apply State.startTraining_kept
    | with_reducible apply State.trainFailed_kept

theorem State.resumeTraining_kept {m : Nat} (hm : Sub 0xA21E4F0088 m) {s0 : State} {s : State} (hs : Kept m s0 s) :
    Kept m s0 (State.resumeTraining s) := by
  unfold State.resumeTraining
  repeat' first
    | with_reducible assumption | (refine Sub.of hm ?_; decide)
    | (lift_lets; intro x; with_reducible refine (fun (hx : Kept m s0 x) => ?_) ?_; clear_value x) | (lift_lets; intro x) | with_reducible apply Kept.ite
    | with_reducible apply Kept.iteFst | with_reducible apply Kept.iteSnd | with_reducible apply State.train_kept
    | (with_reducible refine Kept.foldl ?_ ?_; intro a x hx) | (with_reducible refine Kept.foldlFst ?_ ?_; intro a x hx)
    | (with_reducible refine Kept.foldlSnd ?_ ?_; intro a x hx) | (intro x; with_reducible refine (fun (hx : Kept m s0 x) => ?_) ?_; clear_value x)
    | intro x

theorem State.retrain_kept {m : Nat} (hm : Sub 0xA21E4F0088 m) {s0 : State} {s : State} {u : Nat} (hs : Kept m s0 s) :
    Kept m s0 (State.retrain s u) := by
  unfold State.retrain
  repeat' first
    | with_reducible assumption | (refine Sub.of hm ?_; decide)
    | (lift_lets; intro x; with_reducible refine (fun (hx : Kept m s0 x) => ?_) ?_; clear_value x) | (lift_lets; intro x)
    | with_reducible apply State.train_kept | with_reducible apply State.cause0_kept | with_reducible apply State.setUnit_kept
    | with_reducible apply State.inc_kept | with_reducible apply State.stat_kept
    | (refine Sub.ports hm ?_ (by decide); simp only [Fld.key, F.PORT_TRAIN_RETRAINS]; omega)
    | (intro x; with_reducible refine (fun (hx : Kept m s0 x) => ?_) ?_; clear_value x) | intro x

theorem State.allRingsOff_kept {m : Nat} (hm : Sub 0x4000000 m) {s0 : State} {s : State} (hs : Kept m s0 s) :
    Kept m s0 (State.allRingsOff s) := by
  unfold State.allRingsOff
  repeat' first
    | with_reducible assumption | (refine Sub.of hm ?_; decide)
    | (lift_lets; intro x; with_reducible refine (fun (hx : Kept m s0 x) => ?_) ?_; clear_value x) | (lift_lets; intro x) | with_reducible apply Kept.ite
    | with_reducible exact Kept.updRcu (by assumption) (hm.of (by decide))
    | (intro x; with_reducible refine (fun (hx : Kept m s0 x) => ?_) ?_; clear_value x) | intro x
    | with_reducible refine Kept.updRcu ?_ (hm.of (by decide))

theorem State.abortSearch_kept {m : Nat} (hm : Sub 0x40044D8020 m) {s0 : State} {s : State} {reason : Nat} (hs : Kept m s0 s) :
    Kept m s0 (State.abortSearch s reason) := by
  unfold State.abortSearch
  repeat' first
    | with_reducible assumption | (refine Sub.of hm ?_; decide)
    | (lift_lets; intro x; with_reducible refine (fun (hx : Kept m s0 x) => ?_) ?_; clear_value x) | (lift_lets; intro x) | with_reducible apply Kept.ite
    | with_reducible apply State.cause0_kept | with_reducible apply State.allRingsOff_kept | with_reducible apply State.wrs_nil_kept
    | with_reducible apply State.wrs_cons_kept | with_reducible apply State.wrs_ite_kept | with_reducible apply State.event_kept
    | with_reducible apply State.wr_kept | with_reducible exact Kept.updRcu (by assumption) (hm.of (by decide))
    | (intro x; with_reducible refine (fun (hx : Kept m s0 x) => ?_) ?_; clear_value x) | intro x
    | with_reducible refine Kept.updRcu ?_ (hm.of (by decide))

theorem State.lightSpare_kept {m : Nat} (hm : Sub 0x4040000 m) {s0 : State} {s : State} {p : Nat} (hs : Kept m s0 s) :
    Kept m s0 (State.lightSpare s p) := by
  unfold State.lightSpare
  repeat' first
    | with_reducible assumption | (refine Sub.of hm ?_; decide)
    | (lift_lets; intro x; with_reducible refine (fun (hx : Kept m s0 x) => ?_) ?_; clear_value x) | (lift_lets; intro x) | with_reducible apply Kept.ite
    | with_reducible apply State.acquireRing_kept | (intro x; with_reducible refine (fun (hx : Kept m s0 x) => ?_) ?_; clear_value x) | intro x

theorem State.shutTo_kept {m : Nat} (hm : Sub 0xEA1E4F80A8 m) {s0 : State} {s : State} {p : Nat} {st : Nat} {reason : Nat} (hs : Kept m s0 s) :
    Kept m s0 (State.shutTo s p st reason) := by
  unfold State.shutTo
  repeat' first
    | with_reducible assumption | (refine Sub.of hm ?_; decide)
    | (lift_lets; intro x; with_reducible refine (fun (hx : Kept m s0 x) => ?_) ?_; clear_value x) | (lift_lets; intro x) | with_reducible apply Kept.ite
    | with_reducible apply State.fault_kept | with_reducible apply State.lightSpare_kept | with_reducible apply State.train_kept
    | with_reducible apply State.wr_kept | with_reducible apply State.cause0_kept | with_reducible apply State.inc_kept
    | with_reducible apply State.abortSearch_kept | with_reducible apply State.psmFail_kept
    | (refine Sub.ports hm ?_ (by decide); simp only [Fld.key, F.PORT_SHUT_STAT_REASON, F.PORT_SHUT_STAT_STATE, F.PORT_SHUT_STAT_PROBES]; omega)
    | (intro x; with_reducible refine (fun (hx : Kept m s0 x) => ?_) ?_; clear_value x) | intro x

theorem State.evalShutter_kept {m : Nat} (hm : Sub 0xEA1E4F80A8 m) {s0 : State} {s : State} {p : Nat} {before : List Nat} (hs : Kept m s0 s) :
    Kept m s0 (State.evalShutter s p before) := by
  unfold State.evalShutter
  repeat' first
    | with_reducible assumption | (refine Sub.of hm ?_; decide)
    | (lift_lets; intro x; with_reducible refine (fun (hx : Kept m s0 x) => ?_) ?_; clear_value x) | (lift_lets; intro x) | with_reducible apply Kept.ite
    | with_reducible apply State.shutTo_kept | with_reducible apply State.wr_kept
    | (refine Sub.ports hm ?_ (by decide); simp only [Fld.key, F.PORT_SHUT_STAT_REASON]; omega) | split | (clear_value *; split)
    | (dsimp +zetaDelta only; split) | (intro x; with_reducible refine (fun (hx : Kept m s0 x) => ?_) ?_; clear_value x) | intro x

theorem State.withShutters_kept {m : Nat} (hm : Sub 0xEA1E4F80A8 m) {s0 : State} {s : State} {g : State → State} (hgg : ∀ (x0 : State), Kept m s0 x0 → Kept m s0 (g x0)) (hs : Kept m s0 s) :
    Kept m s0 (State.withShutters s g) := by
  unfold State.withShutters
  repeat' first
    | with_reducible assumption | (refine Sub.of hm ?_; decide)
    | (lift_lets; intro x; with_reducible refine (fun (hx : Kept m s0 x) => ?_) ?_; clear_value x) | (lift_lets; intro x)
    | with_reducible apply State.evalShutter_kept | with_reducible apply hgg | (with_reducible refine Kept.foldl ?_ ?_; intro a x hx)
    | (intro x; with_reducible refine (fun (hx : Kept m s0 x) => ?_) ?_; clear_value x) | intro x

theorem State.evalLaser_kept {m : Nat} (hm : Sub 0x4000010 m) {s0 : State} {s : State} (hs : Kept m s0 s) :
    Kept m s0 (State.evalLaser s) := by
  unfold State.evalLaser
  repeat' first
    | with_reducible assumption | (refine Sub.of hm ?_; decide)
    | (lift_lets; intro x; with_reducible refine (fun (hx : Kept m s0 x) => ?_) ?_; clear_value x) | (lift_lets; intro x) | with_reducible apply Kept.ite
    | with_reducible apply State.wr_kept | with_reducible exact Kept.updRcu (by assumption) (hm.of (by decide))
    | (intro x; with_reducible refine (fun (hx : Kept m s0 x) => ?_) ?_; clear_value x) | intro x
    | with_reducible refine Kept.updRcu ?_ (hm.of (by decide))

theorem execLaserFault_kept {m : Nat} (hm : Sub 0x20044D0010 m) {s0 : State} {s : State} (hs : Kept m s0 s) :
    KeptOut m s0 (execLaserFault s) := by
  unfold execLaserFault
  repeat' first
    | with_reducible assumption | (refine Sub.of hm ?_; decide)
    | (lift_lets; intro x; with_reducible refine (fun (hx : Kept m s0 x) => ?_) ?_; clear_value x) | (lift_lets; intro x)
    | with_reducible apply KeptOut.next | with_reducible apply KeptOut.ite | with_reducible apply Kept.ite | with_reducible apply State.fault_kept
    | with_reducible apply State.wr_kept | with_reducible apply State.cause0_kept | with_reducible apply State.evalLaser_kept
    | (intro x; with_reducible refine (fun (hx : Kept m s0 x) => ?_) ?_; clear_value x) | intro x

theorem execLaserFaultClear_kept {m : Nat} (hm : Sub 0x4000010 m) {s0 : State} {s : State} (hs : Kept m s0 s) :
    KeptOut m s0 (execLaserFaultClear s) := by
  unfold execLaserFaultClear
  repeat' first
    | with_reducible assumption | (refine Sub.of hm ?_; decide) | with_reducible apply KeptOut.next | with_reducible apply State.wr_kept
    | with_reducible apply State.evalLaser_kept

theorem execLiLoss_kept {m : Nat} (hm : Sub 0x20044D0010 m) {s0 : State} {i : Fin 2} {s : State} (hs : Kept m s0 s) :
    KeptOut m s0 (execLiLoss i s) := by
  unfold execLiLoss
  repeat' first
    | with_reducible assumption | (refine Sub.of hm ?_; decide) | with_reducible apply KeptOut.next | with_reducible apply KeptOut.ite
    | with_reducible apply Kept.ite | with_reducible apply State.fault_kept | with_reducible apply State.wr_kept | with_reducible apply State.cause0_kept
    | with_reducible apply State.evalLaser_kept
    | ((with_reducible show Sub (2 ^ _) m); (try simp +zetaDelta only); split_ifs <;> first | (refine Sub.of hm ?_; decide))
    | ((with_reducible show Sub (2 ^ _) m); (try simp +zetaDelta only); split <;> first | (refine Sub.of hm ?_; decide))

theorem execIlkCheck_kept {m : Nat} (hm : Sub 0x2004050010 m) {s0 : State} {li0 : Int} {li1 : Int} {s : State} (hs : Kept m s0 s) :
    KeptOut m s0 (execIlkCheck li0 li1 s) := by
  unfold execIlkCheck
  repeat' first
    | with_reducible assumption | (refine Sub.of hm ?_; decide)
    | (lift_lets; intro x; with_reducible refine (fun (hx : Kept m s0 x) => ?_) ?_; clear_value x) | (lift_lets; intro x)
    | with_reducible apply KeptOut.next | with_reducible apply KeptOut.ite | with_reducible apply Kept.ite | with_reducible apply State.fault_kept
    | with_reducible apply State.wr_kept | with_reducible apply State.evalLaser_kept
    | with_reducible exact Kept.updRcu (by assumption) (hm.of (by decide))
    | (intro x; with_reducible refine (fun (hx : Kept m s0 x) => ?_) ?_; clear_value x) | intro x
    | with_reducible refine Kept.updRcu ?_ (hm.of (by decide))

theorem execRestartPulse_kept {m : Nat} (hm : Sub 0x4000010 m) {s0 : State} {s : State} (hs : Kept m s0 s) :
    KeptOut m s0 (execRestartPulse s) := by
  unfold execRestartPulse
  repeat' first
    | with_reducible assumption | (refine Sub.of hm ?_; decide) | with_reducible apply KeptOut.next | with_reducible apply KeptOut.ite
    | with_reducible apply Kept.ite | with_reducible apply State.wr_kept | with_reducible exact Kept.updRcu (by assumption) (hm.of (by decide))
    | with_reducible refine Kept.updRcu ?_ (hm.of (by decide))

theorem execRestartPulseEnd_kept {m : Nat} (hm : Sub 0x4000010 m) {s0 : State} {held : Bool} {s : State} (hs : Kept m s0 s) :
    KeptOut m s0 (execRestartPulseEnd held s) := by
  unfold execRestartPulseEnd
  repeat' first
    | with_reducible assumption | (refine Sub.of hm ?_; decide)
    | (lift_lets; intro x; with_reducible refine (fun (hx : Kept m s0 x) => ?_) ?_; clear_value x) | (lift_lets; intro x)
    | with_reducible apply KeptOut.next | with_reducible apply KeptOut.ite | with_reducible apply Kept.ite | with_reducible apply State.wr_kept
    | with_reducible exact Kept.updRcu (by assumption) (hm.of (by decide))
    | (intro x; with_reducible refine (fun (hx : Kept m s0 x) => ?_) ?_; clear_value x) | intro x
    | with_reducible refine Kept.updRcu ?_ (hm.of (by decide))

theorem execAprClose_kept {m : Nat} (hm : Sub 0xEA1E4F80A8 m) {s0 : State} {p : Port} {s : State} (hs : Kept m s0 s) :
    KeptOut m s0 (execAprClose p s) := by
  unfold execAprClose
  repeat' first
    | with_reducible assumption | (refine Sub.of hm ?_; decide) | with_reducible apply KeptOut.next | with_reducible apply KeptOut.ite
    | with_reducible apply Kept.ite | with_reducible apply State.shutTo_kept

theorem execProbeInstant_kept {m : Nat} (hm : Sub 0xEA1E4F80A8 m) {s0 : State} {p : Port} {s : State} (hs : Kept m s0 s) :
    KeptOut m s0 (execProbeInstant p s) := by
  unfold execProbeInstant
  repeat' first
    | with_reducible assumption | (refine Sub.of hm ?_; decide) | with_reducible apply KeptOut.next | with_reducible apply KeptOut.ite
    | with_reducible apply Kept.ite | with_reducible apply State.shutTo_kept

theorem execProbeEnd_kept {m : Nat} (hm : Sub 0xEA1E4F80A8 m) {s0 : State} {p : Port} {s : State} (hs : Kept m s0 s) :
    KeptOut m s0 (execProbeEnd p s) := by
  unfold execProbeEnd
  repeat' first
    | with_reducible assumption | (refine Sub.of hm ?_; decide) | with_reducible apply KeptOut.next | with_reducible apply KeptOut.ite
    | with_reducible apply Kept.ite | with_reducible apply State.shutTo_kept

theorem execAprReopen_kept {m : Nat} (hm : Sub 0xEA1E4F80A8 m) {s0 : State} {p : Port} {s : State} (hs : Kept m s0 s) :
    KeptOut m s0 (execAprReopen p s) := by
  unfold execAprReopen
  repeat' first
    | with_reducible assumption | (refine Sub.of hm ?_; decide) | with_reducible apply KeptOut.next | with_reducible apply KeptOut.ite
    | with_reducible apply Kept.ite | with_reducible apply State.shutTo_kept

theorem State.shutCtrlWritten_kept {m : Nat} (hm : Sub 0xEA1E4F80B8 m) {s0 : State} {s : State} {p : Nat} {loopBefore : Bool} (hs : Kept m s0 s) :
    Kept m s0 (State.shutCtrlWritten s p loopBefore) := by
  unfold State.shutCtrlWritten
  repeat' first
    | with_reducible assumption | (refine Sub.of hm ?_; decide)
    | (lift_lets; intro x; with_reducible refine (fun (hx : Kept m s0 x) => ?_) ?_; clear_value x) | (lift_lets; intro x) | with_reducible apply Kept.ite
    | with_reducible apply State.evalShutter_kept | with_reducible apply State.restRing_kept | with_reducible apply State.acquireRing_kept
    | with_reducible apply State.xcConflict_kept | (with_reducible refine Kept.foldl ?_ ?_; intro a x hx)
    | (intro x; with_reducible refine (fun (hx : Kept m s0 x) => ?_) ?_; clear_value x) | intro x

theorem State.showPower_kept {m : Nat} (hm : Sub 0x0 m) {s0 : State} {s : State} {v : Fld} {l : Fld} {o : Fld} {x : Int × Bool × Bool} (hfv : Sub (2 ^ v.part.ix) m) (hfl : Sub (2 ^ l.part.ix) m) (hfo : Sub (2 ^ o.part.ix) m) (hs : Kept m s0 s) :
    Kept m s0 (State.showPower s v l o x) := by
  unfold State.showPower
  repeat' first
    | with_reducible assumption | (refine Sub.of hm ?_; decide) | with_reducible apply State.wrs_nil_kept | with_reducible apply State.wrs_cons_kept
    | with_reducible apply State.wrs_ite_kept | with_reducible apply State.wr_kept

theorem State.liOver_kept {m : Nat} (hm : Sub 0x44D0010 m) {s0 : State} {s : State} (hs : Kept m s0 s) :
    Kept m s0 (State.liOver s) := by
  unfold State.liOver
  repeat' first
    | with_reducible assumption | (refine Sub.of hm ?_; decide) | with_reducible apply Kept.ite | with_reducible apply State.wr_kept
    | with_reducible apply State.cause0_kept | with_reducible apply State.evalLaser_kept

theorem State.anchorLost_kept {m : Nat} (hm : Sub 0x4000020 m) {s0 : State} {s : State} (hs : Kept m s0 s) :
    Kept m s0 (State.anchorLost s) := by
  unfold State.anchorLost
  repeat' first
    | with_reducible assumption | (refine Sub.of hm ?_; decide)
    | (lift_lets; intro x; with_reducible refine (fun (hx : Kept m s0 x) => ?_) ?_; clear_value x) | (lift_lets; intro x) | with_reducible apply Kept.ite
    | with_reducible apply State.wrs_nil_kept | with_reducible apply State.wrs_cons_kept | with_reducible apply State.wrs_ite_kept
    | with_reducible apply State.wr_kept | with_reducible exact Kept.updRcu (by assumption) (hm.of (by decide))
    | (intro x; with_reducible refine (fun (hx : Kept m s0 x) => ?_) ?_; clear_value x) | intro x
    | with_reducible refine Kept.updRcu ?_ (hm.of (by decide))

theorem State.lineChanged_kept {m : Nat} (hm : Sub 0xEA1E4F80B8 m) {s0 : State} {s : State} {i : Nat} {k : Nat} {on : Bool} (hs : Kept m s0 s) :
    Kept m s0 (State.lineChanged s i k on) := by
  unfold State.lineChanged
  repeat' first
    | with_reducible assumption | (refine Sub.of hm ?_; decide) | with_reducible refine fun (s : State) (h : Kept m s0 s) => ?_
    | (lift_lets; intro x; with_reducible refine (fun (hx : Kept m s0 x) => ?_) ?_; clear_value x)
    | (lift_lets; intro x; with_reducible refine (fun (hx : Sub (2 ^ (Fld.part x).ix) m) => ?_) ?_; clear_value x) | (lift_lets; intro x)
    | with_reducible apply Kept.ite | with_reducible apply Kept.iteFst | with_reducible apply Kept.iteSnd | with_reducible apply State.fault_kept
    | with_reducible apply State.setBit_kept | with_reducible apply State.wr_kept | with_reducible apply State.cause0_kept
    | with_reducible apply State.withShutters_kept | with_reducible apply State.anchorLost_kept | with_reducible apply State.failChanges_kept
    | with_reducible apply State.trainFailed_kept | with_reducible apply State.csqSettle_kept
    | ((with_reducible show Sub (2 ^ _) m); (try simp +zetaDelta only); split_ifs <;> first | (refine Sub.of hm ?_; decide))
    | ((with_reducible show Sub (2 ^ _) m); (try simp +zetaDelta only); split <;> first | (refine Sub.of hm ?_; decide))
    | (with_reducible refine Kept.foldl ?_ ?_; intro a x hx) | (with_reducible refine Kept.foldlFst ?_ ?_; intro a x hx)
    | (with_reducible refine Kept.foldlSnd ?_ ?_; intro a x hx) | (intro x; with_reducible refine (fun (hx : Kept m s0 x) => ?_) ?_; clear_value x)
    | intro x

theorem State.laserLine_kept {m : Nat} (hm : Sub 0xEA1E4F80B8 m) {s0 : State} {s : State} {i : Nat} {k : Nat} {v : Int} (hs : Kept m s0 s) :
    Kept m s0 (State.laserLine s i k v) := by
  unfold State.laserLine
  repeat' first
    | with_reducible assumption | (refine Sub.of hm ?_; decide)
    | (lift_lets; intro x; with_reducible refine (fun (hx : Kept m s0 x) => ?_) ?_; clear_value x)
    | (lift_lets; intro x; with_reducible refine (fun (hx : Sub (2 ^ (Fld.part x).ix) m) => ?_) ?_; clear_value x) | (lift_lets; intro x)
    | with_reducible apply Kept.ite | with_reducible apply State.lineChanged_kept | with_reducible apply State.liOver_kept
    | with_reducible apply State.setBit_kept
    | ((with_reducible show Sub (2 ^ _) m); (try simp +zetaDelta only); split_ifs <;> first | (refine Sub.of hm ?_; decide))
    | ((with_reducible show Sub (2 ^ _) m); (try simp +zetaDelta only); split <;> first | (refine Sub.of hm ?_; decide))
    | (intro x; with_reducible refine (fun (hx : Kept m s0 x) => ?_) ?_; clear_value x) | intro x

theorem State.lanePower_kept {m : Nat} (hm : Sub 0x20004F0000 m) {s0 : State} {s : State} {p : Nat} {k : Nat} {x : Int × Bool × Bool} (hs : Kept m s0 s) :
    Kept m s0 (State.lanePower s p k x) := by
  unfold State.lanePower
  repeat' first
    | with_reducible assumption | (refine Sub.of hm ?_; decide)
    | (lift_lets; intro x; with_reducible refine (fun (hx : Kept m s0 x) => ?_) ?_; clear_value x) | (lift_lets; intro x) | with_reducible apply Kept.ite
    | with_reducible apply Kept.iteFst | with_reducible apply State.fault_kept | with_reducible apply State.wr_kept
    | with_reducible apply State.cause0_kept | with_reducible apply State.showPower_kept
    | (refine Sub.ports hm ?_ (by decide); simp only [Fld.key, F.PORT_RX_PWR_LOW, F.PORT_RX_PWR_PWR, F.PORT_RX_PWR_OVR, F.PORT_RX_PWR_OPT_HIGH]; omega)
    | (intro x; with_reducible refine (fun (hx : Kept m s0 x) => ?_) ?_; clear_value x) | intro x

theorem State.tapShows_kept {m : Nat} (hm : Sub 0xEA1E4F80B8 m) {s0 : State} {s : State} {mm : MonSample} {valid : Bool} (hs : Kept m s0 s) :
    Kept m s0 (State.tapShows s mm valid) := by
  unfold State.tapShows
  repeat' first
    | with_reducible assumption | (refine Sub.of hm ?_; decide)
    | (lift_lets; intro x; with_reducible refine (fun (hx : Kept m s0 x) => ?_) ?_; clear_value x) | (lift_lets; intro x) | with_reducible apply Kept.ite
    | with_reducible apply Kept.iteFst | with_reducible apply State.lanePower_kept | with_reducible apply State.liOver_kept
    | with_reducible apply State.laserLine_kept | with_reducible apply State.wr_kept | with_reducible apply State.showPower_kept
    | (refine Sub.ports hm ?_ (by decide); simp only [Fld.key, F.PORT_RX_PWR_VALID, F.PORT_TX_PWR_LOW, F.PORT_RX_TOTAL_TOTAL, F.PORT_TX_PWR_TOTAL, F.PORT_RX_PWR_LOW, F.PORT_RX_TOTAL_LOW, F.PORT_RX_PWR_PWR, F.PORT_RX_TOTAL_OVR, F.PORT_TX_PWR_OVR, F.PORT_RX_PWR_OVR]; omega)
    | split | (clear_value *; split) | (dsimp +zetaDelta only; split) | (intro x; with_reducible refine (fun (hx : Kept m s0 x) => ?_) ?_; clear_value x)
    | intro x

theorem State.monitor_kept {m : Nat} (hm : Sub 0xEA1E4F80B8 m) {s0 : State} {s : State} {mm : MonSample} (hs : Kept m s0 s) :
    Kept m s0 (State.monitor s mm) := by
  unfold State.monitor
  repeat' first
    | with_reducible assumption | (refine Sub.of hm ?_; decide)
    | (lift_lets; intro x; with_reducible refine (fun (hx : Kept m s0 x) => ?_) ?_; clear_value x) | (lift_lets; intro x) | with_reducible apply Kept.ite
    | with_reducible apply State.tapShows_kept | with_reducible exact Kept.updRcu (by assumption) (hm.of (by decide))
    | (intro x; with_reducible refine (fun (hx : Kept m s0 x) => ?_) ?_; clear_value x) | intro x
    | with_reducible refine Kept.updRcu ?_ (hm.of (by decide))

theorem State.lightReached_kept {m : Nat} (hm : Sub 0x20000 m) {s0 : State} {s : State} (hs : Kept m s0 s) :
    Kept m s0 (State.lightReached s) := by
  unfold State.lightReached
  repeat' first
    | with_reducible assumption | (refine Sub.of hm ?_; decide)
    | (lift_lets; intro x; with_reducible refine (fun (hx : Kept m s0 x) => ?_) ?_; clear_value x) | (lift_lets; intro x) | with_reducible apply Kept.ite
    | with_reducible apply State.setUnitSt_kept | (with_reducible refine Kept.foldl ?_ ?_; intro a x hx)
    | (intro x; with_reducible refine (fun (hx : Kept m s0 x) => ?_) ?_; clear_value x) | intro x

theorem State.monitorGroup_kept {m : Nat} (hm : Sub 0xEA1E4F80B8 m) {s0 : State} {s : State} {mm : List MonSample} (hs : Kept m s0 s) :
    Kept m s0 (State.monitorGroup s mm) := by
  unfold State.monitorGroup
  repeat' first
    | with_reducible assumption | (refine Sub.of hm ?_; decide)
    | (lift_lets; intro x; with_reducible refine (fun (hx : Kept m s0 x) => ?_) ?_; clear_value x) | (lift_lets; intro x) | with_reducible apply Kept.ite
    | with_reducible apply State.monitor_kept | with_reducible exact Kept.updFcu (by assumption) (hm.of (by decide))
    | (with_reducible refine Kept.foldl ?_ ?_; intro a x hx) | (intro x; with_reducible refine (fun (hx : Kept m s0 x) => ?_) ?_; clear_value x)
    | intro x | with_reducible refine Kept.updFcu ?_ (hm.of (by decide))

theorem execMonitorSlot_kept {m : Nat} (hm : Sub 0xEA1E4F80B8 m) {s0 : State} {mm : List MonSample} {s : State} (hs : Kept m s0 s) :
    KeptOut m s0 (execMonitorSlot mm s) := by
  unfold execMonitorSlot
  repeat' first
    | with_reducible assumption | (refine Sub.of hm ?_; decide)
    | (lift_lets; intro x; with_reducible refine (fun (hx : Kept m s0 x) => ?_) ?_; clear_value x) | (lift_lets; intro x)
    | with_reducible apply KeptOut.next | with_reducible apply KeptOut.ite | with_reducible apply Kept.ite | with_reducible apply State.lightReached_kept
    | with_reducible apply State.monitorGroup_kept | (with_reducible refine Kept.foldl ?_ ?_; intro a x hx)
    | (intro x; with_reducible refine (fun (hx : Kept m s0 x) => ?_) ?_; clear_value x) | intro x

end Sys2Proof.Machine
end

