-- ==== Sys2Proof/Laws/KeptRcu.lean ====
section
/-! SUPPORT. What every operation of Machine/Rcu.lean keeps, and which parts of the state it may change. -/

set_option linter.unusedTactic false
set_option linter.unreachableTactic false
set_option linter.unusedVariables false
set_option linter.unusedSimpArgs false

namespace Sys2Proof.Machine

theorem State.setSearch_kept {m : Nat} (hm : Sub 0x20 m) {s0 : State} {s : State} {st : Nat} {pct : Nat} (hs : Kept m s0 s) :
    Kept m s0 (State.setSearch s st pct) := by
  unfold State.setSearch
  repeat' first
    | with_reducible assumption | (refine Sub.of hm ?_; decide) | with_reducible apply State.wrs_nil_kept | with_reducible apply State.wrs_cons_kept
    | with_reducible apply State.wrs_ite_kept | with_reducible apply State.wr_kept

theorem State.sweepGroup_kept {m : Nat} (hm : Sub 0x4000020 m) {s0 : State} {s : State} {g : Nat} (hs : Kept m s0 s) :
    Kept m s0 (State.sweepGroup s g) := by
  unfold State.sweepGroup
  repeat' first
    | with_reducible assumption | (refine Sub.of hm ?_; decide)
    | (lift_lets; intro x; with_reducible refine (fun (hx : Kept m s0 x) => ?_) ?_; clear_value x) | (lift_lets; intro x)
    | with_reducible apply State.setSearch_kept | with_reducible apply State.setRing_kept | with_reducible apply State.wrs_nil_kept
    | with_reducible apply State.wrs_cons_kept | with_reducible apply State.wrs_ite_kept | with_reducible apply State.wr_kept
    | with_reducible exact Kept.updRcu (by assumption) (hm.of (by decide)) | (with_reducible refine Kept.foldl ?_ ?_; intro a x hx)
    | (with_reducible refine Kept.foldlFst ?_ ?_; intro a x hx) | (intro x; with_reducible refine (fun (hx : Kept m s0 x) => ?_) ?_; clear_value x)
    | intro x | with_reducible refine Kept.updRcu ?_ (hm.of (by decide))

theorem State.searchStart_kept {m : Nat} (hm : Sub 0x4000020 m) {s0 : State} {s : State} (hs : Kept m s0 s) :
    KeptOpt m s0 (State.searchStart s) := by
  unfold State.searchStart
  repeat' first
    | with_reducible assumption | (refine Sub.of hm ?_; decide)
    | (lift_lets; intro x; with_reducible refine (fun (hx : Kept m s0 x) => ?_) ?_; clear_value x) | (lift_lets; intro x)
    | with_reducible apply KeptOpt.none | with_reducible apply KeptOpt.some | with_reducible apply KeptOpt.ite | with_reducible apply Kept.ite
    | with_reducible apply State.setSearch_kept | with_reducible apply State.wrs_nil_kept | with_reducible apply State.wrs_cons_kept
    | with_reducible apply State.wrs_ite_kept | with_reducible apply State.wr_kept | with_reducible exact Kept.updRcu (by assumption) (hm.of (by decide))
    | (intro x; with_reducible refine (fun (hx : Kept m s0 x) => ?_) ?_; clear_value x) | intro x
    | with_reducible refine Kept.updRcu ?_ (hm.of (by decide))

theorem execSearchAnchorFound_kept {m : Nat} (hm : Sub 0x4000020 m) {s0 : State} {s : State} (hs : Kept m s0 s) :
    KeptOut m s0 (execSearchAnchorFound s) := by
  unfold execSearchAnchorFound
  repeat' first
    | with_reducible assumption | (refine Sub.of hm ?_; decide)
    | (lift_lets; intro x; with_reducible refine (fun (hx : Kept m s0 x) => ?_) ?_; clear_value x) | (lift_lets; intro x)
    | with_reducible apply KeptOut.next | with_reducible apply KeptOut.ite | with_reducible apply Kept.ite | with_reducible apply State.setSearch_kept
    | with_reducible apply State.allRingsOff_kept | with_reducible exact Kept.updRcu (by assumption) (hm.of (by decide))
    | (intro x; with_reducible refine (fun (hx : Kept m s0 x) => ?_) ?_; clear_value x) | intro x
    | with_reducible refine Kept.updRcu ?_ (hm.of (by decide))

theorem execSearchInjectDone_kept {m : Nat} (hm : Sub 0x4000020 m) {s0 : State} {s : State} (hs : Kept m s0 s) :
    KeptOut m s0 (execSearchInjectDone s) := by
  unfold execSearchInjectDone
  repeat' first
    | with_reducible assumption | (refine Sub.of hm ?_; decide) | with_reducible apply KeptOut.next | with_reducible apply KeptOut.ite
    | with_reducible apply Kept.ite | with_reducible apply State.setSearch_kept | with_reducible apply State.sweepGroup_kept

theorem State.sweepRing_kept {m : Nat} (hm : Sub 0x4000000 m) {s0 : State} {s : State} {r : Nat} (hs : Kept m s0 s) :
    Kept m s0 (State.sweepRing s r) := by
  unfold State.sweepRing
  repeat' first
    | with_reducible assumption | (refine Sub.of hm ?_; decide)
    | (lift_lets; intro x; with_reducible refine (fun (hx : Kept m s0 x) => ?_) ?_; clear_value x) | (lift_lets; intro x) | with_reducible apply Kept.ite
    | with_reducible apply State.setRing_kept | (intro x; with_reducible refine (fun (hx : Kept m s0 x) => ?_) ?_; clear_value x) | intro x

theorem execSearchSweepDone_kept {m : Nat} (hm : Sub 0x4000020 m) {s0 : State} {s : State} (hs : Kept m s0 s) :
    KeptOut m s0 (execSearchSweepDone s) := by
  unfold execSearchSweepDone
  repeat' first
    | with_reducible assumption | (refine Sub.of hm ?_; decide)
    | (lift_lets; intro x; with_reducible refine (fun (hx : Kept m s0 x) => ?_) ?_; clear_value x) | (lift_lets; intro x)
    | with_reducible apply KeptOut.next | with_reducible apply KeptOut.ite | with_reducible apply Kept.ite | with_reducible apply State.setSearch_kept
    | with_reducible apply State.sweepGroup_kept | with_reducible apply State.sweepRing_kept | (with_reducible refine Kept.foldl ?_ ?_; intro a x hx)
    | split | (clear_value *; split) | (dsimp +zetaDelta only; split) | (intro x; with_reducible refine (fun (hx : Kept m s0 x) => ?_) ?_; clear_value x)
    | intro x

theorem State.identifyRing_kept {m : Nat} (hm : Sub 0x4100020 m) {s0 : State} {s : State} {r : Nat} (hs : Kept m s0 s) :
    Kept m s0 (State.identifyRing s r) := by
  unfold State.identifyRing
  repeat' first
    | with_reducible assumption | (refine Sub.of hm ?_; decide)
    | (lift_lets; intro x; with_reducible refine (fun (hx : Kept m s0 x) => ?_) ?_; clear_value x) | (lift_lets; intro x) | with_reducible apply Kept.ite
    | with_reducible apply Kept.iteSnd | with_reducible apply State.free_kept | with_reducible apply State.inc_kept
    | with_reducible apply State.setRing_kept | with_reducible refine Kept.ofSnd (by assumption) ?_ | split | (clear_value *; split)
    | (dsimp +zetaDelta only; split) | (intro x; with_reducible refine (fun (hx : Kept m s0 x) => ?_) ?_; clear_value x) | intro x

theorem execSearchIdentifyDone_kept {m : Nat} (hm : Sub 0x4100020 m) {s0 : State} {s : State} (hs : Kept m s0 s) :
    KeptOut m s0 (execSearchIdentifyDone s) := by
  unfold execSearchIdentifyDone
  repeat' first
    | with_reducible assumption | (refine Sub.of hm ?_; decide)
    | (lift_lets; intro x; with_reducible refine (fun (hx : Kept m s0 x) => ?_) ?_; clear_value x) | (lift_lets; intro x)
    | with_reducible apply KeptOut.next | with_reducible apply KeptOut.ite | with_reducible apply Kept.ite | with_reducible apply State.setSearch_kept
    | with_reducible apply State.identifyRing_kept | with_reducible exact Kept.updRcu (by assumption) (hm.of (by decide))
    | (with_reducible refine Kept.foldl ?_ ?_; intro a x hx) | (intro x; with_reducible refine (fun (hx : Kept m s0 x) => ?_) ?_; clear_value x)
    | intro x | with_reducible refine Kept.updRcu ?_ (hm.of (by decide))

theorem State.parkRing_kept {m : Nat} (hm : Sub 0x4000000 m) {s0 : State} {s : State} {r : Nat} (hs : Kept m s0 s) :
    Kept m s0 (State.parkRing s r) := by
  unfold State.parkRing
  repeat' first
    | with_reducible assumption | (refine Sub.of hm ?_; decide)
    | (lift_lets; intro x; with_reducible refine (fun (hx : Kept m s0 x) => ?_) ?_; clear_value x) | (lift_lets; intro x) | with_reducible apply Kept.ite
    | with_reducible apply State.setRing_kept | (intro x; with_reducible refine (fun (hx : Kept m s0 x) => ?_) ?_; clear_value x) | intro x

theorem State.verifyRound_kept {m : Nat} (hm : Sub 0x4100020 m) {s0 : State} {s : State} {n : Nat} (hs : Kept m s0 s) :
    Kept m s0 (State.verifyRound s n) := by
  unfold State.verifyRound
  repeat' first
    | with_reducible assumption | (refine Sub.of hm ?_; decide)
    | (lift_lets; intro x; with_reducible refine (fun (hx : Kept m s0 x) => ?_) ?_; clear_value x) | (lift_lets; intro x)
    | with_reducible apply State.setSearch_kept | with_reducible apply State.wr_kept | with_reducible apply State.free_kept
    | with_reducible apply State.setRing_kept | with_reducible exact Kept.updRcu (by assumption) (hm.of (by decide))
    | (with_reducible refine Kept.foldl ?_ ?_; intro a x hx) | with_reducible refine Kept.ofSnd (by assumption) ?_ | split | (clear_value *; split)
    | (dsimp +zetaDelta only; split) | (intro x; with_reducible refine (fun (hx : Kept m s0 x) => ?_) ?_; clear_value x) | intro x
    | with_reducible refine Kept.updRcu ?_ (hm.of (by decide))

theorem execSearchParkDone_kept {m : Nat} (hm : Sub 0x4100020 m) {s0 : State} {s : State} (hs : Kept m s0 s) :
    KeptOut m s0 (execSearchParkDone s) := by
  unfold execSearchParkDone
  repeat' first
    | with_reducible assumption | (refine Sub.of hm ?_; decide) | with_reducible apply KeptOut.next | with_reducible apply KeptOut.ite
    | with_reducible apply Kept.ite | with_reducible apply State.parkRing_kept | with_reducible apply State.verifyRound_kept
    | (with_reducible refine Kept.foldl ?_ ?_; intro a x hx)

theorem State.lightLoops_kept {m : Nat} (hm : Sub 0xEA1E4F80B8 m) {s0 : State} {s : State} (hs : Kept m s0 s) :
    Kept m s0 (State.lightLoops s) := by
  unfold State.lightLoops
  repeat' first
    | with_reducible assumption | (refine Sub.of hm ?_; decide)
    | (lift_lets; intro x; with_reducible refine (fun (hx : Kept m s0 x) => ?_) ?_; clear_value x) | (lift_lets; intro x)
    | with_reducible apply State.shutCtrlWritten_kept | (with_reducible refine Kept.foldl ?_ ?_; intro a x hx)
    | (intro x; with_reducible refine (fun (hx : Kept m s0 x) => ?_) ?_; clear_value x) | intro x

theorem State.verifyRing_kept {m : Nat} (hm : Sub 0x4000000 m) {s0 : State} {s : State} {r : Nat} (hs : Kept m s0 s) :
    Kept m s0 (State.verifyRing s r) := by
  unfold State.verifyRing
  repeat' first
    | with_reducible assumption | (refine Sub.of hm ?_; decide)
    | (lift_lets; intro x; with_reducible refine (fun (hx : Kept m s0 x) => ?_) ?_; clear_value x) | (lift_lets; intro x) | with_reducible apply Kept.ite
    | with_reducible apply State.setRing_kept | with_reducible exact Kept.updRcu (by assumption) (hm.of (by decide))
    | (intro x; with_reducible refine (fun (hx : Kept m s0 x) => ?_) ?_; clear_value x) | intro x
    | with_reducible refine Kept.updRcu ?_ (hm.of (by decide))

theorem execSearchVerifyRoundDone_kept {m : Nat} (hm : Sub 0xEA1E5F80B8 m) {s0 : State} {s : State} (hs : Kept m s0 s) :
    KeptOut m s0 (execSearchVerifyRoundDone s) := by
  unfold execSearchVerifyRoundDone
  repeat' first
    | with_reducible assumption | (refine Sub.of hm ?_; decide)
    | (lift_lets; intro x; with_reducible refine (fun (hx : Kept m s0 x) => ?_) ?_; clear_value x) | (lift_lets; intro x)
    | with_reducible apply KeptOut.next | with_reducible apply KeptOut.ite | with_reducible apply Kept.ite | with_reducible apply State.setSearch_kept
    | with_reducible apply State.lightLoops_kept | with_reducible apply State.verifyRing_kept | with_reducible apply State.setBit_kept
    | with_reducible apply State.sweepGroup_kept | with_reducible apply State.wr_kept | with_reducible apply State.cause0_kept
    | with_reducible apply State.verifyRound_kept | with_reducible apply State.event_kept
    | with_reducible exact Kept.updRcu (by assumption) (hm.of (by decide)) | (with_reducible refine Kept.foldl ?_ ?_; intro a x hx) | split
    | (clear_value *; split) | (dsimp +zetaDelta only; split) | (intro x; with_reducible refine (fun (hx : Kept m s0 x) => ?_) ?_; clear_value x)
    | intro x | with_reducible refine Kept.updRcu ?_ (hm.of (by decide))

theorem State.autoSpare_kept {m : Nat} (hm : Sub 0x20785F0200 m) {s0 : State} {s : State} {c : Nat} {p : Nat} {k : Nat} (hs : Kept m s0 s) :
    Kept m s0 (State.autoSpare s c p k) := by
  unfold State.autoSpare
  repeat' first
    | with_reducible assumption | (refine Sub.of hm ?_; decide)
    | (lift_lets; intro x; with_reducible refine (fun (hx : Kept m s0 x) => ?_) ?_; clear_value x) | (lift_lets; intro x) | with_reducible apply Kept.ite
    | with_reducible apply State.setCircuit_kept | with_reducible apply State.sideGroup_kept | with_reducible apply State.substitute_kept
    | (intro x; with_reducible refine (fun (hx : Kept m s0 x) => ?_) ?_; clear_value x) | intro x

theorem State.lineFenced_kept {m : Nat} (hm : Sub 0x22785F0200 m) {s0 : State} {s : State} {c : Nat} {p : Nat} {k : Nat} (hs : Kept m s0 s) :
    Kept m s0 (State.lineFenced s c p k) := by
  unfold State.lineFenced
  repeat' first
    | with_reducible assumption | (refine Sub.of hm ?_; decide)
    | (lift_lets; intro x; with_reducible refine (fun (hx : Kept m s0 x) => ?_) ?_; clear_value x) | (lift_lets; intro x) | with_reducible apply Kept.ite
    | with_reducible apply Kept.iteFst | with_reducible apply Kept.iteSnd | with_reducible apply State.autoSpare_kept
    | with_reducible apply State.degrade_kept | split | (clear_value *; split) | (dsimp +zetaDelta only; split)
    | (intro x; with_reducible refine (fun (hx : Kept m s0 x) => ?_) ?_; clear_value x) | intro x

theorem State.csqFenced_kept {m : Nat} (hm : Sub 0xAA7E5F0208 m) {s0 : State} {s : State} {r : Nat} {shadow : Nat} (hs : Kept m s0 s) :
    Kept m s0 (State.csqFenced s r shadow) := by
  unfold State.csqFenced
  repeat' first
    | with_reducible assumption | (refine Sub.of hm ?_; decide)
    | (lift_lets; intro x; with_reducible refine (fun (hx : Kept m s0 x) => ?_) ?_; clear_value x) | (lift_lets; intro x) | with_reducible apply Kept.ite
    | with_reducible apply Kept.iteFst | with_reducible apply Kept.iteSnd | with_reducible apply State.lineFenced_kept
    | with_reducible apply State.circuitDown_kept | with_reducible apply State.psmFail_kept | (with_reducible refine Kept.foldl ?_ ?_; intro a x hx)
    | (with_reducible refine Kept.foldlFst ?_ ?_; intro a x hx) | (with_reducible refine Kept.foldlSnd ?_ ?_; intro a x hx)
    | (intro x; with_reducible refine (fun (hx : Kept m s0 x) => ?_) ?_; clear_value x) | intro x

theorem State.heaterFault_kept {m : Nat} (hm : Sub 0xAA7E5F0288 m) {s0 : State} {s : State} {r : Nat} {kind : Nat} (hs : Kept m s0 s) :
    Kept m s0 (State.heaterFault s r kind) := by
  unfold State.heaterFault
  repeat' first
    | with_reducible assumption | (refine Sub.of hm ?_; decide)
    | (lift_lets; intro x; with_reducible refine (fun (hx : Kept m s0 x) => ?_) ?_; clear_value x) | (lift_lets; intro x)
    | with_reducible apply State.fault_kept | with_reducible apply State.offRing_kept | with_reducible apply State.ringFailed_kept
    | with_reducible apply State.wr_kept | with_reducible apply State.cause0_kept | with_reducible apply State.csqFenced_kept
    | with_reducible apply State.inc_kept | with_reducible apply State.setRing_kept
    | with_reducible exact Kept.updRcu (by assumption) (hm.of (by decide))
    | (intro x; with_reducible refine (fun (hx : Kept m s0 x) => ?_) ?_; clear_value x) | intro x
    | with_reducible refine Kept.updRcu ?_ (hm.of (by decide))

theorem State.feedForward_kept {m : Nat} (hm : Sub 0x20044D0000 m) {s0 : State} {s : State} {r : Nat} (hs : Kept m s0 s) :
    Kept m s0 (State.feedForward s r) := by
  unfold State.feedForward
  repeat' first
    | with_reducible assumption | (refine Sub.of hm ?_; decide)
    | (lift_lets; intro x; with_reducible refine (fun (hx : Kept m s0 x) => ?_) ?_; clear_value x) | (lift_lets; intro x) | with_reducible apply Kept.ite
    | with_reducible apply Kept.iteFst | with_reducible apply Kept.iteSnd | with_reducible apply State.fault_kept
    | with_reducible apply State.cause0_kept | with_reducible apply State.setRing_kept | split | (clear_value *; split) | (dsimp +zetaDelta only; split)
    | (intro x; with_reducible refine (fun (hx : Kept m s0 x) => ?_) ?_; clear_value x) | intro x

theorem State.loopRing_kept {m : Nat} (hm : Sub 0x20144D0000 m) {s0 : State} {s : State} {u : RingUpdate} (hs : Kept m s0 s) :
    Kept m s0 (State.loopRing s u) := by
  unfold State.loopRing
  repeat' first
    | with_reducible assumption | (refine Sub.of hm ?_; decide)
    | (lift_lets; intro x; with_reducible refine (fun (hx : Kept m s0 x) => ?_) ?_; clear_value x) | (lift_lets; intro x) | with_reducible apply Kept.ite
    | with_reducible apply State.fault_kept | with_reducible apply State.ringLocked_kept | with_reducible apply State.cause0_kept
    | with_reducible apply State.ringUnlocked_kept | with_reducible apply State.feedForward_kept | with_reducible apply State.setRing_kept
    | with_reducible apply State.stat_kept | (intro x; with_reducible refine (fun (hx : Kept m s0 x) => ?_) ?_; clear_value x) | intro x

theorem State.updateRing_kept {m : Nat} (hm : Sub 0xAA7E5F0288 m) {s0 : State} {s : State} {u : RingUpdate} (hs : Kept m s0 s) :
    Kept m s0 (State.updateRing s u) := by
  unfold State.updateRing
  repeat' first
    | with_reducible assumption | (refine Sub.of hm ?_; decide)
    | (lift_lets; intro x; with_reducible refine (fun (hx : Kept m s0 x) => ?_) ?_; clear_value x) | (lift_lets; intro x) | with_reducible apply Kept.ite
    | with_reducible apply State.feedForward_kept | with_reducible apply State.setRing_kept | with_reducible apply State.loopRing_kept
    | with_reducible apply State.heaterFault_kept | split | (clear_value *; split) | (dsimp +zetaDelta only; split)
    | (intro x; with_reducible refine (fun (hx : Kept m s0 x) => ?_) ?_; clear_value x) | intro x

theorem State.sweepStep_kept {m : Nat} (hm : Sub 0x4000020 m) {s0 : State} {s : State} {u : List RingUpdate} (hs : Kept m s0 s) :
    Kept m s0 (State.sweepStep s u) := by
  unfold State.sweepStep
  repeat' first
    | with_reducible assumption | (refine Sub.of hm ?_; decide)
    | (lift_lets; intro x; with_reducible refine (fun (hx : Kept m s0 x) => ?_) ?_; clear_value x) | (lift_lets; intro x) | with_reducible apply Kept.ite
    | with_reducible apply State.wr_kept | with_reducible exact Kept.updRcu (by assumption) (hm.of (by decide))
    | (intro x; with_reducible refine (fun (hx : Kept m s0 x) => ?_) ?_; clear_value x) | intro x
    | with_reducible refine Kept.updRcu ?_ (hm.of (by decide))

theorem State.setChan_kept {m : Nat} (hm : Sub 0x4000000 m) {s0 : State} {s : State} {c : Nat} {x : Chan} (hs : Kept m s0 s) :
    Kept m s0 (State.setChan s c x) := by
  unfold State.setChan
  repeat' first
    | with_reducible assumption | (refine Sub.of hm ?_; decide) | with_reducible exact Kept.updRcu (by assumption) (hm.of (by decide))
    | with_reducible refine Kept.updRcu ?_ (hm.of (by decide))

theorem State.glideStep_kept {m : Nat} (hm : Sub 0x4000000 m) {s0 : State} {s : State} (hs : Kept m s0 s) :
    Kept m s0 (State.glideStep s) := by
  unfold State.glideStep
  repeat' first
    | with_reducible assumption | (refine Sub.of hm ?_; decide)
    | (lift_lets; intro x; with_reducible refine (fun (hx : Kept m s0 x) => ?_) ?_; clear_value x) | (lift_lets; intro x) | with_reducible apply Kept.ite
    | with_reducible apply Kept.iteFst | with_reducible apply Kept.iteSnd | with_reducible apply State.setChan_kept
    | with_reducible exact Kept.updRcu (by assumption) (hm.of (by decide)) | (with_reducible refine Kept.foldl ?_ ?_; intro a x hx)
    | (with_reducible refine Kept.foldlFst ?_ ?_; intro a x hx) | (with_reducible refine Kept.foldlSnd ?_ ?_; intro a x hx)
    | (intro x; with_reducible refine (fun (hx : Kept m s0 x) => ?_) ?_; clear_value x) | intro x
    | with_reducible refine Kept.updRcu ?_ (hm.of (by decide))

theorem execLoopUpdate_kept {m : Nat} (hm : Sub 0xAA7E5F02A8 m) {s0 : State} {u : List RingUpdate} {s : State} (hs : Kept m s0 s) :
    KeptOut m s0 (execLoopUpdate u s) := by
  unfold execLoopUpdate
  repeat' first
    | with_reducible assumption | (refine Sub.of hm ?_; decide) | with_reducible apply KeptOut.next | with_reducible apply KeptOut.ite
    | with_reducible apply Kept.ite | with_reducible apply State.glideStep_kept | with_reducible apply State.csqSettle_kept
    | with_reducible apply State.sweepStep_kept | with_reducible apply State.updateRing_kept | (with_reducible refine Kept.foldl ?_ ?_; intro a x hx)

theorem State.calRunsDone_kept {m : Nat} (hm : Sub 0x80064C0008 m) {s0 : State} {s : State} (hs : Kept m s0 s) :
    Kept m s0 (State.calRunsDone s) := by
  unfold State.calRunsDone
  repeat' first
    | with_reducible assumption | (refine Sub.of hm ?_; decide)
    | (lift_lets; intro x; with_reducible refine (fun (hx : Kept m s0 x) => ?_) ?_; clear_value x) | (lift_lets; intro x) | with_reducible apply Kept.ite
    | with_reducible apply State.complete_kept | with_reducible exact Kept.updRcu (by assumption) (hm.of (by decide))
    | (with_reducible refine Kept.foldl ?_ ?_; intro a x hx) | split | (clear_value *; split) | (dsimp +zetaDelta only; split)
    | (intro x; with_reducible refine (fun (hx : Kept m s0 x) => ?_) ?_; clear_value x) | intro x
    | with_reducible refine Kept.updRcu ?_ (hm.of (by decide))

theorem State.settleChan_kept {m : Nat} (hm : Sub 0x80064C0008 m) {s0 : State} {s : State} {ch : Nat} {how : Nat} (hs : Kept m s0 s) :
    Kept m s0 (State.settleChan s ch how) := by
  unfold State.settleChan
  repeat' first
    | with_reducible assumption | (refine Sub.of hm ?_; decide)
    | (lift_lets; intro x; with_reducible refine (fun (hx : Kept m s0 x) => ?_) ?_; clear_value x) | (lift_lets; intro x) | with_reducible apply Kept.ite
    | with_reducible apply State.calRunsDone_kept | with_reducible exact Kept.updRcu (by assumption) (hm.of (by decide))
    | (intro x; with_reducible refine (fun (hx : Kept m s0 x) => ?_) ?_; clear_value x) | intro x
    | with_reducible refine Kept.updRcu ?_ (hm.of (by decide))

theorem execCalRun_kept {m : Nat} (hm : Sub 0x80064C0008 m) {s0 : State} {f : Fn} {e : Block64} {s : State} (hs : Kept m s0 s) :
    KeptOut m s0 (execCalRun f e s) := by
  unfold execCalRun
  repeat' first
    | with_reducible assumption | (refine Sub.of hm ?_; decide) | with_reducible refine fun (y0 : Cmd) (s : State) (h : Kept m s0 s) => ?_
    | (lift_lets; intro x; with_reducible refine (fun (hx : Kept m s0 x) => ?_) ?_; clear_value x) | (lift_lets; intro x)
    | with_reducible apply KeptOut.next | with_reducible apply KeptOut.ite | with_reducible apply Kept.ite | with_reducible apply State.calRunsDone_kept
    | with_reducible apply State.command_kept | with_reducible apply State.complete_kept | with_reducible apply State.setWait_kept
    | with_reducible exact Kept.updRcu (by assumption) (hm.of (by decide))
    | (intro x; with_reducible refine (fun (hx : Kept m s0 x) => ?_) ?_; clear_value x) | intro x
    | with_reducible refine Kept.updRcu ?_ (hm.of (by decide))

theorem execCalSelect_kept {m : Nat} (hm : Sub 0x80064C0028 m) {s0 : State} {s : State} (hs : Kept m s0 s) :
    KeptOut m s0 (execCalSelect s) := by
  unfold execCalSelect
  repeat' first
    | with_reducible assumption | (refine Sub.of hm ?_; decide)
    | (lift_lets; intro x; with_reducible refine (fun (hx : Kept m s0 x) => ?_) ?_; clear_value x) | (lift_lets; intro x)
    | with_reducible apply KeptOut.next | with_reducible apply KeptOut.ite | with_reducible apply Kept.ite | with_reducible apply State.setChan_kept
    | with_reducible apply State.wr_kept | with_reducible apply State.settleChan_kept
    | with_reducible exact Kept.updRcu (by assumption) (hm.of (by decide)) | (with_reducible refine Kept.foldl ?_ ?_; intro a x hx) | split
    | (clear_value *; split) | (dsimp +zetaDelta only; split) | (intro x; with_reducible refine (fun (hx : Kept m s0 x) => ?_) ?_; clear_value x)
    | intro x | with_reducible refine Kept.updRcu ?_ (hm.of (by decide))

theorem State.updAttempt_kept {m : Nat} (hm : Sub 0x4000000 m) {s0 : State} {s : State} {ch : Nat} {f : Attempt → Attempt} (hs : Kept m s0 s) :
    Kept m s0 (State.updAttempt s ch f) := by
  unfold State.updAttempt
  repeat' first
    | with_reducible assumption | (refine Sub.of hm ?_; decide)
    | (lift_lets; intro x; with_reducible refine (fun (hx : Kept m s0 x) => ?_) ?_; clear_value x) | (lift_lets; intro x)
    | with_reducible exact Kept.updRcu (by assumption) (hm.of (by decide))
    | (intro x; with_reducible refine (fun (hx : Kept m s0 x) => ?_) ?_; clear_value x) | intro x
    | with_reducible refine Kept.updRcu ?_ (hm.of (by decide))

theorem execCalGapFound_kept {m : Nat} (hm : Sub 0x4000000 m) {s0 : State} {ch : ChanIx} {s : State} (hs : Kept m s0 s) :
    KeptOut m s0 (execCalGapFound ch s) := by
  unfold execCalGapFound
  repeat' first
    | with_reducible assumption | (refine Sub.of hm ?_; decide)
    | (lift_lets; intro x; with_reducible refine (fun (hx : Kept m s0 x) => ?_) ?_; clear_value x) | (lift_lets; intro x)
    | with_reducible apply KeptOut.next | with_reducible apply KeptOut.ite | with_reducible apply Kept.ite | with_reducible apply State.updAttempt_kept
    | split | (clear_value *; split) | (dsimp +zetaDelta only; split) | (intro x; with_reducible refine (fun (hx : Kept m s0 x) => ?_) ?_; clear_value x)
    | intro x

theorem execCalDefer_kept {m : Nat} (hm : Sub 0xC0064D8028 m) {s0 : State} {ch : ChanIx} {s : State} (hs : Kept m s0 s) :
    KeptOut m s0 (execCalDefer ch s) := by
  unfold execCalDefer
  repeat' first
    | with_reducible assumption | (refine Sub.of hm ?_; decide)
    | (lift_lets; intro x; with_reducible refine (fun (hx : Kept m s0 x) => ?_) ?_; clear_value x) | (lift_lets; intro x)
    | with_reducible apply KeptOut.next | with_reducible apply KeptOut.ite | with_reducible apply Kept.ite | with_reducible apply State.updAttempt_kept
    | with_reducible apply State.setChan_kept | with_reducible apply State.cause0_kept | with_reducible apply State.settleChan_kept
    | with_reducible apply State.inc_kept | with_reducible apply State.stat_kept | with_reducible apply State.event_kept | split | (clear_value *; split)
    | (dsimp +zetaDelta only; split) | (intro x; with_reducible refine (fun (hx : Kept m s0 x) => ?_) ?_; clear_value x) | intro x

theorem State.acceptCal_kept {m : Nat} (hm : Sub 0x20645D0200 m) {s0 : State} {s : State} {a : Attempt} {v : CalItems} (hs : Kept m s0 s) :
    Kept m s0 (State.acceptCal s a v) := by
  unfold State.acceptCal
  repeat' first
    | with_reducible assumption | (refine Sub.of hm ?_; decide)
    | (lift_lets; intro x; with_reducible refine (fun (hx : Kept m s0 x) => ?_) ?_; clear_value x) | (lift_lets; intro x) | with_reducible apply Kept.ite
    | with_reducible apply State.updAttempt_kept | with_reducible apply State.append_kept | with_reducible apply State.setChan_kept
    | (intro x; with_reducible refine (fun (hx : Kept m s0 x) => ?_) ?_; clear_value x) | intro x

theorem execCalMeasureDone_kept {m : Nat} (hm : Sub 0xA0665D0228 m) {s0 : State} {ch : ChanIx} {mm : CalItems} {s : State} (hs : Kept m s0 s) :
    KeptOut m s0 (execCalMeasureDone ch mm s) := by
  unfold execCalMeasureDone
  repeat' first
    | with_reducible assumption | (refine Sub.of hm ?_; decide)
    | (lift_lets; intro x; with_reducible refine (fun (hx : Kept m s0 x) => ?_) ?_; clear_value x) | (lift_lets; intro x)
    | with_reducible apply KeptOut.next | with_reducible apply KeptOut.ite | with_reducible apply Kept.ite | with_reducible apply State.updAttempt_kept
    | with_reducible apply State.fault_kept | with_reducible apply State.acceptCal_kept | with_reducible apply State.setChan_kept
    | with_reducible apply State.cause0_kept | with_reducible apply State.settleChan_kept | with_reducible apply State.inc_kept | split
    | (clear_value *; split) | (dsimp +zetaDelta only; split) | (intro x; with_reducible refine (fun (hx : Kept m s0 x) => ?_) ?_; clear_value x)
    | intro x

theorem State.calApplied_kept {m : Nat} (hm : Sub 0x80064C0008 m) {s0 : State} {s : State} {ch : Nat} (hs : Kept m s0 s) :
    Kept m s0 (State.calApplied s ch) := by
  unfold State.calApplied
  repeat' first
    | with_reducible assumption | (refine Sub.of hm ?_; decide)
    | (lift_lets; intro x; with_reducible refine (fun (hx : Kept m s0 x) => ?_) ?_; clear_value x) | (lift_lets; intro x)
    | with_reducible apply State.setChan_kept | with_reducible apply State.settleChan_kept | with_reducible apply State.stat_kept
    | with_reducible exact Kept.updRcu (by assumption) (hm.of (by decide))
    | (intro x; with_reducible refine (fun (hx : Kept m s0 x) => ?_) ?_; clear_value x) | intro x
    | with_reducible refine Kept.updRcu ?_ (hm.of (by decide))

theorem execCalSwitchDone_kept {m : Nat} (hm : Sub 0x800E4E0008 m) {s0 : State} {ch : ChanIx} {s : State} (hs : Kept m s0 s) :
    KeptOut m s0 (execCalSwitchDone ch s) := by
  unfold execCalSwitchDone
  repeat' first
    | with_reducible assumption | (refine Sub.of hm ?_; decide)
    | (lift_lets; intro x; with_reducible refine (fun (hx : Kept m s0 x) => ?_) ?_; clear_value x) | (lift_lets; intro x)
    | with_reducible apply KeptOut.next | with_reducible apply KeptOut.ite | with_reducible apply Kept.ite | with_reducible apply Kept.iteFst
    | with_reducible apply State.updAttempt_kept | with_reducible apply State.calApplied_kept | with_reducible apply State.returnLane_kept
    | with_reducible apply State.substitute_kept | with_reducible apply State.setUnitSt_kept
    | with_reducible exact Kept.updRcu (by assumption) (hm.of (by decide)) | split | (clear_value *; split) | (dsimp +zetaDelta only; split)
    | (intro x; with_reducible refine (fun (hx : Kept m s0 x) => ?_) ?_; clear_value x) | intro x
    | with_reducible refine Kept.updRcu ?_ (hm.of (by decide))

theorem execCalGlideDone_kept {m : Nat} (hm : Sub 0x80064C0008 m) {s0 : State} {ch : ChanIx} {s : State} (hs : Kept m s0 s) :
    KeptOut m s0 (execCalGlideDone ch s) := by
  unfold execCalGlideDone
  repeat' first
    | with_reducible assumption | (refine Sub.of hm ?_; decide)
    | (lift_lets; intro x; with_reducible refine (fun (hx : Kept m s0 x) => ?_) ?_; clear_value x) | (lift_lets; intro x)
    | with_reducible apply KeptOut.next | with_reducible apply KeptOut.ite | with_reducible apply Kept.ite | with_reducible apply Kept.iteFst
    | with_reducible apply Kept.iteSnd | with_reducible apply State.calApplied_kept | split | (clear_value *; split) | (dsimp +zetaDelta only; split)
    | (intro x; with_reducible refine (fun (hx : Kept m s0 x) => ?_) ?_; clear_value x) | intro x

theorem State.rcuFreeze_kept {m : Nat} (hm : Sub 0xC020000 m) {s0 : State} {s : State} (hs : Kept m s0 s) :
    Kept m s0 (State.rcuFreeze s) := by
  unfold State.rcuFreeze
  repeat' first
    | with_reducible assumption | (refine Sub.of hm ?_; decide)
    | (lift_lets; intro x; with_reducible refine (fun (hx : Kept m s0 x) => ?_) ?_; clear_value x) | (lift_lets; intro x)
    | with_reducible apply State.abandon_kept | (intro x; with_reducible refine (fun (hx : Kept m s0 x) => ?_) ?_; clear_value x) | intro x

theorem State.rcuThaw_kept {m : Nat} (hm : Sub 0x4100020 m) {s0 : State} {s : State} (hs : Kept m s0 s) :
    Kept m s0 (State.rcuThaw s) := by
  unfold State.rcuThaw
  repeat' first
    | with_reducible assumption | (refine Sub.of hm ?_; decide) | with_reducible apply Kept.ite | with_reducible apply State.sweepGroup_kept
    | with_reducible apply State.verifyRound_kept

end Sys2Proof.Machine
end

