-- ==== Sys2Proof/Laws/KeptLnk.lean ====
section
/-! SUPPORT. What every operation of Machine/Lnk.lean keeps, and which parts of the state it may change. -/

set_option linter.unusedTactic false
set_option linter.unreachableTactic false
set_option linter.unusedVariables false
set_option linter.unusedSimpArgs false

namespace Sys2Proof.Machine

theorem State.sendCodewords_kept {m : Nat} (hm : Sub 0x8080000 m) {s0 : State} {s : State} {p : Nat} (hs : Kept m s0 s) :
    Kept m s0 (State.sendCodewords s p) := by
  unfold State.sendCodewords
  repeat' first
    | with_reducible assumption | (refine Sub.of hm ?_; decide)
    | (lift_lets; intro x; with_reducible refine (fun (hx : Kept m s0 x) => ?_) ?_; clear_value x) | (lift_lets; intro x) | with_reducible apply Kept.ite
    | with_reducible apply State.setPlink_kept | with_reducible apply State.setUnit_kept | with_reducible apply State.send_kept
    | (with_reducible refine Kept.foldl ?_ ?_; intro a x hx) | split | (clear_value *; split) | (dsimp +zetaDelta only; split)
    | (intro x; with_reducible refine (fun (hx : Kept m s0 x) => ?_) ?_; clear_value x) | intro x

theorem State.openSlot_kept {m : Nat} (hm : Sub 0x8080000 m) {s0 : State} {s : State} {u : Nat} (hs : Kept m s0 s) :
    Kept m s0 (State.openSlot s u) := by
  unfold State.openSlot
  repeat' first
    | with_reducible assumption | (refine Sub.of hm ?_; decide) | with_reducible apply Kept.ite | with_reducible apply State.sendCodewords_kept

theorem State.fillSlot_kept {m : Nat} (hm : Sub 0x8000000 m) {s0 : State} {s : State} {u : Nat} {x : Burst × Burst} (hs : Kept m s0 s) :
    Kept m s0 (State.fillSlot s u x) := by
  unfold State.fillSlot
  repeat' first
    | with_reducible assumption | (refine Sub.of hm ?_; decide) | with_reducible apply State.setUnit_kept

theorem State.placeSpare_kept {m : Nat} (hm : Sub 0x8080000 m) {s0 : State} {s : State} {p : Nat} {first : Nat} {b : List Byte} (hs : Kept m s0 s) :
    Kept m s0 (State.placeSpare s p first b) := by
  unfold State.placeSpare
  repeat' first
    | with_reducible assumption | (refine Sub.of hm ?_; decide)
    | (lift_lets; intro x; with_reducible refine (fun (hx : Kept m s0 x) => ?_) ?_; clear_value x) | (lift_lets; intro x) | with_reducible apply Kept.ite
    | with_reducible apply State.openSlot_kept | with_reducible apply State.setUnit_kept | with_reducible apply State.sendCodewords_kept
    | with_reducible apply State.fillSlot_kept | (intro x; with_reducible refine (fun (hx : Kept m s0 x) => ?_) ?_; clear_value x) | intro x

theorem State.wantNak_kept {m : Nat} (hm : Sub 0x8000000 m) {s0 : State} {s : State} {u : Nat} (hs : Kept m s0 s) :
    Kept m s0 (State.wantNak s u) := by
  unfold State.wantNak
  repeat' first
    | with_reducible assumption | (refine Sub.of hm ?_; decide) | with_reducible apply Kept.ite | with_reducible apply State.setUnit_kept

theorem State.askRetrain_kept {m : Nat} (hm : Sub 0x80000 m) {s0 : State} {s : State} {u : Nat} (hs : Kept m s0 s) :
    Kept m s0 (State.askRetrain s u) := by
  unfold State.askRetrain
  repeat' first
    | with_reducible assumption | (refine Sub.of hm ?_; decide)
    | (lift_lets; intro x; with_reducible refine (fun (hx : Kept m s0 x) => ?_) ?_; clear_value x) | (lift_lets; intro x) | with_reducible apply Kept.ite
    | with_reducible apply State.send_kept | (intro x; with_reducible refine (fun (hx : Kept m s0 x) => ?_) ?_; clear_value x) | intro x

theorem State.lossEvent_kept {m : Nat} (hm : Sub 0xA21E4F0088 m) {s0 : State} {s : State} {u : Nat} (hs : Kept m s0 s) :
    Kept m s0 (State.lossEvent s u) := by
  unfold State.lossEvent
  repeat' first
    | with_reducible assumption | (refine Sub.of hm ?_; decide)
    | (lift_lets; intro x; with_reducible refine (fun (hx : Kept m s0 x) => ?_) ?_; clear_value x) | (lift_lets; intro x) | with_reducible apply Kept.ite
    | with_reducible apply State.setUnit_kept | with_reducible apply State.retrain_kept | with_reducible apply State.askRetrain_kept
    | (intro x; with_reducible refine (fun (hx : Kept m s0 x) => ?_) ?_; clear_value x) | intro x

theorem State.settleSubst_kept {m : Nat} (hm : Sub 0x8000000 m) {s0 : State} {s : State} {p : Nat} {cw : Nat} (hs : Kept m s0 s) :
    Kept m s0 (State.settleSubst s p cw) := by
  unfold State.settleSubst
  repeat' first
    | with_reducible assumption | (refine Sub.of hm ?_; decide)
    | (lift_lets; intro x; with_reducible refine (fun (hx : Kept m s0 x) => ?_) ?_; clear_value x) | (lift_lets; intro x) | with_reducible apply Kept.ite
    | with_reducible apply State.setPlink_kept | split | (clear_value *; split) | (dsimp +zetaDelta only; split)
    | (intro x; with_reducible refine (fun (hx : Kept m s0 x) => ?_) ?_; clear_value x) | intro x

theorem State.deposit_kept {m : Nat} (hm : Sub 0x8000000 m) {s0 : State} {s : State} {p : Nat} {k : Nat} {cw : Nat} {bad : Bool} {bs : List Burst} {t : DWord} (hs : Kept m s0 s) :
    Kept m s0 (State.deposit s p k cw bad bs t) := by
  unfold State.deposit
  repeat' first
    | with_reducible assumption | (refine Sub.of hm ?_; decide)
    | (lift_lets; intro x; with_reducible refine (fun (hx : Kept m s0 x) => ?_) ?_; clear_value x) | (lift_lets; intro x) | with_reducible apply Kept.ite
    | with_reducible apply Kept.iteFst | with_reducible apply Kept.iteSnd | with_reducible apply State.setUnit_kept
    | (with_reducible refine Kept.foldl ?_ ?_; intro a x hx) | (with_reducible refine Kept.foldlFst ?_ ?_; intro a x hx)
    | (with_reducible refine Kept.foldlSnd ?_ ?_; intro a x hx) | split | (clear_value *; split) | (dsimp +zetaDelta only; split)
    | (intro x; with_reducible refine (fun (hx : Kept m s0 x) => ?_) ?_; clear_value x) | intro x

theorem State.unmark_kept {m : Nat} (hm : Sub 0x8000000 m) {s0 : State} {s : State} {p : Nat} {k : Nat} (hs : Kept m s0 s) :
    Kept m s0 (State.unmark s p k) := by
  unfold State.unmark
  repeat' first
    | with_reducible assumption | (refine Sub.of hm ?_; decide)
    | (lift_lets; intro x; with_reducible refine (fun (hx : Kept m s0 x) => ?_) ?_; clear_value x) | (lift_lets; intro x) | with_reducible apply Kept.ite
    | with_reducible apply State.setUnit_kept | (intro x; with_reducible refine (fun (hx : Kept m s0 x) => ?_) ?_; clear_value x) | intro x

theorem State.endSubst_kept {m : Nat} (hm : Sub 0x221C4F0000 m) {s0 : State} {s : State} {p : Nat} (hs : Kept m s0 s) :
    Kept m s0 (State.endSubst s p) := by
  unfold State.endSubst
  repeat' first
    | with_reducible assumption | (refine Sub.of hm ?_; decide)
    | (lift_lets; intro x; with_reducible refine (fun (hx : Kept m s0 x) => ?_) ?_; clear_value x) | (lift_lets; intro x) | with_reducible apply Kept.ite
    | with_reducible apply State.setUnit_kept | with_reducible apply State.abandon_kept | with_reducible apply State.degrade_kept
    | with_reducible apply State.dropSubst_kept | with_reducible apply State.wantNak_kept | split | (clear_value *; split)
    | (dsimp +zetaDelta only; split) | (intro x; with_reducible refine (fun (hx : Kept m s0 x) => ?_) ?_; clear_value x) | intro x

theorem State.lockLoss_kept {m : Nat} (hm : Sub 0xA21E4F0088 m) {s0 : State} {s : State} {p : Nat} {k : Nat} (hs : Kept m s0 s) :
    Kept m s0 (State.lockLoss s p k) := by
  unfold State.lockLoss
  repeat' first
    | with_reducible assumption | (refine Sub.of hm ?_; decide)
    | (lift_lets; intro x; with_reducible refine (fun (hx : Kept m s0 x) => ?_) ?_; clear_value x) | (lift_lets; intro x) | with_reducible apply Kept.ite
    | with_reducible apply State.setUnit_kept | with_reducible apply State.inc_kept | with_reducible apply State.endSubst_kept
    | with_reducible apply State.retrain_kept | with_reducible apply State.wantNak_kept | with_reducible apply State.askRetrain_kept
    | (refine Sub.ports hm ?_ (by decide); simp only [Fld.key, F.PORT_LOCK_LOSS_COUNT]; omega)
    | (intro x; with_reducible refine (fun (hx : Kept m s0 x) => ?_) ?_; clear_value x) | intro x

theorem State.sendTrain_kept {m : Nat} (hm : Sub 0x80000 m) {s0 : State} {s : State} {u : Nat} (hs : Kept m s0 s) :
    Kept m s0 (State.sendTrain s u) := by
  unfold State.sendTrain
  repeat' first
    | with_reducible assumption | (refine Sub.of hm ?_; decide)
    | (lift_lets; intro x; with_reducible refine (fun (hx : Kept m s0 x) => ?_) ?_; clear_value x) | (lift_lets; intro x) | with_reducible apply Kept.ite
    | with_reducible apply State.send_kept | (with_reducible refine Kept.foldl ?_ ?_; intro a x hx)
    | (intro x; with_reducible refine (fun (hx : Kept m s0 x) => ?_) ?_; clear_value x) | intro x

theorem State.trainTo_kept {m : Nat} (hm : Sub 0xA0000 m) {s0 : State} {s : State} {u : Nat} {st : Nat} (hs : Kept m s0 s) :
    Kept m s0 (State.trainTo s u st) := by
  unfold State.trainTo
  repeat' first
    | with_reducible assumption | (refine Sub.of hm ?_; decide) | with_reducible apply State.sendTrain_kept | with_reducible apply State.setUnitSt_kept

theorem State.takeSlots_kept {m : Nat} (hm : Sub 0xA21E4F0088 m) {s0 : State} {s : State} {p : Nat} {k : Nat} {c : Codeword} {cw : Nat} {bad : Bool} {t : DWord} (hs : Kept m s0 s) :
    Kept m s0 (State.takeSlots s p k c cw bad t) := by
  unfold State.takeSlots
  repeat' first
    | with_reducible assumption | (refine Sub.of hm ?_; decide)
    | (lift_lets; intro x; with_reducible refine (fun (hx : Kept m s0 x) => ?_) ?_; clear_value x) | (lift_lets; intro x) | with_reducible apply Kept.ite
    | with_reducible apply State.lossEvent_kept | with_reducible apply State.unmark_kept | with_reducible apply State.settleSubst_kept
    | with_reducible apply State.deposit_kept | (intro x; with_reducible refine (fun (hx : Kept m s0 x) => ?_) ?_; clear_value x) | intro x

theorem State.afterLock_kept {m : Nat} (hm : Sub 0x80A0000 m) {s0 : State} {s : State} {u : Nat} (hs : Kept m s0 s) :
    Kept m s0 (State.afterLock s u) := by
  unfold State.afterLock
  repeat' first
    | with_reducible assumption | (refine Sub.of hm ?_; decide) | with_reducible apply Kept.ite | with_reducible apply State.setUnit_kept
    | with_reducible apply State.setUnitSt_kept | with_reducible apply State.trainTo_kept

theorem execCodewordReceive_kept {m : Nat} (hm : Sub 0xA21E4F0088 m) {s0 : State} {p : Port} {k : LineIx} {levels : List (Fin 4)} {t : DWord} {s : State} (hs : Kept m s0 s) :
    KeptOut m s0 (execCodewordReceive p k levels t s) := by
  unfold execCodewordReceive
  repeat' first
    | with_reducible assumption | (refine Sub.of hm ?_; decide)
    | (lift_lets; intro x; with_reducible refine (fun (hx : Kept m s0 x) => ?_) ?_; clear_value x) | (lift_lets; intro x)
    | with_reducible apply KeptOut.next | with_reducible apply KeptOut.ite | with_reducible apply Kept.ite | with_reducible apply State.afterLock_kept
    | with_reducible apply State.setLane_kept | with_reducible apply State.takeSlots_kept | with_reducible apply State.inc_kept
    | with_reducible apply State.lockLoss_kept | with_reducible apply State.stat_kept | with_reducible apply State.endSubst_kept
    | (refine Sub.ports hm ?_ (by decide); simp only [Fld.key, F.PORT_LOCK_LOSS_COUNT, F.PORT_CW_CORR_COUNT, F.PORT_CW_UNCORR_COUNT]; omega) | split
    | (clear_value *; split) | (dsimp +zetaDelta only; split) | (intro x; with_reducible refine (fun (hx : Kept m s0 x) => ?_) ?_; clear_value x)
    | intro x

theorem State.stepTxCseq_kept {m : Nat} (hm : Sub 0x1008000000 m) {s0 : State} {s : State} {c : Nat} (hs : Kept m s0 s) :
    Kept m s0 (State.stepTxCseq s c) := by
  unfold State.stepTxCseq
  repeat' first
    | with_reducible assumption | (refine Sub.of hm ?_; decide)
    | (lift_lets; intro x; with_reducible refine (fun (hx : Kept m s0 x) => ?_) ?_; clear_value x) | (lift_lets; intro x) | with_reducible apply Kept.ite
    | with_reducible apply State.setCircLink_kept | with_reducible apply State.setKeySlot_kept
    | (intro x; with_reducible refine (fun (hx : Kept m s0 x) => ?_) ?_; clear_value x) | intro x

theorem State.queueFlit_kept {m : Nat} (hm : Sub 0x8000000 m) {s0 : State} {s : State} {c : Nat} {client : Nat} {body : List Byte} (hs : Kept m s0 s) :
    Kept m s0 (State.queueFlit s c client body) := by
  unfold State.queueFlit
  repeat' first
    | with_reducible assumption | (refine Sub.of hm ?_; decide) | with_reducible apply State.setCircLink_kept

theorem State.queueMessage_kept {m : Nat} (hm : Sub 0x8000000 m) {s0 : State} {s : State} {c : Nat} {first : Nat} {rest : Nat} {bytes : List Byte} (hs : Kept m s0 s) :
    Kept m s0 (State.queueMessage s c first rest bytes) := by
  unfold State.queueMessage
  repeat' first
    | with_reducible assumption | (refine Sub.of hm ?_; decide)
    | (lift_lets; intro x; with_reducible refine (fun (hx : Kept m s0 x) => ?_) ?_; clear_value x) | (lift_lets; intro x) | with_reducible apply Kept.ite
    | with_reducible apply State.queueFlit_kept | (with_reducible refine Kept.foldl ?_ ?_; intro a x hx) | split | (clear_value *; split)
    | (dsimp +zetaDelta only; split) | (intro x; with_reducible refine (fun (hx : Kept m s0 x) => ?_) ?_; clear_value x) | intro x

theorem State.unqueue_kept {m : Nat} (hm : Sub 0x8000000 m) {s0 : State} {s : State} {c : Nat} {tag : Nat} (hs : Kept m s0 s) :
    Kept m s0 (State.unqueue s c tag) := by
  unfold State.unqueue
  repeat' first
    | with_reducible assumption | (refine Sub.of hm ?_; decide) | with_reducible apply State.setCircLink_kept

theorem State.setRxCseq_kept {m : Nat} (hm : Sub 0x1008000000 m) {s0 : State} {s : State} {c : Nat} {n : Nat} (hs : Kept m s0 s) :
    Kept m s0 (State.setRxCseq s c n) := by
  unfold State.setRxCseq
  repeat' first
    | with_reducible assumption | (refine Sub.of hm ?_; decide)
    | (lift_lets; intro x; with_reducible refine (fun (hx : Kept m s0 x) => ?_) ?_; clear_value x) | (lift_lets; intro x) | with_reducible apply Kept.ite
    | with_reducible apply State.setCircLink_kept | with_reducible apply State.setKeySlot_kept
    | (intro x; with_reducible refine (fun (hx : Kept m s0 x) => ?_) ?_; clear_value x) | intro x

theorem State.giveCredit_kept {m : Nat} (hm : Sub 0x8000000 m) {s0 : State} {s : State} {u : Nat} (hs : Kept m s0 s) :
    Kept m s0 (State.giveCredit s u) := by
  unfold State.giveCredit
  repeat' first
    | with_reducible assumption | (refine Sub.of hm ?_; decide)
    | (lift_lets; intro x; with_reducible refine (fun (hx : Kept m s0 x) => ?_) ?_; clear_value x) | (lift_lets; intro x) | with_reducible apply Kept.ite
    | with_reducible apply State.setUnit_kept | (intro x; with_reducible refine (fun (hx : Kept m s0 x) => ?_) ?_; clear_value x) | intro x

theorem State.toInbox_kept {m : Nat} (hm : Sub 0x8000000 m) {s0 : State} {s : State} {c : Nat} {e : Nat} {u : Nat} {f : Flit} (hs : Kept m s0 s) :
    Kept m s0 (State.toInbox s c e u f) := by
  unfold State.toInbox
  repeat' first
    | with_reducible assumption | (refine Sub.of hm ?_; decide)
    | (lift_lets; intro x; with_reducible refine (fun (hx : Kept m s0 x) => ?_) ?_; clear_value x) | (lift_lets; intro x) | with_reducible apply Kept.ite
    | with_reducible apply State.setCircLink_kept | with_reducible apply State.giveCredit_kept
    | (intro x; with_reducible refine (fun (hx : Kept m s0 x) => ?_) ?_; clear_value x) | intro x

theorem State.lostFlit_kept {m : Nat} (hm : Sub 0x8000000 m) {s0 : State} {s : State} {c : Nat} {u : Nat} {client : Nat} (hs : Kept m s0 s) :
    Kept m s0 (State.lostFlit s c u client) := by
  unfold State.lostFlit
  repeat' first
    | with_reducible assumption | (refine Sub.of hm ?_; decide)
    | (lift_lets; intro x; with_reducible refine (fun (hx : Kept m s0 x) => ?_) ?_; clear_value x) | (lift_lets; intro x) | with_reducible apply Kept.ite
    | with_reducible apply Kept.iteFst | with_reducible apply Kept.iteSnd | with_reducible apply State.setCircLink_kept
    | with_reducible apply State.giveCredit_kept | (with_reducible refine Kept.foldl ?_ ?_; intro a x hx)
    | (with_reducible refine Kept.foldlFst ?_ ?_; intro a x hx) | (with_reducible refine Kept.foldlSnd ?_ ?_; intro a x hx)
    | (intro x; with_reducible refine (fun (hx : Kept m s0 x) => ?_) ?_; clear_value x) | intro x

theorem State.deliver_kept {m : Nat} (hm : Sub 0x1008000000 m) {s0 : State} {s : State} {c : Nat} {a0 : Nat} (hs : Kept m s0 s) :
    Kept m s0 (State.deliver s c a0) := by
  induction a0 generalizing s c with
  | zero =>
    unfold State.deliver
    repeat' first
      | with_reducible assumption | (refine Sub.of hm ?_; decide)
      | (lift_lets; intro x; with_reducible refine (fun (hx : Kept m s0 x) => ?_) ?_; clear_value x) | (lift_lets; intro x)
      | with_reducible apply State.setCircLink_kept | with_reducible apply State.toInbox_kept | with_reducible apply State.lostFlit_kept
      | with_reducible apply State.setRxCseq_kept | split | (clear_value *; split) | (dsimp +zetaDelta only; split)
      | (intro x; with_reducible refine (fun (hx : Kept m s0 x) => ?_) ?_; clear_value x) | intro x
  | succ n ih =>
    unfold State.deliver
    repeat' first
      | (with_reducible apply ih) | with_reducible assumption | (refine Sub.of hm ?_; decide)
      | (lift_lets; intro x; with_reducible refine (fun (hx : Kept m s0 x) => ?_) ?_; clear_value x) | (lift_lets; intro x)
      | with_reducible apply State.setCircLink_kept | with_reducible apply State.toInbox_kept | with_reducible apply State.lostFlit_kept
      | with_reducible apply State.setRxCseq_kept | split | (clear_value *; split) | (dsimp +zetaDelta only; split)
      | (intro x; with_reducible refine (fun (hx : Kept m s0 x) => ?_) ?_; clear_value x) | intro x

theorem State.authFail_kept {m : Nat} (hm : Sub 0x20004F0000 m) {s0 : State} {s : State} {p : Nat} (hs : Kept m s0 s) :
    Kept m s0 (State.authFail s p) := by
  unfold State.authFail
  repeat' first
    | with_reducible assumption | (refine Sub.of hm ?_; decide) | with_reducible apply State.fault_kept | with_reducible apply State.cause0_kept
    | with_reducible apply State.inc_kept | (refine Sub.ports hm ?_ (by decide); simp only [Fld.key, F.PORT_AUTH_FAIL_COUNT]; omega)

theorem State.terminateFlit_kept {m : Nat} (hm : Sub 0x30084F0000 m) {s0 : State} {s : State} {u : Nat} {c : Nat} {f : Flit} (hs : Kept m s0 s) :
    Kept m s0 (State.terminateFlit s u c f) := by
  unfold State.terminateFlit
  repeat' first
    | with_reducible assumption | (refine Sub.of hm ?_; decide)
    | (lift_lets; intro x; with_reducible refine (fun (hx : Kept m s0 x) => ?_) ?_; clear_value x) | (lift_lets; intro x) | with_reducible apply Kept.ite
    | with_reducible apply State.setCircLink_kept | with_reducible apply State.authFail_kept | with_reducible apply State.inc_kept
    | with_reducible apply State.deliver_kept | with_reducible apply State.giveCredit_kept
    | (refine Sub.ports hm ?_ (by decide); simp only [Fld.key, F.PORT_REPLAY_REJ_COUNT, F.PORT_AUTH_FAIL_COUNT]; omega) | split | (clear_value *; split)
    | (dsimp +zetaDelta only; split) | (intro x; with_reducible refine (fun (hx : Kept m s0 x) => ?_) ?_; clear_value x) | intro x

theorem State.acceptFlit_kept {m : Nat} (hm : Sub 0xB0084F0000 m) {s0 : State} {s : State} {u : Nat} {f : Flit} (hs : Kept m s0 s) :
    Kept m s0 (State.acceptFlit s u f) := by
  unfold State.acceptFlit
  repeat' first
    | with_reducible assumption | (refine Sub.of hm ?_; decide)
    | (lift_lets; intro x; with_reducible refine (fun (hx : Kept m s0 x) => ?_) ?_; clear_value x) | (lift_lets; intro x) | with_reducible apply Kept.ite
    | with_reducible apply State.setCircLink_kept | with_reducible apply State.statPart_kept | with_reducible apply State.setUnit_kept
    | with_reducible apply State.stat_kept | with_reducible apply State.giveCredit_kept | with_reducible apply State.terminateFlit_kept | split
    | (clear_value *; split) | (dsimp +zetaDelta only; split) | (intro x; with_reducible refine (fun (hx : Kept m s0 x) => ?_) ?_; clear_value x)
    | intro x

theorem State.halfLoss_kept {m : Nat} (hm : Sub 0xA21E4F0088 m) {s0 : State} {s : State} {u : Nat} (hs : Kept m s0 s) :
    Kept m s0 (State.halfLoss s u) := by
  unfold State.halfLoss
  repeat' first
    | with_reducible assumption | (refine Sub.of hm ?_; decide) | with_reducible apply State.lossEvent_kept | with_reducible apply State.inc_kept
    | with_reducible apply State.stat_kept | (refine Sub.ports hm ?_ (by decide); simp only [Fld.key, F.PORT_HALF_LOSS_COUNT]; omega)

theorem State.popSlot_kept {m : Nat} (hm : Sub 0x8000000 m) {s0 : State} {s : State} {u : Nat} (hs : Kept m s0 s) :
    Kept m s0 (State.popSlot s u) := by
  unfold State.popSlot
  repeat' first
    | with_reducible assumption | (refine Sub.of hm ?_; decide) | with_reducible apply State.setUnit_kept

theorem execDataFlitReceive_kept {m : Nat} (hm : Sub 0xB21E4F0088 m) {s0 : State} {p : Port} {j : PairIx} {s : State} (hs : Kept m s0 s) :
    KeptOut m s0 (execDataFlitReceive p j s) := by
  unfold execDataFlitReceive
  repeat' first
    | with_reducible assumption | (refine Sub.of hm ?_; decide)
    | (lift_lets; intro x; with_reducible refine (fun (hx : Kept m s0 x) => ?_) ?_; clear_value x) | (lift_lets; intro x)
    | with_reducible apply KeptOut.next | with_reducible apply KeptOut.ite | with_reducible apply Kept.ite | with_reducible apply State.acceptFlit_kept
    | with_reducible apply State.halfLoss_kept | with_reducible apply State.popSlot_kept | with_reducible apply State.inc_kept
    | with_reducible apply State.wantNak_kept | (refine Sub.ports hm ?_ (by decide); simp only [Fld.key, F.PORT_CRC_ERR_COUNT]; omega) | split
    | (clear_value *; split) | (dsimp +zetaDelta only; split) | (intro x; with_reducible refine (fun (hx : Kept m s0 x) => ?_) ?_; clear_value x)
    | intro x

theorem State.hearSubst_kept {m : Nat} (hm : Sub 0x8000000 m) {s0 : State} {s : State} {p : Nat} {cw : Nat} {line : Nat} {c : Nat} {on : Bool} (hs : Kept m s0 s) :
    Kept m s0 (State.hearSubst s p cw line c on) := by
  unfold State.hearSubst
  repeat' first
    | with_reducible assumption | (refine Sub.of hm ?_; decide)
    | (lift_lets; intro x; with_reducible refine (fun (hx : Kept m s0 x) => ?_) ?_; clear_value x) | (lift_lets; intro x) | with_reducible apply Kept.ite
    | with_reducible apply State.setPlink_kept | split | (clear_value *; split) | (dsimp +zetaDelta only; split)
    | (intro x; with_reducible refine (fun (hx : Kept m s0 x) => ?_) ?_; clear_value x) | intro x

theorem State.controlFlit_kept {m : Nat} (hm : Sub 0xA21E4F0088 m) {s0 : State} {s : State} {u : Nat} {cw : Nat} {c : CtlFlit} (hs : Kept m s0 s) :
    Kept m s0 (State.controlFlit s u cw c) := by
  unfold State.controlFlit
  repeat' first
    | with_reducible assumption | (refine Sub.of hm ?_; decide)
    | (lift_lets; intro x; with_reducible refine (fun (hx : Kept m s0 x) => ?_) ?_; clear_value x) | (lift_lets; intro x) | with_reducible apply Kept.ite
    | with_reducible apply State.hearSubst_kept | with_reducible apply State.setUnit_kept | with_reducible apply State.inc_kept
    | with_reducible apply State.retrain_kept | (refine Sub.ports hm ?_ (by decide); simp only [Fld.key, F.PORT_REPLAYS_COUNT]; omega)
    | (intro x; with_reducible refine (fun (hx : Kept m s0 x) => ?_) ?_; clear_value x) | intro x

theorem execControlFlitReceive_kept {m : Nat} (hm : Sub 0xA21E4F0088 m) {s0 : State} {p : Port} {j : PairIx} {s : State} (hs : Kept m s0 s) :
    KeptOut m s0 (execControlFlitReceive p j s) := by
  unfold execControlFlitReceive
  repeat' first
    | with_reducible assumption | (refine Sub.of hm ?_; decide)
    | (lift_lets; intro x; with_reducible refine (fun (hx : Kept m s0 x) => ?_) ?_; clear_value x) | (lift_lets; intro x)
    | with_reducible apply KeptOut.next | with_reducible apply KeptOut.ite | with_reducible apply Kept.ite | with_reducible apply State.controlFlit_kept
    | with_reducible apply State.halfLoss_kept | with_reducible apply State.popSlot_kept | with_reducible apply State.inc_kept
    | (refine Sub.ports hm ?_ (by decide); simp only [Fld.key, F.PORT_CRC_ERR_COUNT]; omega) | split | (clear_value *; split)
    | (dsimp +zetaDelta only; split) | (intro x; with_reducible refine (fun (hx : Kept m s0 x) => ?_) ?_; clear_value x) | intro x

theorem State.measureEye_kept {m : Nat} (hm : Sub 0x100000 m) {s0 : State} {s : State} (hs : Kept m s0 s) :
    Kept m s0 (State.measureEye s).2 := by
  unfold State.measureEye
  repeat' first
    | with_reducible assumption | (refine Sub.of hm ?_; decide)
    | (lift_lets; intro x; with_reducible refine (fun (hx : Kept m s0 x) => ?_) ?_; clear_value x) | (lift_lets; intro x)
    | with_reducible apply State.free_kept | with_reducible refine Kept.ofSnd (by assumption) ?_ | split | (clear_value *; split)
    | (dsimp +zetaDelta only; split) | (intro x; with_reducible refine (fun (hx : Kept m s0 x) => ?_) ?_; clear_value x) | intro x

theorem State.announce_kept {m : Nat} (hm : Sub 0x8100000 m) {s0 : State} {s : State} {u : Nat} (hs : Kept m s0 s) :
    Kept m s0 (State.announce s u).2 := by
  unfold State.announce
  repeat' first
    | with_reducible assumption | (refine Sub.of hm ?_; decide)
    | (lift_lets; intro x; with_reducible refine (fun (hx : Kept m s0 x) => ?_) ?_; clear_value x) | (lift_lets; intro x) | with_reducible apply Kept.ite
    | with_reducible apply Kept.iteSnd | with_reducible apply State.setPlink_kept | with_reducible apply State.free_kept
    | with_reducible refine Kept.ofSnd (by assumption) ?_ | split | (clear_value *; split) | (dsimp +zetaDelta only; split)
    | (intro x; with_reducible refine (fun (hx : Kept m s0 x) => ?_) ?_; clear_value x) | intro x

theorem execControlFlitSend_kept {m : Nat} (hm : Sub 0x8180000 m) {s0 : State} {p : Port} {j : PairIx} {low : BitVec 2} {s : State} (hs : Kept m s0 s) :
    KeptOut m s0 (execControlFlitSend p j low s) := by
  unfold execControlFlitSend
  repeat' first
    | with_reducible assumption | (refine Sub.of hm ?_; decide)
    | (lift_lets; intro x; with_reducible refine (fun (hx : Kept m s0 x) => ?_) ?_; clear_value x) | (lift_lets; intro x)
    | with_reducible apply KeptOut.next | with_reducible apply KeptOut.ite | with_reducible apply Kept.ite | with_reducible apply Kept.iteSnd
    | with_reducible apply State.announce_kept | with_reducible apply State.measureEye_kept | with_reducible apply State.openSlot_kept
    | with_reducible apply State.setUnit_kept | with_reducible apply State.send_kept | with_reducible apply State.fillSlot_kept
    | with_reducible refine Kept.ofSnd (by assumption) ?_ | split | (clear_value *; split) | (dsimp +zetaDelta only; split)
    | (intro x; with_reducible refine (fun (hx : Kept m s0 x) => ?_) ?_; clear_value x) | intro x

theorem State.emitFlit_kept {m : Nat} (hm : Sub 0x8008040000 m) {s0 : State} {s : State} {u : Nat} {owner : Nat} {f : Flit} (hs : Kept m s0 s) :
    Kept m s0 (State.emitFlit s u owner f).1 := by
  unfold State.emitFlit
  repeat' first
    | with_reducible assumption | (refine Sub.of hm ?_; decide)
    | (lift_lets; intro x; with_reducible refine (fun (hx : Kept m s0 x) => ?_) ?_; clear_value x) | (lift_lets; intro x)
    | with_reducible apply State.statPart_kept | with_reducible apply State.setUnit_kept | with_reducible apply State.stat_kept
    | (intro x; with_reducible refine (fun (hx : Kept m s0 x) => ?_) ?_; clear_value x) | intro x

theorem State.noteSent_kept {m : Nat} (hm : Sub 0x200000000 m) {s0 : State} {s : State} {c : Nat} {client : Nat} {cseq : Nat} {body : List Byte} (hs : Kept m s0 s) :
    Kept m s0 (State.noteSent s c client cseq body) := by
  unfold State.noteSent
  repeat' first
    | with_reducible assumption | (refine Sub.of hm ?_; decide)
    | (lift_lets; intro x; with_reducible refine (fun (hx : Kept m s0 x) => ?_) ?_; clear_value x) | (lift_lets; intro x) | with_reducible apply Kept.ite
    | with_reducible exact Kept.updRme (by assumption) (hm.of (by decide))
    | (intro x; with_reducible refine (fun (hx : Kept m s0 x) => ?_) ?_; clear_value x) | intro x
    | with_reducible refine Kept.updRme ?_ (hm.of (by decide))

theorem State.nextRelay_kept {m : Nat} (hm : Sub 0x8008040000 m) {s0 s t : State} {u c : Nat} {f : Flit}
    (e : State.nextRelay s u c = some (t, f)) (hs : Kept m s0 s) : Kept m s0 t := by
  unfold State.nextRelay at e
  obtain ⟨r, -, hr⟩ := Option.map_eq_some_iff.1 e
  dsimp only at hr
  refine Kept.ofFst hr (State.emitFlit_kept (hm.of (by decide)) ?_)
  split
  · exact State.giveCredit_kept (hm.of (by decide)) (State.setCircLink_kept (hm.of (by decide)) hs)
  · exact State.setCircLink_kept (hm.of (by decide)) hs

theorem State.nextOwn_kept {m : Nat} (hm : Sub 0x9208040000 m) {s0 s t : State} {u c : Nat} {f : Flit}
    (e : State.nextOwn s u c = some (t, f)) (hs : Kept m s0 s) : Kept m s0 t := by
  unfold State.nextOwn at e
  dsimp only at e
  split at e
  · split at e
    · cases e
    · exact Kept.ofFst (Option.some.inj e) (State.emitFlit_kept (hm.of (by decide)) (State.setCircLink_kept (hm.of (by decide)) hs))
  · cases e
  · split at e
    · cases e
    · cases e
      exact State.noteSent_kept (hm.of (by decide)) (State.emitFlit_kept (hm.of (by decide))
        (State.stepTxCseq_kept (hm.of (by decide)) (State.setCircLink_kept (hm.of (by decide)) hs)))

theorem State.nextFlit_kept {m : Nat} (hm : Sub 0x9208040000 m) {s0 s t : State} {u : Nat} {f : Flit}
    (e : State.nextFlit s u = some (t, f)) (hs : Kept m s0 s) : Kept m s0 t := by
  unfold State.nextFlit at e
  dsimp only at e
  split at e
  · cases e
  · split at e
    · split at e
      · cases e
      · cases e; exact State.stat_kept (hm.of (by decide)) (State.setUnit_kept (hm.of (by decide)) hs)
    · cases e
    · split at e
      · cases e
      · split at e
        · exact State.nextRelay_kept (hm.of (by decide)) e hs
        · exact State.nextOwn_kept (hm.of (by decide)) e hs

theorem execDataFlitSend_kept {m : Nat} (hm : Sub 0x92080C0000 m) {s0 : State} {p : Port} {j : PairIx} {low : BitVec 2} {s : State} (hs : Kept m s0 s) :
    KeptOut m s0 (execDataFlitSend p j low s) := by
  unfold execDataFlitSend
  repeat' first
    | with_reducible assumption | (refine Sub.of hm ?_; decide)
    | (lift_lets; intro x; with_reducible refine (fun (hx : Kept m s0 x) => ?_) ?_; clear_value x) | (lift_lets; intro x)
    | with_reducible apply KeptOut.next | with_reducible apply KeptOut.ite | with_reducible apply Kept.ite | with_reducible apply State.openSlot_kept
    | with_reducible apply State.send_kept | with_reducible refine State.nextFlit_kept (hm.of (by decide)) (by assumption) ?_
    | with_reducible apply State.fillSlot_kept | split | (clear_value *; split) | (dsimp +zetaDelta only; split)
    | (intro x; with_reducible refine (fun (hx : Kept m s0 x) => ?_) ?_; clear_value x) | intro x

theorem execNakRepeat_kept {m : Nat} (hm : Sub 0x8000000 m) {s0 : State} {p : Port} {j : PairIx} {s : State} (hs : Kept m s0 s) :
    KeptOut m s0 (execNakRepeat p j s) := by
  unfold execNakRepeat
  repeat' first
    | with_reducible assumption | (refine Sub.of hm ?_; decide)
    | (lift_lets; intro x; with_reducible refine (fun (hx : Kept m s0 x) => ?_) ?_; clear_value x) | (lift_lets; intro x)
    | with_reducible apply KeptOut.next | with_reducible apply KeptOut.ite | with_reducible apply Kept.ite | with_reducible apply State.wantNak_kept
    | (intro x; with_reducible refine (fun (hx : Kept m s0 x) => ?_) ?_; clear_value x) | intro x

theorem execSpareRetry_kept {m : Nat} (hm : Sub 0xA21E4F0088 m) {s0 : State} {p : Port} {s : State} (hs : Kept m s0 s) :
    KeptOut m s0 (execSpareRetry p s) := by
  unfold execSpareRetry
  repeat' first
    | with_reducible assumption | (refine Sub.of hm ?_; decide)
    | (lift_lets; intro x; with_reducible refine (fun (hx : Kept m s0 x) => ?_) ?_; clear_value x) | (lift_lets; intro x)
    | with_reducible apply KeptOut.next | with_reducible apply KeptOut.ite | with_reducible apply Kept.ite | with_reducible apply State.train_kept
    | (intro x; with_reducible refine (fun (hx : Kept m s0 x) => ?_) ?_; clear_value x) | intro x

theorem execCdrLock_kept {m : Nat} (hm : Sub 0x80A0000 m) {s0 : State} {p : Port} {u : UnitIx} {s : State} (hs : Kept m s0 s) :
    KeptOut m s0 (execCdrLock p u s) := by
  unfold execCdrLock
  repeat' first
    | with_reducible assumption | (refine Sub.of hm ?_; decide)
    | (lift_lets; intro x; with_reducible refine (fun (hx : Kept m s0 x) => ?_) ?_; clear_value x) | (lift_lets; intro x)
    | with_reducible apply KeptOut.next | with_reducible apply KeptOut.ite | with_reducible apply Kept.ite | with_reducible apply State.setLane_kept
    | with_reducible apply State.trainTo_kept | (with_reducible refine Kept.foldl ?_ ?_; intro a x hx)
    | (intro x; with_reducible refine (fun (hx : Kept m s0 x) => ?_) ?_; clear_value x) | intro x

theorem State.trained_kept {m : Nat} (hm : Sub 0xA01E4F0088 m) {s0 : State} {s : State} {u : Nat} {b : TrainBurst} (hs : Kept m s0 s) :
    Kept m s0 (State.trained s u b) := by
  unfold State.trained
  repeat' first
    | with_reducible assumption | (refine Sub.of hm ?_; decide)
    | (lift_lets; intro x; with_reducible refine (fun (hx : Kept m s0 x) => ?_) ?_; clear_value x) | (lift_lets; intro x) | with_reducible apply Kept.ite
    | with_reducible apply State.setChanges_kept | with_reducible apply State.setBit_kept | with_reducible apply State.setUnit_kept
    | with_reducible apply State.stat_kept | with_reducible apply State.trainTo_kept | with_reducible apply State.csqSettle_kept
    | (refine Sub.ports hm ?_ (by decide); simp only [Fld.key, F.PORT_LNK_STAT_PAIR_FAILED]; omega)
    | (intro x; with_reducible refine (fun (hx : Kept m s0 x) => ?_) ?_; clear_value x) | intro x

theorem State.trainStep_kept {m : Nat} (hm : Sub 0xA21E4F0088 m) {s0 : State} {s : State} {n : Nat} {t : DWord} {lanes : List TrainBurst} {b : TrainBurst} (hs : Kept m s0 s) :
    Kept m s0 (State.trainStep s n t lanes b) := by
  unfold State.trainStep
  repeat' first
    | with_reducible assumption | (refine Sub.of hm ?_; decide)
    | (lift_lets; intro x; with_reducible refine (fun (hx : Kept m s0 x) => ?_) ?_; clear_value x) | (lift_lets; intro x) | with_reducible apply Kept.ite
    | with_reducible apply State.fault_kept | with_reducible apply State.sendTrain_kept | with_reducible apply State.trained_kept
    | with_reducible apply State.wr_kept | with_reducible apply State.cause0_kept | with_reducible apply State.setUnit_kept
    | with_reducible apply State.trainTo_kept | with_reducible apply State.trainFailed_kept
    | (refine Sub.ports hm ?_ (by decide); simp only [Fld.key, F.PORT_LNK_STAT_RTT, F.PORT_PEER_SEEN_RESULT, F.PORT_PEER_SEEN_PORT, F.PORT_PEER_SEEN_NODE]; omega)
    | (intro x; with_reducible refine (fun (hx : Kept m s0 x) => ?_) ?_; clear_value x) | intro x

theorem execTrainBurstReceive_kept {m : Nat} (hm : Sub 0xA21E4F0088 m) {s0 : State} {p : Port} {u : UnitIx} {s : State} (hs : Kept m s0 s) :
    KeptOut m s0 (execTrainBurstReceive p u s) := by
  unfold execTrainBurstReceive
  repeat' first
    | with_reducible assumption | (refine Sub.of hm ?_; decide)
    | (lift_lets; intro x; with_reducible refine (fun (hx : Kept m s0 x) => ?_) ?_; clear_value x) | (lift_lets; intro x)
    | with_reducible apply KeptOut.next | with_reducible apply KeptOut.ite | with_reducible apply Kept.ite | with_reducible apply State.trainStep_kept
    | with_reducible apply State.popSlot_kept | split | (clear_value *; split) | (dsimp +zetaDelta only; split)
    | (intro x; with_reducible refine (fun (hx : Kept m s0 x) => ?_) ?_; clear_value x) | intro x

theorem execTrainTimeout_kept {m : Nat} (hm : Sub 0xA21E4F0088 m) {s0 : State} {p : Port} {u : UnitIx} {s : State} (hs : Kept m s0 s) :
    KeptOut m s0 (execTrainTimeout p u s) := by
  unfold execTrainTimeout
  repeat' first
    | with_reducible assumption | (refine Sub.of hm ?_; decide)
    | (lift_lets; intro x; with_reducible refine (fun (hx : Kept m s0 x) => ?_) ?_; clear_value x) | (lift_lets; intro x)
    | with_reducible apply KeptOut.next | with_reducible apply KeptOut.ite | with_reducible apply Kept.ite | with_reducible apply State.trainFailed_kept
    | (intro x; with_reducible refine (fun (hx : Kept m s0 x) => ?_) ?_; clear_value x) | intro x

theorem State.evalTime_kept {m : Nat} (hm : Sub 0x2 m) {s0 : State} {s : State} (hs : Kept m s0 s) :
    Kept m s0 (State.evalTime s) := by
  unfold State.evalTime
  repeat' first
    | with_reducible assumption | (refine Sub.of hm ?_; decide)
    | (lift_lets; intro x; with_reducible refine (fun (hx : Kept m s0 x) => ?_) ?_; clear_value x) | (lift_lets; intro x) | with_reducible apply Kept.ite
    | with_reducible apply State.wr_kept | (intro x; with_reducible refine (fun (hx : Kept m s0 x) => ?_) ?_; clear_value x) | intro x

theorem State.rootStratum_kept {m : Nat} (hm : Sub 0x40 m) {s0 : State} {s : State} (hs : Kept m s0 s) :
    Kept m s0 (State.rootStratum s) := by
  unfold State.rootStratum
  repeat' first
    | with_reducible assumption | (refine Sub.of hm ?_; decide) | with_reducible apply State.wr_kept

theorem State.timeCtrlWritten_kept {m : Nat} (hm : Sub 0x200042 m) {s0 : State} {s : State} (hs : Kept m s0 s) :
    Kept m s0 (State.timeCtrlWritten s) := by
  unfold State.timeCtrlWritten
  repeat' first
    | with_reducible assumption | (refine Sub.of hm ?_; decide)
    | (lift_lets; intro x; with_reducible refine (fun (hx : Kept m s0 x) => ?_) ?_; clear_value x) | (lift_lets; intro x) | with_reducible apply Kept.ite
    | with_reducible apply State.evalTime_kept | with_reducible apply State.rootStratum_kept | with_reducible apply State.wr_kept
    | with_reducible exact Kept.updTime (by assumption) (hm.of (by decide))
    | (intro x; with_reducible refine (fun (hx : Kept m s0 x) => ?_) ?_; clear_value x) | intro x
    | with_reducible refine Kept.updTime ?_ (hm.of (by decide))

theorem State.stepTime_kept {m : Nat} (hm : Sub 0x8000240000 m) {s0 : State} {s : State} {t : DWord} (hs : Kept m s0 s) :
    Kept m s0 (State.stepTime s t) := by
  unfold State.stepTime
  repeat' first
    | with_reducible assumption | (refine Sub.of hm ?_; decide)
    | (lift_lets; intro x; with_reducible refine (fun (hx : Kept m s0 x) => ?_) ?_; clear_value x) | (lift_lets; intro x) | with_reducible apply Kept.ite
    | with_reducible apply State.setBit_kept | with_reducible exact Kept.updTime (by assumption) (hm.of (by decide))
    | with_reducible exact Kept.updSta (by assumption) (hm.of (by decide))
    | with_reducible (refine Kept.upd (by assumption) (by first | exact .inr rfl | exact .inl ⟨hm.of (by decide), List.prefix_append _ _⟩) (by first | exact .inr rfl | exact .inl (hm.of (by decide))) (by first | exact .inr rfl | exact .inl (hm.of (by decide))) (by first | exact .inr rfl | exact .inl (hm.of (by decide))) (by first | exact .inr rfl | exact .inl (hm.of (by decide))) (by first | exact .inr rfl | exact .inl (hm.of (by decide))) (by first | exact .inr rfl | exact .inl (hm.of (by decide))) (by first | exact .inr rfl | exact .inl (hm.of (by decide))) (by first | exact .inr rfl | exact .inl (hm.of (by decide))) (by first | exact .inr rfl | exact .inl (hm.of (by decide))) (by first | exact .inr rfl | exact .inl (hm.of (by decide))) rfl (by first | exact .inr rfl | exact .inl (hm.of (by decide))) (by first | exact .inr rfl | exact .inl (hm.of (by decide))) (by first | exact .inr rfl | exact .inl (hm.of (by decide))) (by first | exact .inr rfl | exact .inl (hm.of (by decide))) (by first | exact .inr rfl | exact .inl (hm.of (by decide))) (by first | exact .inr rfl | exact .inl (hm.of (by decide))) (by first | exact .inr rfl | exact .inl (hm.of (by decide))) (by first | exact .inr rfl | exact .inl (hm.of (by decide))) (by first | exact .inr rfl | exact .inl (hm.of (by decide))) (by first | exact .inr rfl | exact .inl (hm.of (by decide))) (by first | exact .inr rfl | exact .inl (hm.of (by decide))) )
    | (intro x; with_reducible refine (fun (hx : Kept m s0 x) => ?_) ?_; clear_value x) | intro x
    | with_reducible refine Kept.updTime ?_ (hm.of (by decide)) | with_reducible refine Kept.updSta ?_ (hm.of (by decide))
    | with_reducible (refine Kept.upd ?_ (by first | exact .inr rfl | exact .inl ⟨hm.of (by decide), List.prefix_append _ _⟩) (by first | exact .inr rfl | exact .inl (hm.of (by decide))) (by first | exact .inr rfl | exact .inl (hm.of (by decide))) (by first | exact .inr rfl | exact .inl (hm.of (by decide))) (by first | exact .inr rfl | exact .inl (hm.of (by decide))) (by first | exact .inr rfl | exact .inl (hm.of (by decide))) (by first | exact .inr rfl | exact .inl (hm.of (by decide))) (by first | exact .inr rfl | exact .inl (hm.of (by decide))) (by first | exact .inr rfl | exact .inl (hm.of (by decide))) (by first | exact .inr rfl | exact .inl (hm.of (by decide))) (by first | exact .inr rfl | exact .inl (hm.of (by decide))) rfl (by first | exact .inr rfl | exact .inl (hm.of (by decide))) (by first | exact .inr rfl | exact .inl (hm.of (by decide))) (by first | exact .inr rfl | exact .inl (hm.of (by decide))) (by first | exact .inr rfl | exact .inl (hm.of (by decide))) (by first | exact .inr rfl | exact .inl (hm.of (by decide))) (by first | exact .inr rfl | exact .inl (hm.of (by decide))) (by first | exact .inr rfl | exact .inl (hm.of (by decide))) (by first | exact .inr rfl | exact .inl (hm.of (by decide))) (by first | exact .inr rfl | exact .inl (hm.of (by decide))) (by first | exact .inr rfl | exact .inl (hm.of (by decide))) (by first | exact .inr rfl | exact .inl (hm.of (by decide))) )

theorem State.setBeacon_kept {m : Nat} (hm : Sub 0x8000000 m) {s0 : State} {s : State} {p : Nat} {x : BeaconSt} (hs : Kept m s0 s) :
    Kept m s0 (State.setBeacon s p x) := by
  unfold State.setBeacon
  repeat' first
    | with_reducible assumption | (refine Sub.of hm ?_; decide) | with_reducible exact Kept.updLnk (by assumption) (hm.of (by decide))
    | with_reducible refine Kept.updLnk ?_ (hm.of (by decide))

theorem execBeaconSend_kept {m : Nat} (hm : Sub 0x8080000 m) {s0 : State} {p : Port} {s : State} (hs : Kept m s0 s) :
    KeptOut m s0 (execBeaconSend p s) := by
  unfold execBeaconSend
  repeat' first
    | with_reducible assumption | (refine Sub.of hm ?_; decide)
    | (lift_lets; intro x; with_reducible refine (fun (hx : Kept m s0 x) => ?_) ?_; clear_value x) | (lift_lets; intro x)
    | with_reducible apply KeptOut.next | with_reducible apply KeptOut.ite | with_reducible apply Kept.ite | with_reducible apply State.placeSpare_kept
    | with_reducible apply State.setBeacon_kept | with_reducible apply State.send_kept
    | (intro x; with_reducible refine (fun (hx : Kept m s0 x) => ?_) ?_; clear_value x) | intro x

theorem State.applyTheta_kept {m : Nat} (hm : Sub 0x80007D0042 m) {s0 : State} {s : State} {d : Int} {b : Beacon} (hs : Kept m s0 s) :
    Kept m s0 (State.applyTheta s d b) := by
  unfold State.applyTheta
  repeat' first
    | with_reducible assumption | (refine Sub.of hm ?_; decide)
    | (lift_lets; intro x; with_reducible refine (fun (hx : Kept m s0 x) => ?_) ?_; clear_value x) | (lift_lets; intro x) | with_reducible apply Kept.ite
    | with_reducible apply Kept.iteFst | with_reducible apply Kept.iteSnd | with_reducible apply State.evalTime_kept | with_reducible apply State.wr_kept
    | with_reducible apply State.free_kept | with_reducible apply State.cause0_kept | with_reducible apply State.inc_kept
    | with_reducible apply State.stepTime_kept | with_reducible apply State.wrs_nil_kept | with_reducible apply State.wrs_cons_kept
    | with_reducible apply State.wrs_ite_kept | with_reducible exact Kept.updTime (by assumption) (hm.of (by decide))
    | with_reducible refine Kept.ofSnd (by assumption) ?_ | split | (clear_value *; split) | (dsimp +zetaDelta only; split)
    | (intro x; with_reducible refine (fun (hx : Kept m s0 x) => ?_) ?_; clear_value x) | intro x
    | with_reducible refine Kept.updTime ?_ (hm.of (by decide))

theorem State.takeBurst_kept {m : Nat} (hm : Sub 0x8000000 m) {s0 s t : State} {p typ : Nat} {l : List Byte} {d : DWord}
    (e : State.takeBurst s p typ = some (l, d, t)) (hs : Kept m s0 s) : Kept m s0 t := by
  unfold State.takeBurst at e
  dsimp only at e
  split at e
  · split at e
    · cases e; exact State.setUnit_kept (hm.of (by decide)) hs
    · cases e
  · cases e

theorem execBeaconReceive_kept {m : Nat} (hm : Sub 0x80087D0042 m) {s0 : State} {p : Port} {s : State} (hs : Kept m s0 s) :
    KeptOut m s0 (execBeaconReceive p s) := by
  unfold execBeaconReceive
  repeat' first
    | with_reducible assumption | (refine Sub.of hm ?_; decide)
    | (lift_lets; intro x; with_reducible refine (fun (hx : Kept m s0 x) => ?_) ?_; clear_value x) | (lift_lets; intro x)
    | with_reducible apply KeptOut.next | with_reducible apply KeptOut.ite | with_reducible apply Kept.ite | with_reducible apply State.applyTheta_kept
    | with_reducible apply State.setBeacon_kept | with_reducible refine State.takeBurst_kept (hm.of (by decide)) (by assumption) ?_ | split
    | (clear_value *; split) | (dsimp +zetaDelta only; split) | (intro x; with_reducible refine (fun (hx : Kept m s0 x) => ?_) ?_; clear_value x)
    | intro x

theorem execParentLoss_kept {m : Nat} (hm : Sub 0x86D0042 m) {s0 : State} {s : State} (hs : Kept m s0 s) :
    KeptOut m s0 (execParentLoss s) := by
  unfold execParentLoss
  repeat' first
    | with_reducible assumption | (refine Sub.of hm ?_; decide)
    | (lift_lets; intro x; with_reducible refine (fun (hx : Kept m s0 x) => ?_) ?_; clear_value x) | (lift_lets; intro x)
    | with_reducible apply KeptOut.next | with_reducible apply KeptOut.ite | with_reducible apply Kept.ite | with_reducible apply State.evalTime_kept
    | with_reducible apply State.wr_kept | with_reducible apply State.cause0_kept | with_reducible apply State.setBeacon_kept
    | with_reducible exact Kept.updTime (by assumption) (hm.of (by decide))
    | (intro x; with_reducible refine (fun (hx : Kept m s0 x) => ?_) ?_; clear_value x) | intro x
    | with_reducible refine Kept.updTime ?_ (hm.of (by decide))

theorem State.wakeTxStart_kept {m : Nat} (hm : Sub 0xA0000 m) {s0 : State} {s : State} {p : Port} (hs : Kept m s0 s) :
    KeptOpt m s0 (State.wakeTxStart s p) := by
  unfold State.wakeTxStart
  repeat' first
    | with_reducible assumption | (refine Sub.of hm ?_; decide) | with_reducible apply KeptOpt.none | with_reducible apply KeptOpt.some
    | with_reducible apply KeptOpt.ite | with_reducible apply Kept.ite | with_reducible apply State.wr_kept | with_reducible apply State.send_kept
    | (refine Sub.ports hm ?_ (by decide); simp only [Fld.key, F.PORT_LNK_CFG_WAKE_TX]; omega)

theorem execWakeTxEnd_kept {m : Nat} (hm : Sub 0x20000 m) {s0 : State} {p : Port} {s : State} (hs : Kept m s0 s) :
    KeptOut m s0 (execWakeTxEnd p s) := by
  unfold execWakeTxEnd
  repeat' first
    | with_reducible assumption | (refine Sub.of hm ?_; decide) | with_reducible apply KeptOut.next | with_reducible apply State.wr_kept
    | (refine Sub.ports hm ?_ (by decide); simp only [Fld.key, F.PORT_LNK_CFG_WAKE_TX]; omega)

end Sys2Proof.Machine
end

