-- ==== Sys2Proof/Laws/KeptSec.lean ====
section
/-! SUPPORT. What every operation of Machine/Sec.lean keeps, and which parts of the state it may change. -/

set_option linter.unusedTactic false
set_option linter.unreachableTactic false
set_option linter.unusedVariables false
set_option linter.unusedSimpArgs false

namespace Sys2Proof.Machine

theorem State.keyBlob_kept {m : Nat} (hm : Sub 0xB0725D0288 m) {s0 : State} {s : State} {c : Cmd} {d : HostData} (hs : Kept m s0 s) :
    Kept m s0 (State.keyBlob s c d) := by
  unfold State.keyBlob
  repeat' first
    | with_reducible assumption | (refine Sub.of hm ?_; decide)
    | (lift_lets; intro x; with_reducible refine (fun (hx : Kept m s0 x) => ?_) ?_; clear_value x) | (lift_lets; intro x) | with_reducible apply Kept.ite
    | with_reducible apply State.complete_kept | with_reducible apply State.sideGroup_kept | with_reducible apply State.cause0_kept
    | with_reducible apply State.completeDurable_kept | with_reducible apply State.setKeySlot_kept | split | (clear_value *; split)
    | (dsimp +zetaDelta only; split) | (intro x; with_reducible refine (fun (hx : Kept m s0 x) => ?_) ?_; clear_value x) | intro x

theorem execKeyLoad_kept {m : Nat} (hm : Sub 0x80024C0008 m) {s0 : State} {f : Fn} {e : Block64} {s : State} (hs : Kept m s0 s) :
    KeptOut m s0 (execKeyLoad f e s) := by
  unfold execKeyLoad
  repeat' first
    | with_reducible assumption | (refine Sub.of hm ?_; decide) | with_reducible refine fun (y0 : Cmd) (s : State) (h : Kept m s0 s) => ?_
    | (lift_lets; intro x; with_reducible refine (fun (hx : Kept m s0 x) => ?_) ?_; clear_value x) | (lift_lets; intro x)
    | with_reducible apply KeptOut.next | with_reducible apply KeptOut.ite | with_reducible apply Kept.ite | with_reducible apply State.command_kept
    | with_reducible apply State.complete_kept | with_reducible apply State.hostAcc_kept | with_reducible apply State.setWait_kept
    | (intro x; with_reducible refine (fun (hx : Kept m s0 x) => ?_) ?_; clear_value x) | intro x

theorem State.dropKeyed_kept {m : Nat} (hm : Sub 0x8000000 m) {s0 : State} {s : State} {c : Nat} (hs : Kept m s0 s) :
    Kept m s0 (State.dropKeyed s c) := by
  unfold State.dropKeyed
  repeat' first
    | with_reducible assumption | (refine Sub.of hm ?_; decide)
    | (lift_lets; intro x; with_reducible refine (fun (hx : Kept m s0 x) => ?_) ?_; clear_value x) | (lift_lets; intro x)
    | with_reducible apply State.setCircLink_kept | with_reducible exact Kept.updLnk (by assumption) (hm.of (by decide))
    | (intro x; with_reducible refine (fun (hx : Kept m s0 x) => ?_) ?_; clear_value x) | intro x
    | with_reducible refine Kept.updLnk ?_ (hm.of (by decide))

theorem State.keyErased_kept {m : Nat} (hm : Sub 0xA21E4F0088 m) {s0 : State} {s : State} {p : Nat → Bool} (hs : Kept m s0 s) :
    Kept m s0 (State.keyErased s p) := by
  unfold State.keyErased
  repeat' first
    | with_reducible assumption | (refine Sub.of hm ?_; decide)
    | (lift_lets; intro x; with_reducible refine (fun (hx : Kept m s0 x) => ?_) ?_; clear_value x) | (lift_lets; intro x)
    | with_reducible apply State.dropKeyed_kept | with_reducible apply State.circuitDown_kept | with_reducible apply State.failChanges_kept
    | with_reducible apply State.csqSettle_kept | (with_reducible refine Kept.foldl ?_ ?_; intro a x hx) | split | (clear_value *; split)
    | (dsimp +zetaDelta only; split) | (intro x; with_reducible refine (fun (hx : Kept m s0 x) => ?_) ?_; clear_value x) | intro x

theorem execKeyClear_kept {m : Nat} (hm : Sub 0xB27E5F0288 m) {s0 : State} {f : Fn} {e : Block64} {s : State} (hs : Kept m s0 s) :
    KeptOut m s0 (execKeyClear f e s) := by
  unfold execKeyClear
  repeat' first
    | with_reducible assumption | (refine Sub.of hm ?_; decide) | with_reducible refine fun (y0 : Cmd) (s : State) (h : Kept m s0 s) => ?_
    | (lift_lets; intro x; with_reducible refine (fun (hx : Kept m s0 x) => ?_) ?_; clear_value x) | (lift_lets; intro x)
    | with_reducible apply KeptOut.next | with_reducible apply KeptOut.ite | with_reducible apply Kept.ite | with_reducible apply State.command_kept
    | with_reducible apply State.complete_kept | with_reducible apply State.sideGroup_kept | with_reducible apply State.keyErased_kept
    | with_reducible apply State.completeDurable_kept | with_reducible apply State.setKeySlot_kept
    | (intro x; with_reducible refine (fun (hx : Kept m s0 x) => ?_) ?_; clear_value x) | intro x

theorem State.restoreKey_kept {m : Nat} (hm : Sub 0x1000000000 m) {s0 : State} {s : State} {n : Nat} {b : Block64} (hs : Kept m s0 s) :
    Kept m s0 (State.restoreKey s n b) := by
  unfold State.restoreKey
  repeat' first
    | with_reducible assumption | (refine Sub.of hm ?_; decide) | with_reducible apply State.setKeySlot_kept

theorem State.takeoverKey_kept {m : Nat} (hm : Sub 0x1000002000 m) {s0 : State} {s : State} {n : Nat} {b : Block64} (hs : Kept m s0 s) :
    Kept m s0 (State.takeoverKey s n b) := by
  unfold State.takeoverKey
  repeat' first
    | with_reducible assumption | (refine Sub.of hm ?_; decide) | with_reducible apply Kept.ite | with_reducible apply State.inc_kept
    | with_reducible apply State.restoreKey_kept

theorem State.secFence_kept {m : Nat} (hm : Sub 0x22104D2000 m) {s0 : State} {s : State} (hs : Kept m s0 s) :
    Kept m s0 (State.secFence s) := by
  unfold State.secFence
  repeat' first
    | with_reducible assumption | (refine Sub.of hm ?_; decide)
    | (lift_lets; intro x; with_reducible refine (fun (hx : Kept m s0 x) => ?_) ?_; clear_value x) | (lift_lets; intro x) | with_reducible apply Kept.ite
    | with_reducible apply State.wr_kept | with_reducible apply State.circuitDown_kept | (with_reducible refine Kept.foldl ?_ ?_; intro a x hx)
    | (intro x; with_reducible refine (fun (hx : Kept m s0 x) => ?_) ?_; clear_value x) | intro x

theorem State.eraseStart_kept {m : Nat} (hm : Sub 0x80024C2008 m) {s0 : State} {s : State} (hs : Kept m s0 s) :
    Kept m s0 (State.eraseStart s) := by
  unfold State.eraseStart
  repeat' first
    | with_reducible assumption | (refine Sub.of hm ?_; decide)
    | (lift_lets; intro x; with_reducible refine (fun (hx : Kept m s0 x) => ?_) ?_; clear_value x) | (lift_lets; intro x) | with_reducible apply Kept.ite
    | with_reducible apply State.complete_kept | with_reducible apply State.wr_kept | (with_reducible refine Kept.foldl ?_ ?_; intro a x hx)
    | (intro x; with_reducible refine (fun (hx : Kept m s0 x) => ?_) ?_; clear_value x) | intro x

theorem State.tamper_kept {m : Nat} (hm : Sub 0xE2124DA008 m) {s0 : State} {s : State} {src : Fin 5} (hs : Kept m s0 s) :
    Kept m s0 (State.tamper s src) := by
  unfold State.tamper
  repeat' first
    | with_reducible assumption | (refine Sub.of hm ?_; decide)
    | (lift_lets; intro x; with_reducible refine (fun (hx : Kept m s0 x) => ?_) ?_; clear_value x) | (lift_lets; intro x) | with_reducible apply Kept.ite
    | with_reducible apply State.fault_kept | with_reducible apply State.setBit_kept | with_reducible apply State.secFence_kept
    | with_reducible apply State.cause0_kept | with_reducible apply State.inc_kept | with_reducible apply State.event_kept
    | with_reducible apply State.eraseStart_kept | (intro x; with_reducible refine (fun (hx : Kept m s0 x) => ?_) ?_; clear_value x) | intro x

theorem execTamperLatch_kept {m : Nat} (hm : Sub 0x1E2124DA008 m) {s0 : State} {src : Fin 5} {s : State} (hs : Kept m s0 s) :
    KeptOut m s0 (execTamperLatch src s) := by
  unfold execTamperLatch
  repeat' first
    | with_reducible assumption | (refine Sub.of hm ?_; decide) | with_reducible apply KeptOut.next | with_reducible apply KeptOut.ite
    | with_reducible apply Kept.ite | with_reducible apply State.tamper_kept | with_reducible exact Kept.updCpm (by assumption) (hm.of (by decide))
    | with_reducible refine Kept.updCpm ?_ (hm.of (by decide))

theorem execTamperDeassert_kept {m : Nat} (hm : Sub 0x2000 m) {s0 : State} {src : Fin 5} {s : State} (hs : Kept m s0 s) :
    KeptOut m s0 (execTamperDeassert src s) := by
  unfold execTamperDeassert
  repeat' first
    | with_reducible assumption | (refine Sub.of hm ?_; decide) | with_reducible apply KeptOut.next | with_reducible apply State.setBit_kept

theorem State.eraseKeys_kept {m : Nat} (hm : Sub 0x1000002000 m) {s0 : State} {s : State} (hs : Kept m s0 s) :
    Kept m s0 (State.eraseKeys s) := by
  unfold State.eraseKeys
  repeat' first
    | with_reducible assumption | (refine Sub.of hm ?_; decide) | with_reducible apply State.wr_kept
    | with_reducible exact Kept.updSec (by assumption) (hm.of (by decide)) | with_reducible refine Kept.updSec ?_ (hm.of (by decide))

theorem State.eraseStep_kept {m : Nat} (hm : Sub 0xB21E4F208C m) {s0 : State} {s : State} (hs : Kept m s0 s) :
    Kept m s0 (State.eraseStep s) := by
  unfold State.eraseStep
  repeat' first
    | with_reducible assumption | (refine Sub.of hm ?_; decide)
    | (lift_lets; intro x; with_reducible refine (fun (hx : Kept m s0 x) => ?_) ?_; clear_value x) | (lift_lets; intro x)
    | with_reducible apply State.dropKeyed_kept | with_reducible apply State.restRing_kept | with_reducible apply State.alert_kept
    | with_reducible apply State.wr_kept | with_reducible apply State.cause0_kept | with_reducible apply State.keyErased_kept
    | with_reducible apply State.eraseKeys_kept | (with_reducible refine Kept.foldl ?_ ?_; intro a x hx)
    | (with_reducible refine Kept.foldlFst ?_ ?_; intro a x hx) | (with_reducible refine Kept.foldlSnd ?_ ?_; intro a x hx) | split
    | (clear_value *; split) | (dsimp +zetaDelta only; split) | (intro x; with_reducible refine (fun (hx : Kept m s0 x) => ?_) ?_; clear_value x)
    | intro x

theorem execEraseDone_kept {m : Nat} (hm : Sub 0xB21E4F208C m) {s0 : State} {s : State} (hs : Kept m s0 s) :
    KeptOut m s0 (execEraseDone s) := by
  unfold execEraseDone
  repeat' first
    | with_reducible assumption | (refine Sub.of hm ?_; decide) | with_reducible apply KeptOut.next | with_reducible apply State.eraseStep_kept

theorem State.unfence_kept {m : Nat} (hm : Sub 0x2000 m) {s0 : State} {s : State} (hs : Kept m s0 s) :
    KeptOpt m s0 (State.unfence s) := by
  unfold State.unfence
  repeat' first
    | with_reducible assumption | (refine Sub.of hm ?_; decide)
    | (lift_lets; intro x; with_reducible refine (fun (hx : Kept m s0 x) => ?_) ?_; clear_value x) | (lift_lets; intro x)
    | with_reducible apply KeptOpt.none | with_reducible apply KeptOpt.some | with_reducible apply KeptOpt.ite | with_reducible apply Kept.ite
    | with_reducible apply State.wr_kept | (intro x; with_reducible refine (fun (hx : Kept m s0 x) => ?_) ?_; clear_value x) | intro x

end Sys2Proof.Machine
end

