-- ==== Sys2Proof/Laws/KeptJnl.lean ====
section
/-! SUPPORT. What every operation of Machine/Jnl.lean keeps, and which parts of the state it may change. -/

set_option linter.unusedTactic false
set_option linter.unreachableTactic false
set_option linter.unusedVariables false
set_option linter.unusedSimpArgs false

namespace Sys2Proof.Machine

theorem State.setRegion_kept {m : Nat} (hm : Sub 0x40000000 m) {s0 : State} {s : State} {n : Nat} {x : Region} (hs : Kept m s0 s) :
    Kept m s0 (State.setRegion s n x) := by
  unfold State.setRegion
  repeat' first
    | with_reducible assumption | (refine Sub.of hm ?_; decide) | with_reducible apply Kept.ite | with_reducible apply State.setJnl_kept

theorem State.eraseFirst_kept {m : Nat} (hm : Sub 0x40000000 m) {s0 : State} {s : State} {n : Nat} (hs : Kept m s0 s) :
    Kept m s0 (State.eraseFirst s n) := by
  unfold State.eraseFirst
  repeat' first
    | with_reducible assumption | (refine Sub.of hm ?_; decide)
    | (lift_lets; intro x; with_reducible refine (fun (hx : Kept m s0 x) => ?_) ?_; clear_value x) | (lift_lets; intro x) | with_reducible apply Kept.ite
    | with_reducible apply State.setRegion_kept | (intro x; with_reducible refine (fun (hx : Kept m s0 x) => ?_) ?_; clear_value x) | intro x

theorem State.eraseAhead_kept {m : Nat} (hm : Sub 0x40000000 m) {s0 : State} {s : State} {n : Nat} (hs : Kept m s0 s) :
    Kept m s0 (State.eraseAhead s n) := by
  unfold State.eraseAhead
  repeat' first
    | with_reducible assumption | (refine Sub.of hm ?_; decide)
    | (lift_lets; intro x; with_reducible refine (fun (hx : Kept m s0 x) => ?_) ?_; clear_value x) | (lift_lets; intro x)
    | with_reducible apply State.setRegion_kept | (intro x; with_reducible refine (fun (hx : Kept m s0 x) => ?_) ?_; clear_value x) | intro x

theorem State.freeBytes_kept {m : Nat} (hm : Sub 0x100000 m) {s0 : State} {s : State} {n : Nat} (hs : Kept m s0 s) :
    Kept m s0 (State.freeBytes s n).2 := by
  unfold State.freeBytes
  repeat' first
    | with_reducible assumption | (refine Sub.of hm ?_; decide)
    | (lift_lets; intro x; with_reducible refine (fun (hx : Kept m s0 x) => ?_) ?_; clear_value x) | (lift_lets; intro x)
    | exact Kept.updFree hs (hm.of (by decide)) (Nat.le_add_right _ _)
    | (intro x; with_reducible refine (fun (hx : Kept m s0 x) => ?_) ?_; clear_value x) | intro x

theorem State.tearProgram_kept {m : Nat} (hm : Sub 0x40100000 m) {s0 : State} {s : State} (hs : Kept m s0 s) :
    Kept m s0 (State.tearProgram s) := by
  unfold State.tearProgram
  repeat' first
    | with_reducible assumption | (refine Sub.of hm ?_; decide)
    | (lift_lets; intro x; with_reducible refine (fun (hx : Kept m s0 x) => ?_) ?_; clear_value x) | (lift_lets; intro x) | with_reducible apply Kept.ite
    | with_reducible apply Kept.iteFst | with_reducible apply Kept.iteSnd | with_reducible apply State.freeBytes_kept
    | with_reducible apply State.setJnl_kept | with_reducible apply State.setRegion_kept | with_reducible refine Kept.ofSnd (by assumption) ?_
    | (intro x; with_reducible refine (fun (hx : Kept m s0 x) => ?_) ?_; clear_value x) | intro x

theorem State.startCompact_kept {m : Nat} (hm : Sub 0x40080200 m) {s0 : State} {s : State} (hs : Kept m s0 s) :
    Kept m s0 (State.startCompact s) := by
  unfold State.startCompact
  repeat' first
    | with_reducible assumption | (refine Sub.of hm ?_; decide)
    | (lift_lets; intro x; with_reducible refine (fun (hx : Kept m s0 x) => ?_) ?_; clear_value x) | (lift_lets; intro x) | with_reducible apply Kept.ite
    | with_reducible apply State.setJnl_kept | with_reducible apply State.wr_kept | with_reducible apply State.wrs_nil_kept
    | with_reducible apply State.wrs_cons_kept | with_reducible apply State.wrs_ite_kept | with_reducible apply State.send_kept
    | (intro x; with_reducible refine (fun (hx : Kept m s0 x) => ?_) ?_; clear_value x) | intro x

theorem State.compactWaiting_kept {m : Nat} (hm : Sub 0x40080200 m) {s0 : State} {s : State} (hs : Kept m s0 s) :
    Kept m s0 (State.compactWaiting s) := by
  unfold State.compactWaiting
  repeat' first
    | with_reducible assumption | (refine Sub.of hm ?_; decide)
    | (lift_lets; intro x; with_reducible refine (fun (hx : Kept m s0 x) => ?_) ?_; clear_value x) | (lift_lets; intro x) | with_reducible apply Kept.ite
    | with_reducible apply State.startCompact_kept | (intro x; with_reducible refine (fun (hx : Kept m s0 x) => ?_) ?_; clear_value x) | intro x

theorem State.autoCompact_kept {m : Nat} (hm : Sub 0x40080200 m) {s0 : State} {s : State} (hs : Kept m s0 s) :
    Kept m s0 (State.autoCompact s) := by
  unfold State.autoCompact
  repeat' first
    | with_reducible assumption | (refine Sub.of hm ?_; decide) | with_reducible apply Kept.ite | with_reducible apply State.startCompact_kept

theorem State.replayFail_kept {m : Nat} (hm : Sub 0x80524D0288 m) {s0 : State} {s : State} (hs : Kept m s0 s) :
    Kept m s0 (State.replayFail s) := by
  unfold State.replayFail
  repeat' first
    | with_reducible assumption | (refine Sub.of hm ?_; decide) | with_reducible apply Kept.ite | with_reducible apply State.setJnl_kept
    | with_reducible apply State.wr_kept | with_reducible apply State.cause0_kept | with_reducible apply State.resumePrepare_kept

theorem State.raiseFloor_kept {m : Nat} (hm : Sub 0x10000000 m) {s0 : State} {s : State} {e : Nat} (hs : Kept m s0 s) :
    Kept m s0 (State.raiseFloor s e) := by
  unfold State.raiseFloor
  repeat' first
    | with_reducible assumption | (refine Sub.of hm ?_; decide) | with_reducible apply Kept.ite | with_reducible apply State.setCsq_kept

theorem State.replayDone_kept {m : Nat} (hm : Sub 0xE0724D8288 m) {s0 : State} {s : State} {truncated : Bool} (hs : Kept m s0 s) :
    Kept m s0 (State.replayDone s truncated) := by
  unfold State.replayDone
  repeat' first
    | with_reducible assumption | (refine Sub.of hm ?_; decide)
    | (lift_lets; intro x; with_reducible refine (fun (hx : Kept m s0 x) => ?_) ?_; clear_value x) | (lift_lets; intro x) | with_reducible apply Kept.ite
    | with_reducible apply State.autoCompact_kept | with_reducible apply State.compactWaiting_kept | with_reducible apply State.setJnl_kept
    | with_reducible apply State.wr_kept | with_reducible apply State.raiseFloor_kept | with_reducible apply State.cause0_kept
    | with_reducible apply State.resumePrepare_kept | with_reducible apply State.appendWaiting_kept | with_reducible apply State.wrs_nil_kept
    | with_reducible apply State.wrs_cons_kept | with_reducible apply State.wrs_ite_kept | with_reducible apply State.event_kept
    | (intro x; with_reducible refine (fun (hx : Kept m s0 x) => ?_) ?_; clear_value x) | intro x

theorem State.toCompact_kept {m : Nat} (hm : Sub 0x40000000 m) {s0 : State} {s : State} {l : List JRec} (hs : Kept m s0 s) :
    Kept m s0 (State.toCompact s l) := by
  unfold State.toCompact
  repeat' first
    | with_reducible assumption | (refine Sub.of hm ?_; decide) | with_reducible apply State.setJnl_kept

theorem State.abandonCompact_kept {m : Nat} (hm : Sub 0xA0625D0208 m) {s0 : State} {s : State} {force : Bool} (hs : Kept m s0 s) :
    Kept m s0 (State.abandonCompact s force) := by
  unfold State.abandonCompact
  repeat' first
    | with_reducible assumption | (refine Sub.of hm ?_; decide)
    | (lift_lets; intro x; with_reducible refine (fun (hx : Kept m s0 x) => ?_) ?_; clear_value x) | (lift_lets; intro x) | with_reducible apply Kept.ite
    | with_reducible apply State.complete_kept | with_reducible apply State.setJnl_kept | with_reducible apply State.wr_kept
    | with_reducible apply State.tearProgram_kept | with_reducible apply State.appendWaiting_kept | with_reducible apply State.setWait_kept
    | (with_reducible refine Kept.foldl ?_ ?_; intro a x hx) | (intro x; with_reducible refine (fun (hx : Kept m s0 x) => ?_) ?_; clear_value x)
    | intro x

theorem State.compactDone_kept {m : Nat} (hm : Sub 0xE0724D8288 m) {s0 : State} {s : State} (hs : Kept m s0 s) :
    Kept m s0 (State.compactDone s) := by
  unfold State.compactDone
  repeat' first
    | with_reducible assumption | (refine Sub.of hm ?_; decide)
    | (lift_lets; intro x; with_reducible refine (fun (hx : Kept m s0 x) => ?_) ?_; clear_value x) | (lift_lets; intro x) | with_reducible apply Kept.ite
    | with_reducible apply State.complete_kept | with_reducible apply State.setJnl_kept | with_reducible apply State.wr_kept
    | with_reducible apply State.cause0_kept | with_reducible apply State.appendWaiting_kept | with_reducible apply State.replayDone_kept
    | with_reducible apply State.wrs_nil_kept | with_reducible apply State.wrs_cons_kept | with_reducible apply State.wrs_ite_kept
    | with_reducible apply State.send_kept | with_reducible apply State.event_kept | (with_reducible refine Kept.foldl ?_ ?_; intro a x hx)
    | (intro x; with_reducible refine (fun (hx : Kept m s0 x) => ?_) ?_; clear_value x) | intro x

theorem execJnlCompact_kept {m : Nat} (hm : Sub 0x80424C0208 m) {s0 : State} {f : Fn} {e : Block64} {s : State} (hs : Kept m s0 s) :
    KeptOut m s0 (execJnlCompact f e s) := by
  unfold execJnlCompact
  repeat' first
    | with_reducible assumption | (refine Sub.of hm ?_; decide) | with_reducible refine fun (y0 : Cmd) (s : State) (h : Kept m s0 s) => ?_
    | (lift_lets; intro x; with_reducible refine (fun (hx : Kept m s0 x) => ?_) ?_; clear_value x) | (lift_lets; intro x)
    | with_reducible apply KeptOut.next | with_reducible apply KeptOut.ite | with_reducible apply Kept.ite | with_reducible apply State.command_kept
    | with_reducible apply State.compactWaiting_kept | with_reducible apply State.complete_kept | with_reducible apply State.setWait_kept
    | (intro x; with_reducible refine (fun (hx : Kept m s0 x) => ?_) ?_; clear_value x) | intro x

theorem State.jnlFlush_kept {m : Nat} (hm : Sub 0x80724D0288 m) {s0 : State} {s : State} (hs : Kept m s0 s) :
    Kept m s0 (State.jnlFlush s) := by
  unfold State.jnlFlush
  repeat' first
    | with_reducible assumption | (refine Sub.of hm ?_; decide)
    | (lift_lets; intro x; with_reducible refine (fun (hx : Kept m s0 x) => ?_) ?_; clear_value x) | (lift_lets; intro x) | with_reducible apply Kept.ite
    | with_reducible apply State.stream_kept | with_reducible apply State.setJnl_kept | with_reducible apply State.wr_kept
    | with_reducible apply State.durableNow_kept | (with_reducible refine Kept.foldl ?_ ?_; intro a x hx) | split | (clear_value *; split)
    | (dsimp +zetaDelta only; split) | (intro x; with_reducible refine (fun (hx : Kept m s0 x) => ?_) ?_; clear_value x) | intro x

theorem State.flashError_kept {m : Nat} (hm : Sub 0xA0525D0288 m) {s0 : State} {s : State} (hs : Kept m s0 s) :
    Kept m s0 (State.flashError s) := by
  unfold State.flashError
  repeat' first
    | with_reducible assumption | (refine Sub.of hm ?_; decide)
    | (lift_lets; intro x; with_reducible refine (fun (hx : Kept m s0 x) => ?_) ?_; clear_value x) | (lift_lets; intro x)
    | with_reducible apply State.fault_kept | with_reducible apply State.replayFail_kept | with_reducible apply State.setJnl_kept
    | with_reducible apply State.cause0_kept | with_reducible apply State.tearProgram_kept
    | (intro x; with_reducible refine (fun (hx : Kept m s0 x) => ?_) ?_; clear_value x) | intro x

theorem State.noFlash_kept {m : Nat} (hm : Sub 0xA0724D0288 m) {s0 : State} {s : State} (hs : Kept m s0 s) :
    Kept m s0 (State.noFlash s) := by
  unfold State.noFlash
  repeat' first
    | with_reducible assumption | (refine Sub.of hm ?_; decide)
    | (lift_lets; intro x; with_reducible refine (fun (hx : Kept m s0 x) => ?_) ?_; clear_value x) | (lift_lets; intro x)
    | with_reducible apply State.fault_kept | with_reducible apply State.replayFail_kept | with_reducible apply State.setJnl_kept
    | with_reducible apply State.wr_kept | with_reducible apply State.cause0_kept | with_reducible apply State.jnlFlush_kept
    | (intro x; with_reducible refine (fun (hx : Kept m s0 x) => ?_) ?_; clear_value x) | intro x

theorem State.compGo_kept {m : Nat} (hm : Sub 0x40000200 m) {s0 : State} {s : State} (hs : Kept m s0 s) :
    Kept m s0 (State.compGo s) := by
  unfold State.compGo
  repeat' first
    | with_reducible assumption | (refine Sub.of hm ?_; decide)
    | (lift_lets; intro x; with_reducible refine (fun (hx : Kept m s0 x) => ?_) ?_; clear_value x) | (lift_lets; intro x) | with_reducible apply Kept.ite
    | with_reducible apply State.setJnl_kept | with_reducible apply State.wr_kept | with_reducible apply State.toCompact_kept
    | (intro x; with_reducible refine (fun (hx : Kept m s0 x) => ?_) ?_; clear_value x) | intro x

theorem State.startProgram_kept {m : Nat} (hm : Sub 0x40080000 m) {s0 : State} {s : State} {addr : Nat} {l : List Byte} {comp : Bool} (hs : Kept m s0 s) :
    Kept m s0 (State.startProgram s addr l comp) := by
  unfold State.startProgram
  repeat' first
    | with_reducible assumption | (refine Sub.of hm ?_; decide) | with_reducible apply Kept.ite | with_reducible apply State.setJnl_kept
    | with_reducible apply State.send_kept

theorem execJnlProgramStart_kept {m : Nat} (hm : Sub 0x40080200 m) {s0 : State} {s : State} (hs : Kept m s0 s) :
    KeptOut m s0 (execJnlProgramStart s) := by
  unfold execJnlProgramStart
  repeat' first
    | with_reducible assumption | (refine Sub.of hm ?_; decide)
    | (lift_lets; intro x; with_reducible refine (fun (hx : Kept m s0 x) => ?_) ?_; clear_value x) | (lift_lets; intro x)
    | with_reducible apply KeptOut.next | with_reducible apply KeptOut.ite | with_reducible apply Kept.ite | with_reducible apply State.compGo_kept
    | with_reducible apply State.wr_kept | with_reducible apply State.startProgram_kept
    | (intro x; with_reducible refine (fun (hx : Kept m s0 x) => ?_) ?_; clear_value x) | intro x

theorem State.programmed_kept {m : Nat} (hm : Sub 0x40000000 m) {s0 : State} {s : State} (hs : Kept m s0 s) :
    Kept m s0 (State.programmed s) := by
  unfold State.programmed
  repeat' first
    | with_reducible assumption | (refine Sub.of hm ?_; decide)
    | (lift_lets; intro x; with_reducible refine (fun (hx : Kept m s0 x) => ?_) ?_; clear_value x) | (lift_lets; intro x)
    | with_reducible apply State.setJnl_kept | with_reducible apply State.setRegion_kept
    | (intro x; with_reducible refine (fun (hx : Kept m s0 x) => ?_) ?_; clear_value x) | intro x

theorem State.appendsProgrammed_kept {m : Nat} (hm : Sub 0xA0724D0288 m) {s0 : State} {s : State} {len : Nat} (hs : Kept m s0 s) :
    Kept m s0 (State.appendsProgrammed s len) := by
  unfold State.appendsProgrammed
  repeat' first
    | with_reducible assumption | (refine Sub.of hm ?_; decide)
    | (lift_lets; intro x; with_reducible refine (fun (hx : Kept m s0 x) => ?_) ?_; clear_value x) | (lift_lets; intro x) | with_reducible apply Kept.ite
    | with_reducible apply State.autoCompact_kept | with_reducible apply State.setJnl_kept | with_reducible apply State.wr_kept
    | with_reducible apply State.appendWaiting_kept | with_reducible apply State.durableNow_kept | split | (clear_value *; split)
    | (dsimp +zetaDelta only; split) | (intro x; with_reducible refine (fun (hx : Kept m s0 x) => ?_) ?_; clear_value x) | intro x

theorem State.compProgrammed_kept {m : Nat} (hm : Sub 0xE0724D8288 m) {s0 : State} {s : State} {len : Nat} (hs : Kept m s0 s) :
    Kept m s0 (State.compProgrammed s len) := by
  unfold State.compProgrammed
  repeat' first
    | with_reducible assumption | (refine Sub.of hm ?_; decide)
    | (lift_lets; intro x; with_reducible refine (fun (hx : Kept m s0 x) => ?_) ?_; clear_value x) | (lift_lets; intro x) | with_reducible apply Kept.ite
    | with_reducible apply State.setJnl_kept | with_reducible apply State.wr_kept | with_reducible apply State.compactDone_kept
    | with_reducible apply State.wrs_nil_kept | with_reducible apply State.wrs_cons_kept | with_reducible apply State.wrs_ite_kept | split
    | (clear_value *; split) | (dsimp +zetaDelta only; split) | (intro x; with_reducible refine (fun (hx : Kept m s0 x) => ?_) ?_; clear_value x)
    | intro x

theorem execJnlProgramDone_kept {m : Nat} (hm : Sub 0xE0725D8288 m) {s0 : State} {ok : Bool} {s : State} (hs : Kept m s0 s) :
    KeptOut m s0 (execJnlProgramDone ok s) := by
  unfold execJnlProgramDone
  repeat' first
    | with_reducible assumption | (refine Sub.of hm ?_; decide)
    | (lift_lets; intro x; with_reducible refine (fun (hx : Kept m s0 x) => ?_) ?_; clear_value x) | (lift_lets; intro x)
    | with_reducible apply KeptOut.next | with_reducible apply KeptOut.ite | with_reducible apply Kept.ite | with_reducible apply State.programmed_kept
    | with_reducible apply State.appendsProgrammed_kept | with_reducible apply State.compProgrammed_kept | with_reducible apply State.stat_kept
    | with_reducible apply State.flashError_kept | (intro x; with_reducible refine (fun (hx : Kept m s0 x) => ?_) ?_; clear_value x) | intro x

theorem execJnlEraseDone_kept {m : Nat} (hm : Sub 0xA0525D0288 m) {s0 : State} {ok : Bool} {s : State} (hs : Kept m s0 s) :
    KeptOut m s0 (execJnlEraseDone ok s) := by
  unfold execJnlEraseDone
  repeat' first
    | with_reducible assumption | (refine Sub.of hm ?_; decide)
    | (lift_lets; intro x; with_reducible refine (fun (hx : Kept m s0 x) => ?_) ?_; clear_value x) | (lift_lets; intro x)
    | with_reducible apply KeptOut.next | with_reducible apply KeptOut.ite | with_reducible apply Kept.ite | with_reducible apply State.autoCompact_kept
    | with_reducible apply State.compactWaiting_kept | with_reducible apply State.setJnl_kept | with_reducible apply State.wr_kept
    | with_reducible apply State.eraseAhead_kept | with_reducible apply State.eraseFirst_kept | with_reducible apply State.flashError_kept
    | with_reducible apply State.setRegion_kept | (intro x; with_reducible refine (fun (hx : Kept m s0 x) => ?_) ?_; clear_value x) | intro x

theorem State.replayStart_kept {m : Nat} (hm : Sub 0x50000200 m) {s0 : State} {s : State} (hs : Kept m s0 s) :
    KeptOpt m s0 (State.replayStart s) := by
  unfold State.replayStart
  repeat' first
    | with_reducible assumption | (refine Sub.of hm ?_; decide)
    | (lift_lets; intro x; with_reducible refine (fun (hx : Kept m s0 x) => ?_) ?_; clear_value x) | (lift_lets; intro x)
    | with_reducible apply KeptOpt.none | with_reducible apply KeptOpt.some | with_reducible apply KeptOpt.ite | with_reducible apply Kept.ite
    | with_reducible apply Kept.iteSnd | with_reducible apply State.setJnl_kept | with_reducible apply State.wrs_nil_kept
    | with_reducible apply State.wrs_cons_kept | with_reducible apply State.wrs_ite_kept | with_reducible apply State.wr_kept
    | with_reducible exact Kept.updCsq (by assumption) (hm.of (by decide))
    | (intro x; with_reducible refine (fun (hx : Kept m s0 x) => ?_) ?_; clear_value x) | intro x
    | with_reducible refine Kept.updCsq ?_ (hm.of (by decide))

theorem execReplayProbeDone_kept {m : Nat} (hm : Sub 0xA0724D0288 m) {s0 : State} {part : Option Sfdp} {s : State} (hs : Kept m s0 s) :
    KeptOut m s0 (execReplayProbeDone part s) := by
  unfold execReplayProbeDone
  repeat' first
    | with_reducible assumption | (refine Sub.of hm ?_; decide)
    | (lift_lets; intro x; with_reducible refine (fun (hx : Kept m s0 x) => ?_) ?_; clear_value x) | (lift_lets; intro x)
    | with_reducible apply KeptOut.next | with_reducible apply KeptOut.ite | with_reducible apply Kept.ite | with_reducible apply State.noFlash_kept
    | with_reducible apply State.setJnl_kept | with_reducible apply State.wr_kept | with_reducible apply State.wrs_nil_kept
    | with_reducible apply State.wrs_cons_kept | with_reducible apply State.wrs_ite_kept | split | (clear_value *; split)
    | (dsimp +zetaDelta only; split) | (intro x; with_reducible refine (fun (hx : Kept m s0 x) => ?_) ?_; clear_value x) | intro x

theorem execReplaySelectDone_kept {m : Nat} (hm : Sub 0x40080200 m) {s0 : State} {s : State} (hs : Kept m s0 s) :
    KeptOut m s0 (execReplaySelectDone s) := by
  unfold execReplaySelectDone
  repeat' first
    | with_reducible assumption | (refine Sub.of hm ?_; decide)
    | (lift_lets; intro x; with_reducible refine (fun (hx : Kept m s0 x) => ?_) ?_; clear_value x) | (lift_lets; intro x)
    | with_reducible apply KeptOut.next | with_reducible apply KeptOut.ite | with_reducible apply Kept.ite | with_reducible apply Kept.iteFst
    | with_reducible apply State.setJnl_kept | with_reducible apply State.startCompact_kept | with_reducible apply State.wrs_nil_kept
    | with_reducible apply State.wrs_cons_kept | with_reducible apply State.wrs_ite_kept | with_reducible apply State.send_kept
    | with_reducible apply State.wr_kept | split | (clear_value *; split) | (dsimp +zetaDelta only; split)
    | (intro x; with_reducible refine (fun (hx : Kept m s0 x) => ?_) ?_; clear_value x) | intro x

theorem State.applyOwn_kept {m : Nat} (hm : Sub 0x1010000000 m) {s0 : State} {s : State} {r : JRec} (hs : Kept m s0 s) :
    Kept m s0 (State.applyOwn s r) := by
  unfold State.applyOwn
  repeat' first
    | with_reducible assumption | (refine Sub.of hm ?_; decide) | with_reducible apply Kept.ite | with_reducible apply State.setCircuit_kept
    | with_reducible apply State.setSlot_kept | with_reducible apply State.restoreKey_kept | split

theorem State.applyCal_kept {m : Nat} (hm : Sub 0x4000000 m) {s0 : State} {s : State} {first : Nat} {n : Nat} {channel : Bool} {w : List Word} (hs : Kept m s0 s) :
    Kept m s0 (State.applyCal s first n channel w) := by
  unfold State.applyCal
  repeat' first
    | with_reducible assumption | (refine Sub.of hm ?_; decide)
    | (lift_lets; intro x; with_reducible refine (fun (hx : Kept m s0 x) => ?_) ?_; clear_value x) | (lift_lets; intro x) | with_reducible apply Kept.ite
    | with_reducible apply State.setChan_kept | with_reducible apply State.setRing_kept | (with_reducible refine Kept.foldl ?_ ?_; intro a x hx)
    | (intro x; with_reducible refine (fun (hx : Kept m s0 x) => ?_) ?_; clear_value x) | intro x

theorem Scan.step_kept {m : Nat} (hm : Sub 0x1034000200 m) {s0 : State} {x : Scan} {r : JRec} (h : Kept m s0 x.s) : Kept m s0 (Scan.step x r).s := by
  unfold Scan.step
  split
  · split
    · exact (State.inc_kept (hm.of (by decide)) (hm.of (by decide))) (Kept.updTwn h (hm.of (by decide)))
    · exact (State.inc_kept (hm.of (by decide)) (hm.of (by decide))) (Kept.foldl (fun _ _ h => (State.applyOwn_kept (hm.of (by decide))) h) h)
  · exact (State.inc_kept (hm.of (by decide)) (hm.of (by decide))) ((State.applyCal_kept (hm.of (by decide))) h)
  · exact h
  · split <;> exact h

theorem Scan.foldl_kept {m : Nat} (hm : Sub 0x1034000200 m) {s0 : State} {l : List JRec} {x : Scan} (h : Kept m s0 x.s) : Kept m s0 (l.foldl Scan.step x).s := by
  induction l generalizing x with
  | nil => exact h
  | cons r l ih => exact ih ((Scan.step_kept (hm.of (by decide))) h)

theorem State.unappend_kept {m : Nat} (hm : Sub 0x40000000 m) {s0 : State} {s : State} (hs : Kept m s0 s) :
    Kept m s0 (State.unappend s) := by
  unfold State.unappend
  repeat' first
    | with_reducible assumption | (refine Sub.of hm ?_; decide) | with_reducible apply State.setJnl_kept

theorem execReplayScanDone_kept {m : Nat} (hm : Sub 0xF0764D8388 m) {s0 : State} {s : State} (hs : Kept m s0 s) :
    KeptOut m s0 (execReplayScanDone s) := by
  unfold execReplayScanDone
  repeat' first
    | with_reducible assumption | (refine Sub.of hm ?_; decide)
    | (lift_lets; intro x; with_reducible refine (fun (hx : Kept m s0 x) => ?_) ?_; clear_value x) | (lift_lets; intro x)
    | with_reducible apply KeptOut.next | with_reducible apply KeptOut.ite | with_reducible apply Kept.ite | with_reducible apply Scan.step_kept
    | with_reducible apply State.setJnl_kept | with_reducible apply State.wr_kept | with_reducible apply State.cause0_kept
    | with_reducible apply State.inc_kept | with_reducible apply State.startCompact_kept | with_reducible apply State.setRegion_kept
    | with_reducible apply State.replayDone_kept | with_reducible apply State.wrs_nil_kept | with_reducible apply State.wrs_cons_kept
    | with_reducible apply State.wrs_ite_kept | with_reducible apply State.unappend_kept | (with_reducible refine Kept.foldl ?_ ?_; intro a x hx)
    | with_reducible apply Scan.foldl_kept | split | (clear_value *; split) | (dsimp +zetaDelta only; split)
    | (intro x; with_reducible refine (fun (hx : Kept m s0 x) => ?_) ?_; clear_value x) | intro x

theorem State.jnlAbort_kept {m : Nat} (hm : Sub 0xA0725D0288 m) {s0 : State} {s : State} (hs : Kept m s0 s) :
    Kept m s0 (State.jnlAbort s) := by
  unfold State.jnlAbort
  repeat' first
    | with_reducible assumption | (refine Sub.of hm ?_; decide) | with_reducible apply Kept.ite | with_reducible apply State.replayFail_kept
    | with_reducible apply State.abandonCompact_kept

end Sys2Proof.Machine
end

