-- ==== Sys2Proof/Laws/KeptTwn.lean ====
section
/-! SUPPORT. What every operation of Machine/Twn.lean keeps, and which parts of the state it may change. -/

set_option linter.unusedTactic false
set_option linter.unreachableTactic false
set_option linter.unusedVariables false
set_option linter.unusedSimpArgs false

namespace Sys2Proof.Machine

theorem State.setTwn_kept {m : Nat} (hm : Sub 0x20000000 m) {s0 : State} {s : State} {t : TwnState} (hs : Kept m s0 s) :
    Kept m s0 (State.setTwn s t) := by
  unfold State.setTwn
  repeat' first
    | with_reducible assumption | (refine Sub.of hm ?_; decide) | with_reducible exact Kept.updTwn (by assumption) (hm.of (by decide))
    | with_reducible refine Kept.updTwn ?_ (hm.of (by decide))

theorem State.twnInt_kept {m : Nat} (hm : Sub 0x20004D0000 m) {s0 : State} {s : State} {i : Nat} (hs : Kept m s0 s) :
    Kept m s0 (State.twnInt s i) := by
  unfold State.twnInt
  repeat' first
    | with_reducible assumption | (refine Sub.of hm ?_; decide) | with_reducible apply State.fault_kept | with_reducible apply State.cause0_kept

theorem State.twnSend_kept {m : Nat} (hm : Sub 0x8080000 m) {s0 : State} {s : State} {kind : Nat} {tseq : Nat} {epoch : Nat} {rcd : Option JRec} {pullReq : Bool} {total : Nat} (hs : Kept m s0 s) :
    Kept m s0 (State.twnSend s kind tseq epoch rcd pullReq total) := by
  unfold State.twnSend
  repeat' first
    | with_reducible assumption | (refine Sub.of hm ?_; decide)
    | (lift_lets; intro x; with_reducible refine (fun (hx : Kept m s0 x) => ?_) ?_; clear_value x) | (lift_lets; intro x)
    | with_reducible apply State.placeSpare_kept | with_reducible apply State.send_kept
    | (intro x; with_reducible refine (fun (hx : Kept m s0 x) => ?_) ?_; clear_value x) | intro x

theorem State.twnPlain_kept {m : Nat} (hm : Sub 0x8080000 m) {s0 : State} {s : State} {kind : Nat} {epoch : Nat} {pullReq : Bool} (hs : Kept m s0 s) :
    Kept m s0 (State.twnPlain s kind epoch pullReq) := by
  unfold State.twnPlain
  repeat' first
    | with_reducible assumption | (refine Sub.of hm ?_; decide) | with_reducible apply State.twnSend_kept

theorem State.toPulling_kept {m : Nat} (hm : Sub 0x20000100 m) {s0 : State} {s : State} (hs : Kept m s0 s) :
    Kept m s0 (State.toPulling s) := by
  unfold State.toPulling
  repeat' first
    | with_reducible assumption | (refine Sub.of hm ?_; decide)
    | (lift_lets; intro x; with_reducible refine (fun (hx : Kept m s0 x) => ?_) ?_; clear_value x) | (lift_lets; intro x)
    | with_reducible apply State.setTwn_kept | with_reducible apply State.wrs_nil_kept | with_reducible apply State.wrs_cons_kept
    | with_reducible apply State.wrs_ite_kept | with_reducible apply State.wr_kept
    | (intro x; with_reducible refine (fun (hx : Kept m s0 x) => ?_) ?_; clear_value x) | intro x

theorem State.desync_kept {m : Nat} (hm : Sub 0x20204D0100 m) {s0 : State} {s : State} (hs : Kept m s0 s) :
    Kept m s0 (State.desync s) := by
  unfold State.desync
  repeat' first
    | with_reducible assumption | (refine Sub.of hm ?_; decide)
    | (lift_lets; intro x; with_reducible refine (fun (hx : Kept m s0 x) => ?_) ?_; clear_value x) | (lift_lets; intro x)
    | with_reducible apply State.wr_kept | with_reducible apply State.twnInt_kept | with_reducible apply State.setTwn_kept
    | (intro x; with_reducible refine (fun (hx : Kept m s0 x) => ?_) ?_; clear_value x) | intro x

theorem State.startTakeover_kept {m : Nat} (hm : Sub 0x20204D0100 m) {s0 : State} {s : State} (hs : Kept m s0 s) :
    Kept m s0 (State.startTakeover s) := by
  unfold State.startTakeover
  repeat' first
    | with_reducible assumption | (refine Sub.of hm ?_; decide)
    | (lift_lets; intro x; with_reducible refine (fun (hx : Kept m s0 x) => ?_) ?_; clear_value x) | (lift_lets; intro x) | with_reducible apply Kept.ite
    | with_reducible apply State.setBit_kept | with_reducible apply State.wr_kept | with_reducible apply State.twnInt_kept
    | with_reducible apply State.setTwn_kept | with_reducible apply State.wrs_nil_kept | with_reducible apply State.wrs_cons_kept
    | with_reducible apply State.wrs_ite_kept | (refine Sub.header hm ?_ (by decide); simp only [Fld.key, pageBase, F.PAGE_STAT_FREEZE_PEND]; omega)
    | (refine Sub.header hm ?_ (by decide); simp only [Fld.key, pageBase, F.PAGE_STAT_FREEZE_PEND]; split_ifs <;> omega)
    | (intro x; with_reducible refine (fun (hx : Kept m s0 x) => ?_) ?_; clear_value x) | intro x

theorem State.loadCircuit_kept {m : Nat} (hm : Sub 0x10000100 m) {s0 : State} {x : State × List Nat} {c : Nat × List Nat} (hs : Kept m s0 x.1) :
    Kept m s0 (State.loadCircuit x c).1 := by
  unfold State.loadCircuit
  repeat' first
    | with_reducible assumption | (refine Sub.of hm ?_; decide)
    | (lift_lets; intro x; with_reducible refine (fun (hx : Kept m s0 x) => ?_) ?_; clear_value x) | (lift_lets; intro x) | with_reducible apply Kept.ite
    | with_reducible apply Kept.iteFst | with_reducible apply Kept.iteSnd | with_reducible apply State.setCircuit_kept
    | with_reducible apply State.inc_kept | with_reducible refine Kept.ofFst (by assumption) ?_
    | (intro x; with_reducible refine (fun (hx : Kept m s0 x) => ?_) ?_; clear_value x) | intro x

theorem State.loadSlot_kept {m : Nat} (hm : Sub 0x10000100 m) {s0 : State} {s : State} {x : Nat × Slot} (hs : Kept m s0 s) :
    Kept m s0 (State.loadSlot s x) := by
  unfold State.loadSlot
  repeat' first
    | with_reducible assumption | (refine Sub.of hm ?_; decide) | with_reducible apply Kept.ite | with_reducible apply Kept.iteFst
    | with_reducible apply Kept.iteSnd | with_reducible apply State.setSlot_kept | with_reducible apply State.inc_kept

theorem execTakeoverLoadDone_kept {m : Nat} (hm : Sub 0x30705D2300 m) {s0 : State} {s : State} (hs : Kept m s0 s) :
    KeptOut m s0 (execTakeoverLoadDone s) := by
  unfold execTakeoverLoadDone
  repeat' first
    | with_reducible assumption | (refine Sub.of hm ?_; decide)
    | (lift_lets; intro x; with_reducible refine (fun (hx : Kept m s0 x) => ?_) ?_; clear_value x) | (lift_lets; intro x)
    | with_reducible apply KeptOut.next | with_reducible apply KeptOut.ite | with_reducible apply Kept.ite | with_reducible apply Kept.iteFst
    | with_reducible apply Kept.iteSnd | with_reducible apply State.takeoverKey_kept | with_reducible apply State.loadSlot_kept
    | with_reducible apply State.appendGroup_kept | with_reducible apply State.freezeNow_kept | with_reducible apply State.raiseFloor_kept
    | with_reducible apply State.loadCircuit_kept | with_reducible apply State.twnInt_kept | with_reducible apply State.wrs_nil_kept
    | with_reducible apply State.wrs_cons_kept | with_reducible apply State.wrs_ite_kept | with_reducible apply State.wr_kept
    | (with_reducible refine Kept.foldl ?_ ?_; intro a x hx) | (with_reducible refine Kept.foldlFst ?_ ?_; intro a x hx)
    | (with_reducible refine Kept.foldlSnd ?_ ?_; intro a x hx) | with_reducible refine Kept.ofFst (by assumption) ?_
    | (intro x; with_reducible refine (fun (hx : Kept m s0 x) => ?_) ?_; clear_value x) | intro x

theorem State.takeoverWritten_kept {m : Nat} (hm : Sub 0x20204D0100 m) {s0 : State} {s : State} (hs : Kept m s0 s) :
    Kept m s0 (State.takeoverWritten s) := by
  unfold State.takeoverWritten
  repeat' first
    | with_reducible assumption | (refine Sub.of hm ?_; decide) | with_reducible apply State.startTakeover_kept

theorem State.twnForce_kept {m : Nat} (hm : Sub 0x100 m) {s0 : State} {s : State} (hs : Kept m s0 s) :
    Kept m s0 (State.twnForce s).1 := by
  unfold State.twnForce
  repeat' first
    | with_reducible assumption | (refine Sub.of hm ?_; decide) | with_reducible apply Kept.ite | with_reducible apply Kept.iteFst
    | with_reducible apply State.wrs_nil_kept | with_reducible apply State.wrs_cons_kept | with_reducible apply State.wrs_ite_kept
    | with_reducible apply State.wr_kept

theorem State.twnThaw_kept {m : Nat} (hm : Sub 0x20204D0100 m) {s0 : State} {s : State} (hs : Kept m s0 s) :
    Kept m s0 (State.twnThaw s) := by
  unfold State.twnThaw
  repeat' first
    | with_reducible assumption | (refine Sub.of hm ?_; decide) | with_reducible apply Kept.ite | with_reducible apply State.startTakeover_kept

theorem State.twnCfg_kept {m : Nat} (hm : Sub 0x20000100 m) {s0 : State} {s : State} {v : Word} (hs : Kept m s0 s) :
    KeptOpt m s0 (State.twnCfg s v) := by
  unfold State.twnCfg
  repeat' first
    | with_reducible assumption | (refine Sub.of hm ?_; decide)
    | (lift_lets; intro x; with_reducible refine (fun (hx : Kept m s0 x) => ?_) ?_; clear_value x) | (lift_lets; intro x)
    | with_reducible apply KeptOpt.none | with_reducible apply KeptOpt.some | with_reducible apply KeptOpt.ite | with_reducible apply Kept.ite
    | with_reducible apply State.toPulling_kept | with_reducible apply State.wr_kept | with_reducible apply State.setTwn_kept
    | with_reducible apply State.wrs_nil_kept | with_reducible apply State.wrs_cons_kept | with_reducible apply State.wrs_ite_kept
    | (intro x; with_reducible refine (fun (hx : Kept m s0 x) => ?_) ?_; clear_value x) | intro x

theorem State.handOver_kept {m : Nat} (hm : Sub 0x28080100 m) {s0 : State} {s : State} (hs : Kept m s0 s) :
    Kept m s0 (State.handOver s) := by
  unfold State.handOver
  repeat' first
    | with_reducible assumption | (refine Sub.of hm ?_; decide) | with_reducible apply Kept.ite | with_reducible apply State.toPulling_kept
    | with_reducible apply State.twnPlain_kept

theorem State.switchoverWritten_kept {m : Nat} (hm : Sub 0x28080100 m) {s0 : State} {s : State} (hs : Kept m s0 s) :
    Kept m s0 (State.switchoverWritten s) := by
  unfold State.switchoverWritten
  repeat' first
    | with_reducible assumption | (refine Sub.of hm ?_; decide) | with_reducible apply Kept.ite | with_reducible apply State.handOver_kept
    | with_reducible apply State.setTwn_kept

theorem execSwitchFail_kept {m : Nat} (hm : Sub 0x20204D0100 m) {s0 : State} {s : State} (hs : Kept m s0 s) :
    KeptOut m s0 (execSwitchFail s) := by
  unfold execSwitchFail
  repeat' first
    | with_reducible assumption | (refine Sub.of hm ?_; decide) | with_reducible apply KeptOut.next | with_reducible apply KeptOut.ite
    | with_reducible apply Kept.ite | with_reducible apply State.wr_kept | with_reducible apply State.twnInt_kept
    | with_reducible apply State.setTwn_kept

theorem execHeartbeatSend_kept {m : Nat} (hm : Sub 0x8080000 m) {s0 : State} {s : State} (hs : Kept m s0 s) :
    KeptOut m s0 (execHeartbeatSend s) := by
  unfold execHeartbeatSend
  repeat' first
    | with_reducible assumption | (refine Sub.of hm ?_; decide) | with_reducible apply KeptOut.next | with_reducible apply KeptOut.ite
    | with_reducible apply Kept.ite | with_reducible apply State.twnPlain_kept

theorem execPullSend_kept {m : Nat} (hm : Sub 0x8080000 m) {s0 : State} {s : State} (hs : Kept m s0 s) :
    KeptOut m s0 (execPullSend s) := by
  unfold execPullSend
  repeat' first
    | with_reducible assumption | (refine Sub.of hm ?_; decide) | with_reducible apply KeptOut.next | with_reducible apply KeptOut.ite
    | with_reducible apply Kept.ite | with_reducible apply State.twnPlain_kept

theorem State.sendRecord_kept {m : Nat} (hm : Sub 0x28080000 m) {s0 : State} {s : State} {x : TwinOut} {epoch : Nat} (hs : Kept m s0 s) :
    Kept m s0 (State.sendRecord s x epoch) := by
  unfold State.sendRecord
  repeat' first
    | with_reducible assumption | (refine Sub.of hm ?_; decide)
    | (lift_lets; intro x; with_reducible refine (fun (hx : Kept m s0 x) => ?_) ?_; clear_value x) | (lift_lets; intro x)
    | with_reducible apply State.setTwn_kept | with_reducible apply State.twnSend_kept
    | (intro x; with_reducible refine (fun (hx : Kept m s0 x) => ?_) ?_; clear_value x) | intro x

theorem execTwinRecordSend_kept {m : Nat} (hm : Sub 0x20284D0100 m) {s0 : State} {s : State} (hs : Kept m s0 s) :
    KeptOut m s0 (execTwinRecordSend s) := by
  unfold execTwinRecordSend
  repeat' first
    | with_reducible assumption | (refine Sub.of hm ?_; decide)
    | (lift_lets; intro x; with_reducible refine (fun (hx : Kept m s0 x) => ?_) ?_; clear_value x) | (lift_lets; intro x)
    | with_reducible apply KeptOut.next | with_reducible apply KeptOut.ite | with_reducible apply Kept.ite | with_reducible apply State.wr_kept
    | with_reducible apply State.desync_kept | with_reducible apply State.setTwn_kept | with_reducible apply State.sendRecord_kept | split
    | (clear_value *; split) | (dsimp +zetaDelta only; split) | (intro x; with_reducible refine (fun (hx : Kept m s0 x) => ?_) ?_; clear_value x)
    | intro x

theorem execTwinNakRepeat_kept {m : Nat} (hm : Sub 0x8080000 m) {s0 : State} {s : State} (hs : Kept m s0 s) :
    KeptOut m s0 (execTwinNakRepeat s) := by
  unfold execTwinNakRepeat
  repeat' first
    | with_reducible assumption | (refine Sub.of hm ?_; decide) | with_reducible apply KeptOut.next | with_reducible apply KeptOut.ite
    | with_reducible apply Kept.ite | with_reducible apply State.twnSend_kept | split

theorem execTwinMiss_kept {m : Nat} (hm : Sub 0x20204D0100 m) {s0 : State} {s : State} (hs : Kept m s0 s) :
    KeptOut m s0 (execTwinMiss s) := by
  unfold execTwinMiss
  repeat' first
    | with_reducible assumption | (refine Sub.of hm ?_; decide)
    | (lift_lets; intro x; with_reducible refine (fun (hx : Kept m s0 x) => ?_) ?_; clear_value x) | (lift_lets; intro x)
    | with_reducible apply KeptOut.next | with_reducible apply KeptOut.ite | with_reducible apply Kept.ite | with_reducible apply State.wr_kept
    | with_reducible apply State.twnInt_kept | with_reducible apply State.setTwn_kept | with_reducible apply State.startTakeover_kept
    | (intro x; with_reducible refine (fun (hx : Kept m s0 x) => ?_) ?_; clear_value x) | intro x

theorem State.validBurst_kept {m : Nat} (hm : Sub 0x20204D0100 m) {s0 : State} {s : State} {b : TwinBurst} (hs : Kept m s0 s) :
    Kept m s0 (State.validBurst s b) := by
  unfold State.validBurst
  repeat' first
    | with_reducible assumption | (refine Sub.of hm ?_; decide)
    | (lift_lets; intro x; with_reducible refine (fun (hx : Kept m s0 x) => ?_) ?_; clear_value x) | (lift_lets; intro x) | with_reducible apply Kept.ite
    | with_reducible apply State.toPulling_kept | with_reducible apply State.wr_kept | with_reducible apply State.desync_kept
    | with_reducible apply State.twnInt_kept | with_reducible apply State.setTwn_kept
    | (intro x; with_reducible refine (fun (hx : Kept m s0 x) => ?_) ?_; clear_value x) | intro x

theorem State.takeTwin_kept {m : Nat} (hm : Sub 0x8000000 m) {s0 s t : State} {k : Nat} {b : TwinBurst}
    (e : State.takeTwin s k = some (b, t)) (hs : Kept m s0 s) : Kept m s0 t := by
  induction k generalizing s with
  | zero => cases e
  | succ k ih =>
    unfold State.takeTwin at e
    split at e
    · cases e
    · next h =>
      dsimp only at e
      split at e
      · cases e; exact State.takeBurst_kept (hm.of (by decide)) h hs
      · exact ih e (State.takeBurst_kept (hm.of (by decide)) h hs)

theorem State.twinBurst_kept {m : Nat} (hm : Sub 0x20284D0100 m) {s0 : State} {s : State} {kind : Nat} {body : TwinBurst → State → State} (hgbody : ∀ (x0 : TwinBurst) (x1 : State), Kept m s0 x1 → Kept m s0 (body x0 x1)) (hs : Kept m s0 s) :
    Kept m s0 (State.twinBurst s kind body) := by
  unfold State.twinBurst
  repeat' first
    | with_reducible assumption | (refine Sub.of hm ?_; decide) | with_reducible apply Kept.ite
    | with_reducible refine State.takeTwin_kept (hm.of (by decide)) (by assumption) ?_ | with_reducible apply State.validBurst_kept
    | with_reducible apply State.inc_kept | with_reducible apply hgbody | split

theorem execHeartbeat_kept {m : Nat} (hm : Sub 0x20284D0100 m) {s0 : State} {s : State} (hs : Kept m s0 s) :
    KeptOut m s0 (execHeartbeat s) := by
  unfold execHeartbeat
  repeat' first
    | with_reducible assumption | (refine Sub.of hm ?_; decide) | with_reducible refine fun (y0 : TwinBurst) (s : State) (h : Kept m s0 s) => ?_
    | (lift_lets; intro x; with_reducible refine (fun (hx : Kept m s0 x) => ?_) ?_; clear_value x) | (lift_lets; intro x)
    | with_reducible apply KeptOut.next | with_reducible apply KeptOut.ite | with_reducible apply Kept.ite | with_reducible apply State.toPulling_kept
    | with_reducible apply State.twnPlain_kept | with_reducible apply State.twinBurst_kept
    | (intro x; with_reducible refine (fun (hx : Kept m s0 x) => ?_) ?_; clear_value x) | intro x

theorem State.applyGroup_kept {m : Nat} (hm : Sub 0x20685D0300 m) {s0 : State} {s : State} {b : TwinBurst} {recs : List JRec} {epoch : Nat} {full : Bool} {commit : JRec} (hs : Kept m s0 s) :
    Kept m s0 (State.applyGroup s b recs epoch full commit) := by
  unfold State.applyGroup
  repeat' first
    | with_reducible assumption | (refine Sub.of hm ?_; decide)
    | (lift_lets; intro x; with_reducible refine (fun (hx : Kept m s0 x) => ?_) ?_; clear_value x) | (lift_lets; intro x) | with_reducible apply Kept.ite
    | with_reducible apply State.append_kept | with_reducible apply State.setTwn_kept | with_reducible apply State.wrs_nil_kept
    | with_reducible apply State.wrs_cons_kept | with_reducible apply State.wrs_ite_kept | with_reducible apply State.twnSend_kept
    | with_reducible apply State.wr_kept | (with_reducible refine Kept.foldl ?_ ?_; intro a x hx)
    | (intro x; with_reducible refine (fun (hx : Kept m s0 x) => ?_) ?_; clear_value x) | intro x

theorem State.takeRecord_kept {m : Nat} (hm : Sub 0x20685D0300 m) {s0 : State} {s : State} {b : TwinBurst} {r : JRec} (hs : Kept m s0 s) :
    Kept m s0 (State.takeRecord s b r) := by
  unfold State.takeRecord
  repeat' first
    | with_reducible assumption | (refine Sub.of hm ?_; decide)
    | (lift_lets; intro x; with_reducible refine (fun (hx : Kept m s0 x) => ?_) ?_; clear_value x) | (lift_lets; intro x) | with_reducible apply Kept.ite
    | with_reducible apply State.wr_kept | with_reducible apply State.applyGroup_kept | with_reducible apply State.setTwn_kept | split
    | (clear_value *; split) | (dsimp +zetaDelta only; split) | (intro x; with_reducible refine (fun (hx : Kept m s0 x) => ?_) ?_; clear_value x)
    | intro x

theorem execTwinRecord_kept {m : Nat} (hm : Sub 0x20685D0300 m) {s0 : State} {s : State} (hs : Kept m s0 s) :
    KeptOut m s0 (execTwinRecord s) := by
  unfold execTwinRecord
  repeat' first
    | with_reducible assumption | (refine Sub.of hm ?_; decide) | with_reducible refine fun (y0 : TwinBurst) (s : State) (h : Kept m s0 s) => ?_
    | (lift_lets; intro x; with_reducible refine (fun (hx : Kept m s0 x) => ?_) ?_; clear_value x) | (lift_lets; intro x)
    | with_reducible apply KeptOut.next | with_reducible apply KeptOut.ite | with_reducible apply Kept.ite | with_reducible apply State.twinBurst_kept
    | with_reducible apply State.takeRecord_kept | with_reducible apply State.setTwn_kept | with_reducible apply State.twnSend_kept | split
    | (clear_value *; split) | (dsimp +zetaDelta only; split) | (intro x; with_reducible refine (fun (hx : Kept m s0 x) => ?_) ?_; clear_value x)
    | intro x

theorem execTwinAck_kept {m : Nat} (hm : Sub 0x20284D0100 m) {s0 : State} {s : State} (hs : Kept m s0 s) :
    KeptOut m s0 (execTwinAck s) := by
  unfold execTwinAck
  repeat' first
    | with_reducible assumption | (refine Sub.of hm ?_; decide) | with_reducible refine fun (y0 : TwinBurst) (s : State) (h : Kept m s0 s) => ?_
    | (lift_lets; intro x; with_reducible refine (fun (hx : Kept m s0 x) => ?_) ?_; clear_value x) | (lift_lets; intro x)
    | with_reducible apply KeptOut.next | with_reducible apply KeptOut.ite | with_reducible apply Kept.ite | with_reducible apply State.handOver_kept
    | with_reducible apply State.twinBurst_kept | with_reducible apply State.wr_kept | with_reducible apply State.setTwn_kept
    | (intro x; with_reducible refine (fun (hx : Kept m s0 x) => ?_) ?_; clear_value x) | intro x

theorem execTwinNak_kept {m : Nat} (hm : Sub 0x20284D0100 m) {s0 : State} {s : State} (hs : Kept m s0 s) :
    KeptOut m s0 (execTwinNak s) := by
  unfold execTwinNak
  repeat' first
    | with_reducible assumption | (refine Sub.of hm ?_; decide) | with_reducible refine fun (y0 : TwinBurst) (s : State) (h : Kept m s0 s) => ?_
    | (lift_lets; intro x; with_reducible refine (fun (hx : Kept m s0 x) => ?_) ?_; clear_value x) | (lift_lets; intro x)
    | with_reducible apply KeptOut.next | with_reducible apply KeptOut.ite | with_reducible apply Kept.ite | with_reducible apply State.twinBurst_kept
    | with_reducible apply State.setTwn_kept | (intro x; with_reducible refine (fun (hx : Kept m s0 x) => ?_) ?_; clear_value x) | intro x

theorem State.unjournaled_kept {m : Nat} (hm : Sub 0x100000 m) {s0 : State} {s : State} {l : List RecPay} (hs : Kept m s0 s) :
    Kept m s0 (State.unjournaled s l).2 := by
  unfold State.unjournaled
  repeat' first
    | with_reducible assumption | (refine Sub.of hm ?_; decide)
    | (lift_lets; intro x; with_reducible refine (fun (hx : Kept m s0 x) => ?_) ?_; clear_value x) | (lift_lets; intro x)
    | exact Kept.updFree hs (hm.of (by decide)) (Nat.le_add_right _ _)
    | (intro x; with_reducible refine (fun (hx : Kept m s0 x) => ?_) ?_; clear_value x) | intro x

theorem execPull_kept {m : Nat} (hm : Sub 0x20285D0100 m) {s0 : State} {s : State} (hs : Kept m s0 s) :
    KeptOut m s0 (execPull s) := by
  unfold execPull
  repeat' first
    | with_reducible assumption | (refine Sub.of hm ?_; decide) | with_reducible refine fun (y0 : TwinBurst) (s : State) (h : Kept m s0 s) => ?_
    | (lift_lets; intro x; with_reducible refine (fun (hx : Kept m s0 x) => ?_) ?_; clear_value x) | (lift_lets; intro x)
    | with_reducible apply KeptOut.next | with_reducible apply KeptOut.ite | with_reducible apply Kept.ite | with_reducible apply Kept.iteSnd
    | with_reducible apply State.twinBurst_kept | with_reducible apply State.unjournaled_kept | with_reducible apply State.setTwn_kept
    | with_reducible refine Kept.ofSnd (by assumption) ?_ | split | (clear_value *; split) | (dsimp +zetaDelta only; split)
    | (intro x; with_reducible refine (fun (hx : Kept m s0 x) => ?_) ?_; clear_value x) | intro x

theorem execHandover_kept {m : Nat} (hm : Sub 0x20284D0100 m) {s0 : State} {s : State} (hs : Kept m s0 s) :
    KeptOut m s0 (execHandover s) := by
  unfold execHandover
  repeat' first
    | with_reducible assumption | (refine Sub.of hm ?_; decide) | with_reducible refine fun (y0 : TwinBurst) (s : State) (h : Kept m s0 s) => ?_
    | (lift_lets; intro x; with_reducible refine (fun (hx : Kept m s0 x) => ?_) ?_; clear_value x) | (lift_lets; intro x)
    | with_reducible apply KeptOut.next | with_reducible apply State.twinBurst_kept | with_reducible apply State.startTakeover_kept
    | (intro x; with_reducible refine (fun (hx : Kept m s0 x) => ?_) ?_; clear_value x) | intro x

end Sys2Proof.Machine
end

