-- ==== Sys2Proof/Laws/KeptMss.lean ====
section
/-! SUPPORT. What every operation of Machine/Mss.lean keeps, and which parts of the state it may change. -/

set_option linter.unusedTactic false
set_option linter.unreachableTactic false
set_option linter.unusedVariables false
set_option linter.unusedSimpArgs false

namespace Sys2Proof.Machine

theorem State.setMss_kept {m : Nat} (hm : Sub 0x100000000 m) {s0 s : State} {x : MssState} (hs : Kept m s0 s) (e : x.mem = s.mss.mem) :
    Kept m s0 (State.setMss s x) :=
  Kept.updMss hs (hm.of (by decide)) e

theorem State.setMemBytes_kept {m : Nat} (hm : Sub 0x80000000 m) {s0 s : State} {off : Nat} {l : List (Option Byte)} (hs : Kept m s0 s) :
    Kept m s0 (State.setMemBytes s off l) := by
  induction l generalizing s off with
  | nil => exact hs
  | cons b l ih =>
    cases b with
    | none => exact ih hs
    | some b => exact ih (State.setMemByte_kept (hm.of (by decide)) hs)

theorem State.setPoison_kept {m : Nat} (hm : Sub 0x100000000 m) {s0 : State} {s : State} {g : Nat} {on : Bool} (hs : Kept m s0 s) :
    Kept m s0 (State.setPoison s g on) := by
  unfold State.setPoison
  repeat' first
    | with_reducible assumption | (refine Sub.of hm ?_; decide)
    | (lift_lets; intro x; with_reducible refine (fun (hx : Kept m s0 x) => ?_) ?_; clear_value x) | (lift_lets; intro x) | with_reducible apply Kept.ite
    | with_reducible apply State.setMss_kept | with_reducible rfl | (intro x; with_reducible refine (fun (hx : Kept m s0 x) => ?_) ?_; clear_value x)
    | intro x

theorem State.store_kept {m : Nat} (hm : Sub 0x180000000 m) {s0 : State} {s : State} {off : Nat} {bytes : List (Option Byte)} (hs : Kept m s0 s) :
    Kept m s0 (State.store s off bytes) := by
  unfold State.store
  repeat' first
    | with_reducible assumption | (refine Sub.of hm ?_; decide)
    | (lift_lets; intro x; with_reducible refine (fun (hx : Kept m s0 x) => ?_) ?_; clear_value x) | (lift_lets; intro x)
    | with_reducible apply State.setPoison_kept | with_reducible apply State.setMemBytes_kept | (with_reducible refine Kept.foldl ?_ ?_; intro a x hx)
    | (intro x; with_reducible refine (fun (hx : Kept m s0 x) => ?_) ?_; clear_value x) | intro x

theorem State.memUe_kept {m : Nat} (hm : Sub 0x21004D0400 m) {s0 : State} {s : State} {off : Nat} {scrub : Bool} (hs : Kept m s0 s) :
    Kept m s0 (State.memUe s off scrub) := by
  unfold State.memUe
  repeat' first
    | with_reducible assumption | (refine Sub.of hm ?_; decide)
    | (lift_lets; intro x; with_reducible refine (fun (hx : Kept m s0 x) => ?_) ?_; clear_value x) | (lift_lets; intro x) | with_reducible apply Kept.ite
    | with_reducible apply Kept.iteFst | with_reducible apply State.fault_kept | with_reducible apply State.setPoison_kept
    | with_reducible apply State.cause0_kept | with_reducible apply State.inc_kept | with_reducible apply State.wrs_nil_kept
    | with_reducible apply State.wrs_cons_kept | with_reducible apply State.wrs_ite_kept | with_reducible apply State.wr_kept
    | (intro x; with_reducible refine (fun (hx : Kept m s0 x) => ?_) ?_; clear_value x) | intro x

theorem State.eccSeen_kept {m : Nat} (hm : Sub 0x21004D0400 m) {s0 : State} {s : State} {off : Nat} {scrub : Bool} {res : EccResult} (hs : Kept m s0 s) :
    Kept m s0 (State.eccSeen s off scrub res) := by
  unfold State.eccSeen
  repeat' first
    | with_reducible assumption | (refine Sub.of hm ?_; decide)
    | (lift_lets; intro x; with_reducible refine (fun (hx : Kept m s0 x) => ?_) ?_; clear_value x) | (lift_lets; intro x)
    | with_reducible apply State.fault_kept | with_reducible apply State.memUe_kept | with_reducible apply State.inc_kept
    | with_reducible apply State.stat_kept | (refine Sub.page 10 hm ?_ (by decide); simp only [Fld.key, F.MSS_ODECC_COUNT, F.MSS_CE_COUNT_COUNT]; omega)
    | split | (clear_value *; split) | (dsimp +zetaDelta only; split) | (intro x; with_reducible refine (fun (hx : Kept m s0 x) => ?_) ?_; clear_value x)
    | intro x

theorem execMemoryAccessDone_kept {m : Nat} (hm : Sub 0x21804D0400 m) {s0 : State} {_cl : MemClass} {offset : BitVec 35} {op : MemOp} {ecc : EccResult} {s : State} (hs : Kept m s0 s) :
    KeptOut m s0 (execMemoryAccessDone _cl offset op ecc s) := by
  unfold execMemoryAccessDone
  repeat' first
    | with_reducible assumption | (refine Sub.of hm ?_; decide)
    | (lift_lets; intro x; with_reducible refine (fun (hx : Kept m s0 x) => ?_) ?_; clear_value x) | (lift_lets; intro x)
    | with_reducible apply KeptOut.next | with_reducible apply KeptOut.ite | with_reducible apply Kept.ite | with_reducible apply State.store_kept
    | with_reducible apply State.eccSeen_kept | split | (clear_value *; split) | (dsimp +zetaDelta only; split)
    | (intro x; with_reducible refine (fun (hx : Kept m s0 x) => ?_) ?_; clear_value x) | intro x

theorem execScrubAccess_kept {m : Nat} (hm : Sub 0x21004D0400 m) {s0 : State} {st : StackIx} {res : EccResult} {s : State} (hs : Kept m s0 s) :
    KeptOut m s0 (execScrubAccess st res s) := by
  unfold execScrubAccess
  repeat' first
    | with_reducible assumption | (refine Sub.of hm ?_; decide)
    | (lift_lets; intro x; with_reducible refine (fun (hx : Kept m s0 x) => ?_) ?_; clear_value x) | (lift_lets; intro x)
    | with_reducible apply KeptOut.next | with_reducible apply KeptOut.ite | with_reducible apply Kept.ite | with_reducible apply State.setBit_kept
    | with_reducible apply State.wr_kept | with_reducible apply State.setMss_kept | with_reducible apply State.inc_kept
    | with_reducible apply State.stat_kept | with_reducible apply State.eccSeen_kept | with_reducible rfl
    | (refine Sub.page 10 hm ?_ (by decide); simp only [Fld.key, F.MSS_SCRUB_PASS_COUNT, F.MSS_SCRUB_POS_POS]; omega)
    | (intro x; with_reducible refine (fun (hx : Kept m s0 x) => ?_) ?_; clear_value x) | intro x

theorem execScrubBehind_kept {m : Nat} (hm : Sub 0x4D0400 m) {s0 : State} {st : StackIx} {s : State} (hs : Kept m s0 s) :
    KeptOut m s0 (execScrubBehind st s) := by
  unfold execScrubBehind
  repeat' first
    | with_reducible assumption | (refine Sub.of hm ?_; decide) | with_reducible apply KeptOut.next | with_reducible apply KeptOut.ite
    | with_reducible apply Kept.ite | with_reducible apply State.setBit_kept | with_reducible apply State.cause0_kept

theorem State.showTrainPct_kept {m : Nat} (hm : Sub 0x400 m) {s0 : State} {s : State} (hs : Kept m s0 s) :
    Kept m s0 (State.showTrainPct s) := by
  unfold State.showTrainPct
  repeat' first
    | with_reducible assumption | (refine Sub.of hm ?_; decide)
    | (lift_lets; intro x; with_reducible refine (fun (hx : Kept m s0 x) => ?_) ?_; clear_value x) | (lift_lets; intro x) | with_reducible apply Kept.ite
    | with_reducible apply State.wr_kept | (intro x; with_reducible refine (fun (hx : Kept m s0 x) => ?_) ?_; clear_value x) | intro x

theorem State.startTrain_kept {m : Nat} (hm : Sub 0x100000400 m) {s0 : State} {s : State} {noZero : Bool} (hs : Kept m s0 s) :
    Kept m s0 (State.startTrain s noZero) := by
  unfold State.startTrain
  repeat' first
    | with_reducible assumption | (refine Sub.of hm ?_; decide)
    | (lift_lets; intro x; with_reducible refine (fun (hx : Kept m s0 x) => ?_) ?_; clear_value x) | (lift_lets; intro x) | with_reducible apply Kept.ite
    | with_reducible apply State.setMss_kept | with_reducible apply State.wrs_nil_kept | with_reducible apply State.wrs_cons_kept
    | with_reducible apply State.wrs_ite_kept | with_reducible apply State.wr_kept | with_reducible rfl
    | (unfold tstate; split <;> (refine Sub.of hm ?_; decide)) | (intro x; with_reducible refine (fun (hx : Kept m s0 x) => ?_) ?_; clear_value x)
    | intro x

theorem State.trainWritten_kept {m : Nat} (hm : Sub 0x100000400 m) {s0 : State} {s : State} (hs : Kept m s0 s) :
    Kept m s0 (State.trainWritten s) := by
  unfold State.trainWritten
  repeat' first
    | with_reducible assumption | (refine Sub.of hm ?_; decide) | with_reducible apply Kept.ite | with_reducible apply State.wr_kept
    | with_reducible apply State.startTrain_kept

theorem State.resumeTrain_kept {m : Nat} (hm : Sub 0x100000400 m) {s0 : State} {s : State} (hs : Kept m s0 s) :
    Kept m s0 (State.resumeTrain s) := by
  unfold State.resumeTrain
  repeat' first
    | with_reducible assumption | (refine Sub.of hm ?_; decide) | with_reducible apply Kept.ite | with_reducible apply State.trainWritten_kept

theorem State.zeroStack_kept {m : Nat} (hm : Sub 0x180000000 m) {s0 s : State} {k : Nat} (hs : Kept m s0 s) : Kept m s0 (State.zeroStack s k) :=
  Kept.updMss (s := { s with mss := { s.mss with mem := s.mss.mem.filter (fun c => c.1 / 2 ^ 34 != k) } })
    (Kept.setMem (hm.of (by decide)) (Memory.wf_filter _ _) hs) (hm.of (by decide)) rfl

theorem State.trainFail_kept {m : Nat} (hm : Sub 0x20004D0400 m) {s0 : State} {s : State} {k : Nat} (hs : Kept m s0 s) :
    Kept m s0 (State.trainFail s k) := by
  unfold State.trainFail
  repeat' first
    | with_reducible assumption | (refine Sub.of hm ?_; decide) | with_reducible apply State.fault_kept | with_reducible apply State.wr_kept
    | with_reducible apply State.showTrainPct_kept | with_reducible apply State.cause0_kept | (unfold tstate; split <;> (refine Sub.of hm ?_; decide))

theorem execMssTrainStageEnd_kept {m : Nat} (hm : Sub 0x21804D0400 m) {s0 : State} {st : StackIx} {ok : Bool} {s : State} (hs : Kept m s0 s) :
    KeptOut m s0 (execMssTrainStageEnd st ok s) := by
  unfold execMssTrainStageEnd
  repeat' first
    | with_reducible assumption | (refine Sub.of hm ?_; decide)
    | (lift_lets; intro x; with_reducible refine (fun (hx : Kept m s0 x) => ?_) ?_; clear_value x) | (lift_lets; intro x)
    | with_reducible apply KeptOut.next | with_reducible apply KeptOut.ite | with_reducible apply Kept.ite | with_reducible apply State.zeroStack_kept
    | with_reducible apply State.trainFail_kept | with_reducible apply State.wr_kept | with_reducible apply State.showTrainPct_kept
    | with_reducible apply State.cause0_kept | with_reducible apply State.setMss_kept | with_reducible rfl
    | (unfold tstate; split <;> (refine Sub.of hm ?_; decide)) | (intro x; with_reducible refine (fun (hx : Kept m s0 x) => ?_) ?_; clear_value x)
    | intro x

theorem State.mssForce_kept {m : Nat} (hm : Sub 0x4D0400 m) {s0 : State} {s : State} (hs : Kept m s0 s) :
    Kept m s0 (State.mssForce s).1 := by
  unfold State.mssForce
  repeat' first
    | with_reducible assumption | (refine Sub.of hm ?_; decide)
    | (lift_lets; intro x; with_reducible refine (fun (hx : Kept m s0 x) => ?_) ?_; clear_value x) | (lift_lets; intro x) | with_reducible apply Kept.ite
    | with_reducible apply Kept.iteFst | with_reducible apply State.wr_kept | with_reducible apply State.cause0_kept
    | (unfold tstate; split <;> (refine Sub.of hm ?_; decide)) | (intro x; with_reducible refine (fun (hx : Kept m s0 x) => ?_) ?_; clear_value x)
    | intro x

end Sys2Proof.Machine
end

