-- ==== Sys2Proof/Laws/KeptRme.lean ====
section
/-! SUPPORT. What every operation of Machine/Rme.lean keeps, and which parts of the state it may change. -/

set_option linter.unusedTactic false
set_option linter.unreachableTactic false
set_option linter.unusedVariables false
set_option linter.unusedSimpArgs false

namespace Sys2Proof.Machine

theorem State.setRme_kept {m : Nat} (hm : Sub 0x200000000 m) {s0 : State} {s : State} {r : RmeState} (hs : Kept m s0 s) :
    Kept m s0 (State.setRme s r) := by
  unfold State.setRme
  repeat' first
    | with_reducible assumption | (refine Sub.of hm ?_; decide) | with_reducible exact Kept.updRme (by assumption) (hm.of (by decide))
    | with_reducible refine Kept.updRme ?_ (hm.of (by decide))

theorem State.setOps_kept {m : Nat} (hm : Sub 0x200000000 m) {s0 : State} {s : State} {l : List RmeOp} (hs : Kept m s0 s) :
    Kept m s0 (State.setOps s l) := by
  unfold State.setOps
  repeat' first
    | with_reducible assumption | (refine Sub.of hm ?_; decide) | with_reducible apply State.setRme_kept

theorem State.takeMessage_kept {m : Nat} (hm : Sub 0x8000000 m) {s0 : State} {s : State} {c : Nat} {mm : InMsg} (hs : Kept m s0 s) :
    Kept m s0 (State.takeMessage s c mm) := by
  unfold State.takeMessage
  repeat' first
    | with_reducible assumption | (refine Sub.of hm ?_; decide)
    | (lift_lets; intro x; with_reducible refine (fun (hx : Kept m s0 x) => ?_) ?_; clear_value x) | (lift_lets; intro x)
    | with_reducible apply State.setCircLink_kept | with_reducible apply State.giveCredit_kept | (with_reducible refine Kept.foldl ?_ ?_; intro a x hx)
    | (with_reducible refine Kept.foldlFst ?_ ?_; intro a x hx) | (with_reducible refine Kept.foldlSnd ?_ ?_; intro a x hx)
    | (intro x; with_reducible refine (fun (hx : Kept m s0 x) => ?_) ?_; clear_value x) | intro x

theorem State.perform_kept {m : Nat} (hm : Sub 0x180000000 m) {s0 : State} {s : State} {kind : Nat} {off : Nat} {len : Nat} {data : List (Option Byte)} {aop : Nat} {opa : Nat} {opb : Nat} (hs : Kept m s0 s) :
    Kept m s0 (State.perform s kind off len data aop opa opb).1 := by
  unfold State.perform
  repeat' first
    | with_reducible assumption | (refine Sub.of hm ?_; decide)
    | (lift_lets; intro x; with_reducible refine (fun (hx : Kept m s0 x) => ?_) ?_; clear_value x) | (lift_lets; intro x) | with_reducible apply Kept.ite
    | with_reducible apply Kept.iteFst | with_reducible apply State.store_kept | with_reducible refine Kept.ofFst (by assumption) ?_ | split
    | (clear_value *; split) | (dsimp +zetaDelta only; split) | (intro x; with_reducible refine (fun (hx : Kept m s0 x) => ?_) ?_; clear_value x)
    | intro x

theorem State.target_kept {m : Nat} (hm : Sub 0x180000000 m) {s0 : State} {s : State} {node : Nat} {part : Nat} {kind : Nat} {off : Nat} {len : Nat} {data : List (Option Byte)} {aop : Nat} {opa : Nat} {opb : Nat} (hs : Kept m s0 s) :
    Kept m s0 (State.target s node part kind off len data aop opa opb).1 := by
  unfold State.target
  repeat' first
    | with_reducible assumption | (refine Sub.of hm ?_; decide)
    | (lift_lets; intro x; with_reducible refine (fun (hx : Kept m s0 x) => ?_) ?_; clear_value x) | (lift_lets; intro x) | with_reducible apply Kept.ite
    | with_reducible apply Kept.iteFst | with_reducible apply State.perform_kept
    | (intro x; with_reducible refine (fun (hx : Kept m s0 x) => ?_) ?_; clear_value x) | intro x

theorem State.answer_kept {m : Nat} (hm : Sub 0x188000000 m) {s0 : State} {s : State} {c : Nat} {h : MemReq} (hs : Kept m s0 s) :
    Kept m s0 (State.answer s c h) := by
  unfold State.answer
  repeat' first
    | with_reducible assumption | (refine Sub.of hm ?_; decide)
    | (lift_lets; intro x; with_reducible refine (fun (hx : Kept m s0 x) => ?_) ?_; clear_value x) | (lift_lets; intro x) | with_reducible apply Kept.ite
    | with_reducible apply Kept.iteFst | with_reducible apply Kept.iteSnd | with_reducible apply State.target_kept
    | with_reducible apply State.takeMessage_kept | with_reducible apply State.queueMessage_kept | with_reducible refine Kept.ofFst (by assumption) ?_
    | (intro x; with_reducible refine (fun (hx : Kept m s0 x) => ?_) ?_; clear_value x) | intro x

theorem State.serve_kept {m : Nat} (hm : Sub 0x188000000 m) {s0 : State} {s : State} {c : Nat} {p : MemReq → Bool} (hs : Kept m s0 s) :
    Kept m s0 (State.serve s c p) := by
  unfold State.serve
  repeat' first
    | with_reducible assumption | (refine Sub.of hm ?_; decide) | with_reducible apply Kept.ite | with_reducible apply State.answer_kept | split

theorem execReadReq_kept {m : Nat} (hm : Sub 0x188000000 m) {s0 : State} {c : CircIx} {s : State} (hs : Kept m s0 s) :
    KeptOut m s0 (execReadReq c s) := by
  unfold execReadReq
  repeat' first
    | with_reducible assumption | (refine Sub.of hm ?_; decide)
    | (lift_lets; intro x; with_reducible refine (fun (hx : Kept m s0 x) => ?_) ?_; clear_value x) | (lift_lets; intro x)
    | with_reducible apply KeptOut.next | with_reducible apply State.serve_kept
    | (intro x; with_reducible refine (fun (hx : Kept m s0 x) => ?_) ?_; clear_value x) | intro x

theorem execWriteReq_kept {m : Nat} (hm : Sub 0x188000000 m) {s0 : State} {c : CircIx} {s : State} (hs : Kept m s0 s) :
    KeptOut m s0 (execWriteReq c s) := by
  unfold execWriteReq
  repeat' first
    | with_reducible assumption | (refine Sub.of hm ?_; decide)
    | (lift_lets; intro x; with_reducible refine (fun (hx : Kept m s0 x) => ?_) ?_; clear_value x) | (lift_lets; intro x)
    | with_reducible apply KeptOut.next | with_reducible apply State.serve_kept
    | (intro x; with_reducible refine (fun (hx : Kept m s0 x) => ?_) ?_; clear_value x) | intro x

theorem execAtomicReq_kept {m : Nat} (hm : Sub 0x188000000 m) {s0 : State} {c : CircIx} {s : State} (hs : Kept m s0 s) :
    KeptOut m s0 (execAtomicReq c s) := by
  unfold execAtomicReq
  repeat' first
    | with_reducible assumption | (refine Sub.of hm ?_; decide)
    | (lift_lets; intro x; with_reducible refine (fun (hx : Kept m s0 x) => ?_) ?_; clear_value x) | (lift_lets; intro x)
    | with_reducible apply KeptOut.next | with_reducible apply State.serve_kept
    | (intro x; with_reducible refine (fun (hx : Kept m s0 x) => ?_) ?_; clear_value x) | intro x

theorem execRmeTargetRespond_kept {m : Nat} (hm : Sub 0x188000000 m) {s0 : State} {c : CircIx} {s : State} (hs : Kept m s0 s) :
    KeptOut m s0 (execRmeTargetRespond c s) := by
  unfold execRmeTargetRespond
  repeat' first
    | with_reducible assumption | (refine Sub.of hm ?_; decide)
    | (lift_lets; intro x; with_reducible refine (fun (hx : Kept m s0 x) => ?_) ?_; clear_value x) | (lift_lets; intro x)
    | with_reducible apply KeptOut.next | with_reducible apply State.serve_kept
    | (intro x; with_reducible refine (fun (hx : Kept m s0 x) => ?_) ?_; clear_value x) | intro x

theorem State.countOutcome_kept {m : Nat} (hm : Sub 0x20004D0808 m) {s0 s : State} {f : Fn} {o : Nat} (hs : Kept m s0 s) :
    Kept m s0 (State.countOutcome s f o) := by
  unfold State.countOutcome
  lift_lets
  intro vf'
  have vf (s : State) (i : Nat) (h : Kept m s0 s) : Kept m s0 (if f.val = 0 then s else s.cause f 2 i) :=
    Kept.ite h (State.cause_kept (hm.of (by decide)) h)
  have cnt {g : Fld} (i : Nat) (hg : Sub (2 ^ g.part.ix) m) : Kept m s0 ((s.inc g).cause0 0x0B i) :=
    State.cause0_kept (hm.of (by decide)) (State.inc_kept (hm.of (by decide)) hg hs)
  split
  · exact State.fault_kept (hm.of (by decide)) (cnt (g := F.RME_POISON_COUNT) 3 (hm.of (by decide)))
  · exact vf _ _ (cnt (g := F.RME_DENIED_COUNT) 2 (hm.of (by decide)))
  · exact State.inc_kept (f := F.RME_BAD_ADDR_COUNT) (hm.of (by decide)) (hm.of (by decide)) hs
  · exact vf _ _ (cnt (g := F.RME_NOROUTE_COUNT) 1 (hm.of (by decide)))
  · refine vf _ _ ?_
    have h := State.fault_kept (src := 40) (kind := 2) (scope := f.val) (code := 0) (hm.of (by decide)) (cnt (g := F.RME_CONGESTED_COUNT) 0 (hm.of (by decide)))
    split
    · exact h
    · next hf =>
      refine State.inc_kept (hm.of (by decide)) (Sub.upper hm ?_ (by decide)) h
      simp only [Fld.key, pageBase, F.VF_RME_CONGESTED_COUNT, hf, if_false]; omega
  · exact hs

theorem State.logErr_kept {m : Nat} (hm : Sub 0x800 m) {s0 : State} {s : State} {f : Fn} {o : Nat} {ga : Nat} (hs : Kept m s0 s) :
    Kept m s0 (State.logErr s f o ga) := by
  unfold State.logErr
  repeat' first
    | with_reducible assumption | (refine Sub.of hm ?_; decide) | with_reducible apply State.wrs_nil_kept | with_reducible apply State.wrs_cons_kept
    | with_reducible apply State.wrs_ite_kept | with_reducible apply State.wr_kept

theorem State.bar2Done_kept {m : Nat} (hm : Sub 0x80000 m) {s0 : State} {s : State} {f : Fn} {o : Nat} {data : List Byte} (hs : Kept m s0 s) :
    Kept m s0 (State.bar2Done s f o data) := by
  unfold State.bar2Done
  repeat' first
    | with_reducible assumption | (refine Sub.of hm ?_; decide)
    | (lift_lets; intro x; with_reducible refine (fun (hx : Kept m s0 x) => ?_) ?_; clear_value x) | (lift_lets; intro x) | with_reducible apply Kept.ite
    | with_reducible apply State.send_kept | (intro x; with_reducible refine (fun (hx : Kept m s0 x) => ?_) ?_; clear_value x) | intro x

theorem State.atomicDone_kept {m : Nat} (hm : Sub 0x5D0800 m) {s0 : State} {s : State} {f : Fn} {n : Nat} {o : Nat} {data : List Byte} (hs : Kept m s0 s) :
    Kept m s0 (State.atomicDone s f n o data) := by
  unfold State.atomicDone
  repeat' first
    | with_reducible assumption | (refine Sub.of hm ?_; decide)
    | (lift_lets; intro x; with_reducible refine (fun (hx : Kept m s0 x) => ?_) ?_; clear_value x) | (lift_lets; intro x) | with_reducible apply Kept.ite
    | with_reducible apply Kept.iteFst | with_reducible apply Kept.iteSnd | with_reducible apply State.free_kept | with_reducible apply State.cause0_kept
    | with_reducible apply State.cause_kept | with_reducible apply State.wrs_nil_kept | with_reducible apply State.wrs_cons_kept
    | with_reducible apply State.wrs_ite_kept | with_reducible apply State.wr_kept
    | (refine Sub.queue 11 hm ?_ (by decide); simp +zetaDelta only [Fld.key, atmBase, pageBase, F.ATM_RESULT_RESULT, F.ATM_STAT_POISON, F.ATM_STAT_BUSY, F.ATM_STAT_STATUS]; split_ifs <;> omega)
    | (refine Sub.upper hm ?_ (by decide); simp +zetaDelta only [Fld.key, atmBase, pageBase, F.ATM_RESULT_RESULT, F.ATM_STAT_POISON, F.ATM_STAT_BUSY, F.ATM_STAT_STATUS]; split_ifs <;> omega)
    | with_reducible refine Kept.ofSnd (by assumption) ?_ | split | (clear_value *; split) | (dsimp +zetaDelta only; split)
    | (intro x; with_reducible refine (fun (hx : Kept m s0 x) => ?_) ?_; clear_value x) | intro x

theorem State.updDma_kept {m : Nat} (hm : Sub 0x200000000 m) {s0 : State} {s : State} {ch : Nat} {f : Dma → Dma} (hs : Kept m s0 s) :
    Kept m s0 (State.updDma s ch f) := by
  unfold State.updDma
  repeat' first
    | with_reducible assumption | (refine Sub.of hm ?_; decide)
    | (lift_lets; intro x; with_reducible refine (fun (hx : Kept m s0 x) => ?_) ?_; clear_value x) | (lift_lets; intro x)
    | with_reducible apply State.setRme_kept | (intro x; with_reducible refine (fun (hx : Kept m s0 x) => ?_) ?_; clear_value x) | intro x

theorem State.dmaOp_kept {m : Nat} (hm : Sub 0x200000000 m) {s0 : State} {s : State} {ch : Nat} {pos : Nat} {len : Nat} {o : Nat} {npois : Nat} (hs : Kept m s0 s) :
    Kept m s0 (State.dmaOp s ch pos len o npois) := by
  unfold State.dmaOp
  repeat' first
    | with_reducible assumption | (refine Sub.of hm ?_; decide)
    | (lift_lets; intro x; with_reducible refine (fun (hx : Kept m s0 x) => ?_) ?_; clear_value x) | (lift_lets; intro x) | with_reducible apply Kept.ite
    | with_reducible apply State.updDma_kept | (intro x; with_reducible refine (fun (hx : Kept m s0 x) => ?_) ?_; clear_value x) | intro x

theorem State.copyOut_kept {m : Nat} (hm : Sub 0x180480000 m) {s0 : State} {s : State} {f : Fn} {e : Block64} {pos : Nat} {o : Nat} {data : List Byte} {pois : List Nat} {srcOff : Nat} (hs : Kept m s0 s) :
    Kept m s0 (State.copyOut s f e pos o data pois srcOff).1 := by
  unfold State.copyOut
  repeat' first
    | with_reducible assumption | (refine Sub.of hm ?_; decide)
    | (lift_lets; intro x; with_reducible refine (fun (hx : Kept m s0 x) => ?_) ?_; clear_value x) | (lift_lets; intro x) | with_reducible apply Kept.ite
    | with_reducible apply Kept.iteFst | with_reducible apply Kept.iteSnd | with_reducible apply State.setPoison_kept
    | with_reducible apply State.target_kept | with_reducible apply State.hostWriteAt_kept | (with_reducible refine Kept.foldl ?_ ?_; intro a x hx)
    | (with_reducible refine Kept.foldlFst ?_ ?_; intro a x hx) | (with_reducible refine Kept.foldlSnd ?_ ?_; intro a x hx)
    | with_reducible refine Kept.ofFst (by assumption) ?_ | (intro x; with_reducible refine (fun (hx : Kept m s0 x) => ?_) ?_; clear_value x) | intro x

theorem State.countOp_kept {m : Nat} (hm : Sub 0x8000040000 m) {s0 : State} {s : State} {op : RmeOp} {o : Nat} (hs : Kept m s0 s) :
    Kept m s0 (State.countOp s op o) := by
  unfold State.countOp
  repeat' first
    | with_reducible assumption | (refine Sub.of hm ?_; decide)
    | (lift_lets; intro x; with_reducible refine (fun (hx : Kept m s0 x) => ?_) ?_; clear_value x) | (lift_lets; intro x) | with_reducible apply Kept.ite
    | with_reducible apply State.statPart_kept | with_reducible apply State.stat_kept
    | (intro x; with_reducible refine (fun (hx : Kept m s0 x) => ?_) ?_; clear_value x) | intro x

theorem State.opDone_kept {m : Nat} (hm : Sub 0xA3805D0808 m) {s0 : State} {s : State} {op : RmeOp} {o : Nat} {data : List Byte} {pois : List Nat} (hs : Kept m s0 s) :
    Kept m s0 (State.opDone s op o data pois) := by
  unfold State.opDone
  repeat' first
    | with_reducible assumption | (refine Sub.of hm ?_; decide)
    | (lift_lets; intro x; with_reducible refine (fun (hx : Kept m s0 x) => ?_) ?_; clear_value x) | (lift_lets; intro x) | with_reducible apply Kept.ite
    | with_reducible apply Kept.iteFst | with_reducible apply Kept.iteSnd | with_reducible apply State.atomicDone_kept
    | with_reducible apply State.bar2Done_kept | with_reducible apply State.countOutcome_kept | with_reducible apply State.copyOut_kept
    | with_reducible apply State.countOp_kept | with_reducible apply State.logErr_kept | with_reducible apply State.dmaOp_kept
    | with_reducible refine Kept.ofFst (by assumption) ?_ | split | (clear_value *; split) | (dsimp +zetaDelta only; split)
    | (intro x; with_reducible refine (fun (hx : Kept m s0 x) => ?_) ?_; clear_value x) | intro x

theorem State.enterTurn_kept {m : Nat} (hm : Sub 0x8000000 m) {s0 : State} {s : State} {c : Nat} {part : Nat} {n : Nat} (hs : Kept m s0 s) :
    KeptOpt m s0 (State.enterTurn s c part n) := by
  unfold State.enterTurn
  repeat' first
    | with_reducible assumption | (refine Sub.of hm ?_; decide)
    | (lift_lets; intro x; with_reducible refine (fun (hx : Kept m s0 x) => ?_) ?_; clear_value x) | (lift_lets; intro x)
    | with_reducible apply KeptOpt.none | with_reducible apply KeptOpt.some | with_reducible apply KeptOpt.ite | with_reducible apply Kept.ite
    | with_reducible apply Kept.iteFst | with_reducible apply Kept.iteSnd | with_reducible apply State.setCircLink_kept | split | (clear_value *; split)
    | (dsimp +zetaDelta only; split) | (intro x; with_reducible refine (fun (hx : Kept m s0 x) => ?_) ?_; clear_value x) | intro x

theorem State.issue_kept {m : Nat} (hm : Sub 0xA3885D0808 m) {s0 : State} {s : State} {op : RmeOp} (hs : Kept m s0 s) :
    Kept m s0 (State.issue s op) := by
  unfold State.issue
  repeat' first
    | with_reducible assumption | (refine Sub.of hm ?_; decide)
    | (lift_lets; intro x; with_reducible refine (fun (hx : Kept m s0 x) => ?_) ?_; clear_value x) | (lift_lets; intro x) | with_reducible apply Kept.ite
    | with_reducible apply Kept.iteFst | with_reducible apply Kept.iteSnd | with_reducible apply State.opDone_kept
    | with_reducible apply State.target_kept | with_reducible apply State.free_kept | with_reducible apply State.setOps_kept
    | with_reducible apply State.enterTurn_kept | with_reducible apply State.queueMessage_kept | with_reducible refine Kept.ofSome (by assumption) ?_
    | with_reducible refine Kept.ofFst (by assumption) ?_ | with_reducible refine Kept.ofSnd (by assumption) ?_ | split | (clear_value *; split)
    | (dsimp +zetaDelta only; split) | (intro x; with_reducible refine (fun (hx : Kept m s0 x) => ?_) ?_; clear_value x) | intro x

theorem State.dmaStep_kept {m : Nat} (hm : Sub 0xA3885D0808 m) {s0 : State} {s : State} {d : Dma} (hs : Kept m s0 s) :
    KeptOpt m s0 (State.dmaStep s d) := by
  unfold State.dmaStep
  repeat' first
    | with_reducible assumption | (refine Sub.of hm ?_; decide)
    | (lift_lets; intro x; with_reducible refine (fun (hx : Kept m s0 x) => ?_) ?_; clear_value x) | (lift_lets; intro x)
    | with_reducible apply KeptOpt.none | with_reducible apply KeptOpt.some | with_reducible apply KeptOpt.ite | with_reducible apply Kept.ite
    | with_reducible apply Kept.iteFst | with_reducible apply Kept.iteSnd | with_reducible apply State.updDma_kept
    | with_reducible apply State.issue_kept | with_reducible apply State.opDone_kept | with_reducible apply State.target_kept
    | with_reducible apply State.hostAcc_kept | with_reducible apply State.countOutcome_kept | with_reducible apply State.setOps_kept
    | with_reducible apply State.dmaOp_kept | with_reducible refine Kept.ofFst (by assumption) ?_ | split | (clear_value *; split)
    | (dsimp +zetaDelta only; split) | (intro x; with_reducible refine (fun (hx : Kept m s0 x) => ?_) ?_; clear_value x) | intro x

theorem State.issueNext_kept {m : Nat} (hm : Sub 0xA3885D0808 m) {s0 : State} {s : State} {f : Nat} (hs : Kept m s0 s) :
    KeptOpt m s0 (State.issueNext s f) := by
  unfold State.issueNext
  repeat' first
    | with_reducible assumption | (refine Sub.of hm ?_; decide)
    | (lift_lets; intro x; with_reducible refine (fun (hx : Kept m s0 x) => ?_) ?_; clear_value x) | (lift_lets; intro x)
    | with_reducible apply KeptOpt.none | with_reducible apply KeptOpt.some | with_reducible apply KeptOpt.ite | with_reducible apply State.dmaStep_kept
    | with_reducible apply State.issue_kept | (with_reducible refine KeptOpt.findSome ?_; intro x) | with_reducible refine Kept.ofSome (by assumption) ?_
    | split | (clear_value *; split) | (dsimp +zetaDelta only; split) | (intro x; with_reducible refine (fun (hx : Kept m s0 x) => ?_) ?_; clear_value x)
    | intro x

theorem State.issueTurn_kept {m : Nat} (hm : Sub 0xA3885D0808 m) {s0 : State} {s : State} {f : Nat} (hs : Kept m s0 s) :
    KeptOpt m s0 (State.issueTurn s f) := by
  unfold State.issueTurn
  repeat' first
    | with_reducible assumption | (refine Sub.of hm ?_; decide)
    | (lift_lets; intro x; with_reducible refine (fun (hx : Kept m s0 x) => ?_) ?_; clear_value x) | (lift_lets; intro x)
    | with_reducible apply KeptOpt.none | with_reducible apply KeptOpt.some | with_reducible apply KeptOpt.ite | with_reducible apply Kept.ite
    | with_reducible apply State.setRme_kept | with_reducible apply State.issueNext_kept | with_reducible refine Kept.ofSome (by assumption) ?_ | split
    | (clear_value *; split) | (dsimp +zetaDelta only; split) | (intro x; with_reducible refine (fun (hx : Kept m s0 x) => ?_) ?_; clear_value x)
    | intro x

theorem State.newOp_kept {m : Nat} (hm : Sub 0xA3885D0808 m) {s0 : State} {s : State} {op : RmeOp} (hs : Kept m s0 s) :
    Kept m s0 (State.newOp s op) := by
  unfold State.newOp
  repeat' first
    | with_reducible assumption | (refine Sub.of hm ?_; decide)
    | (lift_lets; intro x; with_reducible refine (fun (hx : Kept m s0 x) => ?_) ?_; clear_value x) | (lift_lets; intro x) | with_reducible apply Kept.ite
    | with_reducible apply State.issue_kept | with_reducible apply State.setOps_kept
    | (intro x; with_reducible refine (fun (hx : Kept m s0 x) => ?_) ?_; clear_value x) | intro x

theorem State.dmaRun_kept {m : Nat} (hm : Sub 0xA3885D0808 m) {s0 : State} {s : State} {ch : Nat} {a0 : Nat} (hs : Kept m s0 s) :
    Kept m s0 (State.dmaRun s ch a0) := by
  induction a0 generalizing s ch with
  | zero =>
    unfold State.dmaRun
    repeat' first
      | with_reducible assumption | (refine Sub.of hm ?_; decide)
      | (lift_lets; intro x; with_reducible refine (fun (hx : Kept m s0 x) => ?_) ?_; clear_value x) | (lift_lets; intro x)
      | with_reducible apply Kept.ite | with_reducible apply State.dmaStep_kept | (with_reducible refine KeptOpt.bind ?_; intro x)
      | with_reducible refine Kept.ofSome (by assumption) ?_ | split | (clear_value *; split) | (dsimp +zetaDelta only; split)
      | (intro x; with_reducible refine (fun (hx : Kept m s0 x) => ?_) ?_; clear_value x) | intro x
  | succ n ih =>
    unfold State.dmaRun
    repeat' first
      | (with_reducible apply ih) | with_reducible assumption | (refine Sub.of hm ?_; decide)
      | (lift_lets; intro x; with_reducible refine (fun (hx : Kept m s0 x) => ?_) ?_; clear_value x) | (lift_lets; intro x)
      | with_reducible apply Kept.ite | with_reducible apply State.dmaStep_kept | (with_reducible refine KeptOpt.bind ?_; intro x)
      | with_reducible refine Kept.ofSome (by assumption) ?_ | split | (clear_value *; split) | (dsimp +zetaDelta only; split)
      | (intro x; with_reducible refine (fun (hx : Kept m s0 x) => ?_) ?_; clear_value x) | intro x

theorem State.startCopy_kept {m : Nat} (hm : Sub 0xA38A5D0808 m) {s0 : State} {s : State} {c : Cmd} (hs : Kept m s0 s) :
    Kept m s0 (State.startCopy s c) := by
  unfold State.startCopy
  repeat' first
    | with_reducible assumption | (refine Sub.of hm ?_; decide) | with_reducible apply State.dmaRun_kept | with_reducible apply State.setRme_kept
    | with_reducible apply State.setWait_kept | split

theorem State.rmeSettle_kept {m : Nat} (hm : Sub 0xA38A5D0808 m) {s0 : State} {s : State} {a0 : Nat} (hs : Kept m s0 s) :
    Kept m s0 (State.rmeSettle s a0) := by
  induction a0 generalizing s with
  | zero =>
    unfold State.rmeSettle
    repeat' first
      | with_reducible assumption | (refine Sub.of hm ?_; decide)
      | (lift_lets; intro x; with_reducible refine (fun (hx : Kept m s0 x) => ?_) ?_; clear_value x) | (lift_lets; intro x)
      | with_reducible apply Kept.ite | with_reducible apply State.setRme_kept | with_reducible apply State.complete_kept
      | with_reducible apply State.startCopy_kept | split | (clear_value *; split) | (dsimp +zetaDelta only; split)
      | (intro x; with_reducible refine (fun (hx : Kept m s0 x) => ?_) ?_; clear_value x) | intro x
  | succ n ih =>
    unfold State.rmeSettle
    repeat' first
      | (with_reducible apply ih) | with_reducible assumption | (refine Sub.of hm ?_; decide)
      | (lift_lets; intro x; with_reducible refine (fun (hx : Kept m s0 x) => ?_) ?_; clear_value x) | (lift_lets; intro x)
      | with_reducible apply Kept.ite | with_reducible apply State.setRme_kept | with_reducible apply State.complete_kept
      | with_reducible apply State.startCopy_kept | split | (clear_value *; split) | (dsimp +zetaDelta only; split)
      | (intro x; with_reducible refine (fun (hx : Kept m s0 x) => ?_) ?_; clear_value x) | intro x

theorem State.rmeGo_kept {m : Nat} (hm : Sub 0xA38A5D0808 m) {s0 : State} {s : State} (hs : Kept m s0 s) :
    Kept m s0 (State.rmeGo s) := by
  unfold State.rmeGo
  repeat' first
    | with_reducible assumption | (refine Sub.of hm ?_; decide) | with_reducible apply State.rmeSettle_kept

theorem execMemCopy_kept {m : Nat} (hm : Sub 0xA38A5D0808 m) {s0 : State} {f : Fn} {e : Block64} {s : State} (hs : Kept m s0 s) :
    KeptOut m s0 (execMemCopy f e s) := by
  unfold execMemCopy
  repeat' first
    | with_reducible assumption | (refine Sub.of hm ?_; decide) | with_reducible refine fun (y0 : Cmd) (s : State) (h : Kept m s0 s) => ?_
    | (lift_lets; intro x; with_reducible refine (fun (hx : Kept m s0 x) => ?_) ?_; clear_value x) | (lift_lets; intro x)
    | with_reducible apply KeptOut.next | with_reducible apply State.command_kept | with_reducible apply State.complete_kept
    | with_reducible apply State.setWait_kept | with_reducible apply State.rmeGo_kept | split | (clear_value *; split) | (dsimp +zetaDelta only; split)
    | (intro x; with_reducible refine (fun (hx : Kept m s0 x) => ?_) ?_; clear_value x) | intro x

theorem State.copyData_kept {m : Nat} (hm : Sub 0xA38A5D0808 m) {s0 : State} {s : State} {d : Dma} {a : Nat} {x : HostData} (hs : Kept m s0 s) :
    Kept m s0 (State.copyData s d a x) := by
  unfold State.copyData
  repeat' first
    | with_reducible assumption | (refine Sub.of hm ?_; decide)
    | (lift_lets; intro x; with_reducible refine (fun (hx : Kept m s0 x) => ?_) ?_; clear_value x) | (lift_lets; intro x) | with_reducible apply Kept.ite
    | with_reducible apply Kept.iteSnd | with_reducible apply State.updDma_kept | with_reducible apply State.issue_kept
    | with_reducible apply State.free_kept | with_reducible apply State.setOps_kept | with_reducible apply State.rmeGo_kept
    | with_reducible refine Kept.ofSnd (by assumption) ?_ | split | (clear_value *; split) | (dsimp +zetaDelta only; split)
    | (intro x; with_reducible refine (fun (hx : Kept m s0 x) => ?_) ?_; clear_value x) | intro x

theorem execBar2Read_kept {m : Nat} (hm : Sub 0xA3885D0808 m) {s0 : State} {f : Fn} {x : BitVec 34} {len : Nat} {relaxed : Bool} {s : State} (hs : Kept m s0 s) :
    KeptOut m s0 (execBar2Read f x len relaxed s) := by
  unfold execBar2Read
  repeat' first
    | with_reducible assumption | (refine Sub.of hm ?_; decide) | with_reducible apply KeptOut.next | with_reducible apply KeptOut.ite
    | with_reducible apply KeptOut.refused | with_reducible apply Kept.ite | with_reducible apply State.bar2Done_kept
    | with_reducible apply State.countOutcome_kept | with_reducible apply State.newOp_kept | split

theorem execBar2Write_kept {m : Nat} (hm : Sub 0xA3885D0808 m) {s0 : State} {f : Fn} {x : BitVec 34} {bytes : List (Option Byte)} {poisoned : Bool} {s : State} (hs : Kept m s0 s) :
    KeptOut m s0 (execBar2Write f x bytes poisoned s) := by
  unfold execBar2Write
  repeat' first
    | with_reducible assumption | (refine Sub.of hm ?_; decide) | with_reducible apply KeptOut.next | with_reducible apply KeptOut.ite
    | with_reducible apply KeptOut.refused | with_reducible apply Kept.ite | with_reducible apply State.countOutcome_kept
    | with_reducible apply State.newOp_kept | with_reducible apply State.logErr_kept | split

theorem State.atomicStart_kept {m : Nat} (hm : Sub 0xA3885D0808 m) {s0 : State} {s : State} {f : Fn} {n : Nat} (hs : Kept m s0 s) :
    Kept m s0 (State.atomicStart s f n) := by
  unfold State.atomicStart
  repeat' first
    | with_reducible assumption | (refine Sub.of hm ?_; decide)
    | (lift_lets; intro x; with_reducible refine (fun (hx : Kept m s0 x) => ?_) ?_; clear_value x) | (lift_lets; intro x) | with_reducible apply Kept.ite
    | with_reducible apply State.wr_kept | with_reducible apply State.atomicDone_kept | with_reducible apply State.countOutcome_kept
    | with_reducible apply State.newOp_kept
    | (refine Sub.queue 11 hm ?_ (by decide); simp +zetaDelta only [Fld.key, atmBase, pageBase, F.ATM_STAT_BUSY]; split_ifs <;> omega)
    | (refine Sub.upper hm ?_ (by decide); simp +zetaDelta only [Fld.key, atmBase, pageBase, F.ATM_STAT_BUSY]; split_ifs <;> omega) | split
    | (clear_value *; split) | (dsimp +zetaDelta only; split) | (intro x; with_reducible refine (fun (hx : Kept m s0 x) => ?_) ?_; clear_value x)
    | intro x

theorem execRmeIssue_kept {m : Nat} (hm : Sub 0xA38A5D0808 m) {s0 : State} {f : Fn} {s : State} (hs : Kept m s0 s) :
    KeptOut m s0 (execRmeIssue f s) := by
  unfold execRmeIssue
  repeat' first
    | with_reducible assumption | (refine Sub.of hm ?_; decide) | with_reducible apply KeptOut.next | with_reducible apply KeptOut.ite
    | with_reducible apply Kept.ite | with_reducible apply State.issueTurn_kept | with_reducible apply State.rmeGo_kept
    | with_reducible refine KeptOpt.getD ?_ ?_ | with_reducible refine Kept.ofSome (by assumption) ?_

theorem State.response_kept {m : Nat} (hm : Sub 0xA38A5D0808 m) {s0 : State} {s : State} {c : Nat} {kind : Nat} (hs : Kept m s0 s) :
    Kept m s0 (State.response s c kind) := by
  unfold State.response
  repeat' first
    | with_reducible assumption | (refine Sub.of hm ?_; decide)
    | (lift_lets; intro x; with_reducible refine (fun (hx : Kept m s0 x) => ?_) ?_; clear_value x) | (lift_lets; intro x) | with_reducible apply Kept.ite
    | with_reducible apply State.dmaRun_kept | with_reducible apply State.opDone_kept | with_reducible apply State.cause0_kept
    | with_reducible apply State.setOps_kept | with_reducible apply State.inc_kept | with_reducible apply State.takeMessage_kept
    | with_reducible apply State.rmeGo_kept | split | (clear_value *; split) | (dsimp +zetaDelta only; split)
    | (intro x; with_reducible refine (fun (hx : Kept m s0 x) => ?_) ?_; clear_value x) | intro x

theorem execReadRsp_kept {m : Nat} (hm : Sub 0xA38A5D0808 m) {s0 : State} {c : CircIx} {s : State} (hs : Kept m s0 s) :
    KeptOut m s0 (execReadRsp c s) := by
  unfold execReadRsp
  repeat' first
    | with_reducible assumption | (refine Sub.of hm ?_; decide) | with_reducible apply KeptOut.next | with_reducible apply State.response_kept

theorem execWriteAck_kept {m : Nat} (hm : Sub 0xA38A5D0808 m) {s0 : State} {c : CircIx} {s : State} (hs : Kept m s0 s) :
    KeptOut m s0 (execWriteAck c s) := by
  unfold execWriteAck
  repeat' first
    | with_reducible assumption | (refine Sub.of hm ?_; decide) | with_reducible apply KeptOut.next | with_reducible apply State.response_kept

theorem execAtomicRsp_kept {m : Nat} (hm : Sub 0xA38A5D0808 m) {s0 : State} {c : CircIx} {s : State} (hs : Kept m s0 s) :
    KeptOut m s0 (execAtomicRsp c s) := by
  unfold execAtomicRsp
  repeat' first
    | with_reducible assumption | (refine Sub.of hm ?_; decide) | with_reducible apply KeptOut.next | with_reducible apply State.response_kept

theorem State.endOp_kept {m : Nat} (hm : Sub 0xA3885D0808 m) {s0 : State} {s : State} {o : Nat} {op : RmeOp} (hs : Kept m s0 s) :
    Kept m s0 (State.endOp s o op) := by
  unfold State.endOp
  repeat' first
    | with_reducible assumption | (refine Sub.of hm ?_; decide)
    | (lift_lets; intro x; with_reducible refine (fun (hx : Kept m s0 x) => ?_) ?_; clear_value x) | (lift_lets; intro x) | with_reducible apply Kept.ite
    | with_reducible apply State.opDone_kept | with_reducible apply State.setOps_kept | with_reducible apply State.unqueue_kept | split
    | (clear_value *; split) | (dsimp +zetaDelta only; split) | (intro x; with_reducible refine (fun (hx : Kept m s0 x) => ?_) ?_; clear_value x)
    | intro x

theorem execReqAgeExpire_kept {m : Nat} (hm : Sub 0xA38A5D0808 m) {s0 : State} {tag : Fin 8192} {s : State} (hs : Kept m s0 s) :
    KeptOut m s0 (execReqAgeExpire tag s) := by
  unfold execReqAgeExpire
  repeat' first
    | with_reducible assumption | (refine Sub.of hm ?_; decide)
    | (lift_lets; intro x; with_reducible refine (fun (hx : Kept m s0 x) => ?_) ?_; clear_value x) | (lift_lets; intro x)
    | with_reducible apply KeptOut.next | with_reducible apply State.endOp_kept | with_reducible apply State.rmeGo_kept | split | (clear_value *; split)
    | (dsimp +zetaDelta only; split) | (intro x; with_reducible refine (fun (hx : Kept m s0 x) => ?_) ?_; clear_value x) | intro x

theorem execTagQuarantineExpire_kept {m : Nat} (hm : Sub 0x200000000 m) {s0 : State} {tag : Fin 8192} {s : State} (hs : Kept m s0 s) :
    KeptOut m s0 (execTagQuarantineExpire tag s) := by
  unfold execTagQuarantineExpire
  repeat' first
    | with_reducible assumption | (refine Sub.of hm ?_; decide)
    | (lift_lets; intro x; with_reducible refine (fun (hx : Kept m s0 x) => ?_) ?_; clear_value x) | (lift_lets; intro x)
    | with_reducible apply KeptOut.next | with_reducible apply State.setOps_kept
    | (intro x; with_reducible refine (fun (hx : Kept m s0 x) => ?_) ?_; clear_value x) | intro x

theorem State.fenceOps_kept {m : Nat} (hm : Sub 0xA3885D0808 m) {s0 : State} {s : State} {p : RmeOp → Bool} (hs : Kept m s0 s) :
    Kept m s0 (State.fenceOps s p) := by
  unfold State.fenceOps
  repeat' first
    | with_reducible assumption | (refine Sub.of hm ?_; decide)
    | (lift_lets; intro x; with_reducible refine (fun (hx : Kept m s0 x) => ?_) ?_; clear_value x) | (lift_lets; intro x)
    | with_reducible apply State.endOp_kept | (with_reducible refine Kept.foldl ?_ ?_; intro a x hx)
    | (intro x; with_reducible refine (fun (hx : Kept m s0 x) => ?_) ?_; clear_value x) | intro x

theorem State.rmePortFence_kept {m : Nat} (hm : Sub 0xA38A5D0808 m) {s0 : State} {s : State} {p : Nat} (hs : Kept m s0 s) :
    Kept m s0 (State.rmePortFence s p) := by
  unfold State.rmePortFence
  repeat' first
    | with_reducible assumption | (refine Sub.of hm ?_; decide)
    | (lift_lets; intro x; with_reducible refine (fun (hx : Kept m s0 x) => ?_) ?_; clear_value x) | (lift_lets; intro x)
    | with_reducible apply State.fenceOps_kept | with_reducible apply State.rmeGo_kept | split | (clear_value *; split) | (dsimp +zetaDelta only; split)
    | (intro x; with_reducible refine (fun (hx : Kept m s0 x) => ?_) ?_; clear_value x) | intro x

theorem State.rmePartFence_kept {m : Nat} (hm : Sub 0xA38A5D0808 m) {s0 : State} {s : State} {n : Nat} (hs : Kept m s0 s) :
    Kept m s0 (State.rmePartFence s n) := by
  unfold State.rmePartFence
  repeat' first
    | with_reducible assumption | (refine Sub.of hm ?_; decide)
    | (lift_lets; intro x; with_reducible refine (fun (hx : Kept m s0 x) => ?_) ?_; clear_value x) | (lift_lets; intro x) | with_reducible apply Kept.ite
    | with_reducible apply State.setRme_kept | with_reducible apply State.complete_kept | with_reducible apply State.fenceOps_kept
    | with_reducible apply State.rmeGo_kept | (with_reducible refine Kept.foldl ?_ ?_; intro a x hx)
    | (intro x; with_reducible refine (fun (hx : Kept m s0 x) => ?_) ?_; clear_value x) | intro x

theorem State.dropCopies_kept {m : Nat} (hm : Sub 0x200000000 m) {s0 : State} {s : State} {p : Dma → Bool} (hs : Kept m s0 s) :
    Kept m s0 (State.dropCopies s p) := by
  unfold State.dropCopies
  repeat' first
    | with_reducible assumption | (refine Sub.of hm ?_; decide)
    | (lift_lets; intro x; with_reducible refine (fun (hx : Kept m s0 x) => ?_) ?_; clear_value x) | (lift_lets; intro x) | with_reducible apply Kept.ite
    | with_reducible apply State.setRme_kept | split | (clear_value *; split) | (dsimp +zetaDelta only; split)
    | (intro x; with_reducible refine (fun (hx : Kept m s0 x) => ?_) ?_; clear_value x) | intro x

theorem State.rmeForce_kept {m : Nat} (hm : Sub 0x202000000 m) {s0 : State} {s : State} (hs : Kept m s0 s) :
    Kept m s0 (State.rmeForce s).1 := by
  unfold State.rmeForce
  repeat' first
    | with_reducible assumption | (refine Sub.of hm ?_; decide)
    | (lift_lets; intro x; with_reducible refine (fun (hx : Kept m s0 x) => ?_) ?_; clear_value x) | (lift_lets; intro x)
    | with_reducible apply State.dropCopies_kept | with_reducible apply State.setWait_kept | (with_reducible refine Kept.foldl ?_ ?_; intro a x hx)
    | (with_reducible refine Kept.foldlFst ?_ ?_; intro a x hx) | (intro x; with_reducible refine (fun (hx : Kept m s0 x) => ?_) ?_; clear_value x)
    | intro x

theorem State.rmeFlr_kept {m : Nat} (hm : Sub 0x200000000 m) {s0 : State} {s : State} {f : Nat} (hs : Kept m s0 s) :
    Kept m s0 (State.rmeFlr s f) := by
  unfold State.rmeFlr
  repeat' first
    | with_reducible assumption | (refine Sub.of hm ?_; decide)
    | (lift_lets; intro x; with_reducible refine (fun (hx : Kept m s0 x) => ?_) ?_; clear_value x) | (lift_lets; intro x) | with_reducible apply Kept.ite
    | with_reducible apply State.setRme_kept | with_reducible apply State.dropCopies_kept
    | (intro x; with_reducible refine (fun (hx : Kept m s0 x) => ?_) ?_; clear_value x) | intro x

end Sys2Proof.Machine
end

