-- ==== Sys2Proof/Laws/KeptRdx.lean ====
section
/-! SUPPORT. What every operation of Machine/Rdx.lean keeps, and which parts of the state it may change. -/

set_option linter.unusedTactic false
set_option linter.unreachableTactic false
set_option linter.unusedVariables false
set_option linter.unusedSimpArgs false

namespace Sys2Proof.Machine

theorem State.setRdx_kept {m : Nat} (hm : Sub 0x400000000 m) {s0 : State} {s : State} {r : RdxState} (hs : Kept m s0 s) :
    Kept m s0 (State.setRdx s r) := by
  unfold State.setRdx
  repeat' first
    | with_reducible assumption | (refine Sub.of hm ?_; decide) | with_reducible exact Kept.updRdx (by assumption) (hm.of (by decide))
    | with_reducible refine Kept.updRdx ?_ (hm.of (by decide))

theorem State.updR_kept {m : Nat} (hm : Sub 0x400000000 m) {s0 : State} {s : State} {id : Nat} {f : RCmd → RCmd} (hs : Kept m s0 s) :
    Kept m s0 (State.updR s id f) := by
  unfold State.updR
  repeat' first
    | with_reducible assumption | (refine Sub.of hm ?_; decide)
    | (lift_lets; intro x; with_reducible refine (fun (hx : Kept m s0 x) => ?_) ?_; clear_value x) | (lift_lets; intro x)
    | with_reducible apply State.setRdx_kept | (intro x; with_reducible refine (fun (hx : Kept m s0 x) => ?_) ?_; clear_value x) | intro x

theorem State.updStep_kept {m : Nat} (hm : Sub 0x400000000 m) {s0 : State} {s : State} {id : Nat} {ix : Nat} {f : RStep → RStep} (hs : Kept m s0 s) :
    Kept m s0 (State.updStep s id ix f) := by
  unfold State.updStep
  repeat' first
    | with_reducible assumption | (refine Sub.of hm ?_; decide)
    | (lift_lets; intro x; with_reducible refine (fun (hx : Kept m s0 x) => ?_) ?_; clear_value x) | (lift_lets; intro x)
    | with_reducible apply State.updR_kept | (intro x; with_reducible refine (fun (hx : Kept m s0 x) => ?_) ?_; clear_value x) | intro x

theorem State.askSteps_kept {m : Nat} (hm : Sub 0x400480000 m) {s0 : State} {s : State} {id : Nat} (hs : Kept m s0 s) :
    Kept m s0 (State.askSteps s id) := by
  unfold State.askSteps
  repeat' first
    | with_reducible assumption | (refine Sub.of hm ?_; decide)
    | (lift_lets; intro x; with_reducible refine (fun (hx : Kept m s0 x) => ?_) ?_; clear_value x) | (lift_lets; intro x) | with_reducible apply Kept.ite
    | with_reducible apply State.hostAcc_kept | with_reducible apply State.updR_kept | split | (clear_value *; split) | (dsimp +zetaDelta only; split)
    | (intro x; with_reducible refine (fun (hx : Kept m s0 x) => ?_) ?_; clear_value x) | intro x

theorem State.startReduce_kept {m : Nat} (hm : Sub 0x400480000 m) {s0 : State} {s : State} {c : Cmd} (hs : Kept m s0 s) :
    Kept m s0 (State.startReduce s c) := by
  unfold State.startReduce
  repeat' first
    | with_reducible assumption | (refine Sub.of hm ?_; decide) | with_reducible apply State.askSteps_kept | with_reducible apply State.setRdx_kept

theorem State.rdxSettle_kept {m : Nat} (hm : Sub 0x84024C0008 m) {s0 : State} {s : State} {a0 : Nat} (hs : Kept m s0 s) :
    Kept m s0 (State.rdxSettle s a0) := by
  induction a0 generalizing s with
  | zero =>
    unfold State.rdxSettle
    repeat' first
      | with_reducible assumption | (refine Sub.of hm ?_; decide)
      | (lift_lets; intro x; with_reducible refine (fun (hx : Kept m s0 x) => ?_) ?_; clear_value x) | (lift_lets; intro x)
      | with_reducible apply Kept.ite | with_reducible apply State.complete_kept | with_reducible apply State.startReduce_kept
      | with_reducible apply State.setRdx_kept | split | (clear_value *; split) | (dsimp +zetaDelta only; split)
      | (intro x; with_reducible refine (fun (hx : Kept m s0 x) => ?_) ?_; clear_value x) | intro x
  | succ n ih =>
    unfold State.rdxSettle
    repeat' first
      | (with_reducible apply ih) | with_reducible assumption | (refine Sub.of hm ?_; decide)
      | (lift_lets; intro x; with_reducible refine (fun (hx : Kept m s0 x) => ?_) ?_; clear_value x) | (lift_lets; intro x)
      | with_reducible apply Kept.ite | with_reducible apply State.complete_kept | with_reducible apply State.startReduce_kept
      | with_reducible apply State.setRdx_kept | split | (clear_value *; split) | (dsimp +zetaDelta only; split)
      | (intro x; with_reducible refine (fun (hx : Kept m s0 x) => ?_) ?_; clear_value x) | intro x

theorem State.rdxGo_kept {m : Nat} (hm : Sub 0x84024C0008 m) {s0 : State} {s : State} (hs : Kept m s0 s) :
    Kept m s0 (State.rdxGo s) := by
  unfold State.rdxGo
  repeat' first
    | with_reducible assumption | (refine Sub.of hm ?_; decide) | with_reducible apply State.rdxSettle_kept

theorem execReduce_kept {m : Nat} (hm : Sub 0x84024C0008 m) {s0 : State} {f : Fn} {e : Block64} {s : State} (hs : Kept m s0 s) :
    KeptOut m s0 (execReduce f e s) := by
  unfold execReduce
  repeat' first
    | with_reducible assumption | (refine Sub.of hm ?_; decide) | with_reducible refine fun (y0 : Cmd) (s : State) (h : Kept m s0 s) => ?_
    | (lift_lets; intro x; with_reducible refine (fun (hx : Kept m s0 x) => ?_) ?_; clear_value x) | (lift_lets; intro x)
    | with_reducible apply KeptOut.next | with_reducible apply KeptOut.ite | with_reducible apply Kept.ite | with_reducible apply State.rdxGo_kept
    | with_reducible apply State.command_kept | with_reducible apply State.complete_kept | with_reducible apply State.setRdx_kept
    | (intro x; with_reducible refine (fun (hx : Kept m s0 x) => ?_) ?_; clear_value x) | intro x

theorem State.failStep_kept {m : Nat} (hm : Sub 0x400000000 m) {s0 : State} {s : State} {id : Nat} {ix : Nat} {st : Nat} {detail : Nat} (hs : Kept m s0 s) :
    Kept m s0 (State.failStep s id ix st detail) := by
  unfold State.failStep
  repeat' first
    | with_reducible assumption | (refine Sub.of hm ?_; decide)
    | (lift_lets; intro x; with_reducible refine (fun (hx : Kept m s0 x) => ?_) ?_; clear_value x) | (lift_lets; intro x) | with_reducible apply Kept.ite
    | with_reducible apply State.updR_kept | (intro x; with_reducible refine (fun (hx : Kept m s0 x) => ?_) ?_; clear_value x) | intro x

theorem State.readStep_kept {m : Nat} (hm : Sub 0x400000000 m) {s0 : State} {s : State} {id : Nat} {e : StepEntry} (hs : Kept m s0 s) :
    Kept m s0 (State.readStep s id e) := by
  unfold State.readStep
  repeat' first
    | with_reducible assumption | (refine Sub.of hm ?_; decide)
    | (lift_lets; intro x; with_reducible refine (fun (hx : Kept m s0 x) => ?_) ?_; clear_value x) | (lift_lets; intro x)
    | with_reducible apply State.failStep_kept | with_reducible apply State.updR_kept | split | (clear_value *; split) | (dsimp +zetaDelta only; split)
    | (intro x; with_reducible refine (fun (hx : Kept m s0 x) => ?_) ?_; clear_value x) | intro x

theorem execStepListReadDone_kept {m : Nat} (hm : Sub 0x84024C0008 m) {s0 : State} {f : Fn} {coll : Word} {first : Nat} {entries : Option (List StepEntry)} {s : State} (hs : Kept m s0 s) :
    KeptOut m s0 (execStepListReadDone f coll first entries s) := by
  unfold execStepListReadDone
  repeat' first
    | with_reducible assumption | (refine Sub.of hm ?_; decide)
    | (lift_lets; intro x; with_reducible refine (fun (hx : Kept m s0 x) => ?_) ?_; clear_value x) | (lift_lets; intro x)
    | with_reducible apply KeptOut.next | with_reducible apply KeptOut.ite | with_reducible apply Kept.ite | with_reducible apply State.rdxGo_kept
    | with_reducible apply State.readStep_kept | with_reducible apply State.failStep_kept | with_reducible apply State.askSteps_kept
    | with_reducible apply State.readBack_kept | with_reducible apply State.updR_kept | (with_reducible refine Kept.foldl ?_ ?_; intro a x hx)
    | with_reducible refine Kept.ofSome (by assumption) ?_ | split | (clear_value *; split) | (dsimp +zetaDelta only; split)
    | (intro x; with_reducible refine (fun (hx : Kept m s0 x) => ?_) ?_; clear_value x) | intro x

theorem State.writeResults_kept {m : Nat} (hm : Sub 0x580001000 m) {s0 : State} {s : State} {c : RCmd} {off : Nat} {size : Nat} {k : Nat} {r : List (Nat × Flags)} {pois : Nat → Bool} (hs : Kept m s0 s) :
    Kept m s0 (State.writeResults s c off size k r pois) := by
  unfold State.writeResults
  repeat' first
    | with_reducible assumption | (refine Sub.of hm ?_; decide)
    | (lift_lets; intro x; with_reducible refine (fun (hx : Kept m s0 x) => ?_) ?_; clear_value x) | (lift_lets; intro x) | with_reducible apply Kept.ite
    | with_reducible apply Kept.iteFst | with_reducible apply Kept.iteSnd | with_reducible apply State.setPoison_kept
    | with_reducible apply State.store_kept | with_reducible apply State.setRdx_kept | with_reducible apply State.inc_kept
    | with_reducible apply State.updR_kept | (with_reducible refine Kept.foldl ?_ ?_; intro a x hx)
    | (with_reducible refine Kept.foldlFst ?_ ?_; intro a x hx) | (with_reducible refine Kept.foldlSnd ?_ ?_; intro a x hx)
    | (intro x; with_reducible refine (fun (hx : Kept m s0 x) => ?_) ?_; clear_value x) | intro x

theorem State.localReduce_kept {m : Nat} (hm : Sub 0x580041000 m) {s0 : State} {s : State} {c : RCmd} {e : StepEntry} (hs : Kept m s0 s) :
    Kept m s0 (State.localReduce s c e) := by
  unfold State.localReduce
  repeat' first
    | with_reducible assumption | (refine Sub.of hm ?_; decide)
    | (lift_lets; intro x; with_reducible refine (fun (hx : Kept m s0 x) => ?_) ?_; clear_value x) | (lift_lets; intro x)
    | with_reducible apply State.writeResults_kept | with_reducible apply State.stat_kept
    | (intro x; with_reducible refine (fun (hx : Kept m s0 x) => ?_) ?_; clear_value x) | intro x

theorem State.recvMessage_kept {m : Nat} (hm : Sub 0x580041000 m) {s0 : State} {s : State} {c : RCmd} {x : RStep} {mm : CollMsg} (hs : Kept m s0 s) :
    Kept m s0 (State.recvMessage s c x mm) := by
  unfold State.recvMessage
  repeat' first
    | with_reducible assumption | (refine Sub.of hm ?_; decide)
    | (lift_lets; intro x; with_reducible refine (fun (hx : Kept m s0 x) => ?_) ?_; clear_value x) | (lift_lets; intro x) | with_reducible apply Kept.ite
    | with_reducible apply State.writeResults_kept | with_reducible apply State.updStep_kept | with_reducible apply State.stat_kept
    | (intro x; with_reducible refine (fun (hx : Kept m s0 x) => ?_) ?_; clear_value x) | intro x

theorem State.meet_kept {m : Nat} (hm : Sub 0x5804D1000 m) {s0 : State} {s : State} {c : RCmd} {x : RStep} {mm : CollMsg} (hs : Kept m s0 s) :
    Kept m s0 (State.meet s c x mm) := by
  unfold State.meet
  repeat' first
    | with_reducible assumption | (refine Sub.of hm ?_; decide) | with_reducible apply Kept.ite | with_reducible apply State.recvMessage_kept
    | with_reducible apply State.cause0_kept | with_reducible apply State.inc_kept

theorem State.meetHeld_kept {m : Nat} (hm : Sub 0x5804D1000 m) {s0 : State} {s : State} {a0 : Nat} (hs : Kept m s0 s) :
    Kept m s0 (State.meetHeld s a0) := by
  induction a0 generalizing s with
  | zero =>
    unfold State.meetHeld
    repeat' first
      | with_reducible assumption | (refine Sub.of hm ?_; decide)
      | (lift_lets; intro x; with_reducible refine (fun (hx : Kept m s0 x) => ?_) ?_; clear_value x) | (lift_lets; intro x)
      | with_reducible apply State.setRdx_kept | with_reducible apply State.meet_kept | split | (clear_value *; split) | (dsimp +zetaDelta only; split)
      | (intro x; with_reducible refine (fun (hx : Kept m s0 x) => ?_) ?_; clear_value x) | intro x
  | succ n ih =>
    unfold State.meetHeld
    repeat' first
      | (with_reducible apply ih) | with_reducible assumption | (refine Sub.of hm ?_; decide)
      | (lift_lets; intro x; with_reducible refine (fun (hx : Kept m s0 x) => ?_) ?_; clear_value x) | (lift_lets; intro x)
      | with_reducible apply State.setRdx_kept | with_reducible apply State.meet_kept | split | (clear_value *; split) | (dsimp +zetaDelta only; split)
      | (intro x; with_reducible refine (fun (hx : Kept m s0 x) => ?_) ?_; clear_value x) | intro x

theorem execCollectiveMessage_kept {m : Nat} (hm : Sub 0x5884D1000 m) {s0 : State} {c : CircIx} {s : State} (hs : Kept m s0 s) :
    KeptOut m s0 (execCollectiveMessage c s) := by
  unfold execCollectiveMessage
  repeat' first
    | with_reducible assumption | (refine Sub.of hm ?_; decide)
    | (lift_lets; intro x; with_reducible refine (fun (hx : Kept m s0 x) => ?_) ?_; clear_value x) | (lift_lets; intro x)
    | with_reducible apply KeptOut.next | with_reducible apply KeptOut.ite | with_reducible apply Kept.ite | with_reducible apply Kept.iteFst
    | with_reducible apply Kept.iteSnd | with_reducible apply State.cause0_kept | with_reducible apply State.setRdx_kept
    | with_reducible apply State.meet_kept | with_reducible apply State.takeMessage_kept | split | (clear_value *; split)
    | (dsimp +zetaDelta only; split) | (intro x; with_reducible refine (fun (hx : Kept m s0 x) => ?_) ?_; clear_value x) | intro x

theorem execRdxOrphan_kept {m : Nat} (hm : Sub 0x24004D1000 m) {s0 : State} {c : CircIx} {coll : Word} {tag : BitVec 16} {s : State} (hs : Kept m s0 s) :
    KeptOut m s0 (execRdxOrphan c coll tag s) := by
  unfold execRdxOrphan
  repeat' first
    | with_reducible assumption | (refine Sub.of hm ?_; decide)
    | (lift_lets; intro x; with_reducible refine (fun (hx : Kept m s0 x) => ?_) ?_; clear_value x) | (lift_lets; intro x)
    | with_reducible apply KeptOut.next | with_reducible apply State.fault_kept | with_reducible apply State.cause0_kept
    | with_reducible apply State.setRdx_kept | with_reducible apply State.inc_kept | split | (clear_value *; split) | (dsimp +zetaDelta only; split)
    | (intro x; with_reducible refine (fun (hx : Kept m s0 x) => ?_) ?_; clear_value x) | intro x

theorem State.stepDone_kept {m : Nat} (hm : Sub 0x84024C1008 m) {s0 : State} {s : State} {c : RCmd} {ix : Nat} (hs : Kept m s0 s) :
    Kept m s0 (State.stepDone s c ix) := by
  unfold State.stepDone
  repeat' first
    | with_reducible assumption | (refine Sub.of hm ?_; decide)
    | (lift_lets; intro x; with_reducible refine (fun (hx : Kept m s0 x) => ?_) ?_; clear_value x) | (lift_lets; intro x)
    | with_reducible apply State.rdxGo_kept | with_reducible apply State.askSteps_kept | with_reducible apply State.statPart_kept
    | with_reducible apply State.inc_kept | with_reducible apply State.stat_kept | with_reducible apply State.updR_kept
    | (intro x; with_reducible refine (fun (hx : Kept m s0 x) => ?_) ?_; clear_value x) | intro x

theorem State.sendMore_kept {m : Nat} (hm : Sub 0x408000000 m) {s0 : State} {s : State} {c : RCmd} {x : RStep} {a0 : Nat} (hs : Kept m s0 s) :
    Kept m s0 (State.sendMore s c x a0).1 := by
  induction a0 generalizing s c x with
  | zero =>
    unfold State.sendMore
    repeat' first
      | with_reducible assumption | (refine Sub.of hm ?_; decide)
      | (lift_lets; intro x; with_reducible refine (fun (hx : Kept m s0 x) => ?_) ?_; clear_value x) | (lift_lets; intro x)
      | with_reducible apply Kept.ite | with_reducible apply Kept.iteFst | with_reducible apply State.updStep_kept
      | with_reducible apply State.enterTurn_kept | with_reducible apply State.queueMessage_kept | with_reducible refine Kept.ofSome (by assumption) ?_
      | with_reducible refine Kept.ofFst (by assumption) ?_ | split | (clear_value *; split) | (dsimp +zetaDelta only; split)
      | (intro x; with_reducible refine (fun (hx : Kept m s0 x) => ?_) ?_; clear_value x) | intro x
  | succ n ih =>
    unfold State.sendMore
    repeat' first
      | (with_reducible apply ih) | with_reducible assumption | (refine Sub.of hm ?_; decide)
      | (lift_lets; intro x; with_reducible refine (fun (hx : Kept m s0 x) => ?_) ?_; clear_value x) | (lift_lets; intro x)
      | with_reducible apply Kept.ite | with_reducible apply Kept.iteFst | with_reducible apply State.updStep_kept
      | with_reducible apply State.enterTurn_kept | with_reducible apply State.queueMessage_kept | with_reducible refine Kept.ofSome (by assumption) ?_
      | with_reducible refine Kept.ofFst (by assumption) ?_ | split | (clear_value *; split) | (dsimp +zetaDelta only; split)
      | (intro x; with_reducible refine (fun (hx : Kept m s0 x) => ?_) ?_; clear_value x) | intro x

theorem State.sendStep_kept {m : Nat} (hm : Sub 0x408000000 m) {s0 : State} {s : State} {c : RCmd} {x : RStep} (hs : Kept m s0 s) :
    Kept m s0 (State.sendStep s c x) := by
  unfold State.sendStep
  repeat' first
    | with_reducible assumption | (refine Sub.of hm ?_; decide) | with_reducible apply Kept.ite | with_reducible apply Kept.iteFst
    | with_reducible apply State.sendMore_kept | with_reducible refine Kept.ofFst (by assumption) ?_

theorem State.placeTurn_kept {m : Nat} (hm : Sub 0x400000000 m) {s0 : State} {s : State} {f : Nat} (hs : Kept m s0 s) :
    KeptOpt m s0 (State.placeTurn s f) := by
  unfold State.placeTurn
  repeat' first
    | with_reducible assumption | (refine Sub.of hm ?_; decide)
    | (lift_lets; intro x; with_reducible refine (fun (hx : Kept m s0 x) => ?_) ?_; clear_value x) | (lift_lets; intro x)
    | with_reducible apply KeptOpt.none | with_reducible apply KeptOpt.some | with_reducible apply KeptOpt.ite | with_reducible apply Kept.ite
    | with_reducible apply State.setRdx_kept | split | (clear_value *; split) | (dsimp +zetaDelta only; split)
    | (intro x; with_reducible refine (fun (hx : Kept m s0 x) => ?_) ?_; clear_value x) | intro x

theorem State.startStep_kept {m : Nat} (hm : Sub 0x858A4D1008 m) {s0 : State} {s : State} {c : RCmd} {x : RStep} (hs : Kept m s0 s) :
    Kept m s0 (State.startStep s c x) := by
  unfold State.startStep
  repeat' first
    | with_reducible assumption | (refine Sub.of hm ?_; decide)
    | (lift_lets; intro x; with_reducible refine (fun (hx : Kept m s0 x) => ?_) ?_; clear_value x) | (lift_lets; intro x) | with_reducible apply Kept.ite
    | with_reducible apply State.rdxGo_kept | with_reducible apply State.stepDone_kept | with_reducible apply State.failStep_kept
    | with_reducible apply State.sendStep_kept | with_reducible apply State.meetHeld_kept | with_reducible apply State.updStep_kept | split
    | (clear_value *; split) | (dsimp +zetaDelta only; split) | (intro x; with_reducible refine (fun (hx : Kept m s0 x) => ?_) ?_; clear_value x)
    | intro x

theorem execRdxStepStart_kept {m : Nat} (hm : Sub 0x858A4D1008 m) {s0 : State} {f : Fn} {coll : Word} {step : Nat} {s : State} (hs : Kept m s0 s) :
    KeptOut m s0 (execRdxStepStart f coll step s) := by
  unfold execRdxStepStart
  repeat' first
    | with_reducible assumption | (refine Sub.of hm ?_; decide) | with_reducible apply KeptOut.next | with_reducible apply KeptOut.ite
    | with_reducible apply Kept.ite | with_reducible apply State.placeTurn_kept | with_reducible apply State.startStep_kept
    | with_reducible refine Kept.ofSome (by assumption) ?_ | split

theorem execRdxStepDone_kept {m : Nat} (hm : Sub 0x858A4C1008 m) {s0 : State} {f : Fn} {coll : Word} {step : Nat} {s : State} (hs : Kept m s0 s) :
    KeptOut m s0 (execRdxStepDone f coll step s) := by
  unfold execRdxStepDone
  repeat' first
    | with_reducible assumption | (refine Sub.of hm ?_; decide)
    | (lift_lets; intro x; with_reducible refine (fun (hx : Kept m s0 x) => ?_) ?_; clear_value x) | (lift_lets; intro x)
    | with_reducible apply KeptOut.next | with_reducible apply KeptOut.ite | with_reducible apply Kept.ite | with_reducible apply State.stepDone_kept
    | with_reducible apply State.sendStep_kept | with_reducible apply State.localReduce_kept | split | (clear_value *; split)
    | (dsimp +zetaDelta only; split) | (intro x; with_reducible refine (fun (hx : Kept m s0 x) => ?_) ?_; clear_value x) | intro x

theorem execRdxStepAgeExpire_kept {m : Nat} (hm : Sub 0x84024C0008 m) {s0 : State} {f : Fn} {coll : Word} {step : Nat} {s : State} (hs : Kept m s0 s) :
    KeptOut m s0 (execRdxStepAgeExpire f coll step s) := by
  unfold execRdxStepAgeExpire
  repeat' first
    | with_reducible assumption | (refine Sub.of hm ?_; decide) | with_reducible apply KeptOut.next | with_reducible apply KeptOut.ite
    | with_reducible apply Kept.ite | with_reducible apply State.rdxGo_kept | with_reducible apply State.failStep_kept | split

theorem State.rdxFence_kept {m : Nat} (hm : Sub 0x84024C0008 m) {s0 : State} {s : State} (hs : Kept m s0 s) :
    Kept m s0 (State.rdxFence s) := by
  unfold State.rdxFence
  repeat' first
    | with_reducible assumption | (refine Sub.of hm ?_; decide)
    | (lift_lets; intro x; with_reducible refine (fun (hx : Kept m s0 x) => ?_) ?_; clear_value x) | (lift_lets; intro x)
    | with_reducible apply State.rdxGo_kept | with_reducible apply State.failStep_kept | (with_reducible refine Kept.foldl ?_ ?_; intro a x hx)
    | (intro x; with_reducible refine (fun (hx : Kept m s0 x) => ?_) ?_; clear_value x) | intro x

theorem State.rdxForce_kept {m : Nat} (hm : Sub 0x402000000 m) {s0 : State} {s : State} (hs : Kept m s0 s) :
    Kept m s0 (State.rdxForce s).1 := by
  unfold State.rdxForce
  repeat' first
    | with_reducible assumption | (refine Sub.of hm ?_; decide)
    | (lift_lets; intro x; with_reducible refine (fun (hx : Kept m s0 x) => ?_) ?_; clear_value x) | (lift_lets; intro x)
    | with_reducible apply State.setRdx_kept | with_reducible apply State.setWait_kept | (with_reducible refine Kept.foldl ?_ ?_; intro a x hx)
    | (with_reducible refine Kept.foldlFst ?_ ?_; intro a x hx) | (intro x; with_reducible refine (fun (hx : Kept m s0 x) => ?_) ?_; clear_value x)
    | intro x

theorem State.rdxFlr_kept {m : Nat} (hm : Sub 0x400000000 m) {s0 : State} {s : State} {f : Nat} (hs : Kept m s0 s) :
    Kept m s0 (State.rdxFlr s f) := by
  unfold State.rdxFlr
  repeat' first
    | with_reducible assumption | (refine Sub.of hm ?_; decide)
    | (lift_lets; intro x; with_reducible refine (fun (hx : Kept m s0 x) => ?_) ?_; clear_value x) | (lift_lets; intro x)
    | with_reducible apply State.setRdx_kept | (intro x; with_reducible refine (fun (hx : Kept m s0 x) => ?_) ?_; clear_value x) | intro x

theorem State.rdxStop_kept {m : Nat} (hm : Sub 0x84024C0008 m) {s0 : State} {s : State} {x : Cpl} (hs : Kept m s0 s) :
    Kept m s0 (State.rdxStop s x) := by
  unfold State.rdxStop
  repeat' first
    | with_reducible assumption | (refine Sub.of hm ?_; decide)
    | (lift_lets; intro x; with_reducible refine (fun (hx : Kept m s0 x) => ?_) ?_; clear_value x) | (lift_lets; intro x)
    | with_reducible apply State.rdxGo_kept | with_reducible apply State.complete_kept | with_reducible apply State.setRdx_kept
    | (with_reducible refine Kept.foldl ?_ ?_; intro a x hx) | (intro x; with_reducible refine (fun (hx : Kept m s0 x) => ?_) ?_; clear_value x)
    | intro x

end Sys2Proof.Machine
end

