-- ==== Sys2Proof/Laws/KeptPsm.lean ====
section
/-! SUPPORT. What every operation of Machine/Psm.lean keeps, and which parts of the state it may change. -/

set_option linter.unusedTactic false
set_option linter.unreachableTactic false
set_option linter.unusedVariables false
set_option linter.unusedSimpArgs false

namespace Sys2Proof.Machine

theorem execPsmReduce_kept {m : Nat} (hm : Sub 0x88024C0008 m) {s0 : State} {f : Fn} {e : Block64} {s : State} (hs : Kept m s0 s) :
    KeptOut m s0 (execPsmReduce f e s) := by
  unfold execPsmReduce
  repeat' first
    | with_reducible assumption | (refine Sub.of hm ?_; decide) | with_reducible refine fun (y0 : Cmd) (s : State) (h : Kept m s0 s) => ?_
    | (lift_lets; intro x; with_reducible refine (fun (hx : Kept m s0 x) => ?_) ?_; clear_value x) | (lift_lets; intro x)
    | with_reducible apply KeptOut.next | with_reducible apply KeptOut.ite | with_reducible apply Kept.ite | with_reducible apply State.command_kept
    | with_reducible apply State.setPsm_kept | with_reducible apply State.complete_kept | with_reducible apply State.wrs_nil_kept
    | with_reducible apply State.wrs_cons_kept | with_reducible apply State.wrs_ite_kept | with_reducible apply State.clr_nil_kept
    | with_reducible apply State.clr_cons_kept | with_reducible apply State.wr_kept
    | (refine Sub.upper hm ?_ (by decide); simp only [Fld.key, F.PSM_TRIM_F, F.PSM_STAT_REASON, F.PSM_STAT_PCT, F.PSM_ALIGN_W1_ATTEN, F.PSM_STAT_LINES, F.PSM_STAT_STATE, F.PSM_STAT_ROLE, F.PSM_ALIGN_W1_SEEN, F.PSM_ALIGN_W0_F]; omega)
    | (with_reducible refine Kept.foldl ?_ ?_; intro a x hx) | split | (clear_value *; split) | (dsimp +zetaDelta only; split)
    | (intro x; with_reducible refine (fun (hx : Kept m s0 x) => ?_) ?_; clear_value x) | intro x

theorem State.claimRing_kept {m : Nat} (hm : Sub 0x4000000 m) {s0 : State} {s : State} {r : Nat} {on : Bool} (hs : Kept m s0 s) :
    Kept m s0 (State.claimRing s r on) := by
  unfold State.claimRing
  repeat' first
    | with_reducible assumption | (refine Sub.of hm ?_; decide) | with_reducible apply Kept.ite | with_reducible apply State.restRing_kept
    | with_reducible apply State.setRing_kept

theorem execPsmClaimDone_kept {m : Nat} (hm : Sub 0x4040000 m) {s0 : State} {p : Port} {s : State} (hs : Kept m s0 s) :
    KeptOut m s0 (execPsmClaimDone p s) := by
  unfold execPsmClaimDone
  repeat' first
    | with_reducible assumption | (refine Sub.of hm ?_; decide)
    | (lift_lets; intro x; with_reducible refine (fun (hx : Kept m s0 x) => ?_) ?_; clear_value x) | (lift_lets; intro x)
    | with_reducible apply KeptOut.next | with_reducible apply KeptOut.ite | with_reducible apply Kept.ite | with_reducible apply State.claimRing_kept
    | with_reducible apply State.restRing_kept | with_reducible apply State.wr_kept
    | (refine Sub.upper hm ?_ (by decide); simp only [Fld.key, F.PSM_STAT_STATE]; omega) | (with_reducible refine Kept.foldl ?_ ?_; intro a x hx) | split
    | (clear_value *; split) | (dsimp +zetaDelta only; split) | (intro x; with_reducible refine (fun (hx : Kept m s0 x) => ?_) ?_; clear_value x)
    | intro x

theorem execLineariseDone_kept {m : Nat} (hm : Sub 0x800040000 m) {s0 : State} {p : Port} {s : State} (hs : Kept m s0 s) :
    KeptOut m s0 (execLineariseDone p s) := by
  unfold execLineariseDone
  repeat' first
    | with_reducible assumption | (refine Sub.of hm ?_; decide)
    | (lift_lets; intro x; with_reducible refine (fun (hx : Kept m s0 x) => ?_) ?_; clear_value x) | (lift_lets; intro x)
    | with_reducible apply KeptOut.next | with_reducible apply KeptOut.ite | with_reducible apply Kept.ite | with_reducible apply Kept.iteFst
    | with_reducible apply State.setPsm_kept | with_reducible apply State.wr_kept
    | (refine Sub.upper hm ?_ (by decide); simp only [Fld.key, F.PSM_STAT_STATE]; omega) | split | (clear_value *; split)
    | (dsimp +zetaDelta only; split) | (intro x; with_reducible refine (fun (hx : Kept m s0 x) => ?_) ?_; clear_value x) | intro x

theorem execPsmAlignStart_kept {m : Nat} (hm : Sub 0xA8066D0008 m) {s0 : State} {p : Port} {s : State} (hs : Kept m s0 s) :
    KeptOut m s0 (execPsmAlignStart p s) := by
  unfold execPsmAlignStart
  repeat' first
    | with_reducible assumption | (refine Sub.of hm ?_; decide)
    | (lift_lets; intro x; with_reducible refine (fun (hx : Kept m s0 x) => ?_) ?_; clear_value x) | (lift_lets; intro x)
    | with_reducible apply KeptOut.next | with_reducible apply KeptOut.ite | with_reducible apply Kept.ite | with_reducible apply State.advanceTo_kept
    | with_reducible apply State.wr_kept | with_reducible apply State.updRun_kept | with_reducible apply State.psmFail_kept
    | (refine Sub.upper hm ?_ (by decide); simp only [Fld.key, F.PSM_STAT_STATE]; omega) | split | (clear_value *; split)
    | (dsimp +zetaDelta only; split) | (intro x; with_reducible refine (fun (hx : Kept m s0 x) => ?_) ?_; clear_value x) | intro x

theorem State.sendFrame_kept {m : Nat} (hm : Sub 0x80000 m) {s0 : State} {s : State} {p : Port} {x : PsmFrame} (hs : Kept m s0 s) :
    Kept m s0 (State.sendFrame s p x) := by
  unfold State.sendFrame
  repeat' first
    | with_reducible assumption | (refine Sub.of hm ?_; decide) | with_reducible apply State.send_kept

theorem execPsmTrimSend_kept {m : Nat} (hm : Sub 0xA8066D0008 m) {s0 : State} {p : Port} {lines : List (Fin 8 × Word × Int)} {s : State} (hs : Kept m s0 s) :
    KeptOut m s0 (execPsmTrimSend p lines s) := by
  unfold execPsmTrimSend
  repeat' first
    | with_reducible assumption | (refine Sub.of hm ?_; decide)
    | (lift_lets; intro x; with_reducible refine (fun (hx : Kept m s0 x) => ?_) ?_; clear_value x) | (lift_lets; intro x)
    | with_reducible apply KeptOut.next | with_reducible apply KeptOut.ite | with_reducible apply Kept.ite | with_reducible apply Kept.iteFst
    | with_reducible apply Kept.iteSnd | with_reducible apply State.advanceTo_kept | with_reducible apply State.sendFrame_kept
    | with_reducible apply State.wrs_nil_kept | with_reducible apply State.wrs_cons_kept | with_reducible apply State.wrs_ite_kept
    | with_reducible apply State.psmFail_kept | with_reducible apply State.wr_kept
    | (refine Sub.upper hm ?_ (by decide); simp only [Fld.key, F.PSM_ALIGN_W1_ATTEN, F.PSM_ALIGN_W1_SEEN, F.PSM_ALIGN_W0_F]; omega)
    | (with_reducible refine Kept.foldl ?_ ?_; intro a x hx) | (with_reducible refine Kept.foldlFst ?_ ?_; intro a x hx)
    | (with_reducible refine Kept.foldlSnd ?_ ?_; intro a x hx) | split | (clear_value *; split) | (dsimp +zetaDelta only; split)
    | (intro x; with_reducible refine (fun (hx : Kept m s0 x) => ?_) ?_; clear_value x) | intro x

theorem execTrim_kept {m : Nat} (hm : Sub 0x800040000 m) {s0 : State} {p : Port} {frame : BitVec 128} {s : State} (hs : Kept m s0 s) :
    KeptOut m s0 (execTrim p frame s) := by
  unfold execTrim
  repeat' first
    | with_reducible assumption | (refine Sub.of hm ?_; decide)
    | (lift_lets; intro x; with_reducible refine (fun (hx : Kept m s0 x) => ?_) ?_; clear_value x) | (lift_lets; intro x)
    | with_reducible apply KeptOut.next | with_reducible apply KeptOut.ite | with_reducible apply Kept.ite | with_reducible apply State.wr_kept
    | with_reducible apply State.updRun_kept | (refine Sub.upper hm ?_ (by decide); simp only [Fld.key, F.PSM_TRIM_F]; omega) | split
    | (clear_value *; split) | (dsimp +zetaDelta only; split) | (intro x; with_reducible refine (fun (hx : Kept m s0 x) => ?_) ?_; clear_value x)
    | intro x

theorem execDownstreamLoss_kept {m : Nat} (hm : Sub 0xA8064D0008 m) {s0 : State} {p : Port} {s : State} (hs : Kept m s0 s) :
    KeptOut m s0 (execDownstreamLoss p s) := by
  unfold execDownstreamLoss
  repeat' first
    | with_reducible assumption | (refine Sub.of hm ?_; decide) | with_reducible apply KeptOut.next | with_reducible apply KeptOut.ite
    | with_reducible apply Kept.ite | with_reducible apply State.psmFail_kept | split

theorem State.launch_kept {m : Nat} (hm : Sub 0x80000 m) {s0 : State} {s : State} {p : Port} {r : PRun} {codes : List Nat} (hs : Kept m s0 s) :
    Kept m s0 (State.launch s p r codes) := by
  unfold State.launch
  repeat' first
    | with_reducible assumption | (refine Sub.of hm ?_; decide) | with_reducible apply State.send_kept

theorem execPsmStreamStart_kept {m : Nat} (hm : Sub 0xA8066D0008 m) {s0 : State} {p : Port} {s : State} (hs : Kept m s0 s) :
    KeptOut m s0 (execPsmStreamStart p s) := by
  unfold execPsmStreamStart
  repeat' first
    | with_reducible assumption | (refine Sub.of hm ?_; decide)
    | (lift_lets; intro x; with_reducible refine (fun (hx : Kept m s0 x) => ?_) ?_; clear_value x) | (lift_lets; intro x)
    | with_reducible apply KeptOut.next | with_reducible apply KeptOut.ite | with_reducible apply Kept.ite | with_reducible apply State.advanceTo_kept
    | with_reducible apply State.launch_kept | with_reducible apply State.wr_kept | with_reducible apply State.psmFail_kept
    | (refine Sub.upper hm ?_ (by decide); simp only [Fld.key, F.PSM_STAT_STATE]; omega) | split | (clear_value *; split)
    | (dsimp +zetaDelta only; split) | (intro x; with_reducible refine (fun (hx : Kept m s0 x) => ?_) ?_; clear_value x) | intro x

theorem execPsmOverRange_kept {m : Nat} (hm : Sub 0x8004D0000 m) {s0 : State} {p : Port} {index : BitVec 24} {s : State} (hs : Kept m s0 s) :
    KeptOut m s0 (execPsmOverRange p index s) := by
  unfold execPsmOverRange
  repeat' first
    | with_reducible assumption | (refine Sub.of hm ?_; decide)
    | (lift_lets; intro x; with_reducible refine (fun (hx : Kept m s0 x) => ?_) ?_; clear_value x) | (lift_lets; intro x)
    | with_reducible apply KeptOut.next | with_reducible apply KeptOut.ite | with_reducible apply Kept.ite | with_reducible apply State.cause0_kept
    | with_reducible apply State.inc_kept | with_reducible apply State.updRun_kept
    | (refine Sub.upper hm ?_ (by decide); simp only [Fld.key, F.PSM_OVR_COUNT]; omega) | split | (clear_value *; split) | (dsimp +zetaDelta only; split)
    | (intro x; with_reducible refine (fun (hx : Kept m s0 x) => ?_) ?_; clear_value x) | intro x

theorem State.writeWords_kept {m : Nat} (hm : Sub 0x980000000 m) {s0 : State} {s : State} {p : Nat} {r : PRun} {samples : List (BitVec 10)} (hs : Kept m s0 s) :
    Kept m s0 (State.writeWords s p r samples) := by
  unfold State.writeWords
  repeat' first
    | with_reducible assumption | (refine Sub.of hm ?_; decide)
    | (lift_lets; intro x; with_reducible refine (fun (hx : Kept m s0 x) => ?_) ?_; clear_value x) | (lift_lets; intro x)
    | with_reducible apply State.store_kept | with_reducible apply State.updRun_kept
    | (intro x; with_reducible refine (fun (hx : Kept m s0 x) => ?_) ?_; clear_value x) | intro x

theorem execPsmGuardCheck_kept {m : Nat} (hm : Sub 0xA9864D0008 m) {s0 : State} {p : Port} {meanRaw : Nat} {samples : List (BitVec 10)} {s : State} (hs : Kept m s0 s) :
    KeptOut m s0 (execPsmGuardCheck p meanRaw samples s) := by
  unfold execPsmGuardCheck
  repeat' first
    | with_reducible assumption | (refine Sub.of hm ?_; decide)
    | (lift_lets; intro x; with_reducible refine (fun (hx : Kept m s0 x) => ?_) ?_; clear_value x) | (lift_lets; intro x)
    | with_reducible apply KeptOut.next | with_reducible apply KeptOut.ite | with_reducible apply Kept.ite | with_reducible apply State.writeWords_kept
    | with_reducible apply State.wr_kept | with_reducible apply State.stat_kept | with_reducible apply State.psmFail_kept
    | (refine Sub.upper hm ?_ (by decide); simp only [Fld.key, F.PSM_STAT_PCT]; omega) | split | (clear_value *; split) | (dsimp +zetaDelta only; split)
    | (intro x; with_reducible refine (fun (hx : Kept m s0 x) => ?_) ?_; clear_value x) | intro x

theorem execPsmStreamEnd_kept {m : Nat} (hm : Sub 0x9802C0000 m) {s0 : State} {p : Port} {samples : List (BitVec 10)} {s : State} (hs : Kept m s0 s) :
    KeptOut m s0 (execPsmStreamEnd p samples s) := by
  unfold execPsmStreamEnd
  repeat' first
    | with_reducible assumption | (refine Sub.of hm ?_; decide)
    | (lift_lets; intro x; with_reducible refine (fun (hx : Kept m s0 x) => ?_) ?_; clear_value x) | (lift_lets; intro x)
    | with_reducible apply KeptOut.next | with_reducible apply KeptOut.ite | with_reducible apply Kept.ite | with_reducible apply State.advanceTo_kept
    | with_reducible apply State.writeWords_kept | with_reducible apply State.sendFrame_kept | with_reducible apply State.stat_kept
    | with_reducible apply State.updRun_kept | with_reducible apply State.wrs_nil_kept | with_reducible apply State.wrs_cons_kept
    | with_reducible apply State.wrs_ite_kept | with_reducible apply State.wr_kept
    | (refine Sub.upper hm ?_ (by decide); simp only [Fld.key, F.PSM_STAT_PCT, F.PSM_STAT_STATE]; omega)
    | (with_reducible refine Kept.foldl ?_ ?_; intro a x hx) | split | (clear_value *; split) | (dsimp +zetaDelta only; split)
    | (intro x; with_reducible refine (fun (hx : Kept m s0 x) => ?_) ?_; clear_value x) | intro x

theorem execRepair_kept {m : Nat} (hm : Sub 0x800000000 m) {s0 : State} {p : Port} {frame : BitVec 128} {s : State} (hs : Kept m s0 s) :
    KeptOut m s0 (execRepair p frame s) := by
  unfold execRepair
  repeat' first
    | with_reducible assumption | (refine Sub.of hm ?_; decide)
    | (lift_lets; intro x; with_reducible refine (fun (hx : Kept m s0 x) => ?_) ?_; clear_value x) | (lift_lets; intro x)
    | with_reducible apply KeptOut.next | with_reducible apply KeptOut.ite | with_reducible apply Kept.ite | with_reducible apply State.updRun_kept
    | split | (clear_value *; split) | (dsimp +zetaDelta only; split) | (intro x; with_reducible refine (fun (hx : Kept m s0 x) => ?_) ?_; clear_value x)
    | intro x

theorem execPsmRepairWindow_kept {m : Nat} (hm : Sub 0xC0000 m) {s0 : State} {p : Port} {s : State} (hs : Kept m s0 s) :
    KeptOut m s0 (execPsmRepairWindow p s) := by
  unfold execPsmRepairWindow
  repeat' first
    | with_reducible assumption | (refine Sub.of hm ?_; decide)
    | (lift_lets; intro x; with_reducible refine (fun (hx : Kept m s0 x) => ?_) ?_; clear_value x) | (lift_lets; intro x)
    | with_reducible apply KeptOut.next | with_reducible apply KeptOut.ite | with_reducible apply Kept.ite | with_reducible apply State.launch_kept
    | with_reducible apply State.inc_kept | (refine Sub.upper hm ?_ (by decide); simp only [Fld.key, F.PSM_REPAIR_COUNT]; omega) | split
    | (clear_value *; split) | (dsimp +zetaDelta only; split) | (intro x; with_reducible refine (fun (hx : Kept m s0 x) => ?_) ?_; clear_value x)
    | intro x

theorem State.psmEnd_kept {m : Nat} (hm : Sub 0x88024C0008 m) {s0 : State} {s : State} {p : Nat} {st : Nat} (hs : Kept m s0 s) :
    Kept m s0 (State.psmEnd s p st) := by
  unfold State.psmEnd
  repeat' first
    | with_reducible assumption | (refine Sub.of hm ?_; decide) | with_reducible apply State.wr_kept | with_reducible apply State.psmComplete_kept
    | (refine Sub.upper hm ?_ (by decide); simp only [Fld.key, F.PSM_STAT_STATE]; omega)

theorem execPsmStatusSend_kept {m : Nat} (hm : Sub 0x89824C0008 m) {s0 : State} {p : Port} {sums : List (Option Int)} {s : State} (hs : Kept m s0 s) :
    KeptOut m s0 (execPsmStatusSend p sums s) := by
  unfold execPsmStatusSend
  repeat' first
    | with_reducible assumption | (refine Sub.of hm ?_; decide)
    | (lift_lets; intro x; with_reducible refine (fun (hx : Kept m s0 x) => ?_) ?_; clear_value x) | (lift_lets; intro x)
    | with_reducible apply KeptOut.next | with_reducible apply KeptOut.ite | with_reducible apply Kept.ite | with_reducible apply Kept.iteFst
    | with_reducible apply Kept.iteSnd | with_reducible apply State.psmEnd_kept | with_reducible apply State.sendFrame_kept
    | with_reducible apply State.store_kept | with_reducible apply State.inc_kept | with_reducible apply State.updRun_kept
    | (refine Sub.upper hm ?_ (by decide); simp only [Fld.key, F.PSM_REPAIR_COUNT]; omega) | (with_reducible refine Kept.foldl ?_ ?_; intro a x hx)
    | (with_reducible refine Kept.foldlFst ?_ ?_; intro a x hx) | (with_reducible refine Kept.foldlSnd ?_ ?_; intro a x hx) | split
    | (clear_value *; split) | (dsimp +zetaDelta only; split) | (intro x; with_reducible refine (fun (hx : Kept m s0 x) => ?_) ?_; clear_value x)
    | intro x

theorem execStatus_kept {m : Nat} (hm : Sub 0x88024C0008 m) {s0 : State} {p : Port} {frame : BitVec 128} {s : State} (hs : Kept m s0 s) :
    KeptOut m s0 (execStatus p frame s) := by
  unfold execStatus
  repeat' first
    | with_reducible assumption | (refine Sub.of hm ?_; decide) | with_reducible apply KeptOut.next | with_reducible apply KeptOut.ite
    | with_reducible apply Kept.ite | with_reducible apply State.psmEnd_kept | split

theorem execPsmStatusTimeout_kept {m : Nat} (hm : Sub 0x88024C0008 m) {s0 : State} {p : Port} {s : State} (hs : Kept m s0 s) :
    KeptOut m s0 (execPsmStatusTimeout p s) := by
  unfold execPsmStatusTimeout
  repeat' first
    | with_reducible assumption | (refine Sub.of hm ?_; decide) | with_reducible apply KeptOut.next | with_reducible apply KeptOut.ite
    | with_reducible apply Kept.ite | with_reducible apply State.psmEnd_kept | split

theorem execPsmReleaseDone_kept {m : Nat} (hm : Sub 0x8044D0000 m) {s0 : State} {p : Port} {s : State} (hs : Kept m s0 s) :
    KeptOut m s0 (execPsmReleaseDone p s) := by
  unfold execPsmReleaseDone
  repeat' first
    | with_reducible assumption | (refine Sub.of hm ?_; decide)
    | (lift_lets; intro x; with_reducible refine (fun (hx : Kept m s0 x) => ?_) ?_; clear_value x) | (lift_lets; intro x)
    | with_reducible apply KeptOut.next | with_reducible apply KeptOut.ite | with_reducible apply Kept.ite
    | with_reducible refine Kept.dite (fun h => ?_) (fun h => ?_) | with_reducible apply Kept.iteFst | with_reducible apply State.setPsm_kept
    | with_reducible apply State.restRing_kept | with_reducible apply State.wr_kept | with_reducible apply State.cause0_kept
    | with_reducible apply State.cause_kept | with_reducible apply State.psmUnfreeze_kept
    | (refine Sub.upper hm ?_ (by decide); simp only [Fld.key, F.PSM_STAT_STATE]; omega) | (with_reducible refine Kept.foldl ?_ ?_; intro a x hx)
    | (with_reducible refine Kept.foldlFst ?_ ?_; intro a x hx) | split | (clear_value *; split) | (dsimp +zetaDelta only; split)
    | (intro x; with_reducible refine (fun (hx : Kept m s0 x) => ?_) ?_; clear_value x) | intro x

theorem State.failRuns_kept {m : Nat} (hm : Sub 0xA8064D0008 m) {s0 : State} {s : State} {reason : Nat} {p : Nat × PRun → Bool} (hs : Kept m s0 s) :
    Kept m s0 (State.failRuns s reason p) := by
  unfold State.failRuns
  repeat' first
    | with_reducible assumption | (refine Sub.of hm ?_; decide)
    | (lift_lets; intro x; with_reducible refine (fun (hx : Kept m s0 x) => ?_) ?_; clear_value x) | (lift_lets; intro x)
    | with_reducible apply State.psmFail_kept | (with_reducible refine Kept.foldl ?_ ?_; intro a x hx)
    | (with_reducible refine Kept.foldlFst ?_ ?_; intro a x hx) | (intro x; with_reducible refine (fun (hx : Kept m s0 x) => ?_) ?_; clear_value x)
    | intro x

theorem State.psmPortFence_kept {m : Nat} (hm : Sub 0xA8064D0008 m) {s0 : State} {s : State} {p : Nat} (hs : Kept m s0 s) :
    Kept m s0 (State.psmPortFence s p) := by
  unfold State.psmPortFence
  repeat' first
    | with_reducible assumption | (refine Sub.of hm ?_; decide)
    | (lift_lets; intro x; with_reducible refine (fun (hx : Kept m s0 x) => ?_) ?_; clear_value x) | (lift_lets; intro x)
    | with_reducible apply State.failRuns_kept | (intro x; with_reducible refine (fun (hx : Kept m s0 x) => ?_) ?_; clear_value x) | intro x

theorem State.psmPartFence_kept {m : Nat} (hm : Sub 0xA8064D0008 m) {s0 : State} {s : State} {n : Nat} (hs : Kept m s0 s) :
    Kept m s0 (State.psmPartFence s n) := by
  unfold State.psmPartFence
  repeat' first
    | with_reducible assumption | (refine Sub.of hm ?_; decide)
    | (lift_lets; intro x; with_reducible refine (fun (hx : Kept m s0 x) => ?_) ?_; clear_value x) | (lift_lets; intro x)
    | with_reducible apply State.failRuns_kept | (intro x; with_reducible refine (fun (hx : Kept m s0 x) => ?_) ?_; clear_value x) | intro x

theorem State.psmForce_kept {m : Nat} (hm : Sub 0xA8064D0008 m) {s0 : State} {s : State} (hs : Kept m s0 s) :
    Kept m s0 (State.psmForce s).1 := by
  unfold State.psmForce
  repeat' first
    | with_reducible assumption | (refine Sub.of hm ?_; decide)
    | (lift_lets; intro x; with_reducible refine (fun (hx : Kept m s0 x) => ?_) ?_; clear_value x) | (lift_lets; intro x)
    | with_reducible apply State.failRuns_kept | with_reducible refine Kept.ofFst (by assumption) ?_
    | (intro x; with_reducible refine (fun (hx : Kept m s0 x) => ?_) ?_; clear_value x) | intro x

theorem State.psmThaw_kept {m : Nat} (hm : Sub 0xA8064D0008 m) {s0 : State} {s : State} (hs : Kept m s0 s) :
    Kept m s0 (State.psmThaw s) := by
  unfold State.psmThaw
  repeat' first
    | with_reducible assumption | (refine Sub.of hm ?_; decide)
    | (lift_lets; intro x; with_reducible refine (fun (hx : Kept m s0 x) => ?_) ?_; clear_value x) | (lift_lets; intro x)
    | with_reducible apply State.failRuns_kept | (intro x; with_reducible refine (fun (hx : Kept m s0 x) => ?_) ?_; clear_value x) | intro x

theorem State.psmFlr_kept {m : Nat} (hm : Sub 0xA8064D0008 m) {s0 : State} {s : State} {f : Nat} (hs : Kept m s0 s) :
    Kept m s0 (State.psmFlr s f) := by
  unfold State.psmFlr
  repeat' first
    | with_reducible assumption | (refine Sub.of hm ?_; decide)
    | (lift_lets; intro x; with_reducible refine (fun (hx : Kept m s0 x) => ?_) ?_; clear_value x) | (lift_lets; intro x) | with_reducible apply Kept.ite
    | with_reducible apply Kept.iteFst | with_reducible apply Kept.iteSnd | with_reducible apply State.updRun_kept
    | with_reducible apply State.psmFail_kept | (with_reducible refine Kept.foldl ?_ ?_; intro a x hx)
    | (with_reducible refine Kept.foldlFst ?_ ?_; intro a x hx) | (with_reducible refine Kept.foldlSnd ?_ ?_; intro a x hx)
    | (intro x; with_reducible refine (fun (hx : Kept m s0 x) => ?_) ?_; clear_value x) | intro x

end Sys2Proof.Machine
end

