-- ==== Sys2Proof/Laws/KeptAttach.lean ====
section
/-! SUPPORT. What every operation of Machine/Attach.lean keeps, and which parts of the state it may change. -/

set_option linter.unusedTactic false
set_option linter.unreachableTactic false
set_option linter.unusedVariables false
set_option linter.unusedSimpArgs false

namespace Sys2Proof.Machine

theorem State.sendPending_kept {m : Nat} (hm : Sub 0x480000 m) {s0 : State} {s : State} {f : Fn} (hs : Kept m s0 s) :
    Kept m s0 (State.sendPending s f) := by
  unfold State.sendPending
  repeat' first
    | with_reducible assumption | (refine Sub.of hm ?_; decide)
    | (lift_lets; intro x; with_reducible refine (fun (hx : Kept m s0 x) => ?_) ?_; clear_value x) | (lift_lets; intro x) | with_reducible apply Kept.ite
    | with_reducible apply State.sendVector_kept | with_reducible apply State.setHostFn_kept | (with_reducible refine Kept.foldl ?_ ?_; intro a x hx)
    | (intro x; with_reducible refine (fun (hx : Kept m s0 x) => ?_) ?_; clear_value x) | intro x

theorem State.releaseHost_kept {m : Nat} (hm : Sub 0x24C000C m) {s0 : State} {s : State} {f : Fn} (hs : Kept m s0 s) :
    Kept m s0 (State.releaseHost s f) := by
  unfold State.releaseHost
  repeat' first
    | with_reducible assumption | (refine Sub.of hm ?_; decide) | with_reducible apply State.alertHeld_kept | with_reducible apply State.sendPending_kept
    | with_reducible apply State.releaseWaiting_kept

theorem State.dropHost_kept {m : Nat} (hm : Sub 0x400004 m) {s0 : State} {s : State} {f : Fn} (hs : Kept m s0 s) :
    Kept m s0 (State.dropHost s f) := by
  unfold State.dropHost
  repeat' first
    | with_reducible assumption | (refine Sub.of hm ?_; decide)
    | (lift_lets; intro x; with_reducible refine (fun (hx : Kept m s0 x) => ?_) ?_; clear_value x) | (lift_lets; intro x)
    | with_reducible apply State.setBit_kept | with_reducible apply State.setHostFn_kept
    | (unfold nmaFld; split_ifs <;> (dsimp only; refine Sub.of hm ?_; decide)) | with_reducible exact Kept.updHost (by assumption) (hm.of (by decide))
    | (intro x; with_reducible refine (fun (hx : Kept m s0 x) => ?_) ?_; clear_value x) | intro x
    | with_reducible refine Kept.updHost ?_ (hm.of (by decide))

theorem State.dropReaders_kept {m : Nat} (hm : Sub 0x602000000 m) {s0 : State} {s : State} (hs : Kept m s0 s) :
    Kept m s0 (State.dropReaders s) := by
  unfold State.dropReaders
  repeat' first
    | with_reducible assumption | (refine Sub.of hm ?_; decide)
    | (lift_lets; intro x; with_reducible refine (fun (hx : Kept m s0 x) => ?_) ?_; clear_value x) | (lift_lets; intro x)
    | with_reducible apply State.setCmds_kept | with_reducible apply State.dropCopies_kept | with_reducible apply State.setRdx_kept | split
    | (clear_value *; split) | (dsimp +zetaDelta only; split) | (intro x; with_reducible refine (fun (hx : Kept m s0 x) => ?_) ?_; clear_value x)
    | intro x

theorem State.queueRegs_kept {m : Nat} (hm : Sub 0x40008 m) {s0 s : State} {n : Nat} (hs : Kept m s0 s) :
    Kept m s0 (State.queueRegs s (qBase n)) := by
  refine State.clr_kept ?_ hs
  repeat' first
    | exact List.forall_mem_nil _
    | refine List.forall_mem_cons.2 ⟨?_, ?_⟩
    | (refine Sub.queue 3 hm ?_ (by decide); simp only [Fld.key, qBase, pageBase, F.CMDQ_BASE_BASE, F.CMDQ_SIZE_SIZE, F.CMDQ_TAIL_TAIL, F.CMDQ_HEAD_HEAD, F.CPLQ_BASE_BASE, F.CPLQ_SIZE_SIZE, F.CPLQ_HEAD_HEAD, F.CPLQ_TAIL_TAIL, F.CPLQ_TAIL_PHASE, F.Q_CTRL_CMD_EN, F.Q_CTRL_CPL_EN, F.Q_STAT_DB_OVR, F.Q_STAT_CPL_DB_OVR, F.Q_STAT_FETCH_ERR, F.Q_STAT_HALTED, F.CPL_COAL_COUNT, F.CPL_COAL_TIME]; split_ifs <;> omega)

theorem State.stopFetch_kept {m : Nat} (hm : Sub 0x2000000 m) {s0 : State} {s : State} {f : Fn} (hs : Kept m s0 s) :
    Kept m s0 (State.stopFetch s f) := by
  unfold State.stopFetch
  repeat' first
    | with_reducible assumption | (refine Sub.of hm ?_; decide)
    | (lift_lets; intro x; with_reducible refine (fun (hx : Kept m s0 x) => ?_) ?_; clear_value x) | (lift_lets; intro x)
    | with_reducible exact Kept.updQue (by assumption) (hm.of (by decide))
    | (intro x; with_reducible refine (fun (hx : Kept m s0 x) => ?_) ?_; clear_value x) | intro x
    | with_reducible refine Kept.updQue ?_ (hm.of (by decide))

theorem State.resetQueues0_kept {m : Nat} (hm : Sub 0x2040008 m) {s0 : State} {s : State} (hs : Kept m s0 s) :
    Kept m s0 (State.resetQueues0 s) := by
  unfold State.resetQueues0
  repeat' first
    | with_reducible assumption | (refine Sub.of hm ?_; decide)
    | (lift_lets; intro x; with_reducible refine (fun (hx : Kept m s0 x) => ?_) ?_; clear_value x) | (lift_lets; intro x) | with_reducible apply Kept.ite
    | with_reducible apply State.setCmds_kept | with_reducible apply State.queueRegs_kept | with_reducible apply State.stopFetch_kept
    | (intro x; with_reducible refine (fun (hx : Kept m s0 x) => ?_) ?_; clear_value x) | intro x

theorem State.flrVf_kept {m : Nat} (hm : Sub 0xAE06CFFFFF m) {s0 s : State} {f : Fn} (hs : Kept m s0 s) : Kept m s0 (State.flrVf s f) := by
  unfold State.flrVf
  have h1 : Kept m s0 (((s.rmeFlr f.val).rdxFlr f.val).psmFlr f.val) := State.psmFlr_kept (hm.of (by decide)) (State.rdxFlr_kept (hm.of (by decide)) (State.rmeFlr_kept (hm.of (by decide)) hs))
  generalize ((s.rmeFlr f.val).rdxFlr f.val).psmFlr f.val = t at h1
  have h2 (l : List Cmd) : Kept m s0 (((t.setCmds l).stopFetch f).dropHost f) :=
    State.dropHost_kept (hm.of (by decide)) (State.stopFetch_kept (hm.of (by decide)) (State.setCmds_kept (hm.of (by decide)) h1))
  exact Kept.updHost (State.setRdx_kept (hm.of (by decide)) (State.setReq_kept (hm.of (by decide)) (Kept.setRegs (hm.of (by decide)) (h2 _)))) (hm.of (by decide))

theorem State.setVfs_kept {m : Nat} (hm : Sub 0xAE06CFFFFF m) {s0 : State} {s : State} {n : Nat} {en : Bool} (hs : Kept m s0 s) :
    Kept m s0 (State.setVfs s n en) := by
  unfold State.setVfs
  repeat' first
    | with_reducible assumption | (refine Sub.of hm ?_; decide)
    | (lift_lets; intro x; with_reducible refine (fun (hx : Kept m s0 x) => ?_) ?_; clear_value x) | (lift_lets; intro x) | with_reducible apply Kept.ite
    | with_reducible apply State.wr_kept | with_reducible apply State.flrVf_kept | exact Sub.any hm (by decide)
    | (with_reducible refine Kept.foldl ?_ ?_; intro a x hx) | (intro x; with_reducible refine (fun (hx : Kept m s0 x) => ?_) ?_; clear_value x)
    | intro x

theorem State.flrPf0_kept {m : Nat} (hm : Sub 0xAF8EDFFFFF m) {s0 : State} {s : State} (hs : Kept m s0 s) :
    Kept m s0 (State.flrPf0 s) := by
  unfold State.flrPf0
  repeat' first
    | with_reducible assumption | (refine Sub.of hm ?_; decide)
    | (lift_lets; intro x; with_reducible refine (fun (hx : Kept m s0 x) => ?_) ?_; clear_value x) | (lift_lets; intro x)
    | with_reducible apply State.setVfs_kept | with_reducible apply State.resetQueues0_kept | with_reducible apply State.dropReaders_kept
    | with_reducible apply State.settle_kept | with_reducible apply State.dropHost_kept | with_reducible apply State.rmeGo_kept
    | exact Sub.any hm (by decide) | (intro x; with_reducible refine (fun (hx : Kept m s0 x) => ?_) ?_; clear_value x) | intro x

theorem execVfFlr_kept {m : Nat} (hm : Sub 0xAE06CFFFFF m) {s0 : State} {f : Fn} {s : State} (hs : Kept m s0 s) :
    KeptOut m s0 (execVfFlr f s) := by
  unfold execVfFlr
  repeat' first
    | with_reducible assumption | (refine Sub.of hm ?_; decide) | with_reducible apply KeptOut.next | with_reducible apply KeptOut.ite
    | with_reducible apply Kept.ite | with_reducible apply State.flrVf_kept | exact Sub.any hm (by decide)

theorem execPf0Flr_kept {m : Nat} (hm : Sub 0xAF8EDFFFFF m) {s0 : State} {s : State} (hs : Kept m s0 s) :
    KeptOut m s0 (execPf0Flr s) := by
  unfold execPf0Flr
  repeat' first
    | with_reducible assumption | (refine Sub.of hm ?_; decide) | with_reducible apply KeptOut.next | with_reducible apply State.flrPf0_kept
    | exact Sub.any hm (by decide)

theorem execFlrComplete_kept {m : Nat} (hm : Sub 0x4D0000 m) {s0 : State} {f : Fn} {s : State} (hs : Kept m s0 s) :
    KeptOut m s0 (execFlrComplete f s) := by
  unfold execFlrComplete
  repeat' first
    | with_reducible assumption | (refine Sub.of hm ?_; decide) | with_reducible apply KeptOut.next | with_reducible apply KeptOut.ite
    | with_reducible apply Kept.ite | with_reducible apply State.cause0_kept | with_reducible exact Kept.updHost (by assumption) (hm.of (by decide))
    | with_reducible refine Kept.updHost ?_ (hm.of (by decide))

theorem execVfEnableChange_kept {m : Nat} (hm : Sub 0xAE06CFFFFF m) {s0 : State} {en : Bool} {num : Fn} {s : State} (hs : Kept m s0 s) :
    KeptOut m s0 (execVfEnableChange en num s) := by
  unfold execVfEnableChange
  repeat' first
    | with_reducible assumption | (refine Sub.of hm ?_; decide) | with_reducible apply KeptOut.next | with_reducible apply State.setVfs_kept
    | exact Sub.any hm (by decide)

theorem State.linkDown_kept {m : Nat} (hm : Sub 0x20004D0004 m) {s0 : State} {s : State} (hs : Kept m s0 s) :
    Kept m s0 (State.linkDown s) := by
  unfold State.linkDown
  repeat' first
    | with_reducible assumption | (refine Sub.of hm ?_; decide) | with_reducible apply Kept.ite | with_reducible apply State.fault_kept
    | with_reducible apply State.cause0_kept | with_reducible apply State.wrs_nil_kept | with_reducible apply State.wrs_cons_kept
    | with_reducible apply State.wrs_ite_kept | with_reducible apply State.wr_kept

theorem execHostLinkDown_kept {m : Nat} (hm : Sub 0xAF8EDFFFFF m) {s0 : State} {dlDown : Bool} {s : State} (hs : Kept m s0 s) :
    KeptOut m s0 (execHostLinkDown dlDown s) := by
  unfold execHostLinkDown
  repeat' first
    | with_reducible assumption | (refine Sub.of hm ?_; decide)
    | (lift_lets; intro x; with_reducible refine (fun (hx : Kept m s0 x) => ?_) ?_; clear_value x) | (lift_lets; intro x)
    | with_reducible apply KeptOut.next | with_reducible apply KeptOut.ite | with_reducible apply Kept.ite | with_reducible apply State.linkDown_kept
    | with_reducible apply State.flrPf0_kept | exact Sub.any hm (by decide)
    | (intro x; with_reducible refine (fun (hx : Kept m s0 x) => ?_) ?_; clear_value x) | intro x

theorem State.linkUp_kept {m : Nat} (hm : Sub 0x20024D000C m) {s0 : State} {s : State} {l : LinkParams} (hs : Kept m s0 s) :
    Kept m s0 (State.linkUp s l) := by
  unfold State.linkUp
  repeat' first
    | with_reducible assumption | (refine Sub.of hm ?_; decide)
    | (lift_lets; intro x; with_reducible refine (fun (hx : Kept m s0 x) => ?_) ?_; clear_value x) | (lift_lets; intro x) | with_reducible apply Kept.ite
    | with_reducible apply Kept.iteFst | with_reducible apply Kept.iteSnd | with_reducible apply State.fault_kept
    | with_reducible apply State.releaseHost_kept | with_reducible apply State.cause0_kept | with_reducible apply State.wrs_nil_kept
    | with_reducible apply State.wrs_cons_kept | with_reducible apply State.wrs_ite_kept | with_reducible apply State.wr_kept
    | with_reducible exact Kept.updHost (by assumption) (hm.of (by decide)) | (with_reducible refine Kept.foldl ?_ ?_; intro a x hx)
    | (with_reducible refine Kept.foldlFst ?_ ?_; intro a x hx) | (with_reducible refine Kept.foldlSnd ?_ ?_; intro a x hx)
    | (intro x; with_reducible refine (fun (hx : Kept m s0 x) => ?_) ?_; clear_value x) | intro x
    | with_reducible refine Kept.updHost ?_ (hm.of (by decide))

theorem execHostLinkUp_kept {m : Nat} (hm : Sub 0x20024D000C m) {s0 : State} {l : LinkParams} {s : State} (hs : Kept m s0 s) :
    KeptOut m s0 (execHostLinkUp l s) := by
  unfold execHostLinkUp
  repeat' first
    | with_reducible assumption | (refine Sub.of hm ?_; decide) | with_reducible apply KeptOut.next | with_reducible apply KeptOut.ite
    | with_reducible apply Kept.ite | with_reducible apply State.linkUp_kept

theorem execNonMaskableAlert_kept {m : Nat} (hm : Sub 0x80004 m) {s0 : State} {f : Fn} {s : State} (hs : Kept m s0 s) :
    KeptOut m s0 (execNonMaskableAlert f s) := by
  unfold execNonMaskableAlert
  repeat' first
    | with_reducible assumption | (refine Sub.of hm ?_; decide) | with_reducible apply KeptOut.next | with_reducible apply State.alertHeld_kept

theorem execVectorMaskOrEnableWrite_kept {m : Nat} (hm : Sub 0x24C000C m) {s0 : State} {f : Fn} {w : VecWrite} {s : State} (hs : Kept m s0 s) :
    KeptOut m s0 (execVectorMaskOrEnableWrite f w s) := by
  unfold execVectorMaskOrEnableWrite
  repeat' first
    | with_reducible assumption | (refine Sub.of hm ?_; decide)
    | (lift_lets; intro x; with_reducible refine (fun (hx : Kept m s0 x) => ?_) ?_; clear_value x) | (lift_lets; intro x)
    | with_reducible apply KeptOut.next | with_reducible apply KeptOut.ite | with_reducible apply Kept.ite | with_reducible apply State.releaseHost_kept
    | with_reducible apply State.setHostFn_kept | with_reducible apply State.send_kept | (with_reducible refine Kept.foldl ?_ ?_; intro a x hx) | split
    | (clear_value *; split) | (dsimp +zetaDelta only; split) | (intro x; with_reducible refine (fun (hx : Kept m s0 x) => ?_) ?_; clear_value x)
    | intro x

theorem State.cmdDoorbell_kept {m : Nat} (hm : Sub 0x2004D0008 m) {s0 : State} {s : State} {f : Fn} {t : Nat} (hs : Kept m s0 s) :
    Kept m s0 (State.cmdDoorbell s f t) := by
  unfold State.cmdDoorbell
  repeat' first
    | with_reducible assumption | (refine Sub.of hm ?_; decide)
    | (lift_lets; intro x; with_reducible refine (fun (hx : Kept m s0 x) => ?_) ?_; clear_value x) | (lift_lets; intro x) | with_reducible apply Kept.ite
    | with_reducible apply State.wr_kept | with_reducible apply State.setOps_kept | with_reducible apply State.cause_kept
    | (refine Sub.queue 3 hm ?_ (by decide); simp +zetaDelta only [Fld.key, qBase, pageBase, F.Q_STAT_DB_OVR, F.CMDQ_TAIL_TAIL]; split_ifs <;> omega)
    | (refine Sub.upper hm ?_ (by decide); simp +zetaDelta only [Fld.key, qBase, pageBase, F.Q_STAT_DB_OVR, F.CMDQ_TAIL_TAIL]; split_ifs <;> omega)
    | (intro x; with_reducible refine (fun (hx : Kept m s0 x) => ?_) ?_; clear_value x) | intro x

theorem State.cplDoorbell_kept {m : Nat} (hm : Sub 0x4D0008 m) {s0 : State} {s : State} {f : Fn} {h : Nat} (hs : Kept m s0 s) :
    Kept m s0 (State.cplDoorbell s f h) := by
  unfold State.cplDoorbell
  repeat' first
    | with_reducible assumption | (refine Sub.of hm ?_; decide)
    | (lift_lets; intro x; with_reducible refine (fun (hx : Kept m s0 x) => ?_) ?_; clear_value x) | (lift_lets; intro x) | with_reducible apply Kept.ite
    | with_reducible apply State.wr_kept | with_reducible apply State.cause_kept
    | (refine Sub.queue 3 hm ?_ (by decide); simp +zetaDelta only [Fld.key, qBase, pageBase, F.Q_STAT_CPL_DB_OVR, F.CPLQ_HEAD_HEAD]; split_ifs <;> omega)
    | (refine Sub.upper hm ?_ (by decide); simp +zetaDelta only [Fld.key, qBase, pageBase, F.Q_STAT_CPL_DB_OVR, F.CPLQ_HEAD_HEAD]; split_ifs <;> omega)
    | (intro x; with_reducible refine (fun (hx : Kept m s0 x) => ?_) ?_; clear_value x) | intro x

theorem State.queueCfg_kept {m : Nat} (hm : Sub 0x40008 m) {s0 : State} {s : State} {f : Fn} {q : QReg} {v : Nat} (hs : Kept m s0 s) :
    KeptOpt m s0 (State.queueCfg s f q v) := by
  unfold State.queueCfg
  repeat' first
    | with_reducible assumption | (refine Sub.of hm ?_; decide)
    | (lift_lets; intro x; with_reducible refine (fun (hx : Kept m s0 x) => ?_) ?_; clear_value x) | (lift_lets; intro x)
    | with_reducible apply KeptOpt.none | with_reducible apply KeptOpt.some | with_reducible apply KeptOpt.ite | with_reducible apply Kept.ite
    | with_reducible apply State.wr_kept | with_reducible apply State.wrs_nil_kept | with_reducible apply State.wrs_cons_kept
    | with_reducible apply State.wrs_ite_kept
    | (refine Sub.queue 3 hm ?_ (by decide); simp +zetaDelta only [Fld.key, qBase, pageBase, F.CMDQ_SIZE_SIZE, F.CMDQ_HEAD_HEAD, F.CPLQ_BASE_BASE, F.CMDQ_BASE_BASE, F.CPLQ_TAIL_TAIL, F.CPLQ_TAIL_PHASE, F.CPLQ_SIZE_SIZE, F.CMDQ_TAIL_TAIL, F.CPLQ_HEAD_HEAD]; split_ifs <;> omega)
    | (refine Sub.upper hm ?_ (by decide); simp +zetaDelta only [Fld.key, qBase, pageBase, F.CMDQ_SIZE_SIZE, F.CMDQ_HEAD_HEAD, F.CPLQ_BASE_BASE, F.CMDQ_BASE_BASE, F.CPLQ_TAIL_TAIL, F.CPLQ_TAIL_PHASE, F.CPLQ_SIZE_SIZE, F.CMDQ_TAIL_TAIL, F.CPLQ_HEAD_HEAD]; split_ifs <;> omega)
    | split | (clear_value *; split) | (dsimp +zetaDelta only; split) | (intro x; with_reducible refine (fun (hx : Kept m s0 x) => ?_) ?_; clear_value x)
    | intro x

theorem State.qCtrl_kept {m : Nat} (hm : Sub 0x2040008 m) {s0 : State} {s : State} {f : Fn} {v : Nat} (hs : Kept m s0 s) :
    Kept m s0 (State.qCtrl s f v) := by
  unfold State.qCtrl
  repeat' first
    | with_reducible assumption | (refine Sub.of hm ?_; decide)
    | (lift_lets; intro x; with_reducible refine (fun (hx : Kept m s0 x) => ?_) ?_; clear_value x) | (lift_lets; intro x) | with_reducible apply Kept.ite
    | with_reducible apply State.setCmds_kept | with_reducible apply State.wr_kept | with_reducible apply State.wrs_nil_kept
    | with_reducible apply State.wrs_cons_kept | with_reducible apply State.wrs_ite_kept
    | (refine Sub.queue 3 hm ?_ (by decide); simp +zetaDelta only [Fld.key, qBase, pageBase, F.Q_CTRL_CMD_EN, F.Q_CTRL_CPL_EN, F.Q_STAT_HALTED]; split_ifs <;> omega)
    | (refine Sub.upper hm ?_ (by decide); simp +zetaDelta only [Fld.key, qBase, pageBase, F.Q_CTRL_CMD_EN, F.Q_CTRL_CPL_EN, F.Q_STAT_HALTED]; split_ifs <;> omega)
    | (intro x; with_reducible refine (fun (hx : Kept m s0 x) => ?_) ?_; clear_value x) | intro x

theorem State.setQue_kept {m : Nat} (hm : Sub 0x2000000 m) {s0 : State} {s : State} {q : QueState} (hs : Kept m s0 s) :
    Kept m s0 (State.setQue s q) := by
  unfold State.setQue
  repeat' first
    | with_reducible assumption | (refine Sub.of hm ?_; decide) | with_reducible exact Kept.updQue (by assumption) (hm.of (by decide))
    | with_reducible refine Kept.updQue ?_ (hm.of (by decide))

theorem State.fetchFor_kept {m : Nat} (hm : Sub 0x2480000 m) {s0 : State} {s : State} {f : Fn} {n : Nat} (hs : Kept m s0 s) :
    Kept m s0 (State.fetchFor s f n) := by
  unfold State.fetchFor
  repeat' first
    | with_reducible assumption | (refine Sub.of hm ?_; decide)
    | (lift_lets; intro x; with_reducible refine (fun (hx : Kept m s0 x) => ?_) ?_; clear_value x) | (lift_lets; intro x)
    | with_reducible apply State.setQue_kept | with_reducible apply State.hostAcc_kept
    | (intro x; with_reducible refine (fun (hx : Kept m s0 x) => ?_) ?_; clear_value x) | intro x

theorem State.drr_kept {m : Nat} (hm : Sub 0x2480000 m) {s0 : State} {s : State} {a0 : Nat} (hs : Kept m s0 s) :
    Kept m s0 (State.drr s a0) := by
  induction a0 generalizing s with
  | zero =>
    unfold State.drr
    repeat' first
      | with_reducible assumption | (refine Sub.of hm ?_; decide)
      | (lift_lets; intro x; with_reducible refine (fun (hx : Kept m s0 x) => ?_) ?_; clear_value x) | (lift_lets; intro x)
      | with_reducible apply Kept.ite | with_reducible refine Kept.dite (fun h => ?_) (fun h => ?_) | with_reducible apply State.setQue_kept
      | with_reducible apply State.fetchFor_kept | split | (clear_value *; split) | (dsimp +zetaDelta only; split)
      | (intro x; with_reducible refine (fun (hx : Kept m s0 x) => ?_) ?_; clear_value x) | intro x
  | succ n ih =>
    unfold State.drr
    repeat' first
      | (with_reducible apply ih) | with_reducible assumption | (refine Sub.of hm ?_; decide)
      | (lift_lets; intro x; with_reducible refine (fun (hx : Kept m s0 x) => ?_) ?_; clear_value x) | (lift_lets; intro x)
      | with_reducible apply Kept.ite | with_reducible refine Kept.dite (fun h => ?_) (fun h => ?_) | with_reducible apply State.setQue_kept
      | with_reducible apply State.fetchFor_kept | split | (clear_value *; split) | (dsimp +zetaDelta only; split)
      | (intro x; with_reducible refine (fun (hx : Kept m s0 x) => ?_) ?_; clear_value x) | intro x

theorem execFetchReadIssue_kept {m : Nat} (hm : Sub 0x2480000 m) {s0 : State} {s : State} (hs : Kept m s0 s) :
    KeptOut m s0 (execFetchReadIssue s) := by
  unfold execFetchReadIssue
  repeat' first
    | with_reducible assumption | (refine Sub.of hm ?_; decide)
    | (lift_lets; intro x; with_reducible refine (fun (hx : Kept m s0 x) => ?_) ?_; clear_value x) | (lift_lets; intro x)
    | with_reducible apply KeptOut.next | with_reducible apply KeptOut.ite | with_reducible apply Kept.ite | with_reducible apply State.drr_kept
    | with_reducible apply State.fetchFor_kept | (intro x; with_reducible refine (fun (hx : Kept m s0 x) => ?_) ?_; clear_value x) | intro x

theorem State.takeEntries_kept {m : Nat} (hm : Sub 0x2000000 m) {s0 : State} {s : State} {f : Fn} {l : List Block64} (hs : Kept m s0 s) :
    Kept m s0 (State.takeEntries s f l) := by
  unfold State.takeEntries
  repeat' first
    | with_reducible assumption | (refine Sub.of hm ?_; decide)
    | (lift_lets; intro x; with_reducible refine (fun (hx : Kept m s0 x) => ?_) ?_; clear_value x) | (lift_lets; intro x)
    | with_reducible exact Kept.updQue (by assumption) (hm.of (by decide)) | (with_reducible refine Kept.foldl ?_ ?_; intro a x hx)
    | (intro x; with_reducible refine (fun (hx : Kept m s0 x) => ?_) ?_; clear_value x) | intro x
    | with_reducible refine Kept.updQue ?_ (hm.of (by decide))

theorem execFetchReadDone_kept {m : Nat} (hm : Sub 0xA0024D0008 m) {s0 : State} {f : Fn} {entries : List (Option Block64)} {s : State} (hs : Kept m s0 s) :
    KeptOut m s0 (execFetchReadDone f entries s) := by
  unfold execFetchReadDone
  repeat' first
    | with_reducible assumption | (refine Sub.of hm ?_; decide)
    | (lift_lets; intro x; with_reducible refine (fun (hx : Kept m s0 x) => ?_) ?_; clear_value x) | (lift_lets; intro x)
    | with_reducible apply KeptOut.next | with_reducible apply KeptOut.ite | with_reducible apply Kept.ite | with_reducible apply State.fault_kept
    | with_reducible apply State.wr_kept | with_reducible apply State.settle_kept | with_reducible apply State.takeEntries_kept
    | with_reducible apply State.readBack_kept | with_reducible apply State.cause_kept | with_reducible apply State.wrs_nil_kept
    | with_reducible apply State.wrs_cons_kept | with_reducible apply State.wrs_ite_kept
    | (refine Sub.queue 3 hm ?_ (by decide); simp +zetaDelta only [Fld.key, qBase, pageBase, F.CMDQ_HEAD_HEAD, F.Q_STAT_FETCH_ERR, F.Q_STAT_HALTED]; split_ifs <;> omega)
    | (refine Sub.upper hm ?_ (by decide); simp +zetaDelta only [Fld.key, qBase, pageBase, F.CMDQ_HEAD_HEAD, F.Q_STAT_FETCH_ERR, F.Q_STAT_HALTED]; split_ifs <;> omega)
    | with_reducible exact Kept.updQue (by assumption) (hm.of (by decide)) | with_reducible refine Kept.ofSome (by assumption) ?_ | split
    | (clear_value *; split) | (dsimp +zetaDelta only; split) | (intro x; with_reducible refine (fun (hx : Kept m s0 x) => ?_) ?_; clear_value x)
    | intro x | with_reducible refine Kept.updQue ?_ (hm.of (by decide))

theorem execCplCoalTimer_kept {m : Nat} (hm : Sub 0x2480000 m) {s0 : State} {f : Fn} {s : State} (hs : Kept m s0 s) :
    KeptOut m s0 (execCplCoalTimer f s) := by
  unfold execCplCoalTimer
  repeat' first
    | with_reducible assumption | (refine Sub.of hm ?_; decide) | with_reducible apply KeptOut.next | with_reducible apply KeptOut.ite
    | with_reducible apply Kept.ite | with_reducible apply State.vector_kept | with_reducible exact Kept.updQue (by assumption) (hm.of (by decide))
    | with_reducible refine Kept.updQue ?_ (hm.of (by decide))

theorem execNop_kept {m : Nat} (hm : Sub 0x80024C0008 m) {s0 : State} {f : Fn} {e : Block64} {s : State} (hs : Kept m s0 s) :
    KeptOut m s0 (execNop f e s) := by
  unfold execNop
  repeat' first
    | with_reducible assumption | (refine Sub.of hm ?_; decide) | with_reducible refine fun (y0 : Cmd) (s : State) (h : Kept m s0 s) => ?_
    | (lift_lets; intro x; with_reducible refine (fun (hx : Kept m s0 x) => ?_) ?_; clear_value x) | (lift_lets; intro x)
    | with_reducible apply KeptOut.next | with_reducible apply State.command_kept | with_reducible apply State.complete_kept
    | (intro x; with_reducible refine (fun (hx : Kept m s0 x) => ?_) ?_; clear_value x) | intro x

theorem execFence_kept {m : Nat} (hm : Sub 0x80024C0008 m) {s0 : State} {f : Fn} {e : Block64} {s : State} (hs : Kept m s0 s) :
    KeptOut m s0 (execFence f e s) := by
  unfold execFence
  repeat' first
    | with_reducible assumption | (refine Sub.of hm ?_; decide) | with_reducible refine fun (y0 : Cmd) (s : State) (h : Kept m s0 s) => ?_
    | (lift_lets; intro x; with_reducible refine (fun (hx : Kept m s0 x) => ?_) ?_; clear_value x) | (lift_lets; intro x)
    | with_reducible apply KeptOut.next | with_reducible apply State.command_kept | with_reducible apply State.setWait_kept
    | (intro x; with_reducible refine (fun (hx : Kept m s0 x) => ?_) ?_; clear_value x) | intro x

theorem execHostReadDone_kept {m : Nat} (hm : Sub 0xB3FA5D0A88 m) {s0 : State} {f : Fn} {cmd : BitVec 16} {d : HostData} {s : State} (hs : Kept m s0 s) :
    KeptOut m s0 (execHostReadDone f cmd d s) := by
  unfold execHostReadDone
  repeat' first
    | with_reducible assumption | (refine Sub.of hm ?_; decide)
    | (lift_lets; intro x; with_reducible refine (fun (hx : Kept m s0 x) => ?_) ?_; clear_value x) | (lift_lets; intro x)
    | with_reducible apply KeptOut.next | with_reducible apply KeptOut.ite | with_reducible apply Kept.ite | with_reducible apply State.copyData_kept
    | with_reducible apply State.keyBlob_kept | with_reducible apply State.schedImage_kept | with_reducible apply State.readBack_kept
    | with_reducible refine Kept.ofSome (by assumption) ?_ | split | (clear_value *; split) | (dsimp +zetaDelta only; split)
    | (intro x; with_reducible refine (fun (hx : Kept m s0 x) => ?_) ?_; clear_value x) | intro x

end Sys2Proof.Machine
end

