-- ==== Sys2Proof/Laws/KeptEnv.lean ====
section
/-! SUPPORT. What every operation of Machine/Env.lean keeps, and which parts of the state it may change. -/

set_option linter.unusedTactic false
set_option linter.unreachableTactic false
set_option linter.unusedVariables false
set_option linter.unusedSimpArgs false

namespace Sys2Proof.Machine

theorem execDieSensorConversion_kept {m : Nat} (hm : Sub 0x20004D0000 m) {s0 : State} {n : Fin 64} {temp : BitVec 16} {s : State} (hs : Kept m s0 s) :
    KeptOut m s0 (execDieSensorConversion n temp s) := by
  unfold execDieSensorConversion
  repeat' first
    | with_reducible assumption | (refine Sub.of hm ?_; decide)
    | (lift_lets; intro x; with_reducible refine (fun (hx : Kept m s0 x) => ?_) ?_; clear_value x) | (lift_lets; intro x)
    | with_reducible apply KeptOut.next | with_reducible apply KeptOut.ite | with_reducible apply Kept.ite | with_reducible apply State.fault_kept
    | with_reducible apply State.wr_kept | with_reducible apply State.cause0_kept
    | (refine Sub.upper hm ?_ (by decide); simp only [Fld.key, F.ENV_DIE_TEMP_LO, F.ENV_DIE_TEMP_HI, F.ENV_DIE_TEMP_TEMP, F.ENV_DIE_TEMP_VALID]; omega)
    | (intro x; with_reducible refine (fun (hx : Kept m s0 x) => ?_) ?_; clear_value x) | intro x

theorem State.extInvalid_kept {m : Nat} (hm : Sub 0x40000 m) {s0 : State} {s : State} {n : Nat} (hs : Kept m s0 s) :
    Kept m s0 (State.extInvalid s n) := by
  unfold State.extInvalid
  repeat' first
    | with_reducible assumption | (refine Sub.of hm ?_; decide) | with_reducible apply State.wr_kept
    | (refine Sub.upper hm ?_ (by decide); simp only [Fld.key, F.ENV_EXT_TEMP_VALID, F.ENV_EXT_RAW_VALID]; omega)

theorem execExtConversionDone_kept {m : Nat} (hm : Sub 0x20005D0000 m) {s0 : State} {n : Fin 4} {x : ExtConv} {s : State} (hs : Kept m s0 s) :
    KeptOut m s0 (execExtConversionDone n x s) := by
  unfold execExtConversionDone
  repeat' first
    | with_reducible assumption | (refine Sub.of hm ?_; decide)
    | (lift_lets; intro x; with_reducible refine (fun (hx : Kept m s0 x) => ?_) ?_; clear_value x) | (lift_lets; intro x)
    | with_reducible apply KeptOut.next | with_reducible apply KeptOut.ite | with_reducible apply Kept.ite | with_reducible apply Kept.iteSnd
    | with_reducible apply State.fault_kept | with_reducible apply State.wr_kept | with_reducible apply State.free_kept
    | with_reducible apply State.cause0_kept | with_reducible apply State.extInvalid_kept | with_reducible apply State.inc_kept
    | with_reducible apply State.wrs_nil_kept | with_reducible apply State.wrs_cons_kept | with_reducible apply State.wrs_ite_kept
    | (refine Sub.upper hm ?_ (by decide); simp only [Fld.key, F.ENV_EXT_CONV_COUNT, F.ENV_EXT_RAW_CODE, F.ENV_EXT_RAW_WIRE, F.ENV_EXT_TEMP_TEMP, F.ENV_EXT_RAW_RANGE, F.ENV_EXT_TEMP_VALID, F.ENV_EXT_RAW_REVERSED, F.ENV_EXT_RAW_OPEN, F.ENV_EXT_RAW_VALID]; omega)
    | with_reducible refine Kept.ofSnd (by assumption) ?_ | split | (clear_value *; split) | (dsimp +zetaDelta only; split)
    | (intro x; with_reducible refine (fun (hx : Kept m s0 x) => ?_) ?_; clear_value x) | intro x

theorem execExtOpenDetect_kept {m : Nat} (hm : Sub 0x20004D0000 m) {s0 : State} {n : Fin 4} {w : OpenWire} {s : State} (hs : Kept m s0 s) :
    KeptOut m s0 (execExtOpenDetect n w s) := by
  unfold execExtOpenDetect
  repeat' first
    | with_reducible assumption | (refine Sub.of hm ?_; decide)
    | (lift_lets; intro x; with_reducible refine (fun (hx : Kept m s0 x) => ?_) ?_; clear_value x) | (lift_lets; intro x)
    | with_reducible apply KeptOut.next | with_reducible apply KeptOut.ite | with_reducible apply Kept.ite | with_reducible apply State.fault_kept
    | with_reducible apply State.cause0_kept | with_reducible apply State.extInvalid_kept | with_reducible apply State.wrs_nil_kept
    | with_reducible apply State.wrs_cons_kept | with_reducible apply State.wrs_ite_kept | with_reducible apply State.wr_kept
    | (refine Sub.upper hm ?_ (by decide); simp only [Fld.key, F.ENV_EXT_RAW_CODE, F.ENV_EXT_RAW_WIRE, F.ENV_EXT_RAW_OPEN]; omega) | split
    | (clear_value *; split) | (dsimp +zetaDelta only; split) | (intro x; with_reducible refine (fun (hx : Kept m s0 x) => ?_) ?_; clear_value x)
    | intro x

theorem State.envStop_kept {m : Nat} (hm : Sub 0x40000 m) {s0 : State} {s : State} (hs : Kept m s0 s) :
    Kept m s0 (State.envStop s) := by
  unfold State.envStop
  repeat' first
    | with_reducible assumption | (refine Sub.of hm ?_; decide)
    | (lift_lets; intro x; with_reducible refine (fun (hx : Kept m s0 x) => ?_) ?_; clear_value x) | (lift_lets; intro x)
    | with_reducible apply State.extInvalid_kept | (with_reducible refine Kept.foldl ?_ ?_; intro a x hx)
    | (intro x; with_reducible refine (fun (hx : Kept m s0 x) => ?_) ?_; clear_value x) | intro x

theorem State.envReset_kept {m : Nat} (hm : Sub 0x40000 m) {s0 : State} {s : State} (hs : Kept m s0 s) :
    Kept m s0 (State.envReset s) := by
  unfold State.envReset
  repeat' first
    | with_reducible assumption | (refine Sub.of hm ?_; decide)
    | (lift_lets; intro x; with_reducible refine (fun (hx : Kept m s0 x) => ?_) ?_; clear_value x) | (lift_lets; intro x)
    | with_reducible apply State.extInvalid_kept | with_reducible apply State.clr_nil_kept | with_reducible apply State.clr_cons_kept
    | with_reducible apply State.wr_kept
    | (refine Sub.upper hm ?_ (by decide); simp only [Fld.key, F.ENV_SUP_LOW, F.ENV_EXT_RAW_WIRE, F.ENV_DIE_TEMP_LO, F.ENV_DIE_TEMP_HI, F.ENV_SUP_HIGH, F.ENV_EXT_RAW_RANGE, F.ENV_EXT_RAW_REVERSED, F.ENV_EXT_RAW_OPEN]; omega)
    | (with_reducible refine Kept.foldl ?_ ?_; intro a x hx) | (intro x; with_reducible refine (fun (hx : Kept m s0 x) => ?_) ?_; clear_value x)
    | intro x

theorem execSupplyOutOfWindow_kept {m : Nat} (hm : Sub 0x20004D0000 m) {s0 : State} {k : Fin 7} {mv : BitVec 13} {s : State} (hs : Kept m s0 s) :
    KeptOut m s0 (execSupplyOutOfWindow k mv s) := by
  unfold execSupplyOutOfWindow
  repeat' first
    | with_reducible assumption | (refine Sub.of hm ?_; decide)
    | (lift_lets; intro x; with_reducible refine (fun (hx : Kept m s0 x) => ?_) ?_; clear_value x)
    | (lift_lets; intro x; with_reducible refine (fun (hx : Sub (2 ^ (Fld.part x).ix) m) => ?_) ?_; clear_value x) | (lift_lets; intro x)
    | with_reducible apply KeptOut.next | with_reducible apply KeptOut.ite | with_reducible apply Kept.ite | with_reducible apply State.fault_kept
    | with_reducible apply State.wr_kept | with_reducible apply State.cause0_kept | with_reducible apply State.wrs_nil_kept
    | with_reducible apply State.wrs_cons_kept | with_reducible apply State.wrs_ite_kept
    | (refine Sub.upper hm ?_ (by decide); simp only [Fld.key, F.ENV_SUP_LOW, F.ENV_SUP_VALID, F.ENV_SUP_MV, F.ENV_SUP_HIGH]; omega)
    | ((with_reducible show Sub (2 ^ _) m); (try simp +zetaDelta only); split_ifs <;> first | (refine Sub.of hm ?_; decide) | (refine Sub.upper hm ?_ (by decide); simp only [Fld.key, F.ENV_SUP_LOW, F.ENV_SUP_VALID, F.ENV_SUP_MV, F.ENV_SUP_HIGH]; omega))
    | ((with_reducible show Sub (2 ^ _) m); (try simp +zetaDelta only); split <;> first | (refine Sub.of hm ?_; decide) | (refine Sub.upper hm ?_ (by decide); simp only [Fld.key, F.ENV_SUP_LOW, F.ENV_SUP_VALID, F.ENV_SUP_MV, F.ENV_SUP_HIGH]; omega))
    | (intro x; with_reducible refine (fun (hx : Kept m s0 x) => ?_) ?_; clear_value x) | intro x

theorem execSupplyRecover_kept {m : Nat} (hm : Sub 0x40000 m) {s0 : State} {k : Fin 7} {mv : BitVec 13} {s : State} (hs : Kept m s0 s) :
    KeptOut m s0 (execSupplyRecover k mv s) := by
  unfold execSupplyRecover
  repeat' first
    | with_reducible assumption | (refine Sub.of hm ?_; decide)
    | (lift_lets; intro x; with_reducible refine (fun (hx : Kept m s0 x) => ?_) ?_; clear_value x) | (lift_lets; intro x)
    | with_reducible apply KeptOut.next | with_reducible apply KeptOut.ite | with_reducible apply Kept.ite | with_reducible apply State.wrs_nil_kept
    | with_reducible apply State.wrs_cons_kept | with_reducible apply State.wrs_ite_kept | with_reducible apply State.wr_kept
    | (refine Sub.upper hm ?_ (by decide); simp only [Fld.key, F.ENV_SUP_LOW, F.ENV_SUP_VALID, F.ENV_SUP_MV, F.ENV_SUP_HIGH]; omega)
    | (intro x; with_reducible refine (fun (hx : Kept m s0 x) => ?_) ?_; clear_value x) | intro x

end Sys2Proof.Machine
end

