-- ==== Sys2Proof/Laws/KeptSta.lean ====
section
/-! SUPPORT. What every operation of Machine/Sta.lean keeps, and which parts of the state it may change. -/

set_option linter.unusedTactic false
set_option linter.unreachableTactic false
set_option linter.unusedVariables false
set_option linter.unusedSimpArgs false

namespace Sys2Proof.Machine

theorem State.boundary_kept {m : Nat} (hm : Sub 0x80004D0000 m) {s0 : State} {s : State} {t : Nat} {short : Bool} (hs : Kept m s0 s) :
    Kept m s0 (State.boundary s t short) := by
  unfold State.boundary
  repeat' first
    | with_reducible assumption | (refine Sub.of hm ?_; decide)
    | (lift_lets; intro x; with_reducible refine (fun (hx : Kept m s0 x) => ?_) ?_; clear_value x) | (lift_lets; intro x) | with_reducible apply Kept.ite
    | with_reducible apply State.wr_kept | with_reducible apply State.cause_kept | with_reducible apply State.wrs_nil_kept
    | with_reducible apply State.wrs_cons_kept | with_reducible apply State.wrs_ite_kept
    | (refine Sub.upper hm ?_ (by decide); simp only [Fld.key, F.STA_SNAP_COUNT, F.STA_LIVE_COUNT]; omega)
    | with_reducible exact Kept.updSta (by assumption) (hm.of (by decide)) | (with_reducible refine Kept.foldl ?_ ?_; intro a x hx)
    | (intro x; with_reducible refine (fun (hx : Kept m s0 x) => ?_) ?_; clear_value x) | intro x
    | with_reducible refine Kept.updSta ?_ (hm.of (by decide))

theorem execPeriodBoundary_kept {m : Nat} (hm : Sub 0x80006D0000 m) {s0 : State} {s : State} (hs : Kept m s0 s) :
    KeptOut m s0 (execPeriodBoundary s) := by
  unfold execPeriodBoundary
  repeat' first
    | with_reducible assumption | (refine Sub.of hm ?_; decide)
    | (lift_lets; intro x; with_reducible refine (fun (hx : Kept m s0 x) => ?_) ?_; clear_value x) | (lift_lets; intro x)
    | with_reducible apply KeptOut.next | with_reducible apply KeptOut.ite | with_reducible apply Kept.ite | with_reducible apply State.advanceTo_kept
    | with_reducible apply State.boundary_kept | (intro x; with_reducible refine (fun (hx : Kept m s0 x) => ?_) ?_; clear_value x) | intro x

theorem State.lenWritten_kept {m : Nat} (hm : Sub 0x80004D0000 m) {s0 : State} {s : State} (hs : Kept m s0 s) :
    Kept m s0 (State.lenWritten s) := by
  unfold State.lenWritten
  repeat' first
    | with_reducible assumption | (refine Sub.of hm ?_; decide) | with_reducible apply Kept.ite | with_reducible apply State.boundary_kept

theorem State.staStart_kept {m : Nat} (hm : Sub 0x8000040000 m) {s0 : State} {s : State} (hs : Kept m s0 s) :
    Kept m s0 (State.staStart s) := by
  unfold State.staStart
  repeat' first
    | with_reducible assumption | (refine Sub.of hm ?_; decide) | with_reducible apply State.wrs_nil_kept | with_reducible apply State.wrs_cons_kept
    | with_reducible apply State.wrs_ite_kept | with_reducible apply State.wr_kept | with_reducible exact Kept.updSta (by assumption) (hm.of (by decide))
    | with_reducible refine Kept.updSta ?_ (hm.of (by decide))

theorem State.staReset_kept {m : Nat} (hm : Sub 0x8000040000 m) {s0 : State} {s : State} (hs : Kept m s0 s) :
    Kept m s0 (State.staReset s) := by
  unfold State.staReset
  repeat' first
    | with_reducible assumption | (refine Sub.of hm ?_; decide)
    | (lift_lets; intro x; with_reducible refine (fun (hx : Kept m s0 x) => ?_) ?_; clear_value x) | (lift_lets; intro x)
    | with_reducible apply State.wr_kept | with_reducible apply State.clr_nil_kept | with_reducible apply State.clr_cons_kept
    | (refine Sub.upper hm ?_ (by decide); simp only [Fld.key, F.STA_SNAP_COUNT, F.STA_LIVE_COUNT]; omega)
    | with_reducible exact Kept.updSta (by assumption) (hm.of (by decide)) | (with_reducible refine Kept.foldl ?_ ?_; intro a x hx)
    | (intro x; with_reducible refine (fun (hx : Kept m s0 x) => ?_) ?_; clear_value x) | intro x
    | with_reducible refine Kept.updSta ?_ (hm.of (by decide))

theorem State.capture_kept {m : Nat} (hm : Sub 0x800000 m) {s0 : State} {s : State} {r : Nat} (hs : Kept m s0 s) :
    Kept m s0 (State.capture s r) := by
  unfold State.capture
  repeat' first
    | with_reducible assumption | (refine Sub.of hm ?_; decide) | with_reducible apply State.setReq_kept | split

theorem State.windowRead_kept {m : Nat} (hm : Sub 0x800000 m) {s0 : State} {s : State} {r : Nat} {w : Nat} {take : Bool} (hs : Kept m s0 s) :
    Kept m s0 (State.windowRead s r w take).2 := by
  unfold State.windowRead
  repeat' first
    | with_reducible assumption | (refine Sub.of hm ?_; decide)
    | (lift_lets; intro x; with_reducible refine (fun (hx : Kept m s0 x) => ?_) ?_; clear_value x) | (lift_lets; intro x) | with_reducible apply Kept.ite
    | with_reducible apply Kept.iteSnd | with_reducible apply State.setReq_kept | with_reducible apply State.capture_kept | split
    | (clear_value *; split) | (dsimp +zetaDelta only; split) | (intro x; with_reducible refine (fun (hx : Kept m s0 x) => ?_) ?_; clear_value x)
    | intro x

theorem State.cursorWritten_kept {m : Nat} (hm : Sub 0x800000 m) {s0 : State} {s : State} {r : Nat} {v : Nat} (hs : Kept m s0 s) :
    Kept m s0 (State.cursorWritten s r v) := by
  unfold State.cursorWritten
  repeat' first
    | with_reducible assumption | (refine Sub.of hm ?_; decide) | with_reducible apply State.setReq_kept

theorem State.evrReset_kept {m : Nat} (hm : Sub 0x4000CD0000 m) {s0 : State} {s : State} (hs : Kept m s0 s) :
    Kept m s0 (State.evrReset s) := by
  unfold State.evrReset
  repeat' first
    | with_reducible assumption | (refine Sub.of hm ?_; decide)
    | (lift_lets; intro x; with_reducible refine (fun (hx : Kept m s0 x) => ?_) ?_; clear_value x) | (lift_lets; intro x)
    | with_reducible apply State.loseRecords_kept | with_reducible apply State.setEvr_kept
    | (intro x; with_reducible refine (fun (hx : Kept m s0 x) => ?_) ?_; clear_value x) | intro x

end Sys2Proof.Machine
end

