-- ==== Sys2Proof/Laws/KeptFreeze.lean ====
section
/-! SUPPORT. What every operation of Machine/Freeze.lean keeps, and which parts of the state it may change. -/

set_option linter.unusedTactic false
set_option linter.unreachableTactic false
set_option linter.unusedVariables false
set_option linter.unusedSimpArgs false

namespace Sys2Proof.Machine

theorem State.freezePage_kept {m : Nat} (hm : Sub 0xC4F0000 m) {s0 : State} {s : State} {x : Nat × Nat} (hs : Kept m s0 s) :
    Kept m s0 (State.freezePage s x) := by
  unfold State.freezePage
  repeat' first
    | with_reducible assumption | (refine Sub.of hm ?_; decide) | with_reducible apply Kept.ite | with_reducible apply Kept.iteFst
    | with_reducible apply Kept.iteSnd | with_reducible apply State.setBit_kept | with_reducible apply State.freezeNow_kept
    | with_reducible apply State.rcuFreeze_kept | with_reducible apply State.wr_kept
    | (refine Sub.header hm ?_ (by decide); simp only [Fld.key, pageBase, F.PAGE_STAT_FREEZE_PEND]; omega)
    | (refine Sub.header hm ?_ (by decide); simp only [Fld.key, pageBase, F.PAGE_STAT_FREEZE_PEND]; split_ifs <;> omega)

theorem State.thawed_kept {m : Nat} (hm : Sub 0xEFFE5F0BA8 m) {s0 : State} {s : State} {pg : Nat} (hs : Kept m s0 s) :
    Kept m s0 (State.thawed s pg) := by
  unfold State.thawed
  repeat' first
    | with_reducible assumption | (refine Sub.of hm ?_; decide) | with_reducible apply State.stageMissed_kept | with_reducible apply State.psmThaw_kept
    | with_reducible apply State.rdxGo_kept | with_reducible apply State.compactWaiting_kept | with_reducible apply State.resumeTraining_kept
    | with_reducible apply State.twnThaw_kept | with_reducible apply State.rcuThaw_kept | with_reducible apply State.csqThaw_kept
    | with_reducible apply State.rmeGo_kept | split

theorem State.thawPage_kept {m : Nat} (hm : Sub 0xEFFE5F0BA8 m) {s0 : State} {s : State} {x : Nat × Nat} (hs : Kept m s0 s) :
    Kept m s0 (State.thawPage s x) := by
  unfold State.thawPage
  repeat' first
    | with_reducible assumption | (refine Sub.of hm ?_; decide)
    | (lift_lets; intro x; with_reducible refine (fun (hx : Kept m s0 x) => ?_) ?_; clear_value x) | (lift_lets; intro x) | with_reducible apply Kept.ite
    | with_reducible apply Kept.iteFst | with_reducible apply Kept.iteSnd | with_reducible apply State.setBit_kept | with_reducible apply State.wr_kept
    | with_reducible apply State.thawed_kept
    | (refine Sub.header hm ?_ (by decide); simp only [Fld.key, pageBase, F.PAGE_STAT_FREEZE_PEND, F.PAGE_STAT_FROZEN]; omega)
    | (refine Sub.header hm ?_ (by decide); simp only [Fld.key, pageBase, F.PAGE_STAT_FREEZE_PEND, F.PAGE_STAT_FROZEN]; split_ifs <;> omega)
    | (intro x; with_reducible refine (fun (hx : Kept m s0 x) => ?_) ?_; clear_value x) | intro x

theorem State.setFreeze_kept {m : Nat} (hm : Sub 0xEFFE5F0BA8 m) {s0 : State} {s : State} {pg : Nat} {on : Bool} (hs : Kept m s0 s) :
    Kept m s0 (State.setFreeze s pg on) := by
  unfold State.setFreeze
  repeat' first
    | with_reducible assumption | (refine Sub.of hm ?_; decide)
    | (lift_lets; intro x; with_reducible refine (fun (hx : Kept m s0 x) => ?_) ?_; clear_value x) | (lift_lets; intro x) | with_reducible apply Kept.ite
    | with_reducible apply Kept.iteFst | with_reducible apply State.wr_kept | with_reducible apply State.thawPage_kept
    | with_reducible apply State.freezePage_kept | (refine Sub.header hm ?_ (by decide); simp only [Fld.key, pageBase, F.PAGE_CTRL_FREEZE]; omega)
    | (refine Sub.header hm ?_ (by decide); simp only [Fld.key, pageBase, F.PAGE_CTRL_FREEZE]; split_ifs <;> omega) | split | (clear_value *; split)
    | (dsimp +zetaDelta only; split) | (intro x; with_reducible refine (fun (hx : Kept m s0 x) => ?_) ?_; clear_value x) | intro x

theorem State.completeReleased_kept {m : Nat} (hm : Sub 0x80024C0008 m) {s0 : State} {s : State} (hs : Kept m s0 s) :
    Kept m s0 (State.completeReleased s) := by
  unfold State.completeReleased
  repeat' first
    | with_reducible assumption | (refine Sub.of hm ?_; decide)
    | (lift_lets; intro x; with_reducible refine (fun (hx : Kept m s0 x) => ?_) ?_; clear_value x) | (lift_lets; intro x) | with_reducible apply Kept.ite
    | with_reducible apply State.complete_kept | with_reducible apply State.finish_kept | (with_reducible refine Kept.foldl ?_ ?_; intro a x hx) | split
    | (clear_value *; split) | (dsimp +zetaDelta only; split) | (intro x; with_reducible refine (fun (hx : Kept m s0 x) => ?_) ?_; clear_value x)
    | intro x

theorem State.frozenAll_kept {m : Nat} (hm : Sub 0x4D0000 m) {s0 : State} {s : State} (hs : Kept m s0 s) :
    Kept m s0 (State.frozenAll s) := by
  unfold State.frozenAll
  repeat' first
    | with_reducible assumption | (refine Sub.of hm ?_; decide) | with_reducible apply Kept.ite | with_reducible apply State.wr_kept
    | with_reducible apply State.cause0_kept

theorem State.freezeAll_kept {m : Nat} (hm : Sub 0xC4F0000 m) {s0 : State} {s : State} (hs : Kept m s0 s) :
    Kept m s0 (State.freezeAll s) := by
  unfold State.freezeAll
  repeat' first
    | with_reducible assumption | (refine Sub.of hm ?_; decide)
    | (lift_lets; intro x; with_reducible refine (fun (hx : Kept m s0 x) => ?_) ?_; clear_value x) | (lift_lets; intro x)
    | with_reducible apply State.frozenAll_kept | with_reducible apply State.wr_kept | with_reducible apply State.freezePage_kept
    | (with_reducible refine Kept.foldl ?_ ?_; intro a x hx) | (with_reducible refine Kept.foldlFst ?_ ?_; intro a x hx)
    | (intro x; with_reducible refine (fun (hx : Kept m s0 x) => ?_) ?_; clear_value x) | intro x

theorem State.thawAll_kept {m : Nat} (hm : Sub 0xEFFE5F0BA8 m) {s0 : State} {s : State} (hs : Kept m s0 s) :
    Kept m s0 (State.thawAll s) := by
  unfold State.thawAll
  repeat' first
    | with_reducible assumption | (refine Sub.of hm ?_; decide)
    | (lift_lets; intro x; with_reducible refine (fun (hx : Kept m s0 x) => ?_) ?_; clear_value x) | (lift_lets; intro x)
    | with_reducible apply State.completeReleased_kept | with_reducible apply State.wr_kept | with_reducible apply State.thawPage_kept
    | (with_reducible refine Kept.foldl ?_ ?_; intro a x hx) | (intro x; with_reducible refine (fun (hx : Kept m s0 x) => ?_) ?_; clear_value x)
    | intro x

theorem State.returnOld_kept {m : Nat} (hm : Sub 0x1C020000 m) {s0 : State} {s : State} {e : Epoch} {mm : Nat × Circuit} (hs : Kept m s0 s) :
    Kept m s0 (State.returnOld s e mm) := by
  unfold State.returnOld
  repeat' first
    | with_reducible assumption | (refine Sub.of hm ?_; decide)
    | (lift_lets; intro x; with_reducible refine (fun (hx : Kept m s0 x) => ?_) ?_; clear_value x) | (lift_lets; intro x) | with_reducible apply Kept.ite
    | with_reducible apply Kept.iteFst | with_reducible apply Kept.iteSnd | with_reducible apply State.setCircuit_kept
    | with_reducible apply State.restRing_kept | with_reducible apply State.restoreSubst_kept | with_reducible apply State.releaseUnit_kept
    | (with_reducible refine Kept.foldl ?_ ?_; intro a x hx) | (with_reducible refine Kept.foldlFst ?_ ?_; intro a x hx)
    | (with_reducible refine Kept.foldlSnd ?_ ?_; intro a x hx) | (intro x; with_reducible refine (fun (hx : Kept m s0 x) => ?_) ?_; clear_value x)
    | intro x

theorem State.csqForce_kept {m : Nat} (hm : Sub 0xA01E4F0088 m) {s0 : State} {s : State} (hs : Kept m s0 s) :
    Kept m s0 (State.csqForce s).1 := by
  unfold State.csqForce
  repeat' first
    | with_reducible assumption | (refine Sub.of hm ?_; decide)
    | (lift_lets; intro x; with_reducible refine (fun (hx : Kept m s0 x) => ?_) ?_; clear_value x) | (lift_lets; intro x) | with_reducible apply Kept.ite
    | with_reducible apply Kept.iteFst | with_reducible apply State.abortEpoch_kept | with_reducible apply State.setWait_kept
    | with_reducible apply State.returnOld_kept | (with_reducible refine Kept.foldl ?_ ?_; intro a x hx)
    | (with_reducible refine Kept.foldlFst ?_ ?_; intro a x hx) | with_reducible refine Kept.ofFst (by assumption) ?_ | split | (clear_value *; split)
    | (dsimp +zetaDelta only; split) | (intro x; with_reducible refine (fun (hx : Kept m s0 x) => ?_) ?_; clear_value x) | intro x

theorem State.rcuForce_kept {m : Nat} (hm : Sub 0x400C4F8020 m) {s0 : State} {s : State} (hs : Kept m s0 s) :
    Kept m s0 (State.rcuForce s).1 := by
  unfold State.rcuForce
  repeat' first
    | with_reducible assumption | (refine Sub.of hm ?_; decide)
    | (lift_lets; intro x; with_reducible refine (fun (hx : Kept m s0 x) => ?_) ?_; clear_value x) | (lift_lets; intro x)
    | with_reducible apply State.abandon_kept | with_reducible apply State.abortSearch_kept
    | (intro x; with_reducible refine (fun (hx : Kept m s0 x) => ?_) ?_; clear_value x) | intro x

theorem State.lnkForce_kept {m : Nat} (hm : Sub 0xA21E4F0088 m) {s0 : State} {s : State} {units : List (Nat × Bool)} (hs : Kept m s0 s) :
    Kept m s0 (State.lnkForce s units).1 := by
  unfold State.lnkForce
  repeat' first
    | with_reducible assumption | (refine Sub.of hm ?_; decide)
    | (lift_lets; intro x; with_reducible refine (fun (hx : Kept m s0 x) => ?_) ?_; clear_value x) | (lift_lets; intro x) | with_reducible apply Kept.ite
    | with_reducible apply Kept.iteFst | with_reducible apply Kept.iteSnd | with_reducible apply State.cause0_kept
    | with_reducible apply State.setUnitSt_kept | with_reducible apply State.trainFailed_kept | (with_reducible refine Kept.foldl ?_ ?_; intro a x hx)
    | (with_reducible refine Kept.foldlFst ?_ ?_; intro a x hx) | (with_reducible refine Kept.foldlSnd ?_ ?_; intro a x hx)
    | with_reducible refine Kept.ofFst (by assumption) ?_ | (intro x; with_reducible refine (fun (hx : Kept m s0 x) => ?_) ?_; clear_value x) | intro x

theorem State.jnlForce_kept {m : Nat} (hm : Sub 0xA0725D0288 m) {s0 : State} {s : State} (hs : Kept m s0 s) :
    Kept m s0 (State.jnlForce s).1 := by
  unfold State.jnlForce
  repeat' first
    | with_reducible assumption | (refine Sub.of hm ?_; decide)
    | (lift_lets; intro x; with_reducible refine (fun (hx : Kept m s0 x) => ?_) ?_; clear_value x) | (lift_lets; intro x) | with_reducible apply Kept.ite
    | with_reducible apply Kept.iteFst | with_reducible apply State.replayFail_kept | with_reducible apply State.abandonCompact_kept
    | (intro x; with_reducible refine (fun (hx : Kept m s0 x) => ?_) ?_; clear_value x) | intro x

theorem State.abandonLocks_kept {m : Nat} (hm : Sub 0x1050000 m) {s0 : State} {s : State} (hs : Kept m s0 s) :
    Kept m s0 (State.abandonLocks s) := by
  unfold State.abandonLocks
  repeat' first
    | with_reducible assumption | (refine Sub.of hm ?_; decide)
    | (lift_lets; intro x; with_reducible refine (fun (hx : Kept m s0 x) => ?_) ?_; clear_value x) | (lift_lets; intro x)
    | with_reducible apply State.wr_kept
    | (refine Sub.header hm ?_ (by decide); simp only [Fld.key, pageBase, F.PAGE_STAT_LOCK_ARMED, F.PAGE_STAT_LOCK_SEQ_ERR]; omega)
    | (refine Sub.header hm ?_ (by decide); simp only [Fld.key, pageBase, F.PAGE_STAT_LOCK_ARMED, F.PAGE_STAT_LOCK_SEQ_ERR]; split_ifs <;> omega)
    | with_reducible exact Kept.updLocks (by assumption) (hm.of (by decide)) | (with_reducible refine Kept.foldl ?_ ?_; intro a x hx)
    | (with_reducible refine Kept.foldlFst ?_ ?_; intro a x hx) | (intro x; with_reducible refine (fun (hx : Kept m s0 x) => ?_) ?_; clear_value x)
    | intro x | with_reducible refine Kept.updLocks ?_ (hm.of (by decide))

theorem State.sleepForce_kept {m : Nat} (hm : Sub 0x2000002 m) {s0 : State} {s : State} (hs : Kept m s0 s) :
    Kept m s0 (State.sleepForce s) := by
  unfold State.sleepForce
  repeat' first
    | with_reducible assumption | (refine Sub.of hm ?_; decide)
    | (lift_lets; intro x; with_reducible refine (fun (hx : Kept m s0 x) => ?_) ?_; clear_value x) | (lift_lets; intro x) | with_reducible apply Kept.ite
    | with_reducible apply State.wr_kept | with_reducible apply State.setWait_kept | (with_reducible refine Kept.foldl ?_ ?_; intro a x hx)
    | (intro x; with_reducible refine (fun (hx : Kept m s0 x) => ?_) ?_; clear_value x) | intro x

theorem State.noteBroken_kept {m : Nat} (hm : Sub 0x40000 m) {s0 : State} {x : State × Bool} {bit : Nat} (hs : Kept m s0 x.1) :
    Kept m s0 (State.noteBroken x bit) := by
  unfold State.noteBroken
  repeat' first
    | with_reducible assumption | (refine Sub.of hm ?_; decide) | with_reducible apply Kept.ite | with_reducible apply Kept.iteFst
    | with_reducible apply Kept.iteSnd | with_reducible apply State.setBit_kept

theorem State.forceFreeze_kept {m : Nat} (hm : Sub 0xEE7F5F87AA m) {s0 : State} {s : State} (hs : Kept m s0 s) :
    Kept m s0 (State.forceFreeze s) := by
  unfold State.forceFreeze
  repeat' first
    | with_reducible assumption | (refine Sub.of hm ?_; decide)
    | (lift_lets; intro x; with_reducible refine (fun (hx : Kept m s0 x) => ?_) ?_; clear_value x) | (lift_lets; intro x) | with_reducible apply Kept.ite
    | with_reducible apply Kept.iteFst | with_reducible apply Kept.iteSnd | with_reducible apply State.frozenAll_kept
    | with_reducible apply State.freezeNow_kept | with_reducible apply State.wr_kept | with_reducible apply State.abandonLocks_kept
    | with_reducible apply State.cause0_kept | with_reducible apply State.rcuForce_kept | with_reducible apply State.csqForce_kept
    | with_reducible apply State.psmForce_kept | with_reducible apply State.lnkForce_kept | with_reducible apply State.noteBroken_kept
    | with_reducible apply State.rmeForce_kept | with_reducible apply State.jnlForce_kept | with_reducible apply State.mssForce_kept
    | with_reducible apply State.rdxForce_kept | with_reducible apply State.twnForce_kept | with_reducible apply State.sleepForce_kept
    | (with_reducible refine Kept.foldl ?_ ?_; intro a x hx) | (with_reducible refine Kept.foldlFst ?_ ?_; intro a x hx)
    | (with_reducible refine Kept.foldlSnd ?_ ?_; intro a x hx) | with_reducible refine Kept.ofFst (by assumption) ?_
    | (intro x; with_reducible refine (fun (hx : Kept m s0 x) => ?_) ?_; clear_value x) | intro x

theorem State.portOff_kept {m : Nat} (hm : Sub 0xEA1E4F80A8 m) {s0 : State} {s : State} {p : Nat} (hs : Kept m s0 s) :
    Kept m s0 (State.portOff s p) := by
  unfold State.portOff
  repeat' first
    | with_reducible assumption | (refine Sub.of hm ?_; decide)
    | (lift_lets; intro x; with_reducible refine (fun (hx : Kept m s0 x) => ?_) ?_; clear_value x) | (lift_lets; intro x) | with_reducible apply Kept.ite
    | with_reducible apply State.evalShutter_kept | with_reducible apply State.pairLost_kept | with_reducible apply State.setUnitSt_kept
    | (with_reducible refine Kept.foldl ?_ ?_; intro a x hx) | (intro x; with_reducible refine (fun (hx : Kept m s0 x) => ?_) ?_; clear_value x)
    | intro x

theorem State.blockGoes_kept {m : Nat} (hm : Sub 0xEFDE5F8EA8 m) {s0 : State} {s : State} {pg : Nat} (hs : Kept m s0 s) :
    Kept m s0 (State.blockGoes s pg) := by
  unfold State.blockGoes
  repeat' first
    | with_reducible assumption | (refine Sub.of hm ?_; decide) | with_reducible apply Kept.ite | with_reducible apply State.stageMissed_kept
    | with_reducible apply State.rdxGo_kept | with_reducible apply State.evalShutter_kept | with_reducible apply State.compactWaiting_kept
    | with_reducible apply State.resumeTraining_kept | with_reducible apply State.resumeTrain_kept | with_reducible apply State.resumePrepare_kept
    | with_reducible apply State.staStart_kept | with_reducible apply State.csqSettle_kept | with_reducible apply State.rmeGo_kept | split

theorem State.blockStops_kept {m : Nat} (hm : Sub 0xEA7E4F82A8 m) {s0 : State} {s : State} {pg : Nat} (hs : Kept m s0 s) :
    Kept m s0 (State.blockStops s pg) := by
  unfold State.blockStops
  repeat' first
    | with_reducible assumption | (refine Sub.of hm ?_; decide) | with_reducible apply Kept.ite | with_reducible apply State.envStop_kept
    | with_reducible apply State.jnlFlush_kept | with_reducible apply State.portOff_kept | split

theorem State.setEn_kept {m : Nat} (hm : Sub 0xEFFE5F8EA8 m) {s0 : State} {s : State} {pg : Nat} {on : Bool} (hs : Kept m s0 s) :
    Kept m s0 (State.setEn s pg on) := by
  unfold State.setEn
  repeat' first
    | with_reducible assumption | (refine Sub.of hm ?_; decide)
    | (lift_lets; intro x; with_reducible refine (fun (hx : Kept m s0 x) => ?_) ?_; clear_value x) | (lift_lets; intro x) | with_reducible apply Kept.ite
    | with_reducible apply State.wr_kept | with_reducible apply State.blockGoes_kept | with_reducible apply State.blockStops_kept
    | (refine Sub.header hm ?_ (by decide); simp only [Fld.key, pageBase, F.PAGE_CTRL_EN]; omega)
    | (refine Sub.header hm ?_ (by decide); simp only [Fld.key, pageBase, F.PAGE_CTRL_EN]; split_ifs <;> omega)
    | (intro x; with_reducible refine (fun (hx : Kept m s0 x) => ?_) ?_; clear_value x) | intro x

theorem State.enableWrite_kept {m : Nat} (hm : Sub 0xEFFE5F8EA8 m) {s0 : State} {s : State} {pg : Nat} {on : Bool} (hs : Kept m s0 s) :
    KeptOpt m s0 (State.enableWrite s pg on) := by
  unfold State.enableWrite
  repeat' first
    | with_reducible assumption | (refine Sub.of hm ?_; decide)
    | (lift_lets; intro x; with_reducible refine (fun (hx : Kept m s0 x) => ?_) ?_; clear_value x) | (lift_lets; intro x)
    | with_reducible apply KeptOpt.none | with_reducible apply KeptOpt.some | with_reducible apply KeptOpt.ite | with_reducible apply Kept.ite
    | with_reducible apply Kept.iteFst | with_reducible apply Kept.iteSnd | with_reducible apply State.setEn_kept
    | with_reducible exact Kept.updFcu (by assumption) (hm.of (by decide))
    | (intro x; with_reducible refine (fun (hx : Kept m s0 x) => ?_) ?_; clear_value x) | intro x
    | with_reducible refine Kept.updFcu ?_ (hm.of (by decide))

end Sys2Proof.Machine
end

