-- ==== Sys2Proof/Laws/KeptReset.lean ====
section
/-! SUPPORT. What every operation of Machine/Reset.lean keeps, and which parts of the state it may change. -/

set_option linter.unusedTactic false
set_option linter.unreachableTactic false
set_option linter.unusedVariables false
set_option linter.unusedSimpArgs false

namespace Sys2Proof.Machine

theorem State.softRegs_kept {m : Nat} (hm : Sub 0x7FFFF m) {s0 : State} {s : State} {pg : Nat} (hs : Kept m s0 s) :
    Kept m s0 (State.softRegs s pg) := by
  unfold State.softRegs
  repeat' first
    | with_reducible assumption | (refine Sub.of hm ?_; decide)
    | (lift_lets; intro x; with_reducible refine (fun (hx : Kept m s0 x) => ?_) ?_; clear_value x) | (lift_lets; intro x) | with_reducible apply Kept.ite
    | with_reducible apply State.wr_kept | exact Sub.any hm (by decide) | (with_reducible refine Kept.foldl ?_ ?_; intro a x hx)
    | (intro x; with_reducible refine (fun (hx : Kept m s0 x) => ?_) ?_; clear_value x) | intro x

theorem State.dropHolds_kept {m : Nat} (hm : Sub 0x800000 m) {s0 : State} {s : State} {pg : Nat} (hs : Kept m s0 s) :
    Kept m s0 (State.dropHolds s pg) := by
  unfold State.dropHolds
  repeat' first
    | with_reducible assumption | (refine Sub.of hm ?_; decide)
    | (lift_lets; intro x; with_reducible refine (fun (hx : Kept m s0 x) => ?_) ?_; clear_value x) | (lift_lets; intro x)
    | with_reducible apply State.setReq_kept | (with_reducible refine Kept.foldl ?_ ?_; intro a x hx)
    | (with_reducible refine Kept.foldlFst ?_ ?_; intro a x hx) | (with_reducible refine Kept.foldlSnd ?_ ?_; intro a x hx)
    | (intro x; with_reducible refine (fun (hx : Kept m s0 x) => ?_) ?_; clear_value x) | intro x

theorem State.fcuReset_kept {m : Nat} (hm : Sub 0xEA1E4FC0A8 m) {s0 : State} {s : State} (hs : Kept m s0 s) :
    Kept m s0 (State.fcuReset s) := by
  unfold State.fcuReset
  repeat' first
    | with_reducible assumption | (refine Sub.of hm ?_; decide) | with_reducible refine fun (s : State) (h : Kept m s0 s) => ?_
    | (lift_lets; intro x; with_reducible refine (fun (hx : Kept m s0 x) => ?_) ?_; clear_value x) | (lift_lets; intro x)
    | with_reducible apply State.withShutters_kept | with_reducible apply State.clr_nil_kept | with_reducible apply State.clr_cons_kept
    | with_reducible apply State.wr_kept
    | (refine Sub.page 14 hm ?_ (by decide); simp only [Fld.key, F.FCU_REC_W0_MULTI, F.FCU_REC_W1_SCOPE, F.FCU_REC_FIRST_TIME, F.FCU_REC_W0_COUNT, F.FCU_REC_W0_INJ, F.FCU_REC_W1_CODE, F.FCU_REC_W0_VALID, F.FCU_REC_W1_SCOPE_KIND, F.FCU_REC_W0_RAIL, F.FCU_REC_W0_ESC_HIT, F.FCU_REC_W0_CLASS]; omega)
    | with_reducible exact Kept.updFcu (by assumption) (hm.of (by decide)) | (with_reducible refine Kept.foldl ?_ ?_; intro a x hx)
    | (with_reducible refine Kept.foldlSnd ?_ ?_; intro a x hx) | (intro x; with_reducible refine (fun (hx : Kept m s0 x) => ?_) ?_; clear_value x)
    | intro x | with_reducible refine Kept.updFcu ?_ (hm.of (by decide))

theorem State.psmStop_kept {m : Nat} (hm : Sub 0xA8064D0008 m) {s0 : State} {s : State} (hs : Kept m s0 s) :
    Kept m s0 (State.psmStop s) := by
  unfold State.psmStop
  repeat' first
    | with_reducible assumption | (refine Sub.of hm ?_; decide)
    | (lift_lets; intro x; with_reducible refine (fun (hx : Kept m s0 x) => ?_) ?_; clear_value x) | (lift_lets; intro x) | with_reducible apply Kept.ite
    | with_reducible apply Kept.iteSnd | with_reducible apply State.complete_kept | with_reducible apply State.failRuns_kept
    | (with_reducible refine Kept.foldl ?_ ?_; intro a x hx) | (with_reducible refine Kept.foldlSnd ?_ ?_; intro a x hx) | split | (clear_value *; split)
    | (dsimp +zetaDelta only; split) | (intro x; with_reducible refine (fun (hx : Kept m s0 x) => ?_) ?_; clear_value x) | intro x

theorem State.softRunning_kept {m : Nat} (hm : Sub 0x1EE7EFFC6FA m) {s0 : State} {s : State} {pg : Nat} {loopBefore : Bool} (hs : Kept m s0 s) :
    Kept m s0 (State.softRunning s pg loopBefore) := by
  unfold State.softRunning
  repeat' first
    | with_reducible assumption | (refine Sub.of hm ?_; decide)
    | (lift_lets; intro x; with_reducible refine (fun (hx : Kept m s0 x) => ?_) ?_; clear_value x) | (lift_lets; intro x) | with_reducible apply Kept.ite
    | with_reducible apply Kept.iteFst | with_reducible apply Kept.iteSnd | with_reducible apply State.jnlAbort_kept
    | with_reducible apply State.shutCtrlWritten_kept | with_reducible apply State.timeCtrlWritten_kept | with_reducible apply State.setReq_kept
    | with_reducible apply State.envReset_kept | with_reducible apply State.resetQueues0_kept | with_reducible apply State.evrReset_kept
    | with_reducible apply State.psmStop_kept | with_reducible apply State.abandon_kept | with_reducible apply State.evalLaser_kept
    | with_reducible apply State.staReset_kept | with_reducible apply State.portOff_kept | with_reducible apply State.fcuReset_kept
    | with_reducible apply State.abortSearch_kept | with_reducible apply State.mssForce_kept | with_reducible apply State.rdxStop_kept
    | with_reducible exact Kept.updCpm (by assumption) (hm.of (by decide)) | (with_reducible refine Kept.foldl ?_ ?_; intro a x hx)
    | (with_reducible refine Kept.foldlFst ?_ ?_; intro a x hx) | (with_reducible refine Kept.foldlSnd ?_ ?_; intro a x hx)
    | with_reducible refine Kept.ofFst (by assumption) ?_ | split | (clear_value *; split) | (dsimp +zetaDelta only; split)
    | (intro x; with_reducible refine (fun (hx : Kept m s0 x) => ?_) ?_; clear_value x) | intro x
    | with_reducible refine Kept.updCpm ?_ (hm.of (by decide))

theorem State.resetBlock_kept {m : Nat} (hm : Sub 0x1EE7EFFFFFF m) {s0 : State} {s : State} {pg : Nat} (hs : Kept m s0 s) :
    Kept m s0 (State.resetBlock s pg) := by
  unfold State.resetBlock
  repeat' first
    | with_reducible assumption | (refine Sub.of hm ?_; decide)
    | (lift_lets; intro x; with_reducible refine (fun (hx : Kept m s0 x) => ?_) ?_; clear_value x) | (lift_lets; intro x)
    | with_reducible apply State.softRunning_kept | with_reducible apply State.dropHolds_kept | with_reducible apply State.softRegs_kept
    | exact Sub.any hm (by decide) | (intro x; with_reducible refine (fun (hx : Kept m s0 x) => ?_) ?_; clear_value x) | intro x

theorem State.softReset_kept {m : Nat} (hm : Sub 0x1EE7EFFFFFF m) {s0 : State} {s : State} {pg : Nat} (hs : Kept m s0 s) :
    Kept m s0 (State.softReset s pg) := by
  unfold State.softReset
  repeat' first
    | with_reducible assumption | (refine Sub.of hm ?_; decide) | with_reducible apply Kept.ite | with_reducible apply State.resetBlock_kept
    | with_reducible apply State.wr_kept | (refine Sub.header hm ?_ (by decide); simp only [Fld.key, pageBase, F.PAGE_STAT_RST_BUSY]; omega)
    | (refine Sub.header hm ?_ (by decide); simp only [Fld.key, pageBase, F.PAGE_STAT_RST_BUSY]; split_ifs <;> omega) | exact Sub.any hm (by decide)

theorem execSoftRstDone_kept {m : Nat} (hm : Sub 0x50000 m) {s0 : State} {pg : PageIx} {s : State} (hs : Kept m s0 s) :
    KeptOut m s0 (execSoftRstDone pg s) := by
  unfold execSoftRstDone
  repeat' first
    | with_reducible assumption | (refine Sub.of hm ?_; decide) | with_reducible apply KeptOut.next | with_reducible apply State.wr_kept
    | (refine Sub.header hm ?_ (by decide); simp only [Fld.key, pageBase, F.PAGE_STAT_RST_BUSY]; omega)
    | (refine Sub.header hm ?_ (by decide); simp only [Fld.key, pageBase, F.PAGE_STAT_RST_BUSY]; split_ifs <;> omega)

theorem State.chipReset_kept {m : Nat} (hm : Sub 0x7FFFFFFFFFF m) {s0 s : State} {cause : Fld} (hs : Kept m s0 s) :
    Kept m s0 (State.chipReset s cause) := by
  unfold State.chipReset
  have all (f : Fld) : Sub (2 ^ f.part.ix) m := Sub.any hm (by decide)
  have h0 : Kept m s0 s.tearProgram := State.tearProgram_kept (hm.of (by decide)) hs
  generalize s.tearProgram = s at h0
  dsimp only
  refine State.wrs_kept (fun _ _ => all _) ?_
  have h1 : Kept m s0 { State.reset with pending := s.pending, out := s.out, freeCtr := s.freeCtr, boot := s.boot, jnl := s.jnl.kept,
                                         rcu := { ilkPending := s.ilkFalls, ilkHeld := s.rcu.ilkHeld } } :=
    Kept.whole hm h0 rfl rfl rfl (fun _ => rfl) (fun _ => rfl)
  have h2 : Kept m s0 (chipKeeps.foldl (fun t f => t.wr f (s.rd f)) { State.reset with
        pending := s.pending, out := s.out, freeCtr := s.freeCtr, boot := s.boot, jnl := s.jnl.kept,
        rcu := { ilkPending := s.ilkFalls, ilkHeld := s.rcu.ilkHeld } }) :=
    Kept.foldl (fun _ _ h => State.wr_kept (all _) h) h1
  generalize List.foldl _ _ chipKeeps = t at h2
  have h3 (t : State) (h : Kept m s0 t) : Kept m s0 ((t.wr cause 1).inc F.CPM_BOOT_CHIP_RESETS) :=
    State.inc_kept (hm.of (by decide)) (all _) (State.wr_kept (all _) h)
  have h4 : Kept m s0 (if s.rd F.SEC_STAT_ERASE = 0 then t else t.wrs [(F.SEC_STAT_ERASE, 5), (F.SEC_STAT_ROOT_LOCKED, 1)]) :=
    Kept.ite h2 (State.wrs_kept (fun _ _ => all _) h2)
  exact Kept.ite (State.setBit_kept (hm.of (by decide)) (all _) (h3 _ h4)) (h3 _ h4)

end Sys2Proof.Machine
end

