-- ==== Sys2Proof/Laws/KeptFcu.lean ====
section
/-! SUPPORT. What every operation of Machine/Fcu.lean keeps, and which parts of the state it may change. -/

set_option linter.unusedTactic false
set_option linter.unreachableTactic false
set_option linter.unusedVariables false
set_option linter.unusedSimpArgs false

namespace Sys2Proof.Machine

theorem State.setPair_kept {m : Nat} (hm : Sub 0x2000000000 m) {s0 : State} {s : State} {o : Onset} {mm : PairMem} (hs : Kept m s0 s) :
    Kept m s0 (State.setPair s o mm) := by
  unfold State.setPair
  repeat' first
    | with_reducible assumption | (refine Sub.of hm ?_; decide)
    | (lift_lets; intro x; with_reducible refine (fun (hx : Kept m s0 x) => ?_) ?_; clear_value x) | (lift_lets; intro x) | with_reducible apply Kept.ite
    | with_reducible apply Kept.iteFst | with_reducible exact Kept.updFcu (by assumption) (hm.of (by decide))
    | (intro x; with_reducible refine (fun (hx : Kept m s0 x) => ?_) ?_; clear_value x) | intro x
    | with_reducible refine Kept.updFcu ?_ (hm.of (by decide))

theorem State.fenceCmds_kept {m : Nat} (hm : Sub 0x84024C0008 m) {s0 : State} {s : State} {n : Nat} (hs : Kept m s0 s) :
    Kept m s0 (State.fenceCmds s n) := by
  unfold State.fenceCmds
  repeat' first
    | with_reducible assumption | (refine Sub.of hm ?_; decide)
    | (lift_lets; intro x; with_reducible refine (fun (hx : Kept m s0 x) => ?_) ?_; clear_value x) | (lift_lets; intro x)
    | with_reducible apply State.complete_kept | with_reducible apply State.rdxFlr_kept | (with_reducible refine Kept.foldl ?_ ?_; intro a x hx)
    | (intro x; with_reducible refine (fun (hx : Kept m s0 x) => ?_) ?_; clear_value x) | intro x

theorem State.failFenced_kept {m : Nat} (hm : Sub 0xA01E4F0088 m) {s0 : State} {s : State} {p : Change → Bool} (hs : Kept m s0 s) :
    Kept m s0 (State.failFenced s p) := by
  unfold State.failFenced
  repeat' first
    | with_reducible assumption | (refine Sub.of hm ?_; decide) | with_reducible apply State.failChanges_kept | with_reducible apply State.csqSettle_kept

theorem State.fenceScope_kept {m : Nat} (hm : Sub 0xAF9E5F4888 m) {s0 : State} {s : State} {x : Nat × Nat} (hs : Kept m s0 s) :
    Kept m s0 (State.fenceScope s x) := by
  unfold State.fenceScope
  repeat' first
    | with_reducible assumption | (refine Sub.of hm ?_; decide)
    | (lift_lets; intro x; with_reducible refine (fun (hx : Kept m s0 x) => ?_) ?_; clear_value x) | (lift_lets; intro x)
    | with_reducible apply State.fenceCmds_kept | with_reducible apply State.setBit_kept | with_reducible apply State.rmePartFence_kept
    | with_reducible apply State.failFenced_kept | with_reducible apply State.psmPartFence_kept | with_reducible apply State.psmPortFence_kept
    | with_reducible apply State.circuitDown_kept | with_reducible apply State.rmePortFence_kept | with_reducible apply State.rdxFence_kept
    | with_reducible apply State.rmeGo_kept | (refine Sub.page 14 hm ?_ (by decide); simp only [Fld.key, F.FCU_FENCE_PART_PARTS]; omega)
    | (with_reducible refine Kept.foldl ?_ ?_; intro a x hx) | (with_reducible refine Kept.foldlFst ?_ ?_; intro a x hx)
    | (with_reducible refine Kept.foldlSnd ?_ ?_; intro a x hx) | split | (clear_value *; split) | (dsimp +zetaDelta only; split)
    | (intro x; with_reducible refine (fun (hx : Kept m s0 x) => ?_) ?_; clear_value x) | intro x

theorem State.fenceFor_kept {m : Nat} (hm : Sub 0xAF9E5F4888 m) {s0 : State} {s : State} {src : Nat} {x : Nat × Nat} (hs : Kept m s0 s) :
    Kept m s0 (State.fenceFor s src x) := by
  unfold State.fenceFor
  repeat' first
    | with_reducible assumption | (refine Sub.of hm ?_; decide)
    | (lift_lets; intro x; with_reducible refine (fun (hx : Kept m s0 x) => ?_) ?_; clear_value x) | (lift_lets; intro x) | with_reducible apply Kept.ite
    | with_reducible apply State.fenceScope_kept | with_reducible exact Kept.updFcu (by assumption) (hm.of (by decide))
    | (intro x; with_reducible refine (fun (hx : Kept m s0 x) => ?_) ?_; clear_value x) | intro x
    | with_reducible refine Kept.updFcu ?_ (hm.of (by decide))

theorem State.fenceSet_kept {m : Nat} (hm : Sub 0xAF9E5F4888 m) {s0 : State} {s : State} {v : Nat} (hs : Kept m s0 s) :
    KeptOpt m s0 (State.fenceSet s v) := by
  unfold State.fenceSet
  repeat' first
    | with_reducible assumption | (refine Sub.of hm ?_; decide)
    | (lift_lets; intro x; with_reducible refine (fun (hx : Kept m s0 x) => ?_) ?_; clear_value x) | (lift_lets; intro x)
    | with_reducible apply KeptOpt.none | with_reducible apply KeptOpt.some | with_reducible apply KeptOpt.ite | with_reducible apply Kept.ite
    | with_reducible apply State.fenceScope_kept | (intro x; with_reducible refine (fun (hx : Kept m s0 x) => ?_) ?_; clear_value x) | intro x

theorem State.liftFence_kept {m : Nat} (hm : Sub 0xEF9E5FC8A8 m) {s0 : State} {s : State} {k : Nat} {n : Nat} (hs : Kept m s0 s) :
    Kept m s0 (State.liftFence s k n) := by
  unfold State.liftFence
  repeat' first
    | with_reducible assumption | (refine Sub.of hm ?_; decide) | with_reducible refine fun (s : State) (h : Kept m s0 s) => ?_
    | (lift_lets; intro x; with_reducible refine (fun (hx : Kept m s0 x) => ?_) ?_; clear_value x) | (lift_lets; intro x) | with_reducible apply Kept.ite
    | with_reducible apply Kept.iteFst | with_reducible apply Kept.iteSnd | with_reducible apply State.rdxGo_kept
    | with_reducible apply State.setBit_kept | with_reducible apply State.setMss_kept | with_reducible apply State.withShutters_kept
    | with_reducible apply State.rmeGo_kept | with_reducible rfl
    | (refine Sub.page 14 hm ?_ (by decide); simp only [Fld.key, F.FCU_FENCE_PART_PARTS]; omega)
    | with_reducible exact Kept.updFcu (by assumption) (hm.of (by decide)) | split | (clear_value *; split) | (dsimp +zetaDelta only; split)
    | (intro x; with_reducible refine (fun (hx : Kept m s0 x) => ?_) ?_; clear_value x) | intro x
    | with_reducible refine Kept.updFcu ?_ (hm.of (by decide))

theorem State.unfenceWrite_kept {m : Nat} (hm : Sub 0xEF9E5FC8A8 m) {s0 : State} {s : State} {v : Nat} (hs : Kept m s0 s) :
    KeptOpt m s0 (State.unfenceWrite s v) := by
  unfold State.unfenceWrite
  repeat' first
    | with_reducible assumption | (refine Sub.of hm ?_; decide)
    | (lift_lets; intro x; with_reducible refine (fun (hx : Kept m s0 x) => ?_) ?_; clear_value x) | (lift_lets; intro x)
    | with_reducible apply KeptOpt.none | with_reducible apply KeptOpt.some | with_reducible apply KeptOpt.ite | with_reducible apply Kept.ite
    | with_reducible apply Kept.iteFst | with_reducible apply Kept.iteSnd | with_reducible apply State.liftFence_kept
    | (intro x; with_reducible refine (fun (hx : Kept m s0 x) => ?_) ?_; clear_value x) | intro x

theorem State.shutFor_kept {m : Nat} (hm : Sub 0xEA1E4F80A8 m) {s0 : State} {s : State} {src : Nat} {p : Nat} (hs : Kept m s0 s) :
    Kept m s0 (State.shutFor s src p) := by
  unfold State.shutFor
  repeat' first
    | with_reducible assumption | (refine Sub.of hm ?_; decide) | with_reducible refine fun (s : State) (h : Kept m s0 s) => ?_
    | (lift_lets; intro x; with_reducible refine (fun (hx : Kept m s0 x) => ?_) ?_; clear_value x) | (lift_lets; intro x) | with_reducible apply Kept.ite
    | with_reducible apply State.withShutters_kept | with_reducible exact Kept.updFcu (by assumption) (hm.of (by decide))
    | (intro x; with_reducible refine (fun (hx : Kept m s0 x) => ?_) ?_; clear_value x) | intro x
    | with_reducible refine Kept.updFcu ?_ (hm.of (by decide))

theorem State.stopBlock_kept {m : Nat} (hm : Sub 0xEFFE5F8EA8 m) {s0 : State} {s : State} {src : Nat} {pg : Nat} (hs : Kept m s0 s) :
    Kept m s0 (State.stopBlock s src pg) := by
  unfold State.stopBlock
  repeat' first
    | with_reducible assumption | (refine Sub.of hm ?_; decide) | with_reducible apply State.setEn_kept
    | with_reducible exact Kept.updFcu (by assumption) (hm.of (by decide)) | with_reducible refine Kept.updFcu ?_ (hm.of (by decide))

theorem State.enterTerminal_kept {m : Nat} (hm : Sub 0xEE1E4FC0B8 m) {s0 : State} {s : State} {src : Nat} {rail : Bool} (hs : Kept m s0 s) :
    Kept m s0 (State.enterTerminal s src rail) := by
  unfold State.enterTerminal
  repeat' first
    | with_reducible assumption | (refine Sub.of hm ?_; decide) | with_reducible refine fun (s : State) (h : Kept m s0 s) => ?_
    | (lift_lets; intro x; with_reducible refine (fun (hx : Kept m s0 x) => ?_) ?_; clear_value x) | (lift_lets; intro x) | with_reducible apply Kept.ite
    | with_reducible apply State.complete_kept | with_reducible apply State.dropCopies_kept | with_reducible apply State.setRdx_kept
    | with_reducible apply State.evalLaser_kept | with_reducible apply State.withShutters_kept | with_reducible apply State.wrs_nil_kept
    | with_reducible apply State.wrs_cons_kept | with_reducible apply State.wrs_ite_kept | with_reducible apply State.wr_kept
    | with_reducible exact Kept.updRcu (by assumption) (hm.of (by decide)) | (with_reducible refine Kept.foldl ?_ ?_; intro a x hx)
    | (intro x; with_reducible refine (fun (hx : Kept m s0 x) => ?_) ?_; clear_value x) | intro x
    | with_reducible refine Kept.updRcu ?_ (hm.of (by decide))

theorem State.reactScope_kept {m : Nat} (hm : Sub 0xEF9E5FC8A8 m) {s0 : State} {s : State} {src : Nat} {c : Nat} {kind : Nat} {scope : Nat} (hs : Kept m s0 s) :
    Kept m s0 (State.reactScope s src c kind scope) := by
  unfold State.reactScope
  repeat' first
    | with_reducible assumption | (refine Sub.of hm ?_; decide)
    | (lift_lets; intro x; with_reducible refine (fun (hx : Kept m s0 x) => ?_) ?_; clear_value x) | (lift_lets; intro x) | with_reducible apply Kept.ite
    | with_reducible apply Kept.iteSnd | with_reducible apply State.shutFor_kept | with_reducible apply State.fenceFor_kept
    | (with_reducible refine Kept.foldl ?_ ?_; intro a x hx) | (with_reducible refine Kept.foldlSnd ?_ ?_; intro a x hx)
    | (intro x; with_reducible refine (fun (hx : Kept m s0 x) => ?_) ?_; clear_value x) | intro x

theorem State.alertPart_kept {m : Nat} (hm : Sub 0x80004 m) {s0 : State} {s : State} {src : Nat} {c : Nat} {kind : Nat} {scope : Nat} (hs : Kept m s0 s) :
    Kept m s0 (State.alertPart s src c kind scope) := by
  unfold State.alertPart
  repeat' first
    | with_reducible assumption | (refine Sub.of hm ?_; decide) | with_reducible apply Kept.ite
    | with_reducible refine Kept.dite (fun h => ?_) (fun h => ?_) | with_reducible apply Kept.iteSnd | with_reducible apply State.alert_kept

theorem State.alertFor_kept {m : Nat} (hm : Sub 0x80004 m) {s0 : State} {s : State} {src : Nat} {c : Nat} {kind : Nat} {scope : Nat} (hs : Kept m s0 s) :
    Kept m s0 (State.alertFor s src c kind scope) := by
  unfold State.alertFor
  repeat' first
    | with_reducible assumption | (refine Sub.of hm ?_; decide) | with_reducible apply Kept.ite | with_reducible apply State.alert_kept
    | with_reducible apply State.alertPart_kept

theorem State.recordEvent_kept {m : Nat} (hm : Sub 0x40004D8000 m) {s0 : State} {s : State} {src : Nat} {c : Nat} {kind : Nat} {scope : Nat} {code : Nat} (hs : Kept m s0 s) :
    Kept m s0 (State.recordEvent s src c kind scope code) := by
  unfold State.recordEvent
  repeat' first
    | with_reducible assumption | (refine Sub.of hm ?_; decide)
    | (lift_lets; intro x; with_reducible refine (fun (hx : Kept m s0 x) => ?_) ?_; clear_value x) | (lift_lets; intro x) | with_reducible apply Kept.ite
    | with_reducible apply State.event_kept | (intro x; with_reducible refine (fun (hx : Kept m s0 x) => ?_) ?_; clear_value x) | intro x

theorem State.interruptFor_kept {m : Nat} (hm : Sub 0x4D0000 m) {s0 : State} {s : State} {o : Onset} {c : Nat} (hs : Kept m s0 s) :
    Kept m s0 (State.interruptFor s o c) := by
  unfold State.interruptFor
  repeat' first
    | with_reducible assumption | (refine Sub.of hm ?_; decide)
    | (lift_lets; intro x; with_reducible refine (fun (hx : Kept m s0 x) => ?_) ?_; clear_value x) | (lift_lets; intro x) | with_reducible apply Kept.ite
    | with_reducible apply Kept.iteFst | with_reducible apply Kept.iteSnd | with_reducible apply State.cause0_kept
    | with_reducible apply State.cause_kept | split | (clear_value *; split) | (dsimp +zetaDelta only; split)
    | (intro x; with_reducible refine (fun (hx : Kept m s0 x) => ?_) ?_; clear_value x) | intro x

theorem State.react_kept {m : Nat} (hm : Sub 0x1EFFEFFFFFF m) {s0 : State} {s : State} {o : Onset} {c : Nat} (hs : Kept m s0 s) :
    Kept m s0 (State.react s o c) := by
  unfold State.react
  repeat' first
    | with_reducible assumption | (refine Sub.of hm ?_; decide)
    | (lift_lets; intro x; with_reducible refine (fun (hx : Kept m s0 x) => ?_) ?_; clear_value x) | (lift_lets; intro x) | with_reducible apply Kept.ite
    | with_reducible apply State.resetBlock_kept | with_reducible apply State.reactScope_kept | with_reducible apply State.alertFor_kept
    | with_reducible apply State.recordEvent_kept | with_reducible apply State.enterTerminal_kept | with_reducible apply State.interruptFor_kept
    | with_reducible apply State.wrs_nil_kept | with_reducible apply State.wrs_cons_kept | with_reducible apply State.wrs_ite_kept
    | with_reducible apply State.stopBlock_kept | with_reducible apply State.wr_kept | exact Sub.any hm (by decide)
    | with_reducible exact Kept.updFcu (by assumption) (hm.of (by decide))
    | (intro x; with_reducible refine (fun (hx : Kept m s0 x) => ?_) ?_; clear_value x) | intro x
    | with_reducible refine Kept.updFcu ?_ (hm.of (by decide))

theorem State.reactDry_kept {m : Nat} (hm : Sub 0x1EFFEFFFFFF m) {s0 : State} {s : State} {o : Onset} {c : Nat} (hs : Kept m s0 s) :
    Kept m s0 (State.reactDry s o c) := by
  unfold State.reactDry
  repeat' first
    | with_reducible assumption | (refine Sub.of hm ?_; decide) | with_reducible apply Kept.ite | with_reducible apply State.react_kept
    | with_reducible apply State.cause0_kept | exact Sub.any hm (by decide) | with_reducible exact Kept.updFcu (by assumption) (hm.of (by decide))
    | with_reducible refine Kept.updFcu ?_ (hm.of (by decide))

theorem State.newRecord_kept {m : Nat} (hm : Sub 0x1EFFEFFFFFF m) {s0 : State} {s : State} {o : Onset} (hs : Kept m s0 s) :
    Kept m s0 (State.newRecord s o) := by
  unfold State.newRecord
  repeat' first
    | with_reducible assumption | (refine Sub.of hm ?_; decide)
    | (lift_lets; intro x; with_reducible refine (fun (hx : Kept m s0 x) => ?_) ?_; clear_value x) | (lift_lets; intro x)
    | with_reducible apply State.reactDry_kept | with_reducible apply State.wrs_nil_kept | with_reducible apply State.wrs_cons_kept
    | with_reducible apply State.wrs_ite_kept | with_reducible apply State.wr_kept
    | (refine Sub.page 14 hm ?_ (by decide); simp only [Fld.key, F.FCU_REC_W0_MULTI, F.FCU_REC_W1_SCOPE, F.FCU_REC_FIRST_TIME, F.FCU_REC_W0_COUNT, F.FCU_REC_W0_INJ, F.FCU_REC_W1_CODE, F.FCU_REC_W0_VALID, F.FCU_REC_W1_SCOPE_KIND, F.FCU_REC_W0_RAIL, F.FCU_REC_W0_ESC_HIT, F.FCU_REC_W0_CLASS]; omega)
    | exact Sub.any hm (by decide) | (intro x; with_reducible refine (fun (hx : Kept m s0 x) => ?_) ?_; clear_value x) | intro x

theorem State.mergeRecord_kept {m : Nat} (hm : Sub 0x1EFFEFFFFFF m) {s0 : State} {s : State} {o : Onset} (hs : Kept m s0 s) :
    Kept m s0 (State.mergeRecord s o) := by
  unfold State.mergeRecord
  repeat' first
    | with_reducible assumption | (refine Sub.of hm ?_; decide)
    | (lift_lets; intro x; with_reducible refine (fun (hx : Kept m s0 x) => ?_) ?_; clear_value x) | (lift_lets; intro x) | with_reducible apply Kept.ite
    | with_reducible apply State.reactScope_kept | with_reducible apply State.alertFor_kept | with_reducible apply State.recordEvent_kept
    | with_reducible apply State.wr_kept | with_reducible apply State.reactDry_kept | with_reducible apply State.wrs_nil_kept
    | with_reducible apply State.wrs_cons_kept | with_reducible apply State.wrs_ite_kept | with_reducible apply State.alertPart_kept
    | (refine Sub.page 14 hm ?_ (by decide); simp only [Fld.key, F.FCU_REC_W0_MULTI, F.FCU_REC_W0_COUNT, F.FCU_REC_W0_INJ, F.FCU_REC_W0_RAIL, F.FCU_REC_W0_ESC_HIT, F.FCU_REC_W0_CLASS]; omega)
    | exact Sub.any hm (by decide) | (intro x; with_reducible refine (fun (hx : Kept m s0 x) => ?_) ?_; clear_value x) | intro x

theorem State.handleOnset_kept {m : Nat} (hm : Sub 0x1EFFEFFFFFF m) {s0 : State} {s : State} {o : Onset} (hs : Kept m s0 s) :
    Kept m s0 (State.handleOnset s o) := by
  unfold State.handleOnset
  repeat' first
    | with_reducible assumption | (refine Sub.of hm ?_; decide)
    | (lift_lets; intro x; with_reducible refine (fun (hx : Kept m s0 x) => ?_) ?_; clear_value x) | (lift_lets; intro x) | with_reducible apply Kept.ite
    | with_reducible apply State.newRecord_kept | with_reducible apply State.mergeRecord_kept | with_reducible apply State.stat_kept
    | exact Sub.any hm (by decide) | (intro x; with_reducible refine (fun (hx : Kept m s0 x) => ?_) ?_; clear_value x) | intro x

theorem State.fatalReset_kept {m : Nat} (hm : Sub 0x7FFFFFFFFFF m) {s0 : State} {s : State} (hs : Kept m s0 s) :
    Kept m s0 (State.fatalReset s) := by
  unfold State.fatalReset
  repeat' first
    | with_reducible assumption | (refine Sub.of hm ?_; decide) | with_reducible apply Kept.ite | with_reducible apply State.chipReset_kept
    | exact Sub.any hm (by decide)

theorem State.sample_kept {m : Nat} (hm : Sub 0x7FFFFFFFFFF m) {s0 : State} {s : State} (hs : Kept m s0 s) :
    Kept m s0 (State.sample s) := by
  unfold State.sample
  repeat' first
    | with_reducible assumption | (refine Sub.of hm ?_; decide) | with_reducible apply State.fatalReset_kept
    | with_reducible apply State.handleOnset_kept | exact Sub.any hm (by decide) | with_reducible exact Kept.updFcu (by assumption) (hm.of (by decide))
    | (with_reducible refine Kept.foldl ?_ ?_; intro a x hx) | with_reducible refine Kept.updFcu ?_ (hm.of (by decide))

theorem State.pairSample_kept {m : Nat} (hm : Sub 0x7FFFFFFFFFF m) {s0 : State} {s : State} {p : PairTrace} {v : BitVec 2} (hs : Kept m s0 s) :
    Kept m s0 (State.pairSample s p v) := by
  unfold State.pairSample
  repeat' first
    | with_reducible assumption | (refine Sub.of hm ?_; decide)
    | (lift_lets; intro x; with_reducible refine (fun (hx : Kept m s0 x) => ?_) ?_; clear_value x) | (lift_lets; intro x) | with_reducible apply Kept.ite
    | with_reducible apply Kept.iteFst | with_reducible apply Kept.iteSnd | with_reducible apply State.fatalReset_kept
    | with_reducible apply State.handleOnset_kept | with_reducible apply State.setPair_kept | with_reducible apply State.errCause_kept
    | exact Sub.any hm (by decide) | split | (clear_value *; split) | (dsimp +zetaDelta only; split)
    | (intro x; with_reducible refine (fun (hx : Kept m s0 x) => ?_) ?_; clear_value x) | intro x

theorem execFaultOnset_kept {m : Nat} (hm : Sub 0x7FFFFFFFFFF m) {s0 : State} {p : PairTrace} {s : State} (hs : Kept m s0 s) :
    KeptOut m s0 (execFaultOnset p s) := by
  unfold execFaultOnset
  repeat' first
    | with_reducible assumption | (refine Sub.of hm ?_; decide)
    | (lift_lets; intro x; with_reducible refine (fun (hx : Kept m s0 x) => ?_) ?_; clear_value x) | (lift_lets; intro x)
    | with_reducible apply KeptOut.next | with_reducible apply State.pairSample_kept | exact Sub.any hm (by decide)
    | (with_reducible refine Kept.foldl ?_ ?_; intro a x hx) | (intro x; with_reducible refine (fun (hx : Kept m s0 x) => ?_) ?_; clear_value x)
    | intro x

theorem State.ackRecord_kept {m : Nat} (hm : Sub 0x7FFFFFFFFFF m) {s0 : State} {s : State} {n : Nat} (hs : Kept m s0 s) :
    Kept m s0 (State.ackRecord s n) := by
  unfold State.ackRecord
  repeat' first
    | with_reducible assumption | (refine Sub.of hm ?_; decide) | with_reducible refine fun (s : State) (h : Kept m s0 s) => ?_
    | (lift_lets; intro x; with_reducible refine (fun (hx : Kept m s0 x) => ?_) ?_; clear_value x) | (lift_lets; intro x) | with_reducible apply Kept.ite
    | with_reducible apply Kept.iteFst | with_reducible apply Kept.iteSnd | with_reducible apply State.fatalReset_kept
    | with_reducible apply State.newRecord_kept | with_reducible apply State.wr_kept | with_reducible apply State.withShutters_kept
    | (refine Sub.page 14 hm ?_ (by decide); simp only [Fld.key, F.FCU_REC_W0_VALID]; omega) | exact Sub.any hm (by decide)
    | with_reducible exact Kept.updFcu (by assumption) (hm.of (by decide)) | split | (clear_value *; split) | (dsimp +zetaDelta only; split)
    | (intro x; with_reducible refine (fun (hx : Kept m s0 x) => ?_) ?_; clear_value x) | intro x
    | with_reducible refine Kept.updFcu ?_ (hm.of (by decide))

theorem execDryErrnEnd_kept {m : Nat} (hm : Sub 0x2000000000 m) {s0 : State} {s : State} (hs : Kept m s0 s) :
    KeptOut m s0 (execDryErrnEnd s) := by
  unfold execDryErrnEnd
  repeat' first
    | with_reducible assumption | (refine Sub.of hm ?_; decide) | with_reducible apply KeptOut.next
    | with_reducible exact Kept.updFcu (by assumption) (hm.of (by decide)) | with_reducible refine Kept.updFcu ?_ (hm.of (by decide))

theorem State.polWrite_kept {m : Nat} (hm : Sub 0x4000 m) {s0 s : State} {n v : Nat} (hs : Kept m s0 s) : Kept m s0 (State.polWrite s n v).1 := by
  unfold State.polWrite
  have pol (k : Nat) : Sub (2 ^ (polFld n k).part.ix) m := by
    refine Sub.page 14 hm ?_ (by decide)
    unfold polFld
    split <;> simp only [Fld.key, F.FCU_POL_INT, F.FCU_POL_NMA, F.FCU_POL_ERRN, F.FCU_POL_FENCE, F.FCU_POL_SHUT, F.FCU_POL_BRST] <;> omega
  split
  · exact hs
  · refine State.wr_kept (Sub.page 14 hm (by simp only [Fld.key, F.FCU_POL_ESC]; omega) (by decide)) (Kept.foldlFst (fun a x h => ?_) hs)
    exact Kept.iteFst h (Kept.iteFst h (State.wr_kept (pol _) h))

theorem State.injOnset_kept {m : Nat} (hm : Sub 0x100000 m) {s0 : State} {s : State} {n : SrcIx} {wire : Bool} {page : Option Nat} (hs : Kept m s0 s) :
    Kept m s0 (State.injOnset s n wire page).2 := by
  unfold State.injOnset
  repeat' first
    | with_reducible assumption | (refine Sub.of hm ?_; decide)
    | (lift_lets; intro x; with_reducible refine (fun (hx : Kept m s0 x) => ?_) ?_; clear_value x) | (lift_lets; intro x) | with_reducible apply Kept.ite
    | with_reducible apply Kept.iteSnd | with_reducible apply State.free_kept | with_reducible refine Kept.ofSnd (by assumption) ?_ | split
    | (clear_value *; split) | (dsimp +zetaDelta only; split) | (intro x; with_reducible refine (fun (hx : Kept m s0 x) => ?_) ?_; clear_value x)
    | intro x

theorem State.railInject_kept {m : Nat} (hm : Sub 0x2000150000 m) {s0 : State} {s : State} {v : Nat} (hs : Kept m s0 s) :
    Kept m s0 (State.railInject s v) := by
  unfold State.railInject
  repeat' first
    | with_reducible assumption | (refine Sub.of hm ?_; decide)
    | (lift_lets; intro x; with_reducible refine (fun (hx : Kept m s0 x) => ?_) ?_; clear_value x) | (lift_lets; intro x) | with_reducible apply Kept.ite
    | with_reducible apply Kept.iteFst | with_reducible apply Kept.iteSnd | with_reducible apply State.injOnset_kept
    | with_reducible apply State.onset_kept | with_reducible refine Kept.ofSnd (by assumption) ?_ | split | (clear_value *; split)
    | (dsimp +zetaDelta only; split) | (intro x; with_reducible refine (fun (hx : Kept m s0 x) => ?_) ?_; clear_value x) | intro x

theorem State.errInject_kept {m : Nat} (hm : Sub 0x2000150000 m) {s0 : State} {s : State} {pg : Nat} {v : Nat} (hs : Kept m s0 s) :
    Kept m s0 (State.errInject s pg v) := by
  unfold State.errInject
  repeat' first
    | with_reducible assumption | (refine Sub.of hm ?_; decide)
    | (lift_lets; intro x; with_reducible refine (fun (hx : Kept m s0 x) => ?_) ?_; clear_value x) | (lift_lets; intro x) | with_reducible apply Kept.ite
    | with_reducible apply Kept.iteFst | with_reducible apply Kept.iteSnd | with_reducible apply State.wr_kept | with_reducible apply State.injOnset_kept
    | with_reducible apply State.onset_kept | (refine Sub.header hm ?_ (by decide); simp only [Fld.key, pageBase, F.ERR_INJECT_INJ]; omega)
    | (refine Sub.header hm ?_ (by decide); simp only [Fld.key, pageBase, F.ERR_INJECT_INJ]; split_ifs <;> omega)
    | (with_reducible refine Kept.foldl ?_ ?_; intro a x hx) | (with_reducible refine Kept.foldlFst ?_ ?_; intro a x hx)
    | (with_reducible refine Kept.foldlSnd ?_ ?_; intro a x hx) | with_reducible refine Kept.ofSnd (by assumption) ?_ | split | (clear_value *; split)
    | (dsimp +zetaDelta only; split) | (intro x; with_reducible refine (fun (hx : Kept m s0 x) => ?_) ?_; clear_value x) | intro x

end Sys2Proof.Machine
end

