-- ==== Sys2Proof/Laws/KeptCpm.lean ====
section
/-! SUPPORT. What every operation of Machine/Cpm.lean keeps, and which parts of the state it may change. -/

set_option linter.unusedTactic false
set_option linter.unreachableTactic false
set_option linter.unusedVariables false
set_option linter.unusedSimpArgs false

namespace Sys2Proof.Machine

theorem State.setCpm_kept {m : Nat} (hm : Sub 0x10000000000 m) {s0 : State} {s : State} {c : CpmState} (hs : Kept m s0 s) :
    Kept m s0 (State.setCpm s c) := by
  unfold State.setCpm
  repeat' first
    | with_reducible assumption | (refine Sub.of hm ?_; decide) | with_reducible exact Kept.updCpm (by assumption) (hm.of (by decide))
    | with_reducible refine Kept.updCpm ?_ (hm.of (by decide))

theorem State.setFcu_kept {m : Nat} (hm : Sub 0x2000000000 m) {s0 : State} {s : State} {c : FcuState} (hs : Kept m s0 s) :
    Kept m s0 (State.setFcu s c) := by
  unfold State.setFcu
  repeat' first
    | with_reducible assumption | (refine Sub.of hm ?_; decide) | with_reducible exact Kept.updFcu (by assumption) (hm.of (by decide))
    | with_reducible refine Kept.updFcu ?_ (hm.of (by decide))

theorem State.enterRun_kept {m : Nat} (hm : Sub 0x40004D8002 m) {s0 : State} {s : State} (hs : Kept m s0 s) :
    Kept m s0 (State.enterRun s) := by
  unfold State.enterRun
  repeat' first
    | with_reducible assumption | (refine Sub.of hm ?_; decide) | with_reducible apply State.wr_kept | with_reducible apply State.cause0_kept
    | with_reducible apply State.event_kept

theorem State.commandMv_kept {m : Nat} (hm : Sub 0x80002 m) {s0 : State} {s : State} {mv : Nat} (hs : Kept m s0 s) :
    Kept m s0 (State.commandMv s mv) := by
  unfold State.commandMv
  repeat' first
    | with_reducible assumption | (refine Sub.of hm ?_; decide) | with_reducible apply State.wr_kept | with_reducible apply State.send_kept

theorem State.opFailed_kept {m : Nat} (hm : Sub 0x20004D0002 m) {s0 : State} {s : State} (hs : Kept m s0 s) :
    Kept m s0 (State.opFailed s) := by
  unfold State.opFailed
  repeat' first
    | with_reducible assumption | (refine Sub.of hm ?_; decide) | with_reducible apply State.fault_kept | with_reducible apply State.wr_kept
    | with_reducible apply State.cause0_kept

theorem State.opBegin_kept {m : Nat} (hm : Sub 0x120004D0002 m) {s0 : State} {s : State} {v : Nat} (hs : Kept m s0 s) :
    Kept m s0 (State.opBegin s v) := by
  unfold State.opBegin
  repeat' first
    | with_reducible assumption | (refine Sub.of hm ?_; decide)
    | (lift_lets; intro x; with_reducible refine (fun (hx : Kept m s0 x) => ?_) ?_; clear_value x) | (lift_lets; intro x) | with_reducible apply Kept.ite
    | with_reducible apply State.wr_kept | with_reducible apply State.commandMv_kept | with_reducible apply State.opFailed_kept
    | with_reducible exact Kept.updCpm (by assumption) (hm.of (by decide))
    | (intro x; with_reducible refine (fun (hx : Kept m s0 x) => ?_) ?_; clear_value x) | intro x
    | with_reducible refine Kept.updCpm ?_ (hm.of (by decide))

theorem State.opIdle_kept {m : Nat} (hm : Sub 0x160004D8002 m) {s0 : State} {s : State} (hs : Kept m s0 s) :
    Kept m s0 (State.opIdle s) := by
  unfold State.opIdle
  repeat' first
    | with_reducible assumption | (refine Sub.of hm ?_; decide)
    | (lift_lets; intro x; with_reducible refine (fun (hx : Kept m s0 x) => ?_) ?_; clear_value x) | (lift_lets; intro x) | with_reducible apply Kept.ite
    | with_reducible apply State.wr_kept | with_reducible apply State.enterRun_kept | with_reducible apply State.opBegin_kept
    | with_reducible exact Kept.updCpm (by assumption) (hm.of (by decide)) | split | (clear_value *; split) | (dsimp +zetaDelta only; split)
    | (intro x; with_reducible refine (fun (hx : Kept m s0 x) => ?_) ?_; clear_value x) | intro x
    | with_reducible refine Kept.updCpm ?_ (hm.of (by decide))

theorem State.opFail_kept {m : Nat} (hm : Sub 0x160004D8002 m) {s0 : State} {s : State} (hs : Kept m s0 s) :
    Kept m s0 (State.opFail s) := by
  unfold State.opFail
  repeat' first
    | with_reducible assumption | (refine Sub.of hm ?_; decide) | with_reducible apply State.opIdle_kept | with_reducible apply State.commandMv_kept
    | with_reducible apply State.opFailed_kept

theorem State.opEnd_kept {m : Nat} (hm : Sub 0x160004D8002 m) {s0 : State} {s : State} (hs : Kept m s0 s) :
    Kept m s0 (State.opEnd s) := by
  unfold State.opEnd
  repeat' first
    | with_reducible assumption | (refine Sub.of hm ?_; decide) | with_reducible apply State.cause0_kept | with_reducible apply State.opIdle_kept

theorem State.targetWritten_kept {m : Nat} (hm : Sub 0x120004D0002 m) {s0 : State} {s : State} {v : Nat} (hs : Kept m s0 s) :
    Kept m s0 (State.targetWritten s v) := by
  unfold State.targetWritten
  repeat' first
    | with_reducible assumption | (refine Sub.of hm ?_; decide) | with_reducible apply Kept.ite | with_reducible apply State.opBegin_kept
    | with_reducible exact Kept.updCpm (by assumption) (hm.of (by decide)) | with_reducible refine Kept.updCpm ?_ (hm.of (by decide))

theorem execVCmdDone_kept {m : Nat} (hm : Sub 0x160004D8002 m) {s0 : State} {x : PmbEnd} {s : State} (hs : Kept m s0 s) :
    KeptOut m s0 (execVCmdDone x s) := by
  unfold execVCmdDone
  repeat' first
    | with_reducible assumption | (refine Sub.of hm ?_; decide) | with_reducible apply KeptOut.next | with_reducible apply KeptOut.ite
    | with_reducible apply Kept.ite | with_reducible apply State.opEnd_kept | with_reducible apply State.wr_kept | with_reducible apply State.opFail_kept
    | split

theorem execReadVoutDone_kept {m : Nat} (hm : Sub 0x160004D8002 m) {s0 : State} {mv : BitVec 12} {x : PmbEnd} {s : State} (hs : Kept m s0 s) :
    KeptOut m s0 (execReadVoutDone mv x s) := by
  unfold execReadVoutDone
  repeat' first
    | with_reducible assumption | (refine Sub.of hm ?_; decide)
    | (lift_lets; intro x; with_reducible refine (fun (hx : Kept m s0 x) => ?_) ?_; clear_value x) | (lift_lets; intro x)
    | with_reducible apply KeptOut.next | with_reducible apply KeptOut.ite | with_reducible apply Kept.ite | with_reducible apply State.wr_kept
    | with_reducible apply State.opFail_kept | with_reducible exact Kept.updCpm (by assumption) (hm.of (by decide)) | split | (clear_value *; split)
    | (dsimp +zetaDelta only; split) | (intro x; with_reducible refine (fun (hx : Kept m s0 x) => ?_) ?_; clear_value x) | intro x
    | with_reducible refine Kept.updCpm ?_ (hm.of (by decide))

theorem execSettleDone_kept {m : Nat} (hm : Sub 0x160004D8002 m) {s0 : State} {s : State} (hs : Kept m s0 s) :
    KeptOut m s0 (execSettleDone s) := by
  unfold execSettleDone
  repeat' first
    | with_reducible assumption | (refine Sub.of hm ?_; decide) | with_reducible apply KeptOut.next | with_reducible apply KeptOut.ite
    | with_reducible apply Kept.ite | with_reducible apply State.opEnd_kept | with_reducible apply State.wr_kept

theorem execAonTrim_kept {m : Nat} (hm : Sub 0x100002 m) {s0 : State} {ticks : Nat} {s : State} (hs : Kept m s0 s) :
    KeptOut m s0 (execAonTrim ticks s) := by
  unfold execAonTrim
  repeat' first
    | with_reducible assumption | (refine Sub.of hm ?_; decide)
    | (lift_lets; intro x; with_reducible refine (fun (hx : Kept m s0 x) => ?_) ?_; clear_value x) | (lift_lets; intro x)
    | with_reducible apply KeptOut.next | with_reducible apply KeptOut.ite | with_reducible apply Kept.ite | with_reducible apply Kept.iteFst
    | with_reducible apply Kept.iteSnd | with_reducible apply State.wr_kept | with_reducible apply State.free_kept
    | with_reducible refine Kept.ofSnd (by assumption) ?_ | (intro x; with_reducible refine (fun (hx : Kept m s0 x) => ?_) ?_; clear_value x) | intro x

theorem execRootPllLockLoss_kept {m : Nat} (hm : Sub 0x2000050002 m) {s0 : State} {s : State} (hs : Kept m s0 s) :
    KeptOut m s0 (execRootPllLockLoss s) := by
  unfold execRootPllLockLoss
  repeat' first
    | with_reducible assumption | (refine Sub.of hm ?_; decide) | with_reducible apply KeptOut.next | with_reducible apply KeptOut.ite
    | with_reducible apply Kept.ite | with_reducible apply State.fault_kept | with_reducible apply State.wr_kept

theorem execLanePllLockChange_kept {m : Nat} (hm : Sub 0x2000050002 m) {s0 : State} {g : Fin 4} {locked : Bool} {s : State} (hs : Kept m s0 s) :
    KeptOut m s0 (execLanePllLockChange g locked s) := by
  unfold execLanePllLockChange
  repeat' first
    | with_reducible assumption | (refine Sub.of hm ?_; decide)
    | (lift_lets; intro x; with_reducible refine (fun (hx : Kept m s0 x) => ?_) ?_; clear_value x) | (lift_lets; intro x)
    | with_reducible apply KeptOut.next | with_reducible apply KeptOut.ite | with_reducible apply Kept.ite | with_reducible apply State.fault_kept
    | with_reducible apply State.setBit_kept | (intro x; with_reducible refine (fun (hx : Kept m s0 x) => ?_) ?_; clear_value x) | intro x

theorem execAlertN_kept {m : Nat} (hm : Sub 0x20000D0000 m) {s0 : State} {statusWord : BitVec 16} {s : State} (hs : Kept m s0 s) :
    KeptOut m s0 (execAlertN statusWord s) := by
  unfold execAlertN
  repeat' first
    | with_reducible assumption | (refine Sub.of hm ?_; decide)
    | (lift_lets; intro x; with_reducible refine (fun (hx : Kept m s0 x) => ?_) ?_; clear_value x) | (lift_lets; intro x)
    | with_reducible apply KeptOut.next | with_reducible apply KeptOut.ite | with_reducible apply Kept.ite | with_reducible apply State.fault_kept
    | with_reducible apply State.send_kept | (intro x; with_reducible refine (fun (hx : Kept m s0 x) => ?_) ?_; clear_value x) | intro x

theorem State.setDom_kept {m : Nat} (hm : Sub 0x2000000002 m) {s0 : State} {s : State} {d : Nat} {on : Bool} (hs : Kept m s0 s) :
    Kept m s0 (State.setDom s d on) := by
  unfold State.setDom
  repeat' first
    | with_reducible assumption | (refine Sub.of hm ?_; decide) | with_reducible apply Kept.ite | with_reducible apply State.forgetPairs_kept
    | with_reducible apply State.setBit_kept

theorem State.powerDomains_kept {m : Nat} (hm : Sub 0xEB1E4F84BA m) {s0 : State} {s : State} (hs : Kept m s0 s) :
    Kept m s0 (State.powerDomains s) := by
  unfold State.powerDomains
  repeat' first
    | with_reducible assumption | (refine Sub.of hm ?_; decide) | with_reducible refine fun (s : State) (h : Kept m s0 s) => ?_
    | (lift_lets; intro x; with_reducible refine (fun (hx : Kept m s0 x) => ?_) ?_; clear_value x) | (lift_lets; intro x) | with_reducible apply Kept.ite
    | with_reducible apply State.wr_kept | with_reducible apply State.startTrain_kept | with_reducible apply State.evalLaser_kept
    | with_reducible apply State.setDom_kept | with_reducible apply State.withShutters_kept
    | (intro x; with_reducible refine (fun (hx : Kept m s0 x) => ?_) ?_; clear_value x) | intro x

theorem State.startWake_kept {m : Nat} (hm : Sub 0x1EB1E4F84BA m) {s0 : State} {s : State} {code : Nat} {port : Nat} (hs : Kept m s0 s) :
    Kept m s0 (State.startWake s code port) := by
  unfold State.startWake
  repeat' first
    | with_reducible assumption | (refine Sub.of hm ?_; decide)
    | (lift_lets; intro x; with_reducible refine (fun (hx : Kept m s0 x) => ?_) ?_; clear_value x) | (lift_lets; intro x) | with_reducible apply Kept.ite
    | with_reducible apply State.wr_kept | with_reducible apply State.powerDomains_kept | with_reducible apply State.wrs_nil_kept
    | with_reducible apply State.wrs_cons_kept | with_reducible apply State.wrs_ite_kept | with_reducible apply State.send_kept
    | with_reducible exact Kept.updCpm (by assumption) (hm.of (by decide))
    | (intro x; with_reducible refine (fun (hx : Kept m s0 x) => ?_) ?_; clear_value x) | intro x
    | with_reducible refine Kept.updCpm ?_ (hm.of (by decide))

theorem State.wakeBy_kept {m : Nat} (hm : Sub 0x1EB1E4F84BA m) {s0 : State} {s : State} {code : Nat} {port : Nat} (hs : Kept m s0 s) :
    Kept m s0 (State.wakeBy s code port) := by
  unfold State.wakeBy
  repeat' first
    | with_reducible assumption | (refine Sub.of hm ?_; decide) | with_reducible apply Kept.ite | with_reducible apply State.startWake_kept
    | with_reducible exact Kept.updCpm (by assumption) (hm.of (by decide)) | with_reducible refine Kept.updCpm ?_ (hm.of (by decide))

theorem execWakeN_kept {m : Nat} (hm : Sub 0x1EB1E4F84BA m) {s0 : State} {s : State} (hs : Kept m s0 s) :
    KeptOut m s0 (execWakeN s) := by
  unfold execWakeN
  repeat' first
    | with_reducible assumption | (refine Sub.of hm ?_; decide) | with_reducible apply KeptOut.next | with_reducible apply State.wakeBy_kept

theorem execHostWake_kept {m : Nat} (hm : Sub 0x1EB1E4F84BA m) {s0 : State} {s : State} (hs : Kept m s0 s) :
    KeptOut m s0 (execHostWake s) := by
  unfold execHostWake
  repeat' first
    | with_reducible assumption | (refine Sub.of hm ?_; decide) | with_reducible apply KeptOut.next | with_reducible apply KeptOut.ite
    | with_reducible apply Kept.ite | with_reducible apply State.wakeBy_kept

theorem execLinkDataWake_kept {m : Nat} (hm : Sub 0x1EB1E4F84BA m) {s0 : State} {s : State} (hs : Kept m s0 s) :
    KeptOut m s0 (execLinkDataWake s) := by
  unfold execLinkDataWake
  repeat' first
    | with_reducible assumption | (refine Sub.of hm ?_; decide) | with_reducible apply KeptOut.next | with_reducible apply KeptOut.ite
    | with_reducible apply Kept.ite | with_reducible apply State.wakeBy_kept

theorem execWakeRx_kept {m : Nat} (hm : Sub 0x1EB1E4F84BA m) {s0 : State} {p : Port} {s : State} (hs : Kept m s0 s) :
    KeptOut m s0 (execWakeRx p s) := by
  unfold execWakeRx
  repeat' first
    | with_reducible assumption | (refine Sub.of hm ?_; decide)
    | (lift_lets; intro x; with_reducible refine (fun (hx : Kept m s0 x) => ?_) ?_; clear_value x) | (lift_lets; intro x)
    | with_reducible apply KeptOut.next | with_reducible apply KeptOut.ite | with_reducible apply Kept.ite | with_reducible apply State.cause0_kept
    | with_reducible apply State.setCpm_kept | with_reducible apply State.wakeBy_kept
    | (intro x; with_reducible refine (fun (hx : Kept m s0 x) => ?_) ?_; clear_value x) | intro x

theorem execWakeTimer_kept {m : Nat} (hm : Sub 0x1EB1E4F84BA m) {s0 : State} {s : State} (hs : Kept m s0 s) :
    KeptOut m s0 (execWakeTimer s) := by
  unfold execWakeTimer
  repeat' first
    | with_reducible assumption | (refine Sub.of hm ?_; decide) | with_reducible apply KeptOut.next | with_reducible apply KeptOut.ite
    | with_reducible apply Kept.ite | with_reducible apply State.wakeBy_kept

theorem State.dropThrough_kept {m : Nat} (hm : Sub 0x20745D0200 m) {s0 : State} {s : State} (hs : Kept m s0 s) :
    Kept m s0 (State.dropThrough s) := by
  unfold State.dropThrough
  repeat' first
    | with_reducible assumption | (refine Sub.of hm ?_; decide)
    | (lift_lets; intro x; with_reducible refine (fun (hx : Kept m s0 x) => ?_) ?_; clear_value x) | (lift_lets; intro x) | with_reducible apply Kept.ite
    | with_reducible apply Kept.iteFst | with_reducible apply Kept.iteSnd | with_reducible apply State.setCircuit_kept
    | with_reducible apply State.restRing_kept | with_reducible apply State.sideGroup_kept | (with_reducible refine Kept.foldl ?_ ?_; intro a x hx)
    | (with_reducible refine Kept.foldlFst ?_ ?_; intro a x hx) | (with_reducible refine Kept.foldlSnd ?_ ?_; intro a x hx)
    | (intro x; with_reducible refine (fun (hx : Kept m s0 x) => ?_) ?_; clear_value x) | intro x

theorem execSleepWait_kept {m : Nat} (hm : Sub 0x1A0765D020A m) {s0 : State} {f : Fn} {e : Block64} {s : State} (hs : Kept m s0 s) :
    KeptOut m s0 (execSleepWait f e s) := by
  unfold execSleepWait
  repeat' first
    | with_reducible assumption | (refine Sub.of hm ?_; decide) | with_reducible refine fun (y0 : Cmd) (s : State) (h : Kept m s0 s) => ?_
    | (lift_lets; intro x; with_reducible refine (fun (hx : Kept m s0 x) => ?_) ?_; clear_value x) | (lift_lets; intro x)
    | with_reducible apply KeptOut.next | with_reducible apply KeptOut.ite | with_reducible apply Kept.ite | with_reducible apply State.command_kept
    | with_reducible apply State.complete_kept | with_reducible apply State.wr_kept | with_reducible apply State.setCpm_kept
    | with_reducible apply State.dropThrough_kept | with_reducible apply State.setWait_kept | split | (clear_value *; split)
    | (dsimp +zetaDelta only; split) | (intro x; with_reducible refine (fun (hx : Kept m s0 x) => ?_) ?_; clear_value x) | intro x

theorem State.stayAwake_kept {m : Nat} (hm : Sub 0x160004D8002 m) {s0 : State} {s : State} (hs : Kept m s0 s) :
    Kept m s0 (State.stayAwake s) := by
  unfold State.stayAwake
  repeat' first
    | with_reducible assumption | (refine Sub.of hm ?_; decide)
    | (lift_lets; intro x; with_reducible refine (fun (hx : Kept m s0 x) => ?_) ?_; clear_value x) | (lift_lets; intro x) | with_reducible apply Kept.ite
    | with_reducible apply State.wr_kept | with_reducible apply State.opIdle_kept
    | (intro x; with_reducible refine (fun (hx : Kept m s0 x) => ?_) ?_; clear_value x) | intro x

theorem State.hold_kept {m : Nat} (hm : Sub 0x2 m) {s0 : State} {s : State} {groups : List Nat} (hs : Kept m s0 s) :
    Kept m s0 (State.hold s groups) := by
  unfold State.hold
  repeat' first
    | with_reducible assumption | (refine Sub.of hm ?_; decide)
    | (lift_lets; intro x; with_reducible refine (fun (hx : Kept m s0 x) => ?_) ?_; clear_value x) | (lift_lets; intro x)
    | with_reducible apply State.setBit_kept | (with_reducible refine Kept.foldl ?_ ?_; intro a x hx)
    | (intro x; with_reducible refine (fun (hx : Kept m s0 x) => ?_) ?_; clear_value x) | intro x

theorem State.memOff_kept {m : Nat} (hm : Sub 0x2180000402 m) {s0 s : State} (hs : Kept m s0 s) : Kept m s0 (State.memOff s) := by
  unfold State.memOff
  refine Kept.ite hs ?_
  have h : Kept m s0 (s.setDom 4 false) := State.setDom_kept (hm.of (by decide)) hs
  generalize s.setDom 4 false = t at h
  dsimp only
  refine Kept.ite (State.wr_kept (hm.of (by decide)) ?_) (State.wrs_kept ?_ (Kept.updMss (s := { t with mss := { t.mss with mem := [] } })
    (Kept.setMem (hm.of (by decide)) (fun _ => rfl) h) (hm.of (by decide)) rfl))
  · repeat' first
      | with_reducible assumption | with_reducible apply Kept.ite | with_reducible apply State.wr_kept | exact (hm.of (by decide))
  · repeat' first
      | exact List.forall_mem_nil _ | refine List.forall_mem_cons.2 ⟨?_, ?_⟩ | (dsimp only; exact (hm.of (by decide)))

theorem State.laneOff_kept {m : Nat} (hm : Sub 0x2008020002 m) {s0 : State} {s : State} (hs : Kept m s0 s) :
    Kept m s0 (State.laneOff s) := by
  unfold State.laneOff
  repeat' first
    | with_reducible assumption | (refine Sub.of hm ?_; decide)
    | (lift_lets; intro x; with_reducible refine (fun (hx : Kept m s0 x) => ?_) ?_; clear_value x) | (lift_lets; intro x)
    | with_reducible apply State.wr_kept | with_reducible apply State.setUnitSt_kept | with_reducible apply State.setDom_kept
    | with_reducible exact Kept.updLnk (by assumption) (hm.of (by decide)) | (with_reducible refine Kept.foldl ?_ ?_; intro a x hx)
    | (intro x; with_reducible refine (fun (hx : Kept m s0 x) => ?_) ?_; clear_value x) | intro x
    | with_reducible refine Kept.updLnk ?_ (hm.of (by decide))

theorem State.ringOff_kept {m : Nat} (hm : Sub 0xEA1E4F80BA m) {s0 : State} {s : State} (hs : Kept m s0 s) :
    Kept m s0 (State.ringOff s) := by
  unfold State.ringOff
  repeat' first
    | with_reducible assumption | (refine Sub.of hm ?_; decide) | with_reducible refine fun (s : State) (h : Kept m s0 s) => ?_
    | (lift_lets; intro x; with_reducible refine (fun (hx : Kept m s0 x) => ?_) ?_; clear_value x) | (lift_lets; intro x)
    | with_reducible apply State.wr_kept | with_reducible apply State.allRingsOff_kept | with_reducible apply State.abandon_kept
    | with_reducible apply State.evalLaser_kept | with_reducible apply State.setDom_kept | with_reducible apply State.withShutters_kept
    | with_reducible apply State.hold_kept | with_reducible apply State.abortSearch_kept
    | (refine Sub.ports hm ?_ (by decide); simp only [Fld.key, F.PORT_SHUT_CTRL_OPEN]; omega)
    | with_reducible exact Kept.updRcu (by assumption) (hm.of (by decide)) | (with_reducible refine Kept.foldl ?_ ?_; intro a x hx)
    | (intro x; with_reducible refine (fun (hx : Kept m s0 x) => ?_) ?_; clear_value x) | intro x
    | with_reducible refine Kept.updRcu ?_ (hm.of (by decide))

theorem State.hostGone_kept {m : Nat} (hm : Sub 0x7FFFFFFFFFF m) {s0 s : State} (hs : Kept m s0 s) : Kept m s0 (State.hostGone s) :=
  Kept.whole hm (State.tearProgram_kept (hm.of (by decide)) hs) rfl rfl rfl id (risingFrom_filter _ _ _)

theorem State.hostOffNow_kept {m : Nat} (hm : Sub 0x7FFFFFFFFFF m) {s0 : State} {s : State} (hs : Kept m s0 s) :
    Kept m s0 (State.hostOffNow s) := by
  unfold State.hostOffNow
  repeat' first
    | with_reducible assumption | (refine Sub.of hm ?_; decide)
    | (lift_lets; intro x; with_reducible refine (fun (hx : Kept m s0 x) => ?_) ?_; clear_value x) | (lift_lets; intro x) | with_reducible apply Kept.ite
    | with_reducible apply State.envStop_kept | with_reducible apply State.setDom_kept | with_reducible apply State.commandMv_kept
    | with_reducible apply State.hold_kept | with_reducible apply State.send_kept | with_reducible apply State.hostGone_kept
    | exact Sub.any hm (by decide) | (intro x; with_reducible refine (fun (hx : Kept m s0 x) => ?_) ?_; clear_value x) | intro x

theorem State.gate_kept {m : Nat} (hm : Sub 0x7FFFFFFFFFF m) {s0 : State} {s : State} {hostOff : Bool} (hs : Kept m s0 s) :
    Kept m s0 (State.gate s hostOff) := by
  unfold State.gate
  repeat' first
    | with_reducible assumption | (refine Sub.of hm ?_; decide)
    | (lift_lets; intro x; with_reducible refine (fun (hx : Kept m s0 x) => ?_) ?_; clear_value x) | (lift_lets; intro x) | with_reducible apply Kept.ite
    | with_reducible apply Kept.iteFst | with_reducible apply Kept.iteSnd | with_reducible apply State.startWake_kept
    | with_reducible apply State.hostOffNow_kept | with_reducible apply State.setBit_kept | with_reducible apply State.memOff_kept
    | with_reducible apply State.wr_kept | with_reducible apply State.setOps_kept | with_reducible apply State.inc_kept
    | with_reducible apply State.setDom_kept | with_reducible apply State.ringOff_kept | with_reducible apply State.laneOff_kept
    | exact Sub.any hm (by decide) | split | (clear_value *; split) | (dsimp +zetaDelta only; split)
    | (intro x; with_reducible refine (fun (hx : Kept m s0 x) => ?_) ?_; clear_value x) | intro x

theorem execSleepDrainDone_kept {m : Nat} (hm : Sub 0x7FFFFFFFFFF m) {s0 : State} {s : State} (hs : Kept m s0 s) :
    KeptOut m s0 (execSleepDrainDone s) := by
  unfold execSleepDrainDone
  repeat' first
    | with_reducible assumption | (refine Sub.of hm ?_; decide)
    | (lift_lets; intro x; with_reducible refine (fun (hx : Kept m s0 x) => ?_) ?_; clear_value x) | (lift_lets; intro x)
    | with_reducible apply KeptOut.next | with_reducible apply KeptOut.ite | with_reducible apply Kept.ite | with_reducible apply State.complete_kept
    | with_reducible apply State.wr_kept | with_reducible apply State.gate_kept | with_reducible apply State.event_kept | exact Sub.any hm (by decide)
    | split | (clear_value *; split) | (dsimp +zetaDelta only; split) | (intro x; with_reducible refine (fun (hx : Kept m s0 x) => ?_) ?_; clear_value x)
    | intro x

theorem execSleepDrainTimeout_kept {m : Nat} (hm : Sub 0x1E0024D800A m) {s0 : State} {s : State} (hs : Kept m s0 s) :
    KeptOut m s0 (execSleepDrainTimeout s) := by
  unfold execSleepDrainTimeout
  repeat' first
    | with_reducible assumption | (refine Sub.of hm ?_; decide) | with_reducible apply KeptOut.next | with_reducible apply State.complete_kept
    | with_reducible apply State.cause0_kept | with_reducible apply State.stayAwake_kept | split

theorem execSleepLinkIdle_kept {m : Nat} (hm : Sub 0x7FFFFFFFFFF m) {s0 : State} {s : State} (hs : Kept m s0 s) :
    KeptOut m s0 (execSleepLinkIdle s) := by
  unfold execSleepLinkIdle
  repeat' first
    | with_reducible assumption | (refine Sub.of hm ?_; decide) | with_reducible apply KeptOut.next | with_reducible apply KeptOut.ite
    | with_reducible apply Kept.ite | with_reducible apply State.gate_kept | exact Sub.any hm (by decide)

theorem execLinkWaitExpire_kept {m : Nat} (hm : Sub 0x7FFFFFFFFFF m) {s0 : State} {s : State} (hs : Kept m s0 s) :
    KeptOut m s0 (execLinkWaitExpire s) := by
  unfold execLinkWaitExpire
  repeat' first
    | with_reducible assumption | (refine Sub.of hm ?_; decide) | with_reducible apply KeptOut.next | with_reducible apply KeptOut.ite
    | with_reducible apply Kept.ite | with_reducible apply State.wr_kept | with_reducible apply State.cause0_kept | with_reducible apply State.gate_kept
    | exact Sub.any hm (by decide)

theorem State.voutRead_kept {m : Nat} (hm : Sub 0x100002 m) {s0 : State} {s : State} {ok : Bool} (hs : Kept m s0 s) :
    Kept m s0 (State.voutRead s ok) := by
  unfold State.voutRead
  repeat' first
    | with_reducible assumption | (refine Sub.of hm ?_; decide)
    | (lift_lets; intro x; with_reducible refine (fun (hx : Kept m s0 x) => ?_) ?_; clear_value x) | (lift_lets; intro x) | with_reducible apply Kept.ite
    | with_reducible apply Kept.iteSnd | with_reducible apply State.wr_kept | with_reducible apply State.free_kept
    | with_reducible refine Kept.ofSnd (by assumption) ?_ | split | (clear_value *; split) | (dsimp +zetaDelta only; split)
    | (intro x; with_reducible refine (fun (hx : Kept m s0 x) => ?_) ?_; clear_value x) | intro x

theorem State.supplyMissed_kept {m : Nat} (hm : Sub 0x2000000000 m) {s0 : State} {s : State} (hs : Kept m s0 s) :
    Kept m s0 (State.supplyMissed s) := by
  unfold State.supplyMissed
  repeat' first
    | with_reducible assumption | (refine Sub.of hm ?_; decide) | with_reducible exact Kept.updFcu (by assumption) (hm.of (by decide))
    | with_reducible refine Kept.updFcu ?_ (hm.of (by decide))

theorem State.supplyMet_kept {m : Nat} (hm : Sub 0x2000000000 m) {s0 : State} {s : State} (hs : Kept m s0 s) :
    Kept m s0 (State.supplyMet s) := by
  unfold State.supplyMet
  repeat' first
    | with_reducible assumption | (refine Sub.of hm ?_; decide) | with_reducible exact Kept.updFcu (by assumption) (hm.of (by decide))
    | with_reducible refine Kept.updFcu ?_ (hm.of (by decide))

theorem State.supplyNext_kept {m : Nat} (hm : Sub 0x2000000002 m) {s0 : State} {s : State} (hs : Kept m s0 s) :
    Kept m s0 (State.supplyNext s) := by
  unfold State.supplyNext
  repeat' first
    | with_reducible assumption | (refine Sub.of hm ?_; decide) | with_reducible apply Kept.ite | with_reducible apply State.wr_kept
    | with_reducible apply State.supplyMet_kept

theorem State.supplyReport_kept {m : Nat} (hm : Sub 0x2000050000 m) {s0 : State} {s : State} (hs : Kept m s0 s) :
    Kept m s0 (State.supplyReport s) := by
  unfold State.supplyReport
  repeat' first
    | with_reducible assumption | (refine Sub.of hm ?_; decide) | with_reducible apply Kept.ite | with_reducible apply State.fault_kept
    | with_reducible apply State.setFcu_kept

theorem execWSupplyDone_kept {m : Nat} (hm : Sub 0x2000100002 m) {s0 : State} {ok : Bool} {s : State} (hs : Kept m s0 s) :
    KeptOut m s0 (execWSupplyDone ok s) := by
  unfold execWSupplyDone
  repeat' first
    | with_reducible assumption | (refine Sub.of hm ?_; decide) | with_reducible apply KeptOut.next | with_reducible apply KeptOut.ite
    | with_reducible apply Kept.ite | with_reducible apply State.supplyMissed_kept | with_reducible apply State.voutRead_kept
    | with_reducible apply State.supplyMet_kept | with_reducible apply State.wrs_nil_kept | with_reducible apply State.wrs_cons_kept
    | with_reducible apply State.wrs_ite_kept | with_reducible apply State.wr_kept

theorem execSupplyRetry_kept {m : Nat} (hm : Sub 0x2000180002 m) {s0 : State} {ok : Bool} {s : State} (hs : Kept m s0 s) :
    KeptOut m s0 (execSupplyRetry ok s) := by
  unfold execSupplyRetry
  repeat' first
    | with_reducible assumption | (refine Sub.of hm ?_; decide)
    | (lift_lets; intro x; with_reducible refine (fun (hx : Kept m s0 x) => ?_) ?_; clear_value x) | (lift_lets; intro x)
    | with_reducible apply KeptOut.next | with_reducible apply KeptOut.ite | with_reducible apply Kept.ite | with_reducible apply State.voutRead_kept
    | with_reducible apply State.wr_kept | with_reducible apply State.supplyNext_kept | with_reducible apply State.supplyMet_kept
    | with_reducible apply State.send_kept | (intro x; with_reducible refine (fun (hx : Kept m s0 x) => ?_) ?_; clear_value x) | intro x

theorem State.restartTime_kept {m : Nat} (hm : Sub 0x8000200002 m) {s0 : State} {s : State} {c : Nat} (hs : Kept m s0 s) :
    Kept m s0 (State.restartTime s c) := by
  unfold State.restartTime
  repeat' first
    | with_reducible assumption | (refine Sub.of hm ?_; decide)
    | (lift_lets; intro x; with_reducible refine (fun (hx : Kept m s0 x) => ?_) ?_; clear_value x) | (lift_lets; intro x) | with_reducible apply Kept.ite
    | with_reducible apply State.wrs_nil_kept | with_reducible apply State.wrs_cons_kept | with_reducible apply State.wrs_ite_kept
    | with_reducible apply State.wr_kept | with_reducible exact Kept.updTime (by assumption) (hm.of (by decide))
    | with_reducible exact Kept.updSta (by assumption) (hm.of (by decide))
    | with_reducible (refine Kept.upd (by assumption) (by first | exact .inr rfl | exact .inl ⟨hm.of (by decide), List.prefix_append _ _⟩) (by first | exact .inr rfl | exact .inl (hm.of (by decide))) (by first | exact .inr rfl | exact .inl (hm.of (by decide))) (by first | exact .inr rfl | exact .inl (hm.of (by decide))) (by first | exact .inr rfl | exact .inl (hm.of (by decide))) (by first | exact .inr rfl | exact .inl (hm.of (by decide))) (by first | exact .inr rfl | exact .inl (hm.of (by decide))) (by first | exact .inr rfl | exact .inl (hm.of (by decide))) (by first | exact .inr rfl | exact .inl (hm.of (by decide))) (by first | exact .inr rfl | exact .inl (hm.of (by decide))) (by first | exact .inr rfl | exact .inl (hm.of (by decide))) rfl (by first | exact .inr rfl | exact .inl (hm.of (by decide))) (by first | exact .inr rfl | exact .inl (hm.of (by decide))) (by first | exact .inr rfl | exact .inl (hm.of (by decide))) (by first | exact .inr rfl | exact .inl (hm.of (by decide))) (by first | exact .inr rfl | exact .inl (hm.of (by decide))) (by first | exact .inr rfl | exact .inl (hm.of (by decide))) (by first | exact .inr rfl | exact .inl (hm.of (by decide))) (by first | exact .inr rfl | exact .inl (hm.of (by decide))) (by first | exact .inr rfl | exact .inl (hm.of (by decide))) (by first | exact .inr rfl | exact .inl (hm.of (by decide))) (by first | exact .inr rfl | exact .inl (hm.of (by decide))) )
    | (intro x; with_reducible refine (fun (hx : Kept m s0 x) => ?_) ?_; clear_value x) | intro x
    | with_reducible refine Kept.updTime ?_ (hm.of (by decide)) | with_reducible refine Kept.updSta ?_ (hm.of (by decide))
    | with_reducible (refine Kept.upd ?_ (by first | exact .inr rfl | exact .inl ⟨hm.of (by decide), List.prefix_append _ _⟩) (by first | exact .inr rfl | exact .inl (hm.of (by decide))) (by first | exact .inr rfl | exact .inl (hm.of (by decide))) (by first | exact .inr rfl | exact .inl (hm.of (by decide))) (by first | exact .inr rfl | exact .inl (hm.of (by decide))) (by first | exact .inr rfl | exact .inl (hm.of (by decide))) (by first | exact .inr rfl | exact .inl (hm.of (by decide))) (by first | exact .inr rfl | exact .inl (hm.of (by decide))) (by first | exact .inr rfl | exact .inl (hm.of (by decide))) (by first | exact .inr rfl | exact .inl (hm.of (by decide))) (by first | exact .inr rfl | exact .inl (hm.of (by decide))) rfl (by first | exact .inr rfl | exact .inl (hm.of (by decide))) (by first | exact .inr rfl | exact .inl (hm.of (by decide))) (by first | exact .inr rfl | exact .inl (hm.of (by decide))) (by first | exact .inr rfl | exact .inl (hm.of (by decide))) (by first | exact .inr rfl | exact .inl (hm.of (by decide))) (by first | exact .inr rfl | exact .inl (hm.of (by decide))) (by first | exact .inr rfl | exact .inl (hm.of (by decide))) (by first | exact .inr rfl | exact .inl (hm.of (by decide))) (by first | exact .inr rfl | exact .inl (hm.of (by decide))) (by first | exact .inr rfl | exact .inl (hm.of (by decide))) (by first | exact .inr rfl | exact .inl (hm.of (by decide))) )

theorem State.refreeze_kept {m : Nat} (hm : Sub 0xC4F0000 m) {s0 : State} {s : State} (hs : Kept m s0 s) :
    Kept m s0 (State.refreeze s) := by
  unfold State.refreeze
  repeat' first
    | with_reducible assumption | (refine Sub.of hm ?_; decide)
    | (lift_lets; intro x; with_reducible refine (fun (hx : Kept m s0 x) => ?_) ?_; clear_value x) | (lift_lets; intro x)
    | with_reducible apply State.frozenAll_kept | with_reducible apply State.freezePage_kept | (with_reducible refine Kept.foldl ?_ ?_; intro a x hx)
    | (with_reducible refine Kept.foldlFst ?_ ?_; intro a x hx) | (intro x; with_reducible refine (fun (hx : Kept m s0 x) => ?_) ?_; clear_value x)
    | intro x

theorem State.rootLocks_kept {m : Nat} (hm : Sub 0x2 m) {s0 : State} {s : State} {inverted : Bool} (hs : Kept m s0 s) :
    Kept m s0 (State.rootLocks s inverted) := by
  unfold State.rootLocks
  repeat' first
    | with_reducible assumption | (refine Sub.of hm ?_; decide) | with_reducible apply State.wrs_nil_kept | with_reducible apply State.wrs_cons_kept
    | with_reducible apply State.wrs_ite_kept | with_reducible apply State.wr_kept

theorem execWHostDone_kept {m : Nat} (hm : Sub 0x1EB1E6FA4FE m) {s0 : State} {ticks : Nat} {refclk : Nat} {inverted : Bool} {s : State} (hs : Kept m s0 s) :
    KeptOut m s0 (execWHostDone ticks refclk inverted s) := by
  unfold execWHostDone
  repeat' first
    | with_reducible assumption | (refine Sub.of hm ?_; decide)
    | (lift_lets; intro x; with_reducible refine (fun (hx : Kept m s0 x) => ?_) ?_; clear_value x) | (lift_lets; intro x)
    | with_reducible apply KeptOut.next | with_reducible apply KeptOut.ite | with_reducible apply Kept.ite | with_reducible apply State.fault_kept
    | with_reducible apply State.refreeze_kept | with_reducible apply State.supplyReport_kept | with_reducible apply State.releaseHost_kept
    | with_reducible apply State.rootStratum_kept | with_reducible apply State.setBit_kept | with_reducible apply State.cause0_kept
    | with_reducible apply State.tamper_kept | with_reducible apply State.rootLocks_kept | with_reducible apply State.powerDomains_kept
    | with_reducible apply State.setDom_kept | with_reducible apply State.setCpm_kept | with_reducible apply State.restartTime_kept
    | with_reducible apply State.wrs_nil_kept | with_reducible apply State.wrs_cons_kept | with_reducible apply State.wrs_ite_kept
    | with_reducible apply State.wr_kept | (with_reducible refine Kept.foldl ?_ ?_; intro a x hx)
    | (intro x; with_reducible refine (fun (hx : Kept m s0 x) => ?_) ?_; clear_value x) | intro x

theorem execWDomainsDone_kept {m : Nat} (hm : Sub 0x2 m) {s0 : State} {s : State} (hs : Kept m s0 s) :
    KeptOut m s0 (execWDomainsDone s) := by
  unfold execWDomainsDone
  repeat' first
    | with_reducible assumption | (refine Sub.of hm ?_; decide)
    | (lift_lets; intro x; with_reducible refine (fun (hx : Kept m s0 x) => ?_) ?_; clear_value x) | (lift_lets; intro x)
    | with_reducible apply KeptOut.next | with_reducible apply KeptOut.ite | with_reducible apply Kept.ite | with_reducible apply State.wr_kept
    | (intro x; with_reducible refine (fun (hx : Kept m s0 x) => ?_) ?_; clear_value x) | intro x

theorem execWEngineDone_kept {m : Nat} (hm : Sub 0x1EFDE5F8EAA m) {s0 : State} {s : State} (hs : Kept m s0 s) :
    KeptOut m s0 (execWEngineDone s) := by
  unfold execWEngineDone
  repeat' first
    | with_reducible assumption | (refine Sub.of hm ?_; decide)
    | (lift_lets; intro x; with_reducible refine (fun (hx : Kept m s0 x) => ?_) ?_; clear_value x) | (lift_lets; intro x)
    | with_reducible apply KeptOut.next | with_reducible apply KeptOut.ite | with_reducible apply Kept.ite | with_reducible apply State.wr_kept
    | with_reducible apply State.blockGoes_kept | with_reducible apply State.opIdle_kept | with_reducible apply State.setDom_kept
    | with_reducible apply State.setCpm_kept | (with_reducible refine Kept.foldl ?_ ?_; intro a x hx)
    | (intro x; with_reducible refine (fun (hx : Kept m s0 x) => ?_) ?_; clear_value x) | intro x

theorem State.refclkConfirmed_kept {m : Nat} (hm : Sub 0xEB1E6F84BA m) {s0 : State} {s : State} {ticks : Nat} {inverted : Bool} (hs : Kept m s0 s) :
    Kept m s0 (State.refclkConfirmed s ticks inverted) := by
  unfold State.refclkConfirmed
  repeat' first
    | with_reducible assumption | (refine Sub.of hm ?_; decide)
    | (lift_lets; intro x; with_reducible refine (fun (hx : Kept m s0 x) => ?_) ?_; clear_value x) | (lift_lets; intro x) | with_reducible apply Kept.ite
    | with_reducible apply State.wr_kept | with_reducible apply State.rootLocks_kept | with_reducible apply State.powerDomains_kept
    | with_reducible apply State.restartTime_kept | with_reducible apply State.wrs_nil_kept | with_reducible apply State.wrs_cons_kept
    | with_reducible apply State.wrs_ite_kept | (intro x; with_reducible refine (fun (hx : Kept m s0 x) => ?_) ?_; clear_value x) | intro x

theorem State.padsReleased_kept {m : Nat} (hm : Sub 0x44080212 m) {s0 : State} {s : State} (hs : Kept m s0 s) :
    Kept m s0 (State.padsReleased s) := by
  unfold State.padsReleased
  repeat' first
    | with_reducible assumption | (refine Sub.of hm ?_; decide)
    | (lift_lets; intro x; with_reducible refine (fun (hx : Kept m s0 x) => ?_) ?_; clear_value x) | (lift_lets; intro x) | with_reducible apply Kept.ite
    | with_reducible apply State.compactWaiting_kept | with_reducible apply State.wr_kept | with_reducible apply State.evalLaser_kept
    | (intro x; with_reducible refine (fun (hx : Kept m s0 x) => ?_) ?_; clear_value x) | intro x

theorem State.rootLeaves_kept {m : Nat} (hm : Sub 0x2 m) {s0 : State} {s : State} (hs : Kept m s0 s) :
    Kept m s0 (State.rootLeaves s) := by
  unfold State.rootLeaves
  repeat' first
    | with_reducible assumption | (refine Sub.of hm ?_; decide) | with_reducible apply Kept.ite | with_reducible apply State.evalTime_kept
    | with_reducible apply State.wr_kept

theorem State.timeSet_kept {m : Nat} (hm : Sub 0x8000240002 m) {s0 : State} {s : State} {t : DWord} (hs : Kept m s0 s) :
    KeptOpt m s0 (State.timeSet s t) := by
  unfold State.timeSet
  repeat' first
    | with_reducible assumption | (refine Sub.of hm ?_; decide) | with_reducible apply KeptOpt.none | with_reducible apply KeptOpt.some
    | with_reducible apply KeptOpt.ite | with_reducible apply Kept.ite | with_reducible apply State.stepTime_kept
    | with_reducible apply State.rootLeaves_kept

end Sys2Proof.Machine
end

