-- ==== Sys2Proof/Laws/KeptClock.lean ====
section
/-! SUPPORT. What every operation of Machine/Clock.lean keeps, and which parts of the state it may change. -/

set_option linter.unusedTactic false
set_option linter.unreachableTactic false
set_option linter.unusedVariables false
set_option linter.unusedSimpArgs false

namespace Sys2Proof.Machine

theorem State.countCycles_kept {m : Nat} (hm : Sub 0x8000040000 m) {s0 : State} {s : State} {n : Nat} (hs : Kept m s0 s) :
    Kept m s0 (State.countCycles s n) := by
  unfold State.countCycles
  repeat' first
    | with_reducible assumption | (refine Sub.of hm ?_; decide)
    | (lift_lets; intro x; with_reducible refine (fun (hx : Kept m s0 x) => ?_) ?_; clear_value x) | (lift_lets; intro x) | with_reducible apply Kept.ite
    | with_reducible apply State.statPart_kept | with_reducible apply State.stat_kept | (with_reducible refine Kept.foldl ?_ ?_; intro a x hx)
    | (intro x; with_reducible refine (fun (hx : Kept m s0 x) => ?_) ?_; clear_value x) | intro x

theorem State.loopCycle_kept {m : Nat} (hm : Sub 0x8000240000 m) {s0 : State} {s : State} (hs : Kept m s0 s) :
    Kept m s0 (State.loopCycle s) := by
  unfold State.loopCycle
  repeat' first
    | with_reducible assumption | (refine Sub.of hm ?_; decide)
    | (lift_lets; intro x; with_reducible refine (fun (hx : Kept m s0 x) => ?_) ?_; clear_value x) | (lift_lets; intro x) | with_reducible apply Kept.ite
    | with_reducible apply State.countCycles_kept | with_reducible exact Kept.updTime (by assumption) (hm.of (by decide))
    | (intro x; with_reducible refine (fun (hx : Kept m s0 x) => ?_) ?_; clear_value x) | intro x
    | with_reducible refine Kept.updTime ?_ (hm.of (by decide))

theorem State.tick_kept {m : Nat} (hm : Sub 0x7FFFFFFFFFF m) {s0 : State} {s : State} (hs : Kept m s0 s) :
    Kept m s0 (State.tick s) := by
  unfold State.tick
  repeat' first
    | with_reducible assumption | (refine Sub.of hm ?_; decide) | with_reducible apply Kept.ite | with_reducible apply State.sample_kept
    | with_reducible apply State.loopCycle_kept | with_reducible apply State.eraseStep_kept | exact Sub.any hm (by decide)

end Sys2Proof.Machine
end

