-- ==== Sys2Proof/Laws/KeptWindow.lean ====
section
/-! SUPPORT. What every operation of Machine/Window.lean keeps, and which parts of the state it may change. -/

set_option linter.unusedTactic false
set_option linter.unreachableTactic false
set_option linter.unusedVariables false
set_option linter.unusedSimpArgs false

namespace Sys2Proof.Machine

theorem State.commitChan_kept {m : Nat} (hm : Sub 0xC020000 m) {s0 : State} {s : State} {ch : Nat} {w0 : Nat} {w1 : Nat} {w2 : Nat} (hs : Kept m s0 s) :
    Kept m s0 (State.commitChan s ch w0 w1 w2) := by
  unfold State.commitChan
  repeat' first
    | with_reducible assumption | (refine Sub.of hm ?_; decide)
    | (lift_lets; intro x; with_reducible refine (fun (hx : Kept m s0 x) => ?_) ?_; clear_value x) | (lift_lets; intro x) | with_reducible apply Kept.ite
    | with_reducible apply Kept.iteFst | with_reducible apply State.setChan_kept | with_reducible apply State.abandon_kept
    | with_reducible exact Kept.updRcu (by assumption) (hm.of (by decide))
    | (intro x; with_reducible refine (fun (hx : Kept m s0 x) => ?_) ?_; clear_value x) | intro x
    | with_reducible refine Kept.updRcu ?_ (hm.of (by decide))

theorem State.commitRing_kept {m : Nat} (hm : Sub 0x4000000 m) {s0 : State} {s : State} {r : Nat} {on : Nat} {ofs : Nat} {src : Nat} (hs : Kept m s0 s) :
    Kept m s0 (State.commitRing s r on ofs src) := by
  unfold State.commitRing
  repeat' first
    | with_reducible assumption | (refine Sub.of hm ?_; decide)
    | (lift_lets; intro x; with_reducible refine (fun (hx : Kept m s0 x) => ?_) ?_; clear_value x) | (lift_lets; intro x) | with_reducible apply Kept.ite
    | with_reducible apply State.setRing_kept | (intro x; with_reducible refine (fun (hx : Kept m s0 x) => ?_) ?_; clear_value x) | intro x

theorem State.commitEntry_kept {m : Nat} (hm : Sub 0x401C020000 m) {s0 : State} {s : State} {pg : Nat} {i : Nat} {ws : List Nat} (hs : Kept m s0 s) :
    Kept m s0 (State.commitEntry s pg i ws) := by
  unfold State.commitEntry
  repeat' first
    | with_reducible assumption | (refine Sub.of hm ?_; decide)
    | (lift_lets; intro x; with_reducible refine (fun (hx : Kept m s0 x) => ?_) ?_; clear_value x) | (lift_lets; intro x) | with_reducible apply Kept.ite
    | with_reducible apply State.setCircuit_kept | with_reducible apply State.commitRing_kept | with_reducible apply State.commitChan_kept
    | with_reducible exact Kept.updEvr (by assumption) (hm.of (by decide)) | split | (clear_value *; split) | (dsimp +zetaDelta only; split)
    | (intro x; with_reducible refine (fun (hx : Kept m s0 x) => ?_) ?_; clear_value x) | intro x
    | with_reducible refine Kept.updEvr ?_ (hm.of (by decide))

theorem State.setWin_kept {m : Nat} (hm : Sub 0x800000 m) {s0 : State} {s : State} {r : Nat} {pg : Nat} {x : WinState} (hs : Kept m s0 s) :
    Kept m s0 (State.setWin s r pg x) := by
  unfold State.setWin
  repeat' first
    | with_reducible assumption | (refine Sub.of hm ?_; decide) | with_reducible apply State.setReq_kept

theorem State.winRead_kept {m : Nat} (hm : Sub 0x800000 m) {s0 : State} {s : State} {r : Nat} {pg : Nat} {o : Nat} (hs : Kept m s0 s) :
    Kept m s0 (State.winRead s r pg o).2 := by
  unfold State.winRead
  repeat' first
    | with_reducible assumption | (refine Sub.of hm ?_; decide)
    | (lift_lets; intro x; with_reducible refine (fun (hx : Kept m s0 x) => ?_) ?_; clear_value x) | (lift_lets; intro x) | with_reducible apply Kept.ite
    | with_reducible apply Kept.iteFst | with_reducible apply Kept.iteSnd | with_reducible apply State.setWin_kept | split | (clear_value *; split)
    | (dsimp +zetaDelta only; split) | (intro x; with_reducible refine (fun (hx : Kept m s0 x) => ?_) ?_; clear_value x) | intro x

theorem State.winStage_kept {m : Nat} (hm : Sub 0x401C820000 m) {s0 : State} {s : State} {r : Nat} {pg : Nat} {i : Nat} {w : Nat} {v : Nat} (hs : Kept m s0 s) :
    Kept m s0 (State.winStage s r pg i w v) := by
  unfold State.winStage
  repeat' first
    | with_reducible assumption | (refine Sub.of hm ?_; decide)
    | (lift_lets; intro x; with_reducible refine (fun (hx : Kept m s0 x) => ?_) ?_; clear_value x) | (lift_lets; intro x) | with_reducible apply Kept.ite
    | with_reducible apply Kept.iteFst | with_reducible apply Kept.iteSnd | with_reducible apply State.setWin_kept
    | with_reducible apply State.commitEntry_kept | split | (clear_value *; split) | (dsimp +zetaDelta only; split)
    | (intro x; with_reducible refine (fun (hx : Kept m s0 x) => ?_) ?_; clear_value x) | intro x

theorem State.winSelect_kept {m : Nat} (hm : Sub 0x800000 m) {s0 : State} {s : State} {r : Nat} {pg : Nat} {v : Nat} (hs : Kept m s0 s) :
    Kept m s0 (State.winSelect s r pg v) := by
  unfold State.winSelect
  repeat' first
    | with_reducible assumption | (refine Sub.of hm ?_; decide)
    | (lift_lets; intro x; with_reducible refine (fun (hx : Kept m s0 x) => ?_) ?_; clear_value x) | (lift_lets; intro x)
    | with_reducible apply State.setWin_kept | (intro x; with_reducible refine (fun (hx : Kept m s0 x) => ?_) ?_; clear_value x) | intro x

end Sys2Proof.Machine
end

