-- ==== Sys2Proof/Laws/KeptBus.lean ====
section
/-! SUPPORT. What every operation of Machine/Bus.lean keeps, and which parts of the state it may change. -/

set_option linter.unusedTactic false
set_option linter.unreachableTactic false
set_option linter.unusedVariables false
set_option linter.unusedSimpArgs false

namespace Sys2Proof.Machine

theorem State.busErr_kept {m : Nat} (hm : Sub 0x4D0001 m) {s0 : State} {s : State} {r : Req} {a : Nat} {flag : Fld} (hfflag : Sub (2 ^ flag.part.ix) m) (hs : Kept m s0 s) :
    Kept m s0 (State.busErr s r a flag) := by
  unfold State.busErr
  repeat' first
    | with_reducible assumption | (refine Sub.of hm ?_; decide) | with_reducible apply State.accErr_kept

theorem State.bad_kept {m : Nat} (hm : Sub 0x4D0001 m) {s0 : State} {s : State} {r : Req} {a : Nat} (hs : Kept m s0 s) :
    Kept m s0 (State.bad s r a) := by
  unfold State.bad
  repeat' first
    | with_reducible assumption | (refine Sub.of hm ?_; decide) | with_reducible apply State.busErr_kept

theorem State.rsvd_kept {m : Nat} (hm : Sub 0x4D0001 m) {s0 : State} {s : State} {r : Req} {a : Nat} (hs : Kept m s0 s) :
    Kept m s0 (State.rsvd s r a) := by
  unfold State.rsvd
  repeat' first
    | with_reducible assumption | (refine Sub.of hm ?_; decide) | with_reducible apply State.busErr_kept

theorem State.unimpl_kept {m : Nat} (hm : Sub 0x4D0001 m) {s0 : State} {s : State} {r : Req} {a : Nat} (hs : Kept m s0 s) :
    Kept m s0 (State.unimpl s r a) := by
  unfold State.unimpl
  repeat' first
    | with_reducible assumption | (refine Sub.of hm ?_; decide) | with_reducible apply Kept.ite | with_reducible apply State.busErr_kept

theorem State.orBad_kept {m : Nat} (hm : Sub 0x4D0001 m) {s0 s : State} {r : Req} {a : Nat} {t : Option State} (hs : Kept m s0 s) (ht : KeptOpt m s0 t) :
    Kept m s0 (State.orBad s r a t) := by
  cases t with
  | none => exact (State.bad_kept (hm.of (by decide))) hs
  | some t => exact ht.kept t rfl

theorem State.takeField_kept {m : Nat} (hm : Sub 0x40007FFFF m) {s0 : State} {s : State} {f : Fld} (hff : Sub (2 ^ f.part.ix) m) (hs : Kept m s0 s) :
    Kept m s0 (State.takeField s f) := by
  unfold State.takeField
  repeat' first
    | with_reducible assumption | (refine Sub.of hm ?_; decide) | with_reducible apply Kept.ite | with_reducible apply State.wr_kept
    | with_reducible apply State.setRdx_kept | (refine Sub.upper hm ?_ (by decide); simp only [Fld.key, pageBase, F.VF_RDX_SAT]; omega)
    | exact Sub.any hm (by decide)

theorem State.readWord_kept {m : Nat} (hm : Sub 0x400CFFFFF m) {s0 : State} {s : State} {r : Req} {a : Nat} {take : Bool} (hs : Kept m s0 s) :
    Kept m s0 (State.readWord s r a take).2 := by
  unfold State.readWord
  repeat' first
    | with_reducible assumption | (refine Sub.of hm ?_; decide)
    | (lift_lets; intro x; with_reducible refine (fun (hx : Kept m s0 x) => ?_) ?_; clear_value x) | (lift_lets; intro x) | with_reducible apply Kept.ite
    | with_reducible apply Kept.iteFst | with_reducible apply Kept.iteSnd | with_reducible apply State.windowRead_kept
    | with_reducible apply State.unimpl_kept | with_reducible apply State.takeField_kept | with_reducible apply State.setReq_kept
    | with_reducible apply State.winRead_kept | exact Sub.any hm (by decide) | (with_reducible refine Kept.foldl ?_ ?_; intro a x hx)
    | (with_reducible refine Kept.foldlFst ?_ ?_; intro a x hx) | (with_reducible refine Kept.foldlSnd ?_ ?_; intro a x hx)
    | with_reducible refine Kept.ofSnd (by assumption) ?_ | split | (clear_value *; split) | (dsimp +zetaDelta only; split)
    | (intro x; with_reducible refine (fun (hx : Kept m s0 x) => ?_) ?_; clear_value x) | intro x

theorem State.readOut_kept {m : Nat} (hm : Sub 0x400CFFFFF m) {s0 : State} {s : State} {r : Req} {a : Nat} {take : Bool} (hs : Kept m s0 s) :
    Kept m s0 (State.readOut s r a take) := by
  unfold State.readOut
  repeat' first
    | with_reducible assumption | (refine Sub.of hm ?_; decide)
    | (lift_lets; intro x; with_reducible refine (fun (hx : Kept m s0 x) => ?_) ?_; clear_value x) | (lift_lets; intro x)
    | with_reducible apply State.readWord_kept | with_reducible apply State.send_kept | exact Sub.any hm (by decide)
    | with_reducible refine Kept.ofSnd (by assumption) ?_ | (intro x; with_reducible refine (fun (hx : Kept m s0 x) => ?_) ?_; clear_value x) | intro x

theorem State.abandonLock_kept {m : Nat} (hm : Sub 0x1050000 m) {s0 : State} {s : State} {pg : Nat} (hs : Kept m s0 s) :
    Kept m s0 (State.abandonLock s pg) := by
  unfold State.abandonLock
  repeat' first
    | with_reducible assumption | (refine Sub.of hm ?_; decide)
    | (lift_lets; intro x; with_reducible refine (fun (hx : Kept m s0 x) => ?_) ?_; clear_value x) | (lift_lets; intro x)
    | with_reducible apply State.wr_kept
    | (refine Sub.header hm ?_ (by decide); simp only [Fld.key, pageBase, F.PAGE_STAT_LOCK_ARMED, F.PAGE_STAT_LOCK_SEQ_ERR]; omega)
    | (refine Sub.header hm ?_ (by decide); simp only [Fld.key, pageBase, F.PAGE_STAT_LOCK_ARMED, F.PAGE_STAT_LOCK_SEQ_ERR]; split_ifs <;> omega)
    | with_reducible exact Kept.updLocks (by assumption) (hm.of (by decide))
    | (intro x; with_reducible refine (fun (hx : Kept m s0 x) => ?_) ?_; clear_value x) | intro x
    | with_reducible refine Kept.updLocks ?_ (hm.of (by decide))

theorem State.lockKey_kept {m : Nat} (hm : Sub 0x1050000 m) {s0 : State} {s : State} {r : Req} {pg : Nat} {key : Nat} (hs : Kept m s0 s) :
    Kept m s0 (State.lockKey s r pg key) := by
  unfold State.lockKey
  repeat' first
    | with_reducible assumption | (refine Sub.of hm ?_; decide)
    | (lift_lets; intro x; with_reducible refine (fun (hx : Kept m s0 x) => ?_) ?_; clear_value x) | (lift_lets; intro x) | with_reducible apply Kept.ite
    | with_reducible apply Kept.iteFst | with_reducible apply Kept.iteSnd | with_reducible apply State.wr_kept
    | with_reducible apply State.abandonLock_kept
    | (refine Sub.header hm ?_ (by decide); simp only [Fld.key, pageBase, F.PAGE_STAT_LOCKED, F.PAGE_STAT_LOCK_ARMED]; omega)
    | (refine Sub.header hm ?_ (by decide); simp only [Fld.key, pageBase, F.PAGE_STAT_LOCKED, F.PAGE_STAT_LOCK_ARMED]; split_ifs <;> omega)
    | with_reducible exact Kept.updLocks (by assumption) (hm.of (by decide)) | split | (clear_value *; split) | (dsimp +zetaDelta only; split)
    | (intro x; with_reducible refine (fun (hx : Kept m s0 x) => ?_) ?_; clear_value x) | intro x
    | with_reducible refine Kept.updLocks ?_ (hm.of (by decide))

theorem State.ctrlWrite_kept {m : Nat} (hm : Sub 0x1EFFEFFFFFF m) {s0 : State} {s : State} {r : Req} {a : Nat} {pg : Nat} {v : Nat} (hs : Kept m s0 s) :
    Kept m s0 (State.ctrlWrite s r a pg v) := by
  unfold State.ctrlWrite
  repeat' first
    | with_reducible assumption | (refine Sub.of hm ?_; decide)
    | (lift_lets; intro x; with_reducible refine (fun (hx : Kept m s0 x) => ?_) ?_; clear_value x) | (lift_lets; intro x) | with_reducible apply Kept.ite
    | with_reducible apply State.orBad_kept | with_reducible apply State.enableWrite_kept | with_reducible apply State.setFreeze_kept
    | with_reducible apply State.softReset_kept | exact Sub.any hm (by decide) | with_reducible refine Kept.ofSome (by assumption) ?_
    | (intro x; with_reducible refine (fun (hx : Kept m s0 x) => ?_) ?_; clear_value x) | intro x

theorem State.headWrite_kept {m : Nat} (hm : Sub 0x1EFFFFFFFFF m) {s0 : State} {s : State} {r : Req} {a : Nat} {v : Nat} (hs : Kept m s0 s) :
    Kept m s0 (State.headWrite s r a v) := by
  unfold State.headWrite
  repeat' first
    | with_reducible assumption | (refine Sub.of hm ?_; decide) | with_reducible refine fun (s : State) (h : Kept m s0 s) => ?_
    | (lift_lets; intro x; with_reducible refine (fun (hx : Kept m s0 x) => ?_) ?_; clear_value x) | (lift_lets; intro x) | with_reducible apply Kept.ite
    | with_reducible apply State.rsvd_kept | with_reducible apply State.wr_kept | with_reducible apply State.intEdge_kept
    | with_reducible apply State.ctrlWrite_kept | with_reducible apply State.lockKey_kept | with_reducible apply State.errInject_kept
    | (refine Sub.header hm ?_ (by decide); simp only [Fld.key, pageBase, F.PAGE_STAT_LOCK_SEQ_ERR, F.INT_MASK_MASK, F.ERR_CAUSE_ERR, F.INT_CAUSE_CAUSE]; omega)
    | (refine Sub.header hm ?_ (by decide); simp only [Fld.key, pageBase, F.PAGE_STAT_LOCK_SEQ_ERR, F.INT_MASK_MASK, F.ERR_CAUSE_ERR, F.INT_CAUSE_CAUSE]; split_ifs <;> omega)
    | exact Sub.any hm (by decide) | split | (clear_value *; split) | (dsimp +zetaDelta only; split)
    | (intro x; with_reducible refine (fun (hx : Kept m s0 x) => ?_) ?_; clear_value x) | intro x

theorem State.writeFields_kept {m : Nat} (hm : Sub 0x4FFFFF m) {s0 : State} {s : State} {r : Req} {a : Nat} {v : Nat} {fs : List (Row × Fld × Bool)} (hs : Kept m s0 s) :
    Kept m s0 (State.writeFields s r a v fs) := by
  unfold State.writeFields
  repeat' first
    | with_reducible assumption | (refine Sub.of hm ?_; decide)
    | (lift_lets; intro x; with_reducible refine (fun (hx : Kept m s0 x) => ?_) ?_; clear_value x) | (lift_lets; intro x) | with_reducible apply Kept.ite
    | with_reducible apply Kept.iteFst | with_reducible apply Kept.iteSnd | with_reducible apply State.bad_kept | with_reducible apply State.wr_kept
    | exact Sub.any hm (by decide) | (with_reducible refine Kept.foldl ?_ ?_; intro a x hx) | (with_reducible refine Kept.foldlFst ?_ ?_; intro a x hx)
    | (with_reducible refine Kept.foldlSnd ?_ ?_; intro a x hx) | split | (clear_value *; split) | (dsimp +zetaDelta only; split)
    | (intro x; with_reducible refine (fun (hx : Kept m s0 x) => ?_) ?_; clear_value x) | intro x

theorem State.lnkCfgWrite_kept {m : Nat} (hm : Sub 0x4FFFFF m) {s0 : State} {s : State} {r : Req} {a : Nat} {p : Port} {v : Nat} {fs : List (Row × Fld × Bool)} (hs : Kept m s0 s) :
    Kept m s0 (State.lnkCfgWrite s r a p v fs) := by
  unfold State.lnkCfgWrite
  repeat' first
    | with_reducible assumption | (refine Sub.of hm ?_; decide)
    | (lift_lets; intro x; with_reducible refine (fun (hx : Kept m s0 x) => ?_) ?_; clear_value x) | (lift_lets; intro x) | with_reducible apply Kept.ite
    | with_reducible apply Kept.iteFst | with_reducible apply Kept.iteSnd | with_reducible apply State.orBad_kept | with_reducible apply State.bad_kept
    | with_reducible apply State.wakeTxStart_kept | with_reducible apply State.writeFields_kept
    | (refine Sub.ports hm ?_ (by decide); simp only [Fld.key, F.PORT_LNK_CFG_REPLAY_ALLOC]; omega) | exact Sub.any hm (by decide)
    | with_reducible refine Kept.ofSome (by assumption) ?_ | (intro x; with_reducible refine (fun (hx : Kept m s0 x) => ?_) ?_; clear_value x) | intro x

theorem State.tamperPolWrite_kept {m : Nat} (hm : Sub 0x4D2001 m) {s0 : State} {s : State} {r : Req} {a : Nat} {v : Nat} (hs : Kept m s0 s) :
    Kept m s0 (State.tamperPolWrite s r a v) := by
  unfold State.tamperPolWrite
  repeat' first
    | with_reducible assumption | (refine Sub.of hm ?_; decide)
    | (lift_lets; intro x; with_reducible refine (fun (hx : Kept m s0 x) => ?_) ?_; clear_value x) | (lift_lets; intro x) | with_reducible apply Kept.ite
    | with_reducible apply State.bad_kept | with_reducible apply State.wr_kept | (with_reducible refine Kept.foldl ?_ ?_; intro a x hx)
    | (intro x; with_reducible refine (fun (hx : Kept m s0 x) => ?_) ?_; clear_value x) | intro x

theorem State.keyrangeWrite_kept {m : Nat} (hm : Sub 0x4D2001 m) {s0 : State} {s : State} {r : Req} {a : Nat} {n : Nat} {v : Nat} (hs : Kept m s0 s) :
    Kept m s0 (State.keyrangeWrite s r a n v) := by
  unfold State.keyrangeWrite
  repeat' first
    | with_reducible assumption | (refine Sub.of hm ?_; decide)
    | (lift_lets; intro x; with_reducible refine (fun (hx : Kept m s0 x) => ?_) ?_; clear_value x) | (lift_lets; intro x) | with_reducible apply Kept.ite
    | with_reducible apply State.bad_kept | with_reducible apply State.wrs_nil_kept | with_reducible apply State.wrs_cons_kept
    | with_reducible apply State.wrs_ite_kept | with_reducible apply State.wr_kept
    | (refine Sub.page 13 hm ?_ (by decide); simp only [Fld.key, F.SEC_KEYRANGE_BASE, F.SEC_KEYRANGE_COUNT]; omega)
    | (intro x; with_reducible refine (fun (hx : Kept m s0 x) => ?_) ?_; clear_value x) | intro x

theorem State.dbgFreezeWrite_kept {m : Nat} (hm : Sub 0x1EFFF5F8FAB m) {s0 : State} {s : State} {r : Req} {a : Nat} {v : Nat} (hs : Kept m s0 s) :
    Kept m s0 (State.dbgFreezeWrite s r a v) := by
  unfold State.dbgFreezeWrite
  repeat' first
    | with_reducible assumption | (refine Sub.of hm ?_; decide) | with_reducible apply Kept.ite | with_reducible apply State.bad_kept
    | with_reducible apply State.forceFreeze_kept | with_reducible apply State.freezeAll_kept | with_reducible apply State.thawAll_kept
    | with_reducible apply State.stayAwake_kept

theorem State.cpmCtrl_kept {m : Nat} (hm : Sub 0xEB5E6F86BA m) {s0 : State} {s : State} {v : Nat} {ticks : Nat} {inverted : Bool} (hs : Kept m s0 s) :
    Kept m s0 (State.cpmCtrl s v ticks inverted) := by
  unfold State.cpmCtrl
  repeat' first
    | with_reducible assumption | (refine Sub.of hm ?_; decide)
    | (lift_lets; intro x; with_reducible refine (fun (hx : Kept m s0 x) => ?_) ?_; clear_value x) | (lift_lets; intro x) | with_reducible apply Kept.ite
    | with_reducible apply State.padsReleased_kept | with_reducible apply State.refclkConfirmed_kept | with_reducible apply State.rootLeaves_kept
    | (intro x; with_reducible refine (fun (hx : Kept m s0 x) => ?_) ?_; clear_value x) | intro x

theorem State.queWrite_kept {m : Nat} (hm : Sub 0x2024FFFFF m) {s0 : State} {s : State} {r : Req} {a : Nat} {f : Fn} {v : Nat} {fs : List (Row × Fld × Bool)} (hs : Kept m s0 s) :
    Kept m s0 (State.queWrite s r a f v fs) := by
  unfold State.queWrite
  repeat' first
    | with_reducible assumption | (refine Sub.of hm ?_; decide) | with_reducible apply State.qCtrl_kept | with_reducible apply State.orBad_kept
    | with_reducible apply State.queueCfg_kept | with_reducible apply State.cmdDoorbell_kept | with_reducible apply State.cplDoorbell_kept
    | with_reducible apply State.writeFields_kept | exact Sub.any hm (by decide) | with_reducible refine Kept.ofSome (by assumption) ?_ | split

theorem State.rmeWrite_kept {m : Nat} (hm : Sub 0xA38A5FFFFF m) {s0 : State} {s : State} {r : Req} {a : Nat} {f : Fn} {v : Nat} {fs : List (Row × Fld × Bool)} (hs : Kept m s0 s) :
    Kept m s0 (State.rmeWrite s r a f v fs) := by
  unfold State.rmeWrite
  repeat' first
    | with_reducible assumption | (refine Sub.of hm ?_; decide)
    | (lift_lets; intro x; with_reducible refine (fun (hx : Kept m s0 x) => ?_) ?_; clear_value x) | (lift_lets; intro x) | with_reducible apply Kept.ite
    | with_reducible apply State.bad_kept | with_reducible apply State.atomicStart_kept | with_reducible apply State.writeFields_kept
    | with_reducible apply State.rmeGo_kept | exact Sub.any hm (by decide) | split | (clear_value *; split) | (dsimp +zetaDelta only; split)
    | (intro x; with_reducible refine (fun (hx : Kept m s0 x) => ?_) ?_; clear_value x) | intro x

theorem State.pfWrite_kept {m : Nat} (hm : Sub 0x7FFFFFFFFFF m) {s0 : State} {s : State} {r : Req} {a : Nat} {v : Nat} {fs : List (Row × Fld × Bool)} (hs : Kept m s0 s) :
    Kept m s0 (State.pfWrite s r a v fs) := by
  unfold State.pfWrite
  repeat' first
    | with_reducible assumption | (refine Sub.of hm ?_; decide)
    | (lift_lets; intro x; with_reducible refine (fun (hx : Kept m s0 x) => ?_) ?_; clear_value x) | (lift_lets; intro x) | with_reducible apply Kept.ite
    | with_reducible apply Kept.iteFst | with_reducible apply Kept.iteSnd | with_reducible apply State.orBad_kept | with_reducible apply State.bad_kept
    | with_reducible apply State.tamperPolWrite_kept | with_reducible apply State.autoCompact_kept | with_reducible apply State.unfenceWrite_kept
    | with_reducible apply State.cpmCtrl_kept | with_reducible apply State.jnlAbort_kept | with_reducible apply State.shutCtrlWritten_kept
    | with_reducible apply State.timeCtrlWritten_kept | with_reducible apply State.takeoverWritten_kept | with_reducible apply State.railInject_kept
    | with_reducible apply State.trainWritten_kept | with_reducible apply State.twnCfg_kept | with_reducible apply State.fenceSet_kept
    | with_reducible apply State.dbgFreezeWrite_kept | with_reducible apply State.searchStart_kept | with_reducible apply State.wr_kept
    | with_reducible apply State.rmeWrite_kept | with_reducible apply State.free_kept | with_reducible apply State.extInvalid_kept
    | with_reducible apply State.lnkCfgWrite_kept | with_reducible apply State.jnlFlush_kept | with_reducible apply State.abortWrite_kept
    | with_reducible apply State.clearLog_kept | with_reducible apply State.evalLaser_kept | with_reducible apply State.replayStart_kept
    | with_reducible apply State.targetWritten_kept | with_reducible apply State.unfence_kept | with_reducible apply State.polWrite_kept
    | with_reducible apply State.ackRecord_kept | with_reducible apply State.lenWritten_kept | with_reducible apply State.queWrite_kept
    | with_reducible apply State.abortSearch_kept | with_reducible apply State.switchoverWritten_kept | with_reducible apply State.writeFields_kept
    | with_reducible apply State.chipReset_kept | with_reducible apply State.keyrangeWrite_kept | exact Sub.any hm (by decide)
    | with_reducible refine Kept.ofSome (by assumption) ?_ | with_reducible refine Kept.ofFst (by assumption) ?_
    | with_reducible refine Kept.ofSnd (by assumption) ?_ | split | (clear_value *; split) | (dsimp +zetaDelta only; split)
    | (intro x; with_reducible refine (fun (hx : Kept m s0 x) => ?_) ?_; clear_value x) | intro x

theorem State.vfWrite_kept {m : Nat} (hm : Sub 0xA38A5FFFFF m) {s0 : State} {s : State} {r : Req} {a : Nat} {v : Nat} {fs : List (Row × Fld × Bool)} (hs : Kept m s0 s) :
    Kept m s0 (State.vfWrite s r a v fs) := by
  unfold State.vfWrite
  repeat' first
    | with_reducible assumption | (refine Sub.of hm ?_; decide) | with_reducible apply State.rmeWrite_kept | with_reducible apply State.queWrite_kept
    | with_reducible apply State.writeFields_kept | exact Sub.any hm (by decide) | split

theorem State.commitPair_kept {m : Nat} (hm : Sub 0x8000EFFFFF m) {s0 : State} {s : State} {r : Req} {a : Nat} {v : Nat} {x : Row × Fld × Bool} (hs : Kept m s0 s) :
    Kept m s0 (State.commitPair s r a v x) := by
  unfold State.commitPair
  repeat' first
    | with_reducible assumption | (refine Sub.of hm ?_; decide)
    | (lift_lets; intro x; with_reducible refine (fun (hx : Kept m s0 x) => ?_) ?_; clear_value x) | (lift_lets; intro x) | with_reducible apply Kept.ite
    | with_reducible apply Kept.iteFst | with_reducible apply Kept.iteSnd | with_reducible apply State.orBad_kept
    | with_reducible apply State.cursorWritten_kept | with_reducible apply State.queueCfg_kept | with_reducible apply State.wr_kept
    | with_reducible apply State.timeSet_kept
    | (refine Sub.queue 3 hm ?_ (by decide); simp +zetaDelta only [Fld.key, qBase, pageBase, F.CPLQ_BASE_BASE, F.CMDQ_BASE_BASE]; split_ifs <;> omega)
    | (refine Sub.upper hm ?_ (by decide); simp +zetaDelta only [Fld.key, qBase, pageBase, F.CPLQ_BASE_BASE, F.CMDQ_BASE_BASE]; split_ifs <;> omega)
    | (refine Sub.upper hm ?_ (by decide); simp only [Fld.key, pageBase, F.VF_EVR_CURSOR]; omega) | exact Sub.any hm (by decide)
    | with_reducible refine Kept.ofSome (by assumption) ?_ | split | (clear_value *; split) | (dsimp +zetaDelta only; split)
    | (intro x; with_reducible refine (fun (hx : Kept m s0 x) => ?_) ?_; clear_value x) | intro x

theorem State.pairWrite_kept {m : Nat} (hm : Sub 0x8000EFFFFF m) {s0 : State} {s : State} {r : Req} {a : Nat} {v : Nat} {x : Row × Fld × Bool} (hs : Kept m s0 s) :
    Kept m s0 (State.pairWrite s r a v x) := by
  unfold State.pairWrite
  repeat' first
    | with_reducible assumption | (refine Sub.of hm ?_; decide)
    | (lift_lets; intro x; with_reducible refine (fun (hx : Kept m s0 x) => ?_) ?_; clear_value x) | (lift_lets; intro x) | with_reducible apply Kept.ite
    | with_reducible apply Kept.iteFst | with_reducible apply Kept.iteSnd | with_reducible apply State.commitPair_kept
    | with_reducible apply State.setReq_kept | exact Sub.any hm (by decide) | split | (clear_value *; split) | (dsimp +zetaDelta only; split)
    | (intro x; with_reducible refine (fun (hx : Kept m s0 x) => ?_) ?_; clear_value x) | intro x

theorem State.winWrite_kept {m : Nat} (hm : Sub 0x401CCF0001 m) {s0 : State} {s : State} {r : Req} {a : Nat} {v : Nat} (hs : Kept m s0 s) :
    Kept m s0 (State.winWrite s r a v) := by
  unfold State.winWrite
  repeat' first
    | with_reducible assumption | (refine Sub.of hm ?_; decide)
    | (lift_lets; intro x; with_reducible refine (fun (hx : Kept m s0 x) => ?_) ?_; clear_value x) | (lift_lets; intro x) | with_reducible apply Kept.ite
    | with_reducible apply Kept.iteFst | with_reducible apply State.bad_kept | with_reducible apply State.setWin_kept
    | with_reducible apply State.rsvd_kept | with_reducible apply State.winStage_kept | with_reducible apply State.unimpl_kept
    | with_reducible apply State.winSelect_kept | split | (clear_value *; split) | (dsimp +zetaDelta only; split)
    | (intro x; with_reducible refine (fun (hx : Kept m s0 x) => ?_) ?_; clear_value x) | intro x

theorem State.writeWord_kept {m : Nat} (hm : Sub 0x7FFFFFFFFFF m) {s0 : State} {s : State} {r : Req} {a : Nat} {v : Nat} (hs : Kept m s0 s) :
    Kept m s0 (State.writeWord s r a v) := by
  unfold State.writeWord
  repeat' first
    | with_reducible assumption | (refine Sub.of hm ?_; decide)
    | (lift_lets; intro x; with_reducible refine (fun (hx : Kept m s0 x) => ?_) ?_; clear_value x) | (lift_lets; intro x) | with_reducible apply Kept.ite
    | with_reducible apply Kept.iteFst | with_reducible apply Kept.iteSnd | with_reducible apply State.bad_kept
    | with_reducible apply State.headWrite_kept | with_reducible apply State.pfWrite_kept | with_reducible apply State.rsvd_kept
    | with_reducible apply State.unimpl_kept | with_reducible apply State.pairWrite_kept | with_reducible apply State.vfWrite_kept
    | with_reducible apply State.winWrite_kept | with_reducible apply State.busErr_kept | exact Sub.any hm (by decide) | split | (clear_value *; split)
    | (dsimp +zetaDelta only; split) | (intro x; with_reducible refine (fun (hx : Kept m s0 x) => ?_) ?_; clear_value x) | intro x

theorem State.busWrite_kept {m : Nat} (hm : Sub 0x7FFFFFFFFFF m) {s0 : State} {s : State} {r : Req} {a : Nat} {v : Nat} (hs : Kept m s0 s) :
    Kept m s0 (State.busWrite s r a v) := by
  unfold State.busWrite
  repeat' first
    | with_reducible assumption | (refine Sub.of hm ?_; decide) | with_reducible apply Kept.ite | with_reducible apply State.writeWord_kept
    | exact Sub.any hm (by decide)

theorem State.busWrite8_kept {m : Nat} (hm : Sub 0x7FFFFFFFFFF m) {s0 : State} {s : State} {r : Req} {a : Nat} {v : Nat} (hs : Kept m s0 s) :
    Kept m s0 (State.busWrite8 s r a v) := by
  unfold State.busWrite8
  repeat' first
    | with_reducible assumption | (refine Sub.of hm ?_; decide) | with_reducible apply State.busWrite_kept | exact Sub.any hm (by decide)

theorem State.busRead_kept {m : Nat} (hm : Sub 0x400CFFFFF m) {s0 : State} {s : State} {r : Req} {a : Nat} (hs : Kept m s0 s) :
    Kept m s0 (State.busRead s r a) := by
  unfold State.busRead
  repeat' first
    | with_reducible assumption | (refine Sub.of hm ?_; decide) | with_reducible apply Kept.ite | with_reducible apply State.readOut_kept
    | exact Sub.any hm (by decide)

theorem State.writeAccess_kept {m : Nat} (hm : Sub 0x7FFFFFFFFFF m) {s0 : State} {s : State} {r : Req} {x : Access} (hs : Kept m s0 s) :
    Kept m s0 (State.writeAccess s r x) := by
  unfold State.writeAccess
  repeat' first
    | with_reducible assumption | (refine Sub.of hm ?_; decide)
    | (lift_lets; intro x; with_reducible refine (fun (hx : Kept m s0 x) => ?_) ?_; clear_value x) | (lift_lets; intro x) | with_reducible apply Kept.ite
    | with_reducible apply State.writeWord_kept | with_reducible apply State.busErr_kept | exact Sub.any hm (by decide)
    | (with_reducible refine Kept.foldl ?_ ?_; intro a x hx) | (intro x; with_reducible refine (fun (hx : Kept m s0 x) => ?_) ?_; clear_value x)
    | intro x

theorem State.readAccess_kept {m : Nat} (hm : Sub 0x400CFFFFF m) {s0 : State} {s : State} {r : Req} {x : Access} (hs : Kept m s0 s) :
    Kept m s0 (State.readAccess s r x) := by
  unfold State.readAccess
  repeat' first
    | with_reducible assumption | (refine Sub.of hm ?_; decide)
    | (lift_lets; intro x; with_reducible refine (fun (hx : Kept m s0 x) => ?_) ?_; clear_value x) | (lift_lets; intro x) | with_reducible apply Kept.ite
    | with_reducible apply State.busErr_kept | with_reducible apply State.busRead_kept | exact Sub.any hm (by decide)
    | (with_reducible refine Kept.foldl ?_ ?_; intro a x hx) | (intro x; with_reducible refine (fun (hx : Kept m s0 x) => ?_) ?_; clear_value x)
    | intro x

theorem execRegWrite_kept {m : Nat} (hm : Sub 0x7FFFFFFFFFF m) {s0 : State} {r : Req} {a : Access} {s : State} (hs : Kept m s0 s) :
    KeptOut m s0 (execRegWrite r a s) := by
  unfold execRegWrite
  repeat' first
    | with_reducible assumption | (refine Sub.of hm ?_; decide) | with_reducible apply KeptOut.next | with_reducible apply State.writeAccess_kept
    | exact Sub.any hm (by decide)

theorem execAccessErrorRead_kept {m : Nat} (hm : Sub 0x400CFFFFF m) {s0 : State} {r : Req} {a : Access} {s : State} (hs : Kept m s0 s) :
    KeptOut m s0 (execAccessErrorRead r a s) := by
  unfold execAccessErrorRead
  repeat' first
    | with_reducible assumption | (refine Sub.of hm ?_; decide) | with_reducible apply KeptOut.next | with_reducible apply State.readAccess_kept
    | exact Sub.any hm (by decide)

theorem execRcTakingRead_kept {m : Nat} (hm : Sub 0x400CFFFFF m) {s0 : State} {r : Req} {addr : BitVec 20} {s : State} (hs : Kept m s0 s) :
    KeptOut m s0 (execRcTakingRead r addr s) := by
  unfold execRcTakingRead
  repeat' first
    | with_reducible assumption | (refine Sub.of hm ?_; decide) | with_reducible apply KeptOut.next | with_reducible apply State.busRead_kept
    | exact Sub.any hm (by decide)

theorem execPairLoRead_kept {m : Nat} (hm : Sub 0x400CFFFFF m) {s0 : State} {r : Req} {addr : BitVec 20} {s : State} (hs : Kept m s0 s) :
    KeptOut m s0 (execPairLoRead r addr s) := by
  unfold execPairLoRead
  repeat' first
    | with_reducible assumption | (refine Sub.of hm ?_; decide) | with_reducible apply KeptOut.next | with_reducible apply State.busRead_kept
    | exact Sub.any hm (by decide)

theorem execPairHiWrite_kept {m : Nat} (hm : Sub 0x7FFFFFFFFFF m) {s0 : State} {r : Req} {addr : BitVec 20} {v : Word} {s : State} (hs : Kept m s0 s) :
    KeptOut m s0 (execPairHiWrite r addr v s) := by
  unfold execPairHiWrite
  repeat' first
    | with_reducible assumption | (refine Sub.of hm ?_; decide) | with_reducible apply KeptOut.next | with_reducible apply State.busWrite_kept
    | exact Sub.any hm (by decide)

theorem execPageLock_kept {m : Nat} (hm : Sub 0x7FFFFFFFFFF m) {s0 : State} {r : Req} {pg : PageIx} {v : Word} {s : State} (hs : Kept m s0 s) :
    KeptOut m s0 (execPageLock r pg v s) := by
  unfold execPageLock
  repeat' first
    | with_reducible assumption | (refine Sub.of hm ?_; decide) | with_reducible apply KeptOut.next | with_reducible apply State.busWrite_kept
    | exact Sub.any hm (by decide)

theorem execLockTimerExpire_kept {m : Nat} (hm : Sub 0x1050000 m) {s0 : State} {pg : PageIx} {s : State} (hs : Kept m s0 s) :
    KeptOut m s0 (execLockTimerExpire pg s) := by
  unfold execLockTimerExpire
  repeat' first
    | with_reducible assumption | (refine Sub.of hm ?_; decide)
    | (lift_lets; intro x; with_reducible refine (fun (hx : Kept m s0 x) => ?_) ?_; clear_value x) | (lift_lets; intro x)
    | with_reducible apply KeptOut.next | with_reducible apply KeptOut.ite | with_reducible apply Kept.ite | with_reducible apply Kept.iteFst
    | with_reducible apply State.abandonLock_kept | (intro x; with_reducible refine (fun (hx : Kept m s0 x) => ?_) ?_; clear_value x) | intro x

theorem execSoftRst_kept {m : Nat} (hm : Sub 0x7FFFFFFFFFF m) {s0 : State} {r : Req} {pg : PageIx} {s : State} (hs : Kept m s0 s) :
    KeptOut m s0 (execSoftRst r pg s) := by
  unfold execSoftRst
  repeat' first
    | with_reducible assumption | (refine Sub.of hm ?_; decide) | with_reducible apply KeptOut.next | with_reducible apply State.busWrite_kept
    | exact Sub.any hm (by decide)

theorem execIntForce_kept {m : Nat} (hm : Sub 0x7FFFFFFFFFF m) {s0 : State} {r : Req} {pg : PageIx} {v : Word} {s : State} (hs : Kept m s0 s) :
    KeptOut m s0 (execIntForce r pg v s) := by
  unfold execIntForce
  repeat' first
    | with_reducible assumption | (refine Sub.of hm ?_; decide) | with_reducible apply KeptOut.next | with_reducible apply State.busWrite_kept
    | exact Sub.any hm (by decide)

theorem execPageFreeze_kept {m : Nat} (hm : Sub 0x7FFFFFFFFFF m) {s0 : State} {r : Req} {pg : PageIx} {on : Bool} {s : State} (hs : Kept m s0 s) :
    KeptOut m s0 (execPageFreeze r pg on s) := by
  unfold execPageFreeze
  repeat' first
    | with_reducible assumption | (refine Sub.of hm ?_; decide) | with_reducible apply KeptOut.next | with_reducible apply State.busWrite_kept
    | exact Sub.any hm (by decide)

theorem execPageEnableWrite_kept {m : Nat} (hm : Sub 0x7FFFFFFFFFF m) {s0 : State} {r : Req} {pg : PageIx} {on : Bool} {s : State} (hs : Kept m s0 s) :
    KeptOut m s0 (execPageEnableWrite r pg on s) := by
  unfold execPageEnableWrite
  repeat' first
    | with_reducible assumption | (refine Sub.of hm ?_; decide) | with_reducible apply KeptOut.next | with_reducible apply State.busWrite_kept
    | exact Sub.any hm (by decide)

theorem execTableWindowWrite_kept {m : Nat} (hm : Sub 0x7FFFFFFFFFF m) {s0 : State} {r : Req} {win : Fin 5} {word : Fin 512} {v : Word} {s : State} (hs : Kept m s0 s) :
    KeptOut m s0 (execTableWindowWrite r win word v s) := by
  unfold execTableWindowWrite
  repeat' first
    | with_reducible assumption | (refine Sub.of hm ?_; decide) | with_reducible apply KeptOut.next | with_reducible apply State.busWrite_kept
    | exact Sub.any hm (by decide)

theorem execTableWindowRead_kept {m : Nat} (hm : Sub 0x400CFFFFF m) {s0 : State} {r : Req} {win : Fin 5} {word : Fin 512} {s : State} (hs : Kept m s0 s) :
    KeptOut m s0 (execTableWindowRead r win word s) := by
  unfold execTableWindowRead
  repeat' first
    | with_reducible assumption | (refine Sub.of hm ?_; decide) | with_reducible apply KeptOut.next | with_reducible apply State.busRead_kept
    | exact Sub.any hm (by decide)

theorem execCommandDoorbell_kept {m : Nat} (hm : Sub 0x7FFFFFFFFFF m) {s0 : State} {f : Fn} {v : Word} {s : State} (hs : Kept m s0 s) :
    KeptOut m s0 (execCommandDoorbell f v s) := by
  unfold execCommandDoorbell
  repeat' first
    | with_reducible assumption | (refine Sub.of hm ?_; decide) | with_reducible apply KeptOut.next | with_reducible apply State.busWrite_kept
    | exact Sub.any hm (by decide)

theorem execCompletionDoorbell_kept {m : Nat} (hm : Sub 0x7FFFFFFFFFF m) {s0 : State} {f : Fn} {v : Word} {s : State} (hs : Kept m s0 s) :
    KeptOut m s0 (execCompletionDoorbell f v s) := by
  unfold execCompletionDoorbell
  repeat' first
    | with_reducible assumption | (refine Sub.of hm ?_; decide) | with_reducible apply KeptOut.next | with_reducible apply State.busWrite_kept
    | exact Sub.any hm (by decide)

theorem execQueueConfigWrite_kept {m : Nat} (hm : Sub 0x7FFFFFFFFFF m) {s0 : State} {f : Fn} {q : QReg} {v : DWord} {s : State} (hs : Kept m s0 s) :
    KeptOut m s0 (execQueueConfigWrite f q v s) := by
  unfold execQueueConfigWrite
  repeat' first
    | with_reducible assumption | (refine Sub.of hm ?_; decide)
    | (lift_lets; intro x; with_reducible refine (fun (hx : Kept m s0 x) => ?_) ?_; clear_value x) | (lift_lets; intro x)
    | with_reducible apply KeptOut.next | with_reducible apply State.busWrite_kept | with_reducible apply State.busWrite8_kept
    | exact Sub.any hm (by decide) | split | (clear_value *; split) | (dsimp +zetaDelta only; split)
    | (intro x; with_reducible refine (fun (hx : Kept m s0 x) => ?_) ?_; clear_value x) | intro x

theorem execQCtrlWrite_kept {m : Nat} (hm : Sub 0x7FFFFFFFFFF m) {s0 : State} {f : Fn} {v : Word} {s : State} (hs : Kept m s0 s) :
    KeptOut m s0 (execQCtrlWrite f v s) := by
  unfold execQCtrlWrite
  repeat' first
    | with_reducible assumption | (refine Sub.of hm ?_; decide) | with_reducible apply KeptOut.next | with_reducible apply State.busWrite_kept
    | exact Sub.any hm (by decide)

theorem execShutterRequest_kept {m : Nat} (hm : Sub 0x7FFFFFFFFFF m) {s0 : State} {r : Req} {p : Port} {v : Word} {s : State} (hs : Kept m s0 s) :
    KeptOut m s0 (execShutterRequest r p v s) := by
  unfold execShutterRequest
  repeat' first
    | with_reducible assumption | (refine Sub.of hm ?_; decide) | with_reducible apply KeptOut.next | with_reducible apply State.busWrite_kept
    | exact Sub.any hm (by decide)

theorem execWakeTx_kept {m : Nat} (hm : Sub 0x7FFFFFFFFFF m) {s0 : State} {r : Req} {p : Port} {s : State} (hs : Kept m s0 s) :
    KeptOut m s0 (execWakeTx r p s) := by
  unfold execWakeTx
  repeat' first
    | with_reducible assumption | (refine Sub.of hm ?_; decide) | with_reducible apply KeptOut.next | with_reducible apply State.busWrite_kept
    | exact Sub.any hm (by decide)

theorem execSearchStart_kept {m : Nat} (hm : Sub 0x7FFFFFFFFFF m) {s0 : State} {r : Req} {v : Word} {s : State} (hs : Kept m s0 s) :
    KeptOut m s0 (execSearchStart r v s) := by
  unfold execSearchStart
  repeat' first
    | with_reducible assumption | (refine Sub.of hm ?_; decide) | with_reducible apply KeptOut.next | with_reducible apply State.busWrite_kept
    | exact Sub.any hm (by decide)

theorem execSearchAbort_kept {m : Nat} (hm : Sub 0x7FFFFFFFFFF m) {s0 : State} {r : Req} {s : State} (hs : Kept m s0 s) :
    KeptOut m s0 (execSearchAbort r s) := by
  unfold execSearchAbort
  repeat' first
    | with_reducible assumption | (refine Sub.of hm ?_; decide) | with_reducible apply KeptOut.next | with_reducible apply State.busWrite_kept
    | exact Sub.any hm (by decide)

theorem execCsqAbort_kept {m : Nat} (hm : Sub 0x7FFFFFFFFFF m) {s0 : State} {r : Req} {v : Word} {s : State} (hs : Kept m s0 s) :
    KeptOut m s0 (execCsqAbort r v s) := by
  unfold execCsqAbort
  repeat' first
    | with_reducible assumption | (refine Sub.of hm ?_; decide) | with_reducible apply KeptOut.next | with_reducible apply State.busWrite_kept
    | exact Sub.any hm (by decide)

theorem execTwnCfgWrite_kept {m : Nat} (hm : Sub 0x7FFFFFFFFFF m) {s0 : State} {r : Req} {v : Word} {s : State} (hs : Kept m s0 s) :
    KeptOut m s0 (execTwnCfgWrite r v s) := by
  unfold execTwnCfgWrite
  repeat' first
    | with_reducible assumption | (refine Sub.of hm ?_; decide) | with_reducible apply KeptOut.next | with_reducible apply State.busWrite_kept
    | exact Sub.any hm (by decide)

theorem execSwitchover_kept {m : Nat} (hm : Sub 0x7FFFFFFFFFF m) {s0 : State} {r : Req} {s : State} (hs : Kept m s0 s) :
    KeptOut m s0 (execSwitchover r s) := by
  unfold execSwitchover
  repeat' first
    | with_reducible assumption | (refine Sub.of hm ?_; decide) | with_reducible apply KeptOut.next | with_reducible apply State.busWrite_kept
    | exact Sub.any hm (by decide)

theorem execTakeover_kept {m : Nat} (hm : Sub 0x7FFFFFFFFFF m) {s0 : State} {r : Req} {s : State} (hs : Kept m s0 s) :
    KeptOut m s0 (execTakeover r s) := by
  unfold execTakeover
  repeat' first
    | with_reducible assumption | (refine Sub.of hm ?_; decide) | with_reducible apply KeptOut.next | with_reducible apply State.busWrite_kept
    | exact Sub.any hm (by decide)

theorem execReplay_kept {m : Nat} (hm : Sub 0x7FFFFFFFFFF m) {s0 : State} {r : Req} {s : State} (hs : Kept m s0 s) :
    KeptOut m s0 (execReplay r s) := by
  unfold execReplay
  repeat' first
    | with_reducible assumption | (refine Sub.of hm ?_; decide) | with_reducible apply KeptOut.next | with_reducible apply State.busWrite_kept
    | exact Sub.any hm (by decide)

theorem execJnlAbort_kept {m : Nat} (hm : Sub 0x7FFFFFFFFFF m) {s0 : State} {r : Req} {s : State} (hs : Kept m s0 s) :
    KeptOut m s0 (execJnlAbort r s) := by
  unfold execJnlAbort
  repeat' first
    | with_reducible assumption | (refine Sub.of hm ?_; decide) | with_reducible apply KeptOut.next | with_reducible apply State.busWrite_kept
    | exact Sub.any hm (by decide)

theorem execBypass_kept {m : Nat} (hm : Sub 0x7FFFFFFFFFF m) {s0 : State} {r : Req} {v : Word} {s : State} (hs : Kept m s0 s) :
    KeptOut m s0 (execBypass r v s) := by
  unfold execBypass
  repeat' first
    | with_reducible assumption | (refine Sub.of hm ?_; decide) | with_reducible apply KeptOut.next | with_reducible apply State.busWrite_kept
    | exact Sub.any hm (by decide)

theorem execAtomicGo_kept {m : Nat} (hm : Sub 0x7FFFFFFFFFF m) {s0 : State} {r : Req} {n : Fin 8} {s : State} (hs : Kept m s0 s) :
    KeptOut m s0 (execAtomicGo r n s) := by
  unfold execAtomicGo
  repeat' first
    | with_reducible assumption | (refine Sub.of hm ?_; decide)
    | (lift_lets; intro x; with_reducible refine (fun (hx : Kept m s0 x) => ?_) ?_; clear_value x) | (lift_lets; intro x)
    | with_reducible apply KeptOut.next | with_reducible apply KeptOut.ite | with_reducible apply Kept.ite | with_reducible apply State.busWrite_kept
    | exact Sub.any hm (by decide) | (intro x; with_reducible refine (fun (hx : Kept m s0 x) => ?_) ?_; clear_value x) | intro x

theorem execMssTrain_kept {m : Nat} (hm : Sub 0x7FFFFFFFFFF m) {s0 : State} {r : Req} {s : State} (hs : Kept m s0 s) :
    KeptOut m s0 (execMssTrain r s) := by
  unfold execMssTrain
  repeat' first
    | with_reducible assumption | (refine Sub.of hm ?_; decide) | with_reducible apply KeptOut.next | with_reducible apply State.busWrite_kept
    | exact Sub.any hm (by decide)

theorem execUnfence_kept {m : Nat} (hm : Sub 0x7FFFFFFFFFF m) {s0 : State} {r : Req} {s : State} (hs : Kept m s0 s) :
    KeptOut m s0 (execUnfence r s) := by
  unfold execUnfence
  repeat' first
    | with_reducible assumption | (refine Sub.of hm ?_; decide) | with_reducible apply KeptOut.next | with_reducible apply State.busWrite_kept
    | exact Sub.any hm (by decide)

theorem execSecKeyrangeWrite_kept {m : Nat} (hm : Sub 0x7FFFFFFFFFF m) {s0 : State} {r : Req} {n : Fn} {v : Word} {s : State} (hs : Kept m s0 s) :
    KeptOut m s0 (execSecKeyrangeWrite r n v s) := by
  unfold execSecKeyrangeWrite
  repeat' first
    | with_reducible assumption | (refine Sub.of hm ?_; decide) | with_reducible apply KeptOut.next | with_reducible apply KeptOut.ite
    | with_reducible apply Kept.ite | with_reducible apply State.busWrite_kept | exact Sub.any hm (by decide)

theorem execFcuRecordAck_kept {m : Nat} (hm : Sub 0x7FFFFFFFFFF m) {s0 : State} {r : Req} {src : SrcIx} {s : State} (hs : Kept m s0 s) :
    KeptOut m s0 (execFcuRecordAck r src s) := by
  unfold execFcuRecordAck
  repeat' first
    | with_reducible assumption | (refine Sub.of hm ?_; decide) | with_reducible apply KeptOut.next | with_reducible apply State.busWrite_kept
    | exact Sub.any hm (by decide)

theorem execFcuFenceSet_kept {m : Nat} (hm : Sub 0x7FFFFFFFFFF m) {s0 : State} {r : Req} {v : Word} {s : State} (hs : Kept m s0 s) :
    KeptOut m s0 (execFcuFenceSet r v s) := by
  unfold execFcuFenceSet
  repeat' first
    | with_reducible assumption | (refine Sub.of hm ?_; decide) | with_reducible apply KeptOut.next | with_reducible apply State.busWrite_kept
    | exact Sub.any hm (by decide)

theorem execFcuUnfence_kept {m : Nat} (hm : Sub 0x7FFFFFFFFFF m) {s0 : State} {r : Req} {v : Word} {s : State} (hs : Kept m s0 s) :
    KeptOut m s0 (execFcuUnfence r v s) := by
  unfold execFcuUnfence
  repeat' first
    | with_reducible assumption | (refine Sub.of hm ?_; decide) | with_reducible apply KeptOut.next | with_reducible apply State.busWrite_kept
    | exact Sub.any hm (by decide)

theorem execFcuRailInj_kept {m : Nat} (hm : Sub 0x7FFFFFFFFFF m) {s0 : State} {r : Req} {v : Word} {s : State} (hs : Kept m s0 s) :
    KeptOut m s0 (execFcuRailInj r v s) := by
  unfold execFcuRailInj
  repeat' first
    | with_reducible assumption | (refine Sub.of hm ?_; decide) | with_reducible apply KeptOut.next | with_reducible apply State.busWrite_kept
    | exact Sub.any hm (by decide)

theorem execErrInject_kept {m : Nat} (hm : Sub 0x7FFFFFFFFFF m) {s0 : State} {r : Req} {pg : PageIx} {v : Word} {s : State} (hs : Kept m s0 s) :
    KeptOut m s0 (execErrInject r pg v s) := by
  unfold execErrInject
  repeat' first
    | with_reducible assumption | (refine Sub.of hm ?_; decide) | with_reducible apply KeptOut.next | with_reducible apply State.busWrite_kept
    | exact Sub.any hm (by decide)

theorem execFcuPriorAck_kept {m : Nat} (hm : Sub 0x7FFFFFFFFFF m) {s0 : State} {r : Req} {s : State} (hs : Kept m s0 s) :
    KeptOut m s0 (execFcuPriorAck r s) := by
  unfold execFcuPriorAck
  repeat' first
    | with_reducible assumption | (refine Sub.of hm ?_; decide) | with_reducible apply KeptOut.next | with_reducible apply State.busWrite_kept
    | exact Sub.any hm (by decide)

theorem execClear_kept {m : Nat} (hm : Sub 0x7FFFFFFFFFF m) {s0 : State} {r : Req} {s : State} (hs : Kept m s0 s) :
    KeptOut m s0 (execClear r s) := by
  unfold execClear
  repeat' first
    | with_reducible assumption | (refine Sub.of hm ?_; decide) | with_reducible apply KeptOut.next | with_reducible apply State.busWrite_kept
    | exact Sub.any hm (by decide)

theorem execEvrWinStatusRead_kept {m : Nat} (hm : Sub 0x400CFFFFF m) {s0 : State} {r : Req} {s : State} (hs : Kept m s0 s) :
    KeptOut m s0 (execEvrWinStatusRead r s) := by
  unfold execEvrWinStatusRead
  repeat' first
    | with_reducible assumption | (refine Sub.of hm ?_; decide) | with_reducible apply KeptOut.next | with_reducible apply State.busRead_kept
    | exact Sub.any hm (by decide)

theorem execEvrCursorWrite_kept {m : Nat} (hm : Sub 0x7FFFFFFFFFF m) {s0 : State} {r : Req} {v : BitVec 48} {s : State} (hs : Kept m s0 s) :
    KeptOut m s0 (execEvrCursorWrite r v s) := by
  unfold execEvrCursorWrite
  repeat' first
    | with_reducible assumption | (refine Sub.of hm ?_; decide) | with_reducible apply KeptOut.next | with_reducible apply KeptOut.ite
    | with_reducible apply Kept.ite | with_reducible apply State.busWrite8_kept | exact Sub.any hm (by decide)

theorem execStaLenWrite_kept {m : Nat} (hm : Sub 0x7FFFFFFFFFF m) {s0 : State} {r : Req} {v : Word} {s : State} (hs : Kept m s0 s) :
    KeptOut m s0 (execStaLenWrite r v s) := by
  unfold execStaLenWrite
  repeat' first
    | with_reducible assumption | (refine Sub.of hm ?_; decide) | with_reducible apply KeptOut.next | with_reducible apply State.busWrite_kept
    | exact Sub.any hm (by decide)

theorem execExtCfgWrite_kept {m : Nat} (hm : Sub 0x7FFFFFFFFFF m) {s0 : State} {r : Req} {n : Fin 4} {word : Fin 3} {v : Word} {s : State} (hs : Kept m s0 s) :
    KeptOut m s0 (execExtCfgWrite r n word v s) := by
  unfold execExtCfgWrite
  repeat' first
    | with_reducible assumption | (refine Sub.of hm ?_; decide) | with_reducible apply KeptOut.next | with_reducible apply State.busWrite_kept
    | exact Sub.any hm (by decide)

theorem execOpTargetWrite_kept {m : Nat} (hm : Sub 0x7FFFFFFFFFF m) {s0 : State} {r : Req} {v : Word} {s : State} (hs : Kept m s0 s) :
    KeptOut m s0 (execOpTargetWrite r v s) := by
  unfold execOpTargetWrite
  repeat' first
    | with_reducible assumption | (refine Sub.of hm ?_; decide) | with_reducible apply KeptOut.next | with_reducible apply State.busWrite_kept
    | exact Sub.any hm (by decide)

theorem execRefclkConfirm_kept {m : Nat} (hm : Sub 0xEB5E6F86BA m) {s0 : State} {r : Req} {ticks : Nat} {inverted : Bool} {s : State} (hs : Kept m s0 s) :
    KeptOut m s0 (execRefclkConfirm r ticks inverted s) := by
  unfold execRefclkConfirm
  repeat' first
    | with_reducible assumption | (refine Sub.of hm ?_; decide) | with_reducible apply KeptOut.next | with_reducible apply KeptOut.ite
    | with_reducible apply Kept.ite | with_reducible apply State.cpmCtrl_kept

theorem execPadRelease_kept {m : Nat} (hm : Sub 0x7FFFFFFFFFF m) {s0 : State} {r : Req} {s : State} (hs : Kept m s0 s) :
    KeptOut m s0 (execPadRelease r s) := by
  unfold execPadRelease
  repeat' first
    | with_reducible assumption | (refine Sub.of hm ?_; decide) | with_reducible apply KeptOut.next | with_reducible apply State.busWrite_kept
    | exact Sub.any hm (by decide)

theorem execEstClear_kept {m : Nat} (hm : Sub 0x7FFFFFFFFFF m) {s0 : State} {r : Req} {s : State} (hs : Kept m s0 s) :
    KeptOut m s0 (execEstClear r s) := by
  unfold execEstClear
  repeat' first
    | with_reducible assumption | (refine Sub.of hm ?_; decide) | with_reducible apply KeptOut.next | with_reducible apply State.busWrite_kept
    | exact Sub.any hm (by decide)

theorem execCpmTimeSet_kept {m : Nat} (hm : Sub 0x7FFFFFFFFFF m) {s0 : State} {r : Req} {v : DWord} {s : State} (hs : Kept m s0 s) :
    KeptOut m s0 (execCpmTimeSet r v s) := by
  unfold execCpmTimeSet
  repeat' first
    | with_reducible assumption | (refine Sub.of hm ?_; decide) | with_reducible apply KeptOut.next | with_reducible apply State.busWrite8_kept
    | exact Sub.any hm (by decide)

theorem execSoftwareReset_kept {m : Nat} (hm : Sub 0x7FFFFFFFFFF m) {s0 : State} {r : Req} {v : Word} {s : State} (hs : Kept m s0 s) :
    KeptOut m s0 (execSoftwareReset r v s) := by
  unfold execSoftwareReset
  repeat' first
    | with_reducible assumption | (refine Sub.of hm ?_; decide) | with_reducible apply KeptOut.next | with_reducible apply State.busWrite_kept
    | exact Sub.any hm (by decide)

theorem execRelock_kept {m : Nat} (hm : Sub 0x7FFFFFFFFFF m) {s0 : State} {r : Req} {s : State} (hs : Kept m s0 s) :
    KeptOut m s0 (execRelock r s) := by
  unfold execRelock
  repeat' first
    | with_reducible assumption | (refine Sub.of hm ?_; decide) | with_reducible apply KeptOut.next | with_reducible apply State.busWrite_kept
    | exact Sub.any hm (by decide)

theorem execDbgFreezeAll_kept {m : Nat} (hm : Sub 0x7FFFFFFFFFF m) {s0 : State} {r : Req} {on : Bool} {s : State} (hs : Kept m s0 s) :
    KeptOut m s0 (execDbgFreezeAll r on s) := by
  unfold execDbgFreezeAll
  repeat' first
    | with_reducible assumption | (refine Sub.of hm ?_; decide) | with_reducible apply KeptOut.next | with_reducible apply State.busWrite_kept
    | exact Sub.any hm (by decide)

theorem execForceFreeze_kept {m : Nat} (hm : Sub 0x7FFFFFFFFFF m) {s0 : State} {r : Req} {s : State} (hs : Kept m s0 s) :
    KeptOut m s0 (execForceFreeze r s) := by
  unfold execForceFreeze
  repeat' first
    | with_reducible assumption | (refine Sub.of hm ?_; decide) | with_reducible apply KeptOut.next | with_reducible apply State.busWrite_kept
    | exact Sub.any hm (by decide)

end Sys2Proof.Machine
end

