-- ==== Sys2Proof/Laws/KeptBoot.lean ====
section
/-! SUPPORT. What every operation of Machine/Boot.lean keeps, and which parts of the state it may change. -/

set_option linter.unusedTactic false
set_option linter.unreachableTactic false
set_option linter.unusedVariables false
set_option linter.unusedSimpArgs false

namespace Sys2Proof.Machine

theorem State.powerOn_kept {m : Nat} (hm : Sub 0x7FFFFFFFFFF m) {s0 s : State} {inRange : Bool} (hs : Kept m s0 s) :
    Kept m s0 (State.powerOn s inRange) := by
  refine State.wrs_kept (fun _ _ => Sub.any hm (by decide)) ?_
  exact Kept.whole hm (State.tearProgram_kept (hm.of (by decide)) hs) rfl rfl rfl (fun _ => rfl) (fun _ => rfl)

theorem execPowerOnReset_kept {m : Nat} (hm : Sub 0x7FFFFFFFFFF m) {s0 : State} {inRange : Bool} {s : State} (hs : Kept m s0 s) :
    KeptOut m s0 (execPowerOnReset inRange s) := by
  unfold execPowerOnReset
  repeat' first
    | with_reducible assumption | (refine Sub.of hm ?_; decide) | with_reducible apply KeptOut.next | with_reducible apply State.powerOn_kept
    | exact Sub.any hm (by decide)

theorem execPerst_kept {m : Nat} (hm : Sub 0x7FFFFFFFFFF m) {s0 : State} {s : State} (hs : Kept m s0 s) :
    KeptOut m s0 (execPerst s) := by
  unfold execPerst
  repeat' first
    | with_reducible assumption | (refine Sub.of hm ?_; decide)
    | (lift_lets; intro x; with_reducible refine (fun (hx : Kept m s0 x) => ?_) ?_; clear_value x) | (lift_lets; intro x)
    | with_reducible apply KeptOut.next | with_reducible apply KeptOut.ite | with_reducible apply Kept.ite | with_reducible apply State.chipReset_kept
    | exact Sub.any hm (by decide) | with_reducible exact Kept.updBoot (by assumption) (hm.of (by decide))
    | (intro x; with_reducible refine (fun (hx : Kept m s0 x) => ?_) ?_; clear_value x) | intro x
    | with_reducible refine Kept.updBoot ?_ (hm.of (by decide))

theorem execPerstRelease_kept {m : Nat} (hm : Sub 0x20000000002 m) {s0 : State} {s : State} (hs : Kept m s0 s) :
    KeptOut m s0 (execPerstRelease s) := by
  unfold execPerstRelease
  repeat' first
    | with_reducible assumption | (refine Sub.of hm ?_; decide)
    | (lift_lets; intro x; with_reducible refine (fun (hx : Kept m s0 x) => ?_) ?_; clear_value x) | (lift_lets; intro x)
    | with_reducible apply KeptOut.next | with_reducible apply KeptOut.ite | with_reducible apply Kept.ite | with_reducible apply State.wr_kept
    | with_reducible exact Kept.updBoot (by assumption) (hm.of (by decide))
    | (intro x; with_reducible refine (fun (hx : Kept m s0 x) => ?_) ?_; clear_value x) | intro x
    | with_reducible refine Kept.updBoot ?_ (hm.of (by decide))

theorem execPorDone_kept {m : Nat} (hm : Sub 0x3 m) {s0 : State} {straps : BitVec 3} {s : State} (hs : Kept m s0 s) :
    KeptOut m s0 (execPorDone straps s) := by
  unfold execPorDone
  repeat' first
    | with_reducible assumption | (refine Sub.of hm ?_; decide) | with_reducible apply KeptOut.next | with_reducible apply KeptOut.ite
    | with_reducible apply Kept.ite | with_reducible apply State.wrs_nil_kept | with_reducible apply State.wrs_cons_kept
    | with_reducible apply State.wrs_ite_kept | with_reducible apply State.wr_kept

theorem execStartupSupplyDone_kept {m : Nat} (hm : Sub 0x2000180002 m) {s0 : State} {exp : Option (BitVec 5)} {ok : Bool} {s : State} (hs : Kept m s0 s) :
    KeptOut m s0 (execStartupSupplyDone exp ok s) := by
  unfold execStartupSupplyDone
  repeat' first
    | with_reducible assumption | (refine Sub.of hm ?_; decide)
    | (lift_lets; intro x; with_reducible refine (fun (hx : Kept m s0 x) => ?_) ?_; clear_value x) | (lift_lets; intro x)
    | with_reducible apply KeptOut.next | with_reducible apply KeptOut.ite | with_reducible apply Kept.ite | with_reducible apply State.supplyMissed_kept
    | with_reducible apply State.voutRead_kept | with_reducible apply State.supplyNext_kept | with_reducible apply State.wrs_nil_kept
    | with_reducible apply State.wrs_cons_kept | with_reducible apply State.wrs_ite_kept | with_reducible apply State.send_kept
    | with_reducible apply State.wr_kept | split | (clear_value *; split) | (dsimp +zetaDelta only; split)
    | (intro x; with_reducible refine (fun (hx : Kept m s0 x) => ?_) ?_; clear_value x) | intro x

theorem execFuseDone_kept {m : Nat} (hm : Sub 0x7FFFFFFFFFF m) {s0 : State} {ok : Bool} {s : State} (hs : Kept m s0 s) :
    KeptOut m s0 (execFuseDone ok s) := by
  unfold execFuseDone
  repeat' first
    | with_reducible assumption | (refine Sub.of hm ?_; decide)
    | (lift_lets; intro x; with_reducible refine (fun (hx : Kept m s0 x) => ?_) ?_; clear_value x) | (lift_lets; intro x)
    | with_reducible apply KeptOut.next | with_reducible apply KeptOut.ite | with_reducible apply Kept.ite | with_reducible apply State.fault_kept
    | with_reducible apply State.supplyReport_kept | with_reducible apply State.sample_kept | with_reducible apply State.wr_kept
    | with_reducible apply State.setDom_kept | exact Sub.any hm (by decide) | with_reducible exact Kept.updSec (by assumption) (hm.of (by decide))
    | (intro x; with_reducible refine (fun (hx : Kept m s0 x) => ?_) ?_; clear_value x) | intro x
    | with_reducible refine Kept.updSec ?_ (hm.of (by decide))

theorem execClockDone_kept {m : Nat} (hm : Sub 0x2 m) {s0 : State} {inverted : Bool} {s : State} (hs : Kept m s0 s) :
    KeptOut m s0 (execClockDone inverted s) := by
  unfold execClockDone
  repeat' first
    | with_reducible assumption | (refine Sub.of hm ?_; decide) | with_reducible apply KeptOut.next | with_reducible apply KeptOut.ite
    | with_reducible apply Kept.ite | with_reducible apply State.wr_kept | with_reducible apply State.rootLocks_kept

theorem execDomainsDone_kept {m : Nat} (hm : Sub 0xEA1E4F80BA m) {s0 : State} {s : State} (hs : Kept m s0 s) :
    KeptOut m s0 (execDomainsDone s) := by
  unfold execDomainsDone
  repeat' first
    | with_reducible assumption | (refine Sub.of hm ?_; decide) | with_reducible refine fun (s : State) (h : Kept m s0 s) => ?_
    | (lift_lets; intro x; with_reducible refine (fun (hx : Kept m s0 x) => ?_) ?_; clear_value x) | (lift_lets; intro x)
    | with_reducible apply KeptOut.next | with_reducible apply KeptOut.ite | with_reducible apply Kept.ite | with_reducible apply State.evalLaser_kept
    | with_reducible apply State.withShutters_kept | with_reducible apply State.wrs_nil_kept | with_reducible apply State.wrs_cons_kept
    | with_reducible apply State.wrs_ite_kept | with_reducible apply State.wr_kept
    | (intro x; with_reducible refine (fun (hx : Kept m s0 x) => ?_) ?_; clear_value x) | intro x

theorem execLinkDone_kept {m : Nat} (hm : Sub 0x20024D000E m) {s0 : State} {l : LinkParams} {s : State} (hs : Kept m s0 s) :
    KeptOut m s0 (execLinkDone l s) := by
  unfold execLinkDone
  repeat' first
    | with_reducible assumption | (refine Sub.of hm ?_; decide) | with_reducible apply KeptOut.next | with_reducible apply KeptOut.ite
    | with_reducible apply Kept.ite | with_reducible apply State.linkUp_kept | with_reducible apply State.wr_kept

end Sys2Proof.Machine
end

