-- ==== Sys2Proof/Laws/KeptDbg.lean ====
section
/-! SUPPORT. What every operation of Machine/Dbg.lean keeps, and which parts of the state it may change. -/

set_option linter.unusedTactic false
set_option linter.unreachableTactic false
set_option linter.unusedVariables false
set_option linter.unusedSimpArgs false

namespace Sys2Proof.Machine

theorem State.setDbg_kept {m : Nat} (hm : Sub 0x40000000000 m) {s0 : State} {s : State} {d : DbgState} (hs : Kept m s0 s) :
    Kept m s0 (State.setDbg s d) := by
  unfold State.setDbg
  repeat' first
    | with_reducible assumption | (refine Sub.of hm ?_; decide) | with_reducible exact Kept.updDbg (by assumption) (hm.of (by decide))
    | with_reducible refine Kept.updDbg ?_ (hm.of (by decide))

theorem State.tap_kept {m : Nat} (hm : Sub 0x0 m) {s0 : State} {s : State} {g : State → State} (hgg : ∀ (x0 : State), Kept m s0 x0 → Kept m s0 (g x0)) (hs : Kept m s0 s) :
    Kept m s0 (State.tap s g) := by
  unfold State.tap
  repeat' first
    | with_reducible assumption | (refine Sub.of hm ?_; decide) | with_reducible apply Kept.ite | with_reducible apply hgg

theorem State.tapIr_kept {m : Nat} (hm : Sub 0x40004000010 m) {s0 : State} {s : State} {ir : Nat} (hs : Kept m s0 s) :
    Kept m s0 (State.tapIr s ir) := by
  unfold State.tapIr
  repeat' first
    | with_reducible assumption | (refine Sub.of hm ?_; decide) | with_reducible apply State.setDbg_kept | with_reducible apply State.evalLaser_kept

theorem execIdcode_kept {m : Nat} (hm : Sub 0x40004080010 m) {s0 : State} {s : State} (hs : Kept m s0 s) :
    KeptOut m s0 (execIdcode s) := by
  unfold execIdcode
  repeat' first
    | with_reducible assumption | (refine Sub.of hm ?_; decide) | with_reducible refine fun (s : State) (h : Kept m s0 s) => ?_
    | (lift_lets; intro x; with_reducible refine (fun (hx : Kept m s0 x) => ?_) ?_; clear_value x) | (lift_lets; intro x)
    | with_reducible apply KeptOut.next | with_reducible apply State.tapIr_kept | with_reducible apply State.tap_kept
    | with_reducible apply State.send_kept | (intro x; with_reducible refine (fun (hx : Kept m s0 x) => ?_) ?_; clear_value x) | intro x

theorem execExtest_kept {m : Nat} (hm : Sub 0x40004180010 m) {s0 : State} {s : State} (hs : Kept m s0 s) :
    KeptOut m s0 (execExtest s) := by
  unfold execExtest
  repeat' first
    | with_reducible assumption | (refine Sub.of hm ?_; decide) | with_reducible refine fun (s : State) (h : Kept m s0 s) => ?_
    | (lift_lets; intro x; with_reducible refine (fun (hx : Kept m s0 x) => ?_) ?_; clear_value x) | (lift_lets; intro x)
    | with_reducible apply KeptOut.next | with_reducible apply State.tapIr_kept | with_reducible apply State.tap_kept
    | with_reducible apply State.free_kept | with_reducible apply State.send_kept | with_reducible refine Kept.ofSnd (by assumption) ?_
    | (intro x; with_reducible refine (fun (hx : Kept m s0 x) => ?_) ?_; clear_value x) | intro x

theorem execSamplePreload_kept {m : Nat} (hm : Sub 0x40004180010 m) {s0 : State} {v : BitVec 64} {s : State} (hs : Kept m s0 s) :
    KeptOut m s0 (execSamplePreload v s) := by
  unfold execSamplePreload
  repeat' first
    | with_reducible assumption | (refine Sub.of hm ?_; decide) | with_reducible refine fun (s : State) (h : Kept m s0 s) => ?_
    | (lift_lets; intro x; with_reducible refine (fun (hx : Kept m s0 x) => ?_) ?_; clear_value x) | (lift_lets; intro x)
    | with_reducible apply KeptOut.next | with_reducible apply State.tapIr_kept | with_reducible apply State.setDbg_kept
    | with_reducible apply State.tap_kept | with_reducible apply State.free_kept | with_reducible apply State.send_kept
    | with_reducible refine Kept.ofSnd (by assumption) ?_ | (intro x; with_reducible refine (fun (hx : Kept m s0 x) => ?_) ?_; clear_value x) | intro x

theorem execBypassInstruction_kept {m : Nat} (hm : Sub 0x40004000010 m) {s0 : State} {code : BitVec 6} {s : State} (hs : Kept m s0 s) :
    KeptOut m s0 (execBypassInstruction code s) := by
  unfold execBypassInstruction
  repeat' first
    | with_reducible assumption | (refine Sub.of hm ?_; decide) | with_reducible refine fun (s : State) (h : Kept m s0 s) => ?_
    | (lift_lets; intro x; with_reducible refine (fun (hx : Kept m s0 x) => ?_) ?_; clear_value x) | (lift_lets; intro x)
    | with_reducible apply KeptOut.next | with_reducible apply KeptOut.ite | with_reducible apply Kept.ite | with_reducible apply State.tapIr_kept
    | with_reducible apply State.tap_kept | (intro x; with_reducible refine (fun (hx : Kept m s0 x) => ?_) ?_; clear_value x) | intro x

theorem execTestLogicReset_kept {m : Nat} (hm : Sub 0x40004000010 m) {s0 : State} {s : State} (hs : Kept m s0 s) :
    KeptOut m s0 (execTestLogicReset s) := by
  unfold execTestLogicReset
  repeat' first
    | with_reducible assumption | (refine Sub.of hm ?_; decide) | with_reducible refine fun (s : State) (h : Kept m s0 s) => ?_
    | (lift_lets; intro x; with_reducible refine (fun (hx : Kept m s0 x) => ?_) ?_; clear_value x) | (lift_lets; intro x)
    | with_reducible apply KeptOut.next | with_reducible apply State.tapIr_kept | with_reducible apply State.tap_kept
    | (intro x; with_reducible refine (fun (hx : Kept m s0 x) => ?_) ?_; clear_value x) | intro x

theorem execDbgChal_kept {m : Nat} (hm : Sub 0x40004180010 m) {s0 : State} {s : State} (hs : Kept m s0 s) :
    KeptOut m s0 (execDbgChal s) := by
  unfold execDbgChal
  repeat' first
    | with_reducible assumption | (refine Sub.of hm ?_; decide) | with_reducible refine fun (s : State) (h : Kept m s0 s) => ?_
    | (lift_lets; intro x; with_reducible refine (fun (hx : Kept m s0 x) => ?_) ?_; clear_value x) | (lift_lets; intro x)
    | with_reducible apply KeptOut.next | with_reducible apply KeptOut.ite | with_reducible apply Kept.ite | with_reducible apply Kept.iteFst
    | with_reducible apply Kept.iteSnd | with_reducible apply State.tapIr_kept | with_reducible apply State.setDbg_kept
    | with_reducible apply State.tap_kept | with_reducible apply State.free_kept | with_reducible apply State.send_kept
    | with_reducible refine Kept.ofSnd (by assumption) ?_ | (intro x; with_reducible refine (fun (hx : Kept m s0 x) => ?_) ?_; clear_value x) | intro x

theorem State.unlockFails_kept {m : Nat} (hm : Sub 0xE2124DA008 m) {s0 : State} {s : State} (hs : Kept m s0 s) :
    Kept m s0 (State.unlockFails s) := by
  unfold State.unlockFails
  repeat' first
    | with_reducible assumption | (refine Sub.of hm ?_; decide)
    | (lift_lets; intro x; with_reducible refine (fun (hx : Kept m s0 x) => ?_) ?_; clear_value x) | (lift_lets; intro x) | with_reducible apply Kept.ite
    | with_reducible apply State.wr_kept | with_reducible apply State.cause0_kept | with_reducible apply State.tamper_kept
    | with_reducible apply State.inc_kept | (intro x; with_reducible refine (fun (hx : Kept m s0 x) => ?_) ?_; clear_value x) | intro x

theorem execDbgResp_kept {m : Nat} (hm : Sub 0x4E2164DA018 m) {s0 : State} {v : BitVec 128} {s : State} (hs : Kept m s0 s) :
    KeptOut m s0 (execDbgResp v s) := by
  unfold execDbgResp
  repeat' first
    | with_reducible assumption | (refine Sub.of hm ?_; decide) | with_reducible refine fun (s : State) (h : Kept m s0 s) => ?_
    | (lift_lets; intro x; with_reducible refine (fun (hx : Kept m s0 x) => ?_) ?_; clear_value x) | (lift_lets; intro x)
    | with_reducible apply KeptOut.next | with_reducible apply KeptOut.ite | with_reducible apply Kept.ite | with_reducible apply State.tapIr_kept
    | with_reducible apply State.setDbg_kept | with_reducible apply State.tap_kept | with_reducible apply State.wr_kept
    | with_reducible apply State.unlockFails_kept | with_reducible apply State.cause0_kept
    | (intro x; with_reducible refine (fun (hx : Kept m s0 x) => ?_) ?_; clear_value x) | intro x

theorem execDbgChalExpire_kept {m : Nat} (hm : Sub 0x40000000000 m) {s0 : State} {s : State} (hs : Kept m s0 s) :
    KeptOut m s0 (execDbgChalExpire s) := by
  unfold execDbgChalExpire
  repeat' first
    | with_reducible assumption | (refine Sub.of hm ?_; decide) | with_reducible apply KeptOut.next | with_reducible apply State.setDbg_kept

theorem execHoldoffEnd_kept {m : Nat} (hm : Sub 0x40000 m) {s0 : State} {s : State} (hs : Kept m s0 s) :
    KeptOut m s0 (execHoldoffEnd s) := by
  unfold execHoldoffEnd
  repeat' first
    | with_reducible assumption | (refine Sub.of hm ?_; decide) | with_reducible apply KeptOut.next | with_reducible apply State.wr_kept

theorem State.tapCapture_kept {m : Nat} (hm : Sub 0x40004080010 m) {s0 : State} {s : State} (hs : Kept m s0 s) :
    Kept m s0 (State.tapCapture s) := by
  unfold State.tapCapture
  repeat' first
    | with_reducible assumption | (refine Sub.of hm ?_; decide) | with_reducible apply State.tapIr_kept | with_reducible apply State.send_kept

theorem State.tapResult_kept {m : Nat} (hm : Sub 0x40000000000 m) {s0 : State} {s : State} {data : Word} {stat : Nat} (hs : Kept m s0 s) :
    Kept m s0 (State.tapResult s data stat) := by
  unfold State.tapResult
  repeat' first
    | with_reducible assumption | (refine Sub.of hm ?_; decide) | with_reducible apply State.setDbg_kept

theorem State.tapRead_kept {m : Nat} (hm : Sub 0x40404CFFFFF m) {s0 : State} {s : State} {addr : BitVec 18} {take : Bool} (hs : Kept m s0 s) :
    Kept m s0 (State.tapRead s addr take) := by
  unfold State.tapRead
  repeat' first
    | with_reducible assumption | (refine Sub.of hm ?_; decide)
    | (lift_lets; intro x; with_reducible refine (fun (hx : Kept m s0 x) => ?_) ?_; clear_value x) | (lift_lets; intro x) | with_reducible apply Kept.ite
    | with_reducible apply Kept.iteFst | with_reducible apply Kept.iteSnd | with_reducible apply State.tapResult_kept
    | with_reducible apply State.tapCapture_kept | with_reducible apply State.readWord_kept | exact Sub.any hm (by decide)
    | with_reducible refine Kept.ofSnd (by assumption) ?_ | (intro x; with_reducible refine (fun (hx : Kept m s0 x) => ?_) ?_; clear_value x) | intro x

theorem execDbgNop_kept {m : Nat} (hm : Sub 0x40004080010 m) {s0 : State} {s : State} (hs : Kept m s0 s) :
    KeptOut m s0 (execDbgNop s) := by
  unfold execDbgNop
  repeat' first
    | with_reducible assumption | (refine Sub.of hm ?_; decide) | with_reducible refine fun (s : State) (h : Kept m s0 s) => ?_
    | with_reducible apply KeptOut.next | with_reducible apply State.tap_kept | with_reducible apply State.tapCapture_kept

theorem execDbgRead_kept {m : Nat} (hm : Sub 0x40404CFFFFF m) {s0 : State} {addr : BitVec 18} {s : State} (hs : Kept m s0 s) :
    KeptOut m s0 (execDbgRead addr s) := by
  unfold execDbgRead
  repeat' first
    | with_reducible assumption | (refine Sub.of hm ?_; decide) | with_reducible refine fun (s : State) (h : Kept m s0 s) => ?_
    | (lift_lets; intro x; with_reducible refine (fun (hx : Kept m s0 x) => ?_) ?_; clear_value x) | (lift_lets; intro x)
    | with_reducible apply KeptOut.next | with_reducible apply State.tap_kept | with_reducible apply State.tapRead_kept | exact Sub.any hm (by decide)
    | (intro x; with_reducible refine (fun (hx : Kept m s0 x) => ?_) ?_; clear_value x) | intro x

theorem execDbgTake_kept {m : Nat} (hm : Sub 0x40404CFFFFF m) {s0 : State} {addr : BitVec 18} {s : State} (hs : Kept m s0 s) :
    KeptOut m s0 (execDbgTake addr s) := by
  unfold execDbgTake
  repeat' first
    | with_reducible assumption | (refine Sub.of hm ?_; decide) | with_reducible refine fun (s : State) (h : Kept m s0 s) => ?_
    | (lift_lets; intro x; with_reducible refine (fun (hx : Kept m s0 x) => ?_) ?_; clear_value x) | (lift_lets; intro x)
    | with_reducible apply KeptOut.next | with_reducible apply State.tap_kept | with_reducible apply State.tapRead_kept | exact Sub.any hm (by decide)
    | (intro x; with_reducible refine (fun (hx : Kept m s0 x) => ?_) ?_; clear_value x) | intro x

theorem execDbgWrite_kept {m : Nat} (hm : Sub 0x7FFFFFFFFFF m) {s0 : State} {addr : BitVec 18} {v : Word} {s : State} (hs : Kept m s0 s) :
    KeptOut m s0 (execDbgWrite addr v s) := by
  unfold execDbgWrite
  repeat' first
    | with_reducible assumption | (refine Sub.of hm ?_; decide) | with_reducible refine fun (s : State) (h : Kept m s0 s) => ?_
    | (lift_lets; intro x; with_reducible refine (fun (hx : Kept m s0 x) => ?_) ?_; clear_value x) | (lift_lets; intro x)
    | with_reducible apply KeptOut.next | with_reducible apply KeptOut.ite | with_reducible apply Kept.ite | with_reducible apply State.writeWord_kept
    | with_reducible apply State.tapResult_kept | with_reducible apply State.tap_kept | with_reducible apply State.tapCapture_kept
    | exact Sub.any hm (by decide) | (intro x; with_reducible refine (fun (hx : Kept m s0 x) => ?_) ?_; clear_value x) | intro x

end Sys2Proof.Machine
end

