-- ==== Sys2Proof/Laws/PerInstr.lean ====
section
/-! SUPPORT. Statements for all commands, one lemma per constructor. Touches: the list of parts that a command may change names each part at
most once. -/

namespace Sys2Proof.Laws.Touches

open Sys2Proof.Machine

set_option Elab.async false

/-- The parts that the command may change are listed once each. -/
def Statement (i : Instr) : Prop := (touches i).Nodup

theorem nodup1 : List.Nodup (α := Part)
    ([.page 3, .upper, .outputs, .host, .queues, .partCounters]) := by
  decide +kernel

theorem nodup2 : List.Nodup (α := Part)
    ([.page 1, .page 3, .page 9, .headers, .upper, .outputs, .freeValues, .host, .queues, .rings, .circuits, .twin, .journal,
      .faults, .partCounters, .power]) := by
  decide +kernel

theorem nodup3 : List.Nodup (α := Part)
    ([.page 3, .page 7, .headers, .ports, .upper, .outputs, .host, .queues, .rings, .links, .circuits, .faults, .partCounters]) := by
  decide +kernel

theorem nodup4 : List.Nodup (α := Part)
    ([.page 3, .page 7, .upper, .outputs, .host, .queues, .circuits, .partCounters]) := by
  decide +kernel

theorem nodup5 : List.Nodup (α := Part)
    ([.page 3, .page 11, .headers, .upper, .outputs, .freeValues, .host, .queues, .links, .memory, .stackState, .remoteOps,
      .faults, .partCounters]) := by
  decide +kernel

theorem nodup6 : List.Nodup (α := Part)
    ([.page 3, .upper, .outputs, .host, .queues, .reductions, .partCounters]) := by
  decide +kernel

theorem nodup7 : List.Nodup (α := Part)
    ([.page 3, .upper, .outputs, .host, .queues, .sums, .partCounters]) := by
  decide +kernel

theorem nodup8 : List.Nodup (α := Part)
    ([.page 3, .page 7, .page 9, .headers, .ports, .upper, .outputs, .freeValues, .host, .queues, .rings, .links, .circuits,
      .twin, .journal, .remoteOps, .keys, .faults, .partCounters]) := by
  decide +kernel

theorem nodup9 : List.Nodup (α := Part)
    ([.page 3, .upper, .outputs, .host, .queues, .rings, .partCounters]) := by
  decide +kernel

theorem nodup10 : List.Nodup (α := Part)
    ([.page 3, .page 9, .upper, .outputs, .host, .queues, .journal, .partCounters]) := by
  decide +kernel

theorem nodup11 : List.Nodup (α := Part)
    (Part.all) := by
  decide +kernel

theorem nodup12 : List.Nodup (α := Part)
    ([.outputs, .host, .queues]) := by
  decide +kernel

theorem nodup13 : List.Nodup (α := Part)
    ([.page 3, .headers, .upper, .outputs, .host, .queues, .faults, .partCounters]) := by
  decide +kernel

theorem nodup14 : List.Nodup (α := Part)
    (Part.allBut [.freeValues, .time, .locks, .links, .circuits, .twin, .journal, .memory, .stackState, .keys, .events, .power,
      .boot, .debug]) := by
  decide +kernel

theorem nodup15 : List.Nodup (α := Part)
    (Part.allBut [.time, .locks, .circuits, .twin, .journal, .keys, .events, .power, .boot, .debug]) := by
  decide +kernel

theorem nodup16 : List.Nodup (α := Part)
    ([.page 2, .page 3, .headers, .upper, .outputs, .host, .queues, .faults]) := by
  decide +kernel

theorem nodup17 : List.Nodup (α := Part)
    ([.page 2, .outputs]) := by
  decide +kernel

theorem nodup18 : List.Nodup (α := Part)
    (Part.allBut [.freeValues, .time, .locks, .queues, .rings, .links, .circuits, .twin, .journal, .memory, .stackState,
      .remoteOps, .sums, .keys, .faults, .events, .partCounters, .power, .boot, .debug]) := by
  decide +kernel

theorem nodup19 : List.Nodup (α := Part)
    ([.headers, .upper, .locks]) := by
  decide +kernel

theorem nodup20 : List.Nodup (α := Part)
    ([.headers, .upper]) := by
  decide +kernel

theorem nodup21 : List.Nodup (α := Part)
    ([.page 3, .page 4, .page 5, .page 7, .page 15, .headers, .ports, .upper, .outputs, .host, .queues, .rings, .links, .circuits,
      .remoteOps, .sums, .faults, .events, .partCounters]) := by
  decide +kernel

theorem nodup22 : List.Nodup (α := Part)
    ([.page 4, .headers, .upper, .outputs, .host, .rings, .faults]) := by
  decide +kernel

theorem nodup23 : List.Nodup (α := Part)
    ([.page 4, .headers, .upper, .rings, .faults]) := by
  decide +kernel

theorem nodup24 : List.Nodup (α := Part)
    ([.page 4, .rings]) := by
  decide +kernel

theorem nodup25 : List.Nodup (α := Part)
    ([.page 3, .page 5, .page 7, .page 15, .headers, .ports, .upper, .outputs, .host, .queues, .rings, .links, .circuits,
      .remoteOps, .sums, .faults, .events, .partCounters]) := by
  decide +kernel

theorem nodup26 : List.Nodup (α := Part)
    ([.ports]) := by
  decide +kernel

theorem nodup27 : List.Nodup (α := Part)
    (Part.allBut [.page 0, .page 2, .page 6, .page 8, .page 9, .page 11, .page 12, .page 13, .page 14, .freeValues, .time,
      .requesters, .locks, .twin, .journal, .memory, .reductions, .keys, .boot, .debug]) := by
  decide +kernel

theorem nodup28 : List.Nodup (α := Part)
    ([.page 5, .rings]) := by
  decide +kernel

theorem nodup29 : List.Nodup (α := Part)
    ([.page 5, .freeValues, .rings]) := by
  decide +kernel

theorem nodup30 : List.Nodup (α := Part)
    ([.page 3, .page 4, .page 5, .page 7, .page 15, .headers, .ports, .upper, .outputs, .freeValues, .host, .queues, .rings,
      .links, .circuits, .remoteOps, .sums, .faults, .events, .partCounters]) := by
  decide +kernel

theorem nodup31 : List.Nodup (α := Part)
    ([.page 3, .page 5, .page 7, .page 9, .headers, .ports, .upper, .outputs, .freeValues, .host, .queues, .rings, .links,
      .circuits, .twin, .journal, .remoteOps, .sums, .faults, .partCounters]) := by
  decide +kernel

theorem nodup32 : List.Nodup (α := Part)
    ([.page 3, .page 5, .upper, .outputs, .host, .queues, .rings, .partCounters]) := by
  decide +kernel

theorem nodup33 : List.Nodup (α := Part)
    ([.rings]) := by
  decide +kernel

theorem nodup34 : List.Nodup (α := Part)
    ([.page 3, .page 5, .page 15, .headers, .upper, .outputs, .host, .queues, .rings, .events, .partCounters]) := by
  decide +kernel

theorem nodup35 : List.Nodup (α := Part)
    ([.page 3, .page 5, .page 9, .headers, .upper, .outputs, .freeValues, .host, .queues, .rings, .twin, .journal, .faults,
      .partCounters]) := by
  decide +kernel

theorem nodup36 : List.Nodup (α := Part)
    ([.page 3, .ports, .upper, .outputs, .host, .queues, .rings, .links, .partCounters]) := by
  decide +kernel

theorem nodup37 : List.Nodup (α := Part)
    ([.page 3, .page 7, .headers, .ports, .upper, .outputs, .host, .queues, .rings, .links, .circuits, .remoteOps, .faults,
      .partCounters]) := by
  decide +kernel

theorem nodup38 : List.Nodup (α := Part)
    ([.page 3, .page 7, .headers, .ports, .upper, .outputs, .host, .queues, .rings, .links, .circuits, .remoteOps, .keys, .faults,
      .partCounters]) := by
  decide +kernel

theorem nodup39 : List.Nodup (α := Part)
    ([.outputs, .freeValues, .links]) := by
  decide +kernel

theorem nodup40 : List.Nodup (α := Part)
    ([.upper, .outputs, .links, .remoteOps, .keys, .partCounters]) := by
  decide +kernel

theorem nodup41 : List.Nodup (α := Part)
    ([.links]) := by
  decide +kernel

theorem nodup42 : List.Nodup (α := Part)
    ([.ports, .outputs, .links]) := by
  decide +kernel

theorem nodup43 : List.Nodup (α := Part)
    ([.outputs, .links]) := by
  decide +kernel

theorem nodup44 : List.Nodup (α := Part)
    ([.page 1, .page 6, .headers, .upper, .outputs, .freeValues, .time, .host, .links, .partCounters]) := by
  decide +kernel

theorem nodup45 : List.Nodup (α := Part)
    ([.page 1, .page 6, .headers, .upper, .outputs, .time, .host, .links]) := by
  decide +kernel

theorem nodup46 : List.Nodup (α := Part)
    ([.page 3, .page 4, .page 7, .headers, .ports, .upper, .outputs, .host, .queues, .rings, .links, .circuits, .faults,
      .partCounters]) := by
  decide +kernel

theorem nodup47 : List.Nodup (α := Part)
    ([.page 3, .page 7, .headers, .ports, .upper, .outputs, .time, .host, .queues, .rings, .links, .circuits, .faults,
      .partCounters]) := by
  decide +kernel

theorem nodup48 : List.Nodup (α := Part)
    ([.page 3, .page 7, .page 9, .page 15, .headers, .ports, .upper, .outputs, .freeValues, .host, .queues, .rings, .links,
      .circuits, .twin, .journal, .faults, .events, .partCounters]) := by
  decide +kernel

theorem nodup49 : List.Nodup (α := Part)
    ([.page 8, .headers, .upper, .outputs, .host, .twin, .faults]) := by
  decide +kernel

theorem nodup50 : List.Nodup (α := Part)
    ([.page 8, .headers, .upper, .outputs, .host, .links, .twin, .faults]) := by
  decide +kernel

theorem nodup51 : List.Nodup (α := Part)
    ([.page 8, .page 9, .headers, .upper, .outputs, .freeValues, .host, .links, .twin, .journal, .faults]) := by
  decide +kernel

theorem nodup52 : List.Nodup (α := Part)
    ([.page 8, .headers, .upper, .outputs, .freeValues, .host, .links, .twin, .faults]) := by
  decide +kernel

theorem nodup53 : List.Nodup (α := Part)
    ([.page 8, .page 9, .page 13, .headers, .upper, .outputs, .freeValues, .host, .circuits, .twin, .journal, .keys, .faults]) := by
  decide +kernel

theorem nodup54 : List.Nodup (α := Part)
    ([.page 9, .outputs, .journal]) := by
  decide +kernel

theorem nodup55 : List.Nodup (α := Part)
    ([.page 3, .page 7, .page 9, .page 15, .headers, .upper, .outputs, .freeValues, .host, .queues, .circuits, .twin, .journal,
      .faults, .events, .partCounters]) := by
  decide +kernel

theorem nodup56 : List.Nodup (α := Part)
    ([.page 3, .page 7, .page 9, .headers, .upper, .outputs, .freeValues, .host, .queues, .circuits, .journal, .faults,
      .partCounters]) := by
  decide +kernel

theorem nodup57 : List.Nodup (α := Part)
    ([.page 3, .page 7, .page 9, .headers, .upper, .outputs, .host, .queues, .circuits, .twin, .journal, .faults, .partCounters]) := by
  decide +kernel

theorem nodup58 : List.Nodup (α := Part)
    ([.page 3, .page 7, .page 8, .page 9, .page 15, .headers, .upper, .outputs, .host, .queues, .rings, .circuits, .twin,
      .journal, .keys, .faults, .events, .partCounters]) := by
  decide +kernel

theorem nodup59 : List.Nodup (α := Part)
    ([.page 3, .page 11, .headers, .upper, .outputs, .freeValues, .host, .links, .memory, .stackState, .remoteOps, .faults,
      .partCounters]) := by
  decide +kernel

theorem nodup60 : List.Nodup (α := Part)
    ([.links, .memory, .stackState]) := by
  decide +kernel

theorem nodup61 : List.Nodup (α := Part)
    ([.remoteOps]) := by
  decide +kernel

theorem nodup62 : List.Nodup (α := Part)
    ([.page 10, .headers, .upper, .outputs, .host, .memory, .stackState, .faults]) := by
  decide +kernel

theorem nodup63 : List.Nodup (α := Part)
    ([.page 10, .headers, .upper, .outputs, .host, .stackState, .faults]) := by
  decide +kernel

theorem nodup64 : List.Nodup (α := Part)
    ([.page 3, .page 12, .headers, .upper, .outputs, .host, .queues, .links, .memory, .stackState, .reductions, .partCounters]) := by
  decide +kernel

theorem nodup65 : List.Nodup (α := Part)
    ([.page 3, .page 12, .upper, .outputs, .host, .queues, .links, .memory, .stackState, .reductions, .partCounters]) := by
  decide +kernel

theorem nodup66 : List.Nodup (α := Part)
    ([.page 12, .headers, .upper, .outputs, .host, .links, .memory, .stackState, .reductions]) := by
  decide +kernel

theorem nodup67 : List.Nodup (α := Part)
    ([.page 12, .headers, .upper, .outputs, .host, .reductions, .faults]) := by
  decide +kernel

theorem nodup68 : List.Nodup (α := Part)
    ([.upper, .rings]) := by
  decide +kernel

theorem nodup69 : List.Nodup (α := Part)
    ([.upper, .sums]) := by
  decide +kernel

theorem nodup70 : List.Nodup (α := Part)
    ([.page 3, .headers, .upper, .outputs, .time, .host, .queues, .rings, .sums, .faults, .partCounters]) := by
  decide +kernel

theorem nodup71 : List.Nodup (α := Part)
    ([.page 3, .headers, .upper, .outputs, .host, .queues, .rings, .memory, .stackState, .sums, .faults, .partCounters]) := by
  decide +kernel

theorem nodup72 : List.Nodup (α := Part)
    ([.upper, .outputs, .time, .memory, .stackState, .sums]) := by
  decide +kernel

theorem nodup73 : List.Nodup (α := Part)
    ([.upper, .outputs]) := by
  decide +kernel

theorem nodup74 : List.Nodup (α := Part)
    ([.page 3, .upper, .outputs, .host, .queues, .memory, .stackState, .sums, .partCounters]) := by
  decide +kernel

theorem nodup75 : List.Nodup (α := Part)
    ([.sums]) := by
  decide +kernel

theorem nodup76 : List.Nodup (α := Part)
    ([.page 3, .headers, .upper, .outputs, .host, .queues, .rings, .sums, .faults, .partCounters]) := by
  decide +kernel

theorem nodup77 : List.Nodup (α := Part)
    ([.headers, .upper, .outputs, .host, .rings, .sums]) := by
  decide +kernel

theorem nodup78 : List.Nodup (α := Part)
    ([.page 3, .page 13, .page 15, .headers, .upper, .outputs, .host, .queues, .circuits, .remoteOps, .faults, .events,
      .partCounters, .power]) := by
  decide +kernel

theorem nodup79 : List.Nodup (α := Part)
    ([.page 2, .page 3, .page 7, .page 13, .headers, .ports, .upper, .outputs, .host, .queues, .rings, .links, .circuits,
      .remoteOps, .keys, .faults, .partCounters]) := by
  decide +kernel

theorem nodup80 : List.Nodup (α := Part)
    ([.faults]) := by
  decide +kernel

theorem nodup81 : List.Nodup (α := Part)
    ([.page 15, .headers, .upper, .outputs, .host, .requesters, .events]) := by
  decide +kernel

theorem nodup82 : List.Nodup (α := Part)
    ([.headers, .upper, .outputs, .time, .host, .partCounters]) := by
  decide +kernel

theorem nodup83 : List.Nodup (α := Part)
    ([.headers, .upper, .outputs, .host, .faults]) := by
  decide +kernel

theorem nodup84 : List.Nodup (α := Part)
    ([.headers, .upper, .outputs, .freeValues, .host, .faults]) := by
  decide +kernel

theorem nodup85 : List.Nodup (α := Part)
    ([.upper]) := by
  decide +kernel

theorem nodup86 : List.Nodup (α := Part)
    ([.headers, .upper, .outputs, .faults]) := by
  decide +kernel

theorem nodup87 : List.Nodup (α := Part)
    ([.page 1, .page 15, .headers, .upper, .outputs, .host, .faults, .events, .power]) := by
  decide +kernel

theorem nodup88 : List.Nodup (α := Part)
    ([.page 1, .freeValues]) := by
  decide +kernel

theorem nodup89 : List.Nodup (α := Part)
    ([.page 1, .headers, .upper, .faults]) := by
  decide +kernel

theorem nodup90 : List.Nodup (α := Part)
    ([.page 1, .page 3, .page 15, .headers, .upper, .outputs, .host, .queues, .faults, .events, .partCounters, .power]) := by
  decide +kernel

theorem nodup91 : List.Nodup (α := Part)
    ([.page 1, .freeValues, .faults]) := by
  decide +kernel

theorem nodup92 : List.Nodup (α := Part)
    ([.page 1, .outputs, .freeValues, .faults]) := by
  decide +kernel

theorem nodup93 : List.Nodup (α := Part)
    (Part.allBut [.page 0, .page 8, .page 9, .page 11, .page 12, .page 14, .freeValues, .requesters, .locks, .twin, .journal,
      .memory, .reductions, .keys, .boot, .debug]) := by
  decide +kernel

theorem nodup94 : List.Nodup (α := Part)
    ([.page 1]) := by
  decide +kernel

theorem nodup95 : List.Nodup (α := Part)
    (Part.allBut [.page 0, .page 2, .page 4, .page 6, .page 8, .page 12, .page 13, .page 14, .time, .requesters, .locks, .twin,
      .keys, .boot, .debug]) := by
  decide +kernel

theorem nodup96 : List.Nodup (α := Part)
    (Part.allBut [.page 0, .page 2, .page 6, .page 8, .page 11, .page 12, .page 13, .page 14, .freeValues, .requesters, .locks,
      .twin, .memory, .reductions, .keys, .power, .boot, .debug]) := by
  decide +kernel

theorem nodup97 : List.Nodup (α := Part)
    ([.page 1, .boot]) := by
  decide +kernel

theorem nodup98 : List.Nodup (α := Part)
    ([.page 0, .page 1]) := by
  decide +kernel

theorem nodup99 : List.Nodup (α := Part)
    ([.page 1, .page 3, .page 4, .page 5, .page 7, .page 15, .headers, .ports, .upper, .outputs, .host, .queues, .rings, .links,
      .circuits, .remoteOps, .sums, .faults, .events, .partCounters]) := by
  decide +kernel

theorem nodup100 : List.Nodup (α := Part)
    ([.page 1, .page 2, .page 3, .headers, .upper, .outputs, .host, .queues, .faults]) := by
  decide +kernel

theorem nodup101 : List.Nodup (α := Part)
    ([.page 4, .outputs, .rings, .debug]) := by
  decide +kernel

theorem nodup102 : List.Nodup (α := Part)
    ([.page 4, .outputs, .freeValues, .rings, .debug]) := by
  decide +kernel

theorem nodup103 : List.Nodup (α := Part)
    ([.page 4, .rings, .debug]) := by
  decide +kernel

theorem nodup104 : List.Nodup (α := Part)
    ([.page 3, .page 4, .page 13, .page 15, .headers, .upper, .outputs, .host, .queues, .rings, .circuits, .remoteOps, .faults,
      .events, .partCounters, .debug]) := by
  decide +kernel

theorem nodup105 : List.Nodup (α := Part)
    ([.debug]) := by
  decide +kernel

theorem nodup106 : List.Nodup (α := Part)
    (Part.allBut [.freeValues, .time, .locks, .queues, .links, .circuits, .twin, .journal, .memory, .stackState, .remoteOps,
      .sums, .keys, .faults, .events, .partCounters, .power, .boot]) := by
  decide +kernel

theorem nodup107 : List.Nodup (α := Part)
    ([.page 3, .page 7, .page 9, .page 11, .headers, .upper, .outputs, .freeValues, .host, .queues, .links, .circuits, .twin,
      .journal, .memory, .stackState, .remoteOps, .keys, .faults, .partCounters]) := by
  decide +kernel

theorem nodup108 : List.Nodup (α := Part)
    ([.page 13]) := by
  decide +kernel

theorem nodup109 : List.Nodup (α := Part)
    ([.headers, .upper, .outputs, .host, .sums]) := by
  decide +kernel

theorem nodup110 : List.Nodup (α := Part)
    ([.page 10, .headers, .upper, .outputs, .host]) := by
  decide +kernel

theorem nodup111 : List.Nodup (α := Part)
    ([.headers, .upper, .outputs, .host]) := by
  decide +kernel

theorem nodup112 : List.Nodup (α := Part)
    ([.page 2, .page 3, .upper, .outputs, .host, .queues]) := by
  decide +kernel

theorem nop (f : Fn) (e : Block64) : Statement (.nop f e) := nodup1
theorem fence (f : Fn) (e : Block64) : Statement (.fence f e) := nodup1
theorem sleepWait (f : Fn) (e : Block64) : Statement (.sleepWait f e) := nodup2
theorem circuitSet (f : Fn) (e : Block64) : Statement (.circuitSet f e) := nodup3
theorem circuitClear (f : Fn) (e : Block64) : Statement (.circuitClear f e) := nodup3
theorem schedLoad (f : Fn) (e : Block64) : Statement (.schedLoad f e) := nodup1
theorem epochPrepare (f : Fn) (e : Block64) : Statement (.epochPrepare f e) := nodup4
theorem epochCommit (f : Fn) (e : Block64) : Statement (.epochCommit f e) := nodup3
theorem memCopy (f : Fn) (e : Block64) : Statement (.memCopy f e) := nodup5
theorem reduce (f : Fn) (e : Block64) : Statement (.reduce f e) := nodup6
theorem psmReduce (f : Fn) (e : Block64) : Statement (.psmReduce f e) := nodup7
theorem keyLoad (f : Fn) (e : Block64) : Statement (.keyLoad f e) := nodup1
theorem keyClear (f : Fn) (e : Block64) : Statement (.keyClear f e) := nodup8
theorem calRun (f : Fn) (e : Block64) : Statement (.calRun f e) := nodup9
theorem jnlCompact (f : Fn) (e : Block64) : Statement (.jnlCompact f e) := nodup10
theorem commandDoorbell (f : Fn) (v : Word) : Statement (.commandDoorbell f v) := nodup11
theorem completionDoorbell (f : Fn) (v : Word) : Statement (.completionDoorbell f v) := nodup11
theorem queueConfigWrite (f : Fn) (q : QReg) (v : DWord) : Statement (.queueConfigWrite f q v) := nodup11
theorem qCtrlWrite (f : Fn) (v : Word) : Statement (.qCtrlWrite f v) := nodup11
theorem fetchReadIssue : Statement (.fetchReadIssue) := nodup12
theorem fetchReadDone (f : Fn) (entries : List (Option Block64)) : Statement (.fetchReadDone f entries) := nodup13
theorem cplCoalTimer (f : Fn) : Statement (.cplCoalTimer f) := nodup12
theorem vfFlr (f : Fn) : Statement (.vfFlr f) := nodup14
theorem pf0Flr : Statement (.pf0Flr) := nodup15
theorem vfEnableChange (en : Bool) (num : Fn) : Statement (.vfEnableChange en num) := nodup14
theorem hostLinkDown (dlDown : Bool) : Statement (.hostLinkDown dlDown) := nodup15
theorem hostLinkUp (l : LinkParams) : Statement (.hostLinkUp l) := nodup16
theorem nonMaskableAlert (f : Fn) : Statement (.nonMaskableAlert f) := nodup17
theorem regWrite (r : Req) (a : Access) : Statement (.regWrite r a) := nodup11
theorem rcTakingRead (r : Req) (addr : BitVec 20) : Statement (.rcTakingRead r addr) := nodup18
theorem pairLoRead (r : Req) (addr : BitVec 20) : Statement (.pairLoRead r addr) := nodup18
theorem pairHiWrite (r : Req) (addr : BitVec 20) (v : Word) : Statement (.pairHiWrite r addr v) := nodup11
theorem pageLock (r : Req) (pg : PageIx) (v : Word) : Statement (.pageLock r pg v) := nodup11
theorem lockTimerExpire (pg : PageIx) : Statement (.lockTimerExpire pg) := nodup19
theorem softRst (r : Req) (pg : PageIx) : Statement (.softRst r pg) := nodup11
theorem softRstDone (pg : PageIx) : Statement (.softRstDone pg) := nodup20
theorem intForce (r : Req) (pg : PageIx) (v : Word) : Statement (.intForce r pg v) := nodup11
theorem pageFreeze (r : Req) (pg : PageIx) (on : Bool) : Statement (.pageFreeze r pg on) := nodup11
theorem pageEnableWrite (r : Req) (pg : PageIx) (on : Bool) : Statement (.pageEnableWrite r pg on) := nodup11
theorem tableWindowWrite (r : Req) (win : Fin 5) (word : Fin 512) (v : Word) : Statement (.tableWindowWrite r win word v) := nodup11
theorem tableWindowRead (r : Req) (win : Fin 5) (word : Fin 512) : Statement (.tableWindowRead r win word) := nodup18
theorem monitorSlot (m : List MonSample) : Statement (.monitorSlot m) := nodup21
theorem laserFault : Statement (.laserFault) := nodup22
theorem liLoss (i : Fin 2) : Statement (.liLoss i) := nodup22
theorem ilkCheck (li0 li1 : Int) : Statement (.ilkCheck li0 li1) := nodup23
theorem restartPulse : Statement (.restartPulse) := nodup24
theorem restartPulseEnd (held : Bool) : Statement (.restartPulseEnd held) := nodup24
theorem aprClose (p : Port) : Statement (.aprClose p) := nodup25
theorem probeInstant (p : Port) : Statement (.probeInstant p) := nodup25
theorem probeEnd (p : Port) : Statement (.probeEnd p) := nodup25
theorem aprReopen (p : Port) : Statement (.aprReopen p) := nodup25
theorem shutterRequest (r : Req) (p : Port) (v : Word) : Statement (.shutterRequest r p v) := nodup11
theorem wakeTx (r : Req) (p : Port) : Statement (.wakeTx r p) := nodup11
theorem wakeTxEnd (p : Port) : Statement (.wakeTxEnd p) := nodup26
theorem wakeRx (p : Port) : Statement (.wakeRx p) := nodup27
theorem searchStart (r : Req) (v : Word) : Statement (.searchStart r v) := nodup11
theorem searchAbort (r : Req) : Statement (.searchAbort r) := nodup11
theorem searchAnchorFound : Statement (.searchAnchorFound) := nodup28
theorem searchInjectDone : Statement (.searchInjectDone) := nodup28
theorem searchSweepDone : Statement (.searchSweepDone) := nodup28
theorem searchIdentifyDone : Statement (.searchIdentifyDone) := nodup29
theorem searchParkDone : Statement (.searchParkDone) := nodup29
theorem searchVerifyRoundDone : Statement (.searchVerifyRoundDone) := nodup30
theorem loopUpdate (u : List RingUpdate) : Statement (.loopUpdate u) := nodup31
theorem calSelect : Statement (.calSelect) := nodup32
theorem calGapFound (ch : ChanIx) : Statement (.calGapFound ch) := nodup33
theorem calDefer (ch : ChanIx) : Statement (.calDefer ch) := nodup34
theorem calMeasureDone (ch : ChanIx) (m : CalItems) : Statement (.calMeasureDone ch m) := nodup35
theorem calSwitchDone (ch : ChanIx) : Statement (.calSwitchDone ch) := nodup36
theorem calGlideDone (ch : ChanIx) : Statement (.calGlideDone ch) := nodup9
theorem codewordReceive (p : Port) (k : LineIx) (levels : List (Fin 4)) (t : DWord) : Statement (.codewordReceive p k levels t) := nodup37
theorem dataFlitReceive (p : Port) (j : PairIx) : Statement (.dataFlitReceive p j) := nodup38
theorem controlFlitReceive (p : Port) (j : PairIx) : Statement (.controlFlitReceive p j) := nodup37
theorem controlFlitSend (p : Port) (j : PairIx) (low : BitVec 2) : Statement (.controlFlitSend p j low) := nodup39
theorem dataFlitSend (p : Port) (j : PairIx) (low : BitVec 2) : Statement (.dataFlitSend p j low) := nodup40
theorem nakRepeat (p : Port) (j : PairIx) : Statement (.nakRepeat p j) := nodup41
theorem spareRetry (p : Port) : Statement (.spareRetry p) := nodup37
theorem trainBurstReceive (p : Port) (u : UnitIx) : Statement (.trainBurstReceive p u) := nodup37
theorem cdrLock (p : Port) (u : UnitIx) : Statement (.cdrLock p u) := nodup42
theorem trainTimeout (p : Port) (u : UnitIx) : Statement (.trainTimeout p u) := nodup37
theorem beaconSend (p : Port) : Statement (.beaconSend p) := nodup43
theorem beaconReceive (p : Port) : Statement (.beaconReceive p) := nodup44
theorem parentLoss : Statement (.parentLoss) := nodup45
theorem changeAdmit : Statement (.changeAdmit) := nodup3
theorem changeBuildStart (c : CircIx) : Statement (.changeBuildStart c) := nodup3
theorem ringAcquireStart (ring : RingIx) : Statement (.ringAcquireStart ring) := nodup46
theorem acquireTimeout (ring : RingIx) : Statement (.acquireTimeout ring) := nodup3
theorem epochCommitTime (e : Word) : Statement (.epochCommitTime e) := nodup47
theorem lateLimitExpire (e : Word) : Statement (.lateLimitExpire e) := nodup47
theorem drainEnd (e : Word) : Statement (.drainEnd e) := nodup48
theorem throughRelease (e : Word) : Statement (.throughRelease e) := nodup48
theorem csqAbort (r : Req) (v : Word) : Statement (.csqAbort r v) := nodup11
theorem schedSlotFire (slot : Fin 16) : Statement (.schedSlotFire slot) := nodup47
theorem twnCfgWrite (r : Req) (v : Word) : Statement (.twnCfgWrite r v) := nodup11
theorem switchover (r : Req) : Statement (.switchover r) := nodup11
theorem takeover (r : Req) : Statement (.takeover r) := nodup11
theorem switchFail : Statement (.switchFail) := nodup49
theorem heartbeatSend : Statement (.heartbeatSend) := nodup43
theorem twinMiss : Statement (.twinMiss) := nodup49
theorem heartbeat : Statement (.heartbeat) := nodup50
theorem twinRecord : Statement (.twinRecord) := nodup51
theorem twinAck : Statement (.twinAck) := nodup50
theorem twinNak : Statement (.twinNak) := nodup50
theorem pull : Statement (.pull) := nodup52
theorem handover : Statement (.handover) := nodup50
theorem twinRecordSend : Statement (.twinRecordSend) := nodup50
theorem twinNakRepeat : Statement (.twinNakRepeat) := nodup43
theorem pullSend : Statement (.pullSend) := nodup43
theorem takeoverLoadDone : Statement (.takeoverLoadDone) := nodup53
theorem jnlProgramStart : Statement (.jnlProgramStart) := nodup54
theorem jnlProgramDone (ok : Bool) : Statement (.jnlProgramDone ok) := nodup55
theorem jnlEraseDone (ok : Bool) : Statement (.jnlEraseDone ok) := nodup56
theorem replay (r : Req) : Statement (.replay r) := nodup11
theorem jnlAbort (r : Req) : Statement (.jnlAbort r) := nodup11
theorem bypass (r : Req) (v : Word) : Statement (.bypass r v) := nodup11
theorem replayProbeDone (part : Option Sfdp) : Statement (.replayProbeDone part) := nodup57
theorem replaySelectDone : Statement (.replaySelectDone) := nodup54
theorem replayScanDone : Statement (.replayScanDone) := nodup58
theorem bar2Read (f : Fn) (x : BitVec 34) (len : Nat) (relaxed : Bool) : Statement (.bar2Read f x len relaxed) := nodup59
theorem bar2Write (f : Fn) (x : BitVec 34) (bytes : List (Option Byte)) (poisoned : Bool) : Statement (.bar2Write f x bytes poisoned) := nodup59
theorem atomicGo (r : Req) (n : Fin 8) : Statement (.atomicGo r n) := nodup11
theorem rmeIssue (f : Fn) : Statement (.rmeIssue f) := nodup5
theorem readReq (c : CircIx) : Statement (.readReq c) := nodup60
theorem writeReq (c : CircIx) : Statement (.writeReq c) := nodup60
theorem atomicReq (c : CircIx) : Statement (.atomicReq c) := nodup60
theorem rmeTargetRespond (c : CircIx) : Statement (.rmeTargetRespond c) := nodup60
theorem readRsp (c : CircIx) : Statement (.readRsp c) := nodup5
theorem writeAck (c : CircIx) : Statement (.writeAck c) := nodup5
theorem atomicRsp (c : CircIx) : Statement (.atomicRsp c) := nodup5
theorem reqAgeExpire (tag : Fin 8192) : Statement (.reqAgeExpire tag) := nodup5
theorem tagQuarantineExpire (tag : Fin 8192) : Statement (.tagQuarantineExpire tag) := nodup61
theorem mssTrain (r : Req) : Statement (.mssTrain r) := nodup11
theorem mssTrainStageEnd (st : StackIx) (ok : Bool) : Statement (.mssTrainStageEnd st ok) := nodup62
theorem scrubAccess (st : StackIx) (res : EccResult) : Statement (.scrubAccess st res) := nodup63
theorem rdxStepStart (f : Fn) (coll : Word) (step : Nat) : Statement (.rdxStepStart f coll step) := nodup64
theorem rdxStepDone (f : Fn) (coll : Word) (step : Nat) : Statement (.rdxStepDone f coll step) := nodup65
theorem stepListReadDone (f : Fn) (coll : Word) (first : Nat) (entries : Option (List StepEntry))
    : Statement (.stepListReadDone f coll first entries) := nodup6
theorem collectiveMessage (c : CircIx) : Statement (.collectiveMessage c) := nodup66
theorem rdxStepAgeExpire (f : Fn) (coll : Word) (step : Nat) : Statement (.rdxStepAgeExpire f coll step) := nodup6
theorem rdxOrphan (c : CircIx) (coll : Word) (tag : BitVec 16) : Statement (.rdxOrphan c coll tag) := nodup67
theorem psmClaimDone (p : Port) : Statement (.psmClaimDone p) := nodup68
theorem lineariseDone (p : Port) : Statement (.lineariseDone p) := nodup69
theorem psmAlignStart (p : Port) : Statement (.psmAlignStart p) := nodup70
theorem psmTrimSend (p : Port) (lines : List (Fin 8 × Word × Int)) : Statement (.psmTrimSend p lines) := nodup70
theorem psmStreamStart (p : Port) : Statement (.psmStreamStart p) := nodup70
theorem psmGuardCheck (p : Port) (meanRaw : Nat) (samples : List (BitVec 10)) : Statement (.psmGuardCheck p meanRaw samples) := nodup71
theorem psmStreamEnd (p : Port) (samples : List (BitVec 10)) : Statement (.psmStreamEnd p samples) := nodup72
theorem psmRepairWindow (p : Port) : Statement (.psmRepairWindow p) := nodup73
theorem psmStatusSend (p : Port) (sums : List (Option Int)) : Statement (.psmStatusSend p sums) := nodup74
theorem trim (p : Port) (frame : BitVec 128) : Statement (.trim p frame) := nodup69
theorem repair (p : Port) (frame : BitVec 128) : Statement (.repair p frame) := nodup75
theorem status (p : Port) (frame : BitVec 128) : Statement (.status p frame) := nodup7
theorem downstreamLoss (p : Port) : Statement (.downstreamLoss p) := nodup76
theorem psmStatusTimeout (p : Port) : Statement (.psmStatusTimeout p) := nodup7
theorem psmReleaseDone (p : Port) : Statement (.psmReleaseDone p) := nodup77
theorem tamperLatch (src : Fin 5) : Statement (.tamperLatch src) := nodup78
theorem eraseDone : Statement (.eraseDone) := nodup79
theorem unfence (r : Req) : Statement (.unfence r) := nodup11
theorem secKeyrangeWrite (r : Req) (n : Fn) (v : Word) : Statement (.secKeyrangeWrite r n v) := nodup11
theorem faultOnset (p : PairTrace) : Statement (.faultOnset p) := nodup11
theorem fcuRecordAck (r : Req) (src : SrcIx) : Statement (.fcuRecordAck r src) := nodup11
theorem fcuFenceSet (r : Req) (v : Word) : Statement (.fcuFenceSet r v) := nodup11
theorem fcuUnfence (r : Req) (v : Word) : Statement (.fcuUnfence r v) := nodup11
theorem fcuRailInj (r : Req) (v : Word) : Statement (.fcuRailInj r v) := nodup11
theorem errInject (r : Req) (pg : PageIx) (v : Word) : Statement (.errInject r pg v) := nodup11
theorem dryErrnEnd : Statement (.dryErrnEnd) := nodup80
theorem fcuPriorAck (r : Req) : Statement (.fcuPriorAck r) := nodup11
theorem evrLogEntry : Statement (.evrLogEntry) := nodup81
theorem clear (r : Req) : Statement (.clear r) := nodup11
theorem evrWinStatusRead (r : Req) : Statement (.evrWinStatusRead r) := nodup18
theorem evrCursorWrite (r : Req) (v : BitVec 48) : Statement (.evrCursorWrite r v) := nodup11
theorem periodBoundary : Statement (.periodBoundary) := nodup82
theorem staLenWrite (r : Req) (v : Word) : Statement (.staLenWrite r v) := nodup11
theorem dieSensorConversion (n : Fin 64) (temp : BitVec 16) : Statement (.dieSensorConversion n temp) := nodup83
theorem extConversionDone (n : Fin 4) (x : ExtConv) : Statement (.extConversionDone n x) := nodup84
theorem extOpenDetect (n : Fin 4) (w : OpenWire) : Statement (.extOpenDetect n w) := nodup83
theorem extCfgWrite (r : Req) (n : Fin 4) (word : Fin 3) (v : Word) : Statement (.extCfgWrite r n word v) := nodup11
theorem supplyOutOfWindow (k : Fin 7) (mv : BitVec 13) : Statement (.supplyOutOfWindow k mv) := nodup83
theorem supplyRecover (k : Fin 7) (mv : BitVec 13) : Statement (.supplyRecover k mv) := nodup85
theorem alertN (statusWord : BitVec 16) : Statement (.alertN statusWord) := nodup86
theorem opTargetWrite (r : Req) (v : Word) : Statement (.opTargetWrite r v) := nodup11
theorem vCmdDone (x : PmbEnd) : Statement (.vCmdDone x) := nodup87
theorem readVoutDone (mv : BitVec 12) (x : PmbEnd) : Statement (.readVoutDone mv x) := nodup87
theorem settleDone : Statement (.settleDone) := nodup87
theorem aonTrim (ticks : Nat) : Statement (.aonTrim ticks) := nodup88
theorem rootPllLockLoss : Statement (.rootPllLockLoss) := nodup89
theorem lanePllLockChange (g : Fin 4) (locked : Bool) : Statement (.lanePllLockChange g locked) := nodup89
theorem sleepDrainDone : Statement (.sleepDrainDone) := nodup11
theorem sleepDrainTimeout : Statement (.sleepDrainTimeout) := nodup90
theorem sleepLinkIdle : Statement (.sleepLinkIdle) := nodup11
theorem linkWaitExpire : Statement (.linkWaitExpire) := nodup11
theorem wakeN : Statement (.wakeN) := nodup27
theorem hostWake : Statement (.hostWake) := nodup27
theorem linkDataWake : Statement (.linkDataWake) := nodup27
theorem wakeTimer : Statement (.wakeTimer) := nodup27
theorem wSupplyDone (ok : Bool) : Statement (.wSupplyDone ok) := nodup91
theorem supplyRetry (ok : Bool) : Statement (.supplyRetry ok) := nodup92
theorem wHostDone (ticks : Nat) (refclk : Nat) (inverted : Bool) : Statement (.wHostDone ticks refclk inverted) := nodup93
theorem wDomainsDone : Statement (.wDomainsDone) := nodup94
theorem wEngineDone : Statement (.wEngineDone) := nodup95
theorem refclkConfirm (r : Req) (ticks : Nat) (inverted : Bool) : Statement (.refclkConfirm r ticks inverted) := nodup96
theorem padRelease (r : Req) : Statement (.padRelease r) := nodup11
theorem estClear (r : Req) : Statement (.estClear r) := nodup11
theorem cpmTimeSet (r : Req) (v : DWord) : Statement (.cpmTimeSet r v) := nodup11
theorem softwareReset (r : Req) (v : Word) : Statement (.softwareReset r v) := nodup11
theorem powerOnReset (inRange : Bool) : Statement (.powerOnReset inRange) := nodup11
theorem perst : Statement (.perst) := nodup11
theorem perstRelease : Statement (.perstRelease) := nodup97
theorem porDone (straps : BitVec 3) : Statement (.porDone straps) := nodup98
theorem startupSupplyDone (exp : Option (BitVec 5)) (ok : Bool) : Statement (.startupSupplyDone exp ok) := nodup92
theorem fuseDone (ok : Bool) : Statement (.fuseDone ok) := nodup11
theorem clockDone (inverted : Bool) : Statement (.clockDone inverted) := nodup94
theorem domainsDone : Statement (.domainsDone) := nodup99
theorem linkDone (l : LinkParams) : Statement (.linkDone l) := nodup100
theorem idcode : Statement (.idcode) := nodup101
theorem extest : Statement (.extest) := nodup102
theorem samplePreload (preload : BitVec 64) : Statement (.samplePreload preload) := nodup102
theorem bypassInstruction (code : BitVec 6) : Statement (.bypassInstruction code) := nodup103
theorem dbgChal : Statement (.dbgChal) := nodup102
theorem dbgResp (v : BitVec 128) : Statement (.dbgResp v) := nodup104
theorem dbgChalExpire : Statement (.dbgChalExpire) := nodup105
theorem holdoffEnd : Statement (.holdoffEnd) := nodup85
theorem dbgNop : Statement (.dbgNop) := nodup101
theorem dbgRead (addr : BitVec 18) : Statement (.dbgRead addr) := nodup106
theorem dbgWrite (addr : BitVec 18) (v : Word) : Statement (.dbgWrite addr v) := nodup11
theorem dbgTake (addr : BitVec 18) : Statement (.dbgTake addr) := nodup106
theorem relock (r : Req) : Statement (.relock r) := nodup11
theorem dbgFreezeAll (r : Req) (on : Bool) : Statement (.dbgFreezeAll r on) := nodup11
theorem forceFreeze (r : Req) : Statement (.forceFreeze r) := nodup11
theorem accessErrorRead (r : Req) (a : Access) : Statement (.accessErrorRead r a) := nodup18
theorem hostReadDone (f : Fn) (cmdId : BitVec 16) (d : HostData) : Statement (.hostReadDone f cmdId d) := nodup107
theorem memoryAccessDone (cl : MemClass) (offset : BitVec 35) (op : MemOp) (ecc : EccResult)
    : Statement (.memoryAccessDone cl offset op ecc) := nodup62
theorem laserFaultClear : Statement (.laserFaultClear) := nodup24
theorem tamperDeassert (src : Fin 5) : Statement (.tamperDeassert src) := nodup108
theorem testLogicReset : Statement (.testLogicReset) := nodup103
theorem psmOverRange (p : Port) (index : BitVec 24) : Statement (.psmOverRange p index) := nodup109
theorem scrubBehind (st : StackIx) : Statement (.scrubBehind st) := nodup110
theorem flrComplete (f : Fn) : Statement (.flrComplete f) := nodup111
theorem vectorMaskOrEnableWrite (f : Fn) (w : VecWrite) : Statement (.vectorMaskOrEnableWrite f w) := nodup112

end Sys2Proof.Laws.Touches
end

