-- ==== Sys2Proof/Tests/Slice0.lean ====
section
/-! SUPPORT. Tests: ill-formed terms that the checks refuse; worked examples of the spec; and for every statement a witness of the hypotheses
of each of its clauses: a state and operands that meet them together. -/

namespace Sys2Proof.Tests

set_option Elab.async false

open Sys2Proof.Machine

/-! ## Small states -/

/-- A command entry or another 64 B structure: the opcode, and (byte, low bit, value) fields. -/
def ent (op : Nat) (l : List (Nat × Nat × Nat)) : Block64 :=
  BitVec.ofNat 512 (l.foldl (fun acc x => acc + x.2.2 * 2 ^ (8 * x.1 + x.2.1)) op)

/-- The pages whose EN is writable. -/
def enPages : List Nat := [3, 4, 5, 6, 7, 8, 9, 0xA, 0xB, 0xC, 0xD, 0xF, 0x20, 0x21, 0x23] ++ (upTo 16).map (fun p => 0x10 + p)

/-- A small state in which every block is on: a machine that has started up, with its link up and PF0's and VF1's queues enabled. -/
def base : State :=
  ((({ State.reset with boot := { perstLow := false } }).wrs
    ((enPages.map (fun p => (F.PAGE_CTRL_EN (0x1000 * p), 1))) ++
     [(F.CPM_PWR_STAT_DOM_ON, 0x3F), (F.CPM_BOOT_STAGE, 10), (F.CPM_CLK_STAT_ROOT_LOCK, 1), (F.CPM_CLK_STAT_LANE_LOCK, 0xF),
      (F.HIF_LINK_STAT_UP, 1), (F.HIF_VF_STAT_NUM_VFS, 4), (F.HIF_VF_STAT_VF_EN, 1),
      (F.Q_CTRL_CMD_EN 0x3000, 1), (F.Q_CTRL_CPL_EN 0x3000, 1), (F.Q_CTRL_CMD_EN (qBase 1), 1), (F.Q_CTRL_CPL_EN (qBase 1), 1),
      (tstate 0, 4), (tstate 1, 4)])).setHostFn 0 { bme := true, msix := true, unmasked := upTo 64 }).setHostFn 1
        { bme := true, msix := true, unmasked := upTo 31 }

def setE : Block64 := ent 0x10 [(0, 16, 7), (16, 0, 5), (20, 0, 2), (21, 0, 1), (22, 0, 255), (24, 0, 9)]

def clrE : Block64 := ent 0x11 [(0, 16, 7), (16, 0, 5)]

/-- The circuit sequencer with an open epoch 3, after a search. -/
  def csqBase : State :=
  { base.wrs [(F.PFE_LI0_LINES_PRESENT, 0x1FF), (F.PFE_LI1_LINES_PRESENT, 0x1FF), (F.CSQ_OPEN_EPOCH_EPOCH, 3)] with
  rcu := { everDone := true }, csq := { epochs := [{ num := 3, pin := false }], floor := some 3 } }

def img5 : Image := imageOfEntry setE

def chg5 : Change := { id := 1, circ := 5, epoch := 3, owner := 0, isClear := false, img := img5, label := 0, st := 1 }

/-- Ring control after a search, with ring 20 of circuit 5's change waiting to acquire. -/
  def acqBase : State :=
  { base with
    rcu := { everDone := true, acqWait := [20], rings := [(20, { loop := 2, opt := .block, onCode := 20000 })] }
    csq := { changes := [{ chg5 with st := 4, rings := [20], units := [10] }], epochs := [{ num := 3, pin := false, st := 1 }] } }

def slotBase : State := { csqBase with csq := { csqBase.csq with slots := [(2, { st := 1, act := 0, epoch := 3, fire := 900 })] } }

/-- The front end with its anchor line and every line present, and the lasers asked for. -/
  def litBase : State :=
  base.wrs [(F.PFE_LI0_LINES_PRESENT, 0x1FF), (F.PFE_LI1_LINES_PRESENT, 0x1FF), (F.PFE_LI0_LINES_ANCHOR_OK, 1), (F.PFE_LASER_CTRL_EN, 1),
  (F.PFE_LASER_STAT_LASER_EN, 1), (F.PFE_LASER_CTRL_AUTO_RESTART, 1), (F.CPM_PAD_HOLD_HELD, 0)]

def upd20 : RingUpdate := { ring := 20, detune := -8, ctl := 10, mon := 300, overRange := false, htr := .sound }

/-- Lane pair 0 of port 2 is up and serves circuit 5; its channel 18 is due. -/
  def calBase : State :=
  { base.wrs [(F.PORT_TRAIN_STATE 2 0, 7), (F.PORT_SHUT_STAT_STATE 2, 1), (F.RCU_CAL_CTRL_CAL_PAR, 4), (F.RCU_CAL_CTRL_AUTO, 1),
    (F.RCU_LOOP_CFG_LOCK_WIN, 100)] with
  rcu := { everDone := true, chans := [(18, { never := false, suspect := true, base := 0 })] }, lnk := { units := [(10, { circ := some 5 })] } }

def att18 : Attempt := { ch := 18, spare := false, step := .waitGap, classes := 7, again := 7, retry := 0, a := none, acc := none }

def items18 : CalItems := { th0 := 65, th1 := 128, th2 := 190, cdrPh := 30, pre := 0, main := 48, post := 0, modBias := 5, dropOfs := -4 }

/-- Lane pair 0 and λS of port 2 are up, pair 0 serves circuit 5, which is in service. -/
  def lnkBase : State :=
  { base.wrs [(F.PORT_TRAIN_STATE 2 0, 7), (F.PORT_TRAIN_STATE 2 4, 7), (F.PORT_LNK_STAT_PAIR_UP 2, 1), (F.PORT_LNK_STAT_SPARE_UP 2, 1),
  (F.PORT_SHUT_STAT_STATE 2, 1), (F.PORT_LNK_CFG_BEACON_EN 2, 1), (F.PORT_LNK_CFG_REPLAY_ALLOC 2, 8)] with
  lnk := { units := [(10, { circ := some 5, credit := 100, exp := 4 })], beacons := [(2, { bseq := 6, tPrev := 1000, tPrev2 := 500, rxLast := 900, peerBseq := 3, seen := true })] },
  csq := { circuits := [(5, { state := 1, img := img5 })] } }

def dflit : Flit := { typ := 1, enc := false, len := 24, lseq := 4, cseq := 0, client := 1, body := List.replicate 240 0 }

def cflit : CtlFlit := { ackV := true, nakV := false, retrainReq := false, substV := false, ack := 3, nak := 0, credit := 120, substLine := 0, substOn := false, substCw := 0 }

def bcn : Beacon := { bseq := 4, tTxPrev := 1100, tRxLast := 1200, peerBseq := 5, stratum := 2, rootNode := 33 }

def tburst : TrainBurst := { state := 5, node := 9, port := 3, line := 0, echoNode := 0, echoPort := 2, echoLine := 0, echoV := true, nextLseq := 0, creditInit := 64, tSend := 0 }

/-- A pair's slot that holds a flit. -/
def rxs (f : Flit) (cw ix : Nat) : RxSlot := { cw := cw, ix := ix, h0 := some (.data (f.bytes.take 128)), h1 := some (.data (f.bytes.drop 128)) }

/-- A slot whose first half is a burst of λS, or of both lanes. -/
def rxb (l : List Byte) (both : Bool) : RxSlot := { cw := 1, ix := 1, h0 := some (.data l), h1 := if both then some (.data l) else none, time := 1500 }

/-- Lane pair 0 of port 2 is up for circuit 5 and has received slots. -/
  def rxBase (l : List RxSlot) : State :=
  { lnkBase with lnk := { lnkBase.lnk with units := [(10, { circ := some 5, credit := 100, exp := 4, slots := l })] } }

/-- λS of port 2 is up and has received bursts. -/
  def spareBase (s : State) (l : List Byte) : State := { s with lnk := { s.lnk with units := [(14, { slots := [rxb l false] })] } }

/-- Lane pair 0 of port 2 in a training state, with TRAIN bursts received on both lanes. -/
  def trainBase (st : Nat) (b : TrainBurst) : State :=
  { lnkBase.wrs [(F.PORT_TRAIN_STATE 2 0, st), (F.PFE_LI0_LINES_PRESENT, 0x1FF)] with lnk := { units := [(10, { circ := some 5, slots := [rxb b.bytes true] })] } }

/-- The part of a key blob before its tag: slot 6 of the device, version 1, salt 9. -/
  def blob0 : Block64 := ent 6 [(3, 0, 1), (4, 0, 9), (16, 0, 12345)]

def goodBlob : Block64 := blob0 + BitVec.ofNat 512 (69779791377481193198953181141579296600 * 2 ^ 384)

def rec8 : JRec := { seq := 8, mirror := false, pay := .commit 3 0 false false false 0 }

def sfdp0 : Sfdp := { sizeLog2 := 24, pageLog2 := 8, eraseSuspend := true }

/-- The journal with an accepted flash part of 2^24 bytes, replayed; pads released. -/
  def jnlBase : State :=
  { base.wrs [(F.JNL_FLASH_PRESENT, 1), (F.JNL_FLASH_SIZE_LOG2, 24), (F.CPM_PAD_HOLD_HELD, 0), (F.JNL_CFG_AUTO_COMPACT, 0),
    (F.JNL_USED_BYTES, 192), (F.JNL_STAT_RSTATE, 5)] with
  jnl := { ready := true, part := some sfdp0, regA := { erased := 65536 }, asked := 2, durable := 1, queue := [rec8] } }

def mrk (g : Nat) (b : Bool) : JRec := { seq := 0, mirror := false, pay := .mark (BitVec.ofNat 32 g) b 0 }

/-- A region with the journal of generation g: START of the mirrored state, END, and the records given. -/
def jrn (g : Nat) (l : List JRec) : Region :=
  { bytes := ([mrk g false, { mrk g true with seq := 1 }] ++ l).flatMap JRec.bytes, erased := 65536 }

/-- The twin channel on port 2 to node 9, its λS up; role r. -/
  def twnBase (r : Nat) : State :=
  base.wrs [(F.TWN_CFG_EN, 1), (F.TWN_CFG_PORT, 2), (F.TWN_CFG_PEER, 9), (F.TWN_CFG_ROLE_REQ, min r 2), (F.TWN_STAT_ROLE, r),
    (F.TWN_GEN_GEN, 4), (F.PORT_TRAIN_STATE 2 4, 7), (F.PORT_SHUT_STAT_STATE 2, 1), (F.TWN_SENT_TSEQ_TSEQ, 20)]

def recBase (cls : Nat) : State := base.wrs [(F.FCU_REC_W0_VALID 16, 1), (F.FCU_REC_W0_CLASS 16, cls), (F.FCU_REC_W0_COUNT 16, 2)]

def evr1 : EvrRec := { seq := 5, page := 9, sev := 1, code := 2, rep := 1, part := 0, pub := false, list := 0, snaps := [], arg := 0 }

def tb (kind role gen tseq : Nat) (r : Option JRec) : TwinBurst := { kind := BitVec.ofNat 4 kind, role := BitVec.ofNat 4 role, node := 9, tseq := BitVec.ofNat 32 tseq, gen := BitVec.ofNat 32 gen, epoch := 3, rcd := r, pullReq := false, total := 0 }

def recSched : JRec := { seq := 0, mirror := true, pay := .sched 2 1 3 7 }

def lparams : LinkParams := { speed := 6, width := 16, flit := true, reversed := false, modules := 3, rate := 1, repaired := 0 }

/-- REDUCE of n steps at host address 4096, collective 6, in FP32 with SUM. -/
  def redE (n : Nat) : Block64 := ent 0x28 [(0, 16, 7), (16, 0, 4096), (24, 0, n), (28, 0, 6)]

/-- A PF0 BAR2 map entry onto this node's memory and one memory window for every requester; both stacks hold a little data. -/
  def rmeBase : State :=
  { lnkBase.wrs [(F.RME_MAP0_VALID 0, 1), (F.RME_MAP0_WR 0, 1), (F.SEC_WIN_W0_VALID 0, 1), (F.SEC_WIN_W0_SRC_MASK 0, 0),
    (F.SEC_WIN_W1_REQ_PART 0, 0x7F), (F.SEC_WIN_W1_WR 0, 1), (F.SEC_WIN_W2_BASE 0, 0), (F.SEC_WIN_W2_LIMIT 0, 3)] with
  mss := { mem := [(64, 7), (65, 8)] } }

def wop : RmeOp := { fn := 0, part := 0, src := .write, kind := 1, node := 0, offset := 200, len := 2, data := [some 5, some 6] }

def mm (off len : Nat) : MemMsg := { part := 1, aop := 0, a64 := true, tag := 33, len := BitVec.ofNat 13 len, offset := BitVec.ofNat 35 off, srcNode := 9, rcode := 0, reqCseq := 12 }

def sentOp (kind : Nat) (src : OpSrc) : RmeOp := { tag := some 33, fn := 0, part := 0, src := src, kind := kind, node := 9, offset := 64, len := 8, a64 := true, circ := some 5, cseq := 12, stage := .sent }

/-- A message of circuit 5 of one or more flits, the first with the given CLIENT, in its receive buffer. -/
def inbox1 (client : Nat) (l : List Byte) : List (Nat × Nat × Flit) :=
  [(12, 10, { dflit with client := BitVec.ofNat 4 client, len := l.length, body := padTo 240 l })]

/-- The state with that message received. -/
  def State.withMsg (s : State) (client : Nat) (l : List Byte) : State := s.setCircLink 5 { inbox := inbox1 client l }

/-- The 16-byte header of a collective message (R291), then its data. -/
def collBytes (fmt : Nat) (data : List Byte) : List Byte :=
  numBytes 4 6 ++ numBytes 2 3 ++ numBytes 1 fmt ++ numBytes 1 0 ++ numBytes 4 0 ++ numBytes 2 data.length ++ numBytes 2 0 ++ data

def redCmd (n : Nat) (l : List RStep) : RCmd := { id := 4, fn := 0, e := redE n, owner := 0, steps := l, asked := 1 }

def redFly (n : Nat) : Cmd := { id := 4, fn := 0, e := redE n, owner := 0, wait := .running }

def step32 (l : List (Nat × Nat × Nat)) : StepEntry := BitVec.ofNat 256 (l.foldl (fun acc x => acc + x.2.2 * 2 ^ (8 * x.1 + x.2.1)) 0)

def stNop : RStep := { ix := 0, e := step32 [(8, 0, 1)] }

def stLocal : RStep := { ix := 0, e := step32 [(0, 0, 4), (8, 0, 1), (16, 0, 64), (24, 0, 128)] }

def cmsg : CollMsg := collMsgOf (collBytes 0 [0, 0, 128, 63])

def stRecv : RStep := { ix := 0, e := step32 [(0, 0, 3), (4, 0, 5), (6, 0, 3), (8, 0, 1), (24, 0, 128)], st := 1 }

def stRecv2 : RStep := { ix := 0, e := step32 [(0, 0, 3), (4, 0, 5), (6, 0, 3), (8, 0, 2), (24, 0, 128)], st := 1 }

def psmE (role rep count : Nat) : Block64 := ent 0x29 [(0, 16, 7), (20, 0, role), (20, 1, rep), (21, 0, 2), (22, 0, 1), (24, 0, 2 ^ 40), (32, 0, count), (40, 0, 4096)]

def prun (role rep count : Nat) : PRun := { id := 4, fn := 0, e := psmE role rep count, owner := 0 }

def psmFly (role rep count : Nat) : Cmd := { id := 4, fn := 0, e := psmE role rep count, owner := 0, wait := .running }

/-- A summation run on port 2 in a state of R310. -/
  def psmBase (st : Nat) (r : PRun) : State :=
  { base.wrs [(F.PSM_STAT_STATE 2, st), (F.PFE_LI0_LINES_PRESENT, 0x1FF),
    (F.PORT_SHUT_STAT_STATE 2, 1)] with rcu := { everDone := true }, psm := { runs := [(2, r)] }, que := { inflight := [{ id := r.id, fn := r.fn, e := r.e, owner := r.owner, wait := .running }], nextId := 5 } }

def opBase (st : Nat) : State := { base.wrs [(F.CPM_OP_OPSTATE, st), (F.CPM_OP_CUR, 1), (F.CPM_OP_TARGET, 2), (F.CPM_PMB_CFG_PMB_OK, 1)] with cpm := { goal := 2, prevMv := 750 } }

def sleepFly : Cmd := { id := 4, fn := 0, e := ent 2 [(0, 16, 7)], owner := 0, wait := .drain }

/-- Asleep with HOST off. -/
  def asleep : State := { base.wrs [(F.CPM_PWR_STAT_PSTATE, 5), (F.CPM_PWR_STAT_DOM_ON, 1), (F.CPM_WAKE_EN_HOST, 1),
    (F.CPM_WAKE_EN_LINK_DATA, 1), (F.CPM_WAKE_EN_OPT, 1), (F.CPM_WAKE_EN_TIMER, 1), (F.CPM_WAKE_TIMER_MS, 100),
    (F.CPM_WAKE_PORTS_PORTS, 8)] with cpm := { hostOff := true, tSleep := 777 } }

/-- A pair's trace with one ERROR sample of a source. -/
def trc (src : SrcIx) : PairTrace := { src := src, samples := [2], kind := 0, scope := 0, code := 0x21, inj := false }

/-! ## Ill-formed terms -/

theorem test_wf_fetch_none : (Instr.fetchReadDone 0 []).wf = false := by decide
theorem test_wf_fetch_nine : (Instr.fetchReadDone 0 (List.replicate 9 none)).wf = false := by decide
theorem test_wf_access_size : (Instr.regWrite 0 ⟨0x60, 0, 0, 0⟩).wf = false := by decide
theorem test_wf_access_read_size : (Instr.accessErrorRead 0 ⟨0x60, 9, 0, 0⟩).wf = false := by decide
theorem test_wf_bar2_read_length : (Instr.bar2Read 0 0 0 false).wf = false := by decide
theorem test_wf_bar2_read_range : (Instr.bar2Read 0 (BitVec.ofNat 34 (2 ^ 34 - 4)) 8 false).wf = false := by decide
theorem test_wf_bar2_write_length : (Instr.bar2Write 0 0 [] false).wf = false := by decide
theorem test_wf_memory_write_length : (Instr.memoryAccessDone .host 0 (.write [none]) .clean).wf = false := by decide
theorem test_wf_bar2_write_range : (Instr.bar2Write 0 (BitVec.ofNat 34 (2 ^ 34 - 1)) [none, none] false).wf = false := by decide
theorem test_wf_nop : (Instr.nop 0 0).wf = true := by decide

theorem test_wf_codeword_length : (Instr.codewordReceive 0 0 [] 0).wf = false := by decide

/-! ## Worked examples of the spec -/

/-- VF 17's queue in the worked example of 03_host_attach.md: 64 entries, HEAD 60. -/
def vf17 (tail : Nat) : State :=
  (base.wr F.HIF_VF_STAT_NUM_VFS 64).wrs
    [(F.CMDQ_SIZE_SIZE (qBase 17), 6), (F.CMDQ_HEAD_HEAD (qBase 17), 60), (F.CMDQ_TAIL_TAIL (qBase 17), tail)]

/-- A number read from the state after a command. -/
def after (i : Instr) (s : State) (g : State → Nat) : Option Nat := match exec i s with | .next t => some (g t) | _ => none

/-- 03_host_attach.md, worked example: with HEAD 60 and TAIL 62 the doorbell 8 is accepted. -/
theorem test_doorbell_accepted : after (.commandDoorbell 17 8) (vf17 62) (fun t => t.rd (F.CMDQ_TAIL_TAIL (qBase 17))) = some 8 := by
  decide +kernel

/-- 03_host_attach.md, worked example: with HEAD 60 and TAIL 8 the value 2 is ignored. -/
theorem test_doorbell_ignored : after (.commandDoorbell 17 2) (vf17 8) (fun t => t.rd (F.CMDQ_TAIL_TAIL (qBase 17))) = some 8 := by
  decide +kernel

theorem test_doorbell_ignored_flag : after (.commandDoorbell 17 2) (vf17 8) (fun t => t.rd (F.Q_STAT_DB_OVR (qBase 17))) = some 1 := by
  decide +kernel

/-- The empty queue after reset: the first step runs the command in front. -/
theorem test_step_front : (match step { State.reset with pending := [.perstRelease] } with
    | .next t => t.pending == [] && !t.boot.perstLow | _ => false) = true := by decide +kernel

/-! ## States of the witnesses -/

def s1 : State := base.wr (F.CPLQ_TAIL_TAIL 0x3000) 3

def s2 : State := base.setWin 0 0x40 { base := 1020 }

def s3 : State := base.wr F.DBG_STAT_UNLOCKED 1

def s4 : State := (base.wr F.DBG_FREEZE_ALL 1).wrs [(F.PAGE_STAT_FROZEN 0x9000, 1), (F.PAGE_CTRL_FREEZE 0x9000, 1)]

def s5 : State := base.wrs [(F.ENV_EXT_CFG0_MODE 1, 1)]

/-- The host with one read of PF0 outstanding. -/
def reading (o : Output) : HostState := { base.host with reads := [(0, o)] }

def s6 : State := { base with que := { fetches := [{ fn := 0, slot := 15, n := 1 }] }, host := reading (.fetchRead 0 15 1) }

def s7 : State := base.wrs [(F.CMDQ_TAIL_TAIL 0x3000, 3)]

def s8 : State := { base.wrs [(F.CMDQ_TAIL_TAIL (qBase 1), 3)] with que := { visit := 1, inVisit := true, deficit := [(1, 8)] } }

def s9 : State := { base.wrs [(F.CMDQ_TAIL_TAIL 0x3000, 2)] with que := { fetches := [{ fn := 0, slot := 0, n := 2 }] }, host := reading (.fetchRead 0 0 2) }

def s10 : State := { base.wrs [(F.CPL_COAL_TIME 0x3000, 5), (F.CPL_COAL_COUNT 0x3000, 8)] with que := { coal := [(0, 3)] } }

def s11 : State := { csqBase with csq := { csqBase.csq with circuits := [(5, { state := 1, img := img5 })] } }

def s12 : State := { csqBase with que := { inflight := [{ id := 4, fn := 0, e := setE, owner := 0, wait := .admission }], nextId := 5 } }

def s13 : State := { csqBase with csq := { csqBase.csq with changes := [chg5] } }

def s14 : State := { csqBase with csq := { csqBase.csq with changes := [{ chg5 with st := 6 }], epochs := [{ num := 3, pin := false, st := 2, t := 5000 }] } }

def s15 : State := { acqBase with rcu := { acqBase.rcu with rings := [(20, { loop := 2, opt := .block, onCode := 20000 }), (cellRing 3 2 2, { loop := 3, opt := .on, goal := .on })] } }

def s16 : State := { csqBase with rcu := { csqBase.rcu with acqs := [20] }, csq := { csqBase.csq with changes := [{ chg5 with st := 4, rings := [20], units := [10] }], epochs := [{ num := 3, pin := false, st := 1 }] } }

def s17 : State := { csqBase with csq := { csqBase.csq with changes := [chg5], epochs := [{ num := 3, pin := false, st := 1, t := 10, late := true }] } }

def s18 : State := { csqBase with csq := { csqBase.csq with epochs := [{ num := 3, pin := false, st := 4, effect := 77 }] } }

def s19 : State := { slotBase with csq := { slotBase.csq with epochs := [{ num := 3, pin := false, st := 2, bySched := true }] } }

def s21 : State := litBase.wrs [(F.PFE_LASER_STAT_FAULT, 1), (F.PFE_LASER_STAT_LASER_EN, 0)]

def s22 : State := { litBase with rcu := { ilkPending := 1 } }

def s23 : State := { litBase.wrs [(F.CPM_PWR_STAT_DOM_ON, 0x3B)] with rcu := { ilkPending := 1 } }

def s24 : State := litBase.wrs [(F.PFE_LASER_STAT_LI0_LOSS, 1), (F.PFE_LASER_STAT_LASER_EN, 0)]

def s25 : State := { litBase.wrs [(F.PFE_LASER_STAT_LI0_LOSS, 1)] with rcu := { pulse := true } }

def s26 : State := litBase.wrs [(F.PORT_SHUT_STAT_STATE 2, 1), (F.PORT_SHUT_CTRL_OPEN 2, 1), (F.PORT_SHUT_CTRL_APR_EN 2, 1)]

def s27 : State := litBase.wrs [(F.PORT_SHUT_STAT_STATE 2, 2), (F.PORT_SHUT_STAT_PROBES 2, 4)]

def s28 : State := litBase.wrs [(F.PORT_SHUT_STAT_STATE 2, 3)]

def s29 : State := litBase.wrs [(F.PORT_SHUT_STAT_STATE 2, 3), (F.PORT_SHUT_STAT_PROBES 2, 4)]

def s30 : State := litBase.wrs [(F.PORT_SHUT_STAT_STATE 2, 1)]

def s31 : State := base.wrs [(F.RCU_SEARCH_STAT_STATE, 3)]

def s32 : State := litBase.wrs [(F.RCU_SEARCH_STAT_STATE, 1)]

def s33 : State := { litBase.wrs [(F.RCU_SEARCH_STAT_STATE, 2)] with rcu := { injectors := true, full := true, group := 1 } }

def s34 : State := { litBase.wrs [(F.RCU_SEARCH_STAT_STATE, 2)] with rcu := { injectors := true, full := false } }

def s35 : State := { litBase.wrs [(F.RCU_SEARCH_STAT_STATE, 3)] with rcu := { injectors := true, group := 1 } }

def s36 : State := { litBase.wrs [(F.RCU_SEARCH_STAT_STATE, 3)] with rcu := { injectors := true } }

def s37 : State := { litBase.wrs [(F.RCU_SEARCH_STAT_STATE, 4)] with rcu := { injectors := true, rings := [(9, { events := [10000, 10100, 10200, 10500, 10600, 10700, 10800] })] } }

def s38 : State := { litBase.wrs [(F.RCU_SEARCH_STAT_STATE, 5)] with rcu := { injectors := true, rings := [(200, { onCode := 10400, parkOfs := 25 })] } }

def s39 : State := { litBase.wrs [(F.RCU_SEARCH_STAT_STATE, 6)] with rcu := { injectors := true, round := 3, rings := [(20, { onCode := 10400, loop := 3 })] } }

def s40 : State := { litBase.wrs [(F.RCU_SEARCH_STAT_STATE, 6)] with rcu := { injectors := true, round := 16, rings := [(20, { onCode := 10400, loop := 3 })] } }

def s42 : State := { base with rcu := { everDone := true, rings := [(20, { loop := 2, opt := .on, goal := .on, inWin := 7, onCode := 20000 })], acqs := [20] } }

def s43 : State := { base.wrs [(F.RCU_LOOP_CFG_LOCK_WIN, 100)] with rcu := { everDone := true, rings := [(20, { loop := 3, opt := .on, goal := .on, outWin := 3, onCode := 20000 })] } }

def s44 : State := { base with rcu := { everDone := true, rings := [(20, { loop := 3, opt := .on, goal := .on, onCode := 20000 })] } }

def s45 : State := { calBase with rcu := { calBase.rcu with chans := [(18, { never := false, base := 640 })] } }

def s46 : State := { calBase with rcu := { calBase.rcu with attempts := [att18] } }

def s47 : State := { calBase with rcu := { calBase.rcu with attempts := [att18], chans := [(18, { never := false, base := 640 })] } }

def s48 : State := { calBase with rcu := { calBase.rcu with attempts := [{ att18 with step := .measA }] } }

def s49 : State := { calBase with rcu := { calBase.rcu with attempts := [{ att18 with step := .measB, a := some items18 }] } }

def s50 : State := { calBase with rcu := { calBase.rcu with attempts := [{ att18 with step := .measB, a := some items18, retry := 3 }] } }

def s51 : State := { calBase with rcu := { calBase.rcu with attempts := [{ att18 with step := .switchOut }] } }

def s52 : State := { calBase with rcu := { calBase.rcu with attempts := [{ att18 with step := .switchBack, acc := some items18 }], chans := [(18, Chan.setItems {} items18)] } }

def s53 : State := { calBase with rcu := { calBase.rcu with attempts := [{ att18 with step := .glide, acc := some items18 }] } }

def s55 : State := lnkBase.wrs [(F.LNK_TIME_CTRL_PARENT_EN, 1), (F.LNK_TIME_CTRL_PARENT, 2)]

def s57 : State := { lnkBase with lnk := { units := [(10, { circ := some 5, credit := 100, exp := 4, sinceSkip := 79 })] } }

def s60 : State := { lnkBase with lnk := { units := [(10, { circ := some 5, credit := 100, exp := 4, nakOut := true })] } }

def s63 : State := lnkBase.wrs [(F.PORT_TRAIN_STATE 2 0, 2)]

def s68 : State := lnkBase.wrs [(F.PORT_TRAIN_STATE 2 0, 3)]

def s69 : State := { lnkBase.wrs [(F.PORT_TRAIN_STATE 2 0, 3), (F.CSQ_CTRL_TRAIN_RETRY, 2)] with lnk := { units := [(10, { circ := some 5, byCsq := true })] } }

def s70 : State := lnkBase.wrs [(F.LNK_TIME_CTRL_PARENT_EN, 1), (F.LNK_TIME_STAT_SYNCED, 1), (F.CPM_TIME_STAT_TIME_STATE, 3)]

def s71 : State := { base with sec := { slots := [(6, { loaded := true, owner := 0, key := 77, salt := 3, lastSalt := 3 })] } }

def s72 : State := { base with host := reading (.hostRead 0 7 4096 64), que := { inflight := [{ id := 4, fn := 0, e := ent 0x30 [(0, 16, 7), (16, 0, 4096), (24, 0, 6)], owner := 0, wait := .hostRead }], nextId := 5 }, sec := { kek := some 0 } }

def s73 : State := { base with host := reading (.hostRead 0 7 4096 256), que := { inflight := [{ id := 4, fn := 0, e := ent 0x12 [(0, 16, 7), (16, 0, 4096), (24, 0, 3)], owner := 0, wait := .hostRead }], nextId := 5 } }

def s74 : State := base.wrs [(F.SEC_TAMPER_POL_POL, 0x10)]

def s76 : State := { base.wrs [(F.SEC_STAT_ERASE, 2)] with sec := { slots := [(6, { loaded := true })], kek := some 0 } }

def s77 : State := base.wrs [(F.SEC_STAT_FENCE, 1)]

def s78 : State := base.wrs [(F.SEC_STAT_FENCE, 1), (F.SEC_TAMPER_STAT_ACTIVE, 2), (F.SEC_TAMPER_POL_POL, 4)]

def s79 : State := base.wrs [(F.SEC_KEYRANGE_BASE 2, 10), (F.SEC_KEYRANGE_COUNT 2, 10)]

def s80 : State := jnlBase.wrs [(F.JNL_USED_BYTES, 8388608)]

def s81 : State := { jnlBase with jnl := { jnlBase.jnl with prog := rec8.bytes } }

def s82 : State := { jnlBase with jnl := { jnlBase.jnl with prog := rec8.bytes } }

def s83 : State := { jnlBase.wrs [(F.JNL_STAT_CSTATE, 5)] with jnl := { jnlBase.jnl with prog := (mrk 1 true).bytes, progComp := true, comp := [mrk 1 true] } }

def s84 : State := base.wrs [(F.JNL_CFG_BYPASS, 1)]

def s85 : State := { jnlBase with jnl := { jnlBase.jnl with firstErases := 2 } }

def s86 : State := jnlBase.wrs [(F.JNL_STAT_CSTATE, 1)]

def s87 : State := jnlBase.wrs [(F.JNL_STAT_CSTATE, 2)]

def s88 : State := base.wrs [(F.JNL_STAT_RSTATE, 1)]

def s90 : State := { jnlBase.wrs [(F.JNL_STAT_RSTATE, 2)] with jnl := { regA := jrn 4 [], regB := jrn 3 [] } }

def s91 : State := { jnlBase.wrs [(F.JNL_STAT_RSTATE, 2)] with jnl := {} }

def s92 : State := { jnlBase.wrs [(F.JNL_STAT_RSTATE, 3)] with jnl := { regA := jrn 4 [{ rec8 with seq := 2 }] } }

def s93 : State := base.wrs [(F.PORT_CRC_ERR_COUNT 3, 19)]

def s94 : State := { base with time := { now := 0x123456789A } }

def s95 : State := { base with req := [(0, { hold := [(0xBC08 + 64 * 2, 55)] })] }

def s96 : State := { base.wrs [(F.PAGE_STAT_LOCK_ARMED 0xD000, 1)] with locks := [(13, 0)] }

def s97 : State := base.wrs [(F.GLB_SCRATCH_SCRATCH, 9)]

def s99 : State := { csqBase with csq := { circuits := [(5, { state := 1, img := img5 })] }, req := [(0, { wins := [(0x40, { staged := some (5, [(4, 66)]) })] })] }

def s100 : State := base.wrs [(F.CPLQ_TAIL_TAIL 0x3000, 6)]

def s101 : State := base.wrs [(F.Q_CTRL_CMD_EN 0x3000, 0), (F.CMDQ_TAIL_TAIL 0x3000, 6)]

def s102 : State := base.wrs [(F.Q_CTRL_CPL_EN 0x3000, 0)]

def s103 : State := base.wrs [(F.Q_STAT_HALTED 0x3000, 1)]

def s104 : State := { twnBase 1 with twn := { lastEpoch := 3 } }

def s105 : State := { twnBase 1 with twn := { buf := [{ n := 20, rcd := rec8 }] } }

def s106 : State := twnBase 2

def s107 : State := (twnBase 2).wrs [(F.PAGE_STAT_FROZEN 0x8000, 1)]

def s108 : State := { base with jnl := { asked := 6, durable := 3 } }

def s109 : State := base.wrs [(F.ATM_GA_GA 0xB000 1, 2 ^ 36)]

def s110 : State := base.wrs [(F.ATM_GA_GA 0xB000 1, 9 * 2 ^ 50 + 64), (F.PAGE_CTRL_EN 0xB000, 0), (F.ATM_CTRL_OP 0xB000 1, 2)]

def s111 : State := base.wrs [(F.ATM_STAT_BUSY 0xB000 1, 1)]

def s112 : State := base.wrs [(tstate 0, 0)]

def s113 : State := { recBase 2 with fcu := { fences := [(16, 1, 2), (17, 1, 3)] } }

def s114 : State := recBase 4

def s115 : State := base.wrs [(F.FCU_FENCE_PORTS, 8)]

def s116 : State := { (recBase 2).wrs [(F.FCU_FENCE_PORTS, 4)] with fcu := { fences := [(16, 1, 2)] } }

def s117 : State := base.wrs [(F.FCU_PRIOR_VALID, 1)]

def s118 : State := { base with evr := { log := [evr1] } }

def s119 : State := { base with evr := { log := [evr1] }, req := [(0, { evCap := some (some evr1), cursor := 5 })] }

def s120 : State := base.wrs [(F.STA_LIVE_COUNT 0, 33)]

def s121 : State := base.wrs [(F.ENV_EXT_RAW_VALID 1, 1)]

def s122 : State := { base with evr := { staging := [evr1] } }

def s123 : State := { base with evr := { staging := [evr1], log := [evr1] } }

def s124 : State := base.wrs [(F.CPM_PMB_CFG_PMB_OK, 1), (F.CPM_OP_CUR, 2), (F.CPM_OP_TARGET, 2)]

def s125 : State := base.wrs [(F.CPM_PWR_STAT_PSTATE, 9)]

def s126 : State := base.wrs [(F.CPM_CLK_STAT_REFCLK_CHANGED, 1)]

def s127 : State := base.wrs [(F.CPM_CLK_STAT_REFCLK_CHANGED, 1), (F.CPM_CLK_STAT_BYPASS, 1), (F.CPM_PWR_STAT_PSTATE, 7), (F.CPM_CLK_STAT_ROOT_LOCK, 0), (F.CPM_PWR_STAT_DOM_ON, 3)]

def s128 : State := base.wrs [(F.CPM_PAD_HOLD_HELD, 15)]

def s129 : State := base.wrs [(F.LNK_TIME_CTRL_ROOT, 1), (F.CPM_TIME_STAT_TIME_STATE, 5)]

def s130 : State := base.wrs [(F.LNK_TIME_CTRL_PARENT_EN, 1)]

def s131 : State := { base with jnl := { regA := jrn 1 [] } }

def s132 : State := base.wrs [(F.DBG_STAT_UNLOCKED, 1)]

def s133 : State := { base.wrs [(F.DBG_STAT_UNLOCKED, 1)] with locks := [(13, 0)] }

def s134 : State := { base with dbg := { data := 55, stat := 2 } }

def s135 : State := base.wrs [(F.GLB_SCRATCH_SCRATCH, 66)]

def s136 : State := base.wrs [(F.DBG_STAT_UNLOCKED, 1), (F.PORT_CRC_ERR_COUNT 3, 8)]

def s137 : State := twnBase 1

def s138 : State := twnBase 3

def s139 : State := { twnBase 1 with twn := { sendq := [{ n := 1, rcd := rec8 }] }, jnl := { durable := 4 } }

def s140 : State := { twnBase 1 with twn := { sendq := [{ n := 1, rcd := rec8 }], buf := List.replicate 2048 { n := 1, rcd := rec8 } }, jnl := { durable := 4 } }

def s141 : State := { twnBase 2 with twn := { exp := some 6, gap := true } }

def s142 : State := (twnBase 2).wrs [(F.TWN_STAT_TKO, 2), (F.TWN_STAT_MISSES, 1)]

def s143 : State := { (twnBase 2).wrs [(F.TWN_STAT_TKO, 3), (F.TWN_STAT_MISSES, 2)] with twn := { group := [rec8] } }

def s144 : State := (twnBase 1).wrs [(F.TWN_STAT_MISSES, 2)]

def s145 : State := { twnBase 1 with twn := { handing := true, sendq := [{ n := 1, rcd := rec8 }], held := [{ n := 2, rcd := rec8 }] } }

def s146 : State := (twnBase 2).wrs [(F.TWN_STAT_TKO, 2), (F.TWN_STAT_MISSES, 2)]

def s147 : State := { twnBase 2 with twn := { exp := some 21 } }

def s149 : State := { twnBase 1 with twn := { buf := [{ n := 19, rcd := recSched }, { n := 20, rcd := rec8 }] } }

def s150 : State := { twnBase 1 with twn := { needFull := true } }

def s151 : State := (twnBase 2).wrs [(F.TWN_STAT_TKO, 5)]

def s152 : State := base.wrs [(tstate 0, 1)]

def s153 : State := { base.wrs [(tstate 0, 3)] with mss := { mem := [(3, 5), (2 ^ 34, 6)] } }

def s154 : State := base.wrs [(tstate 0, 2)]

def s155 : State := base.wrs [(F.MSS_CFG_SCRUB_EN, 1), (F.MSS_SCRUB_POS_POS 0, 5)]

def s156 : State := base.wrs [(F.MSS_CFG_SCRUB_EN, 1), (F.MSS_SCRUB_POS_POS 0, 2 ^ 28 - 1)]

def s157 : State := { base.wrs [(F.MSS_CFG_SCRUB_EN, 1)] with time := { now := 2 ^ 60 } }

def s158 : State := { base with mss := { mem := [(70, 4)], poison := [1] } }

def s159 : State := base.wrs [(F.ENV_CFG_TEMP_HI, 6400)]

def s160 : State := base.wrs [(F.ENV_EXT_CFG0_MODE 1, 1), (F.ENV_EXT_CFG0_EXC 1, 1)]

def s161 : State := base.wrs [(F.ENV_SUP_HIGH 2, 1)]

def s162 : State := { base.wrs [(F.CMDQ_TAIL_TAIL (qBase 1), 3)] with que := { inflight := [{ id := 2, fn := 1, e := ent 1 [], owner := 1, wait := .fence }], nextId := 3 } }

def s163 : State := { base with host := { base.host with flr := [1] } }

def s164 : State := base.wrs [(F.HIF_LINK_STAT_SPEED, 5), (F.GLB_FORM_FORM, 1)]

def s165 : State := base.wrs [(F.HIF_LINK_STAT_UP, 0), (F.GLB_FORM_FORM, 1)]

def s166 : State := base.wrs [(F.HIF_LINK_STAT_UP, 0), (F.GLB_FORM_FORM, 0)]

def s167 : State := base.wrs [(F.HIF_NMA_PEND0_PEND, 2)]

def s168 : State := base.setHostFn 0 { bme := true, msix := true, unmasked := [], pba := [5] }

def s169 : State := { rmeBase with rme := { ops := [wop] } }

def s170 : State := rmeBase.wrs [(tstate 0, 1)]

def s172 : State := { rmeBase with rme := { ops := [sentOp 0 .read] } }

def s173 : State := { rmeBase with rme := { ops := [sentOp 1 .write] } }

def s174 : State := { rmeBase.wrs [(F.ATM_STAT_BUSY 0xB000 1, 1)] with rme := { ops := [sentOp 2 (.atomic 1)] } }

def s175 : State := { rmeBase with rme := { ops := [{ sentOp 1 .write with stage := .quarantined }] } }

def s176 : State := { base with rdx := { cmds := [redCmd 1 []] } }

def s177 : State := { base with rdx := { cmds := [redCmd 1 []] }, que := { inflight := [redFly 1], nextId := 5 } }

def s178 : State := { rmeBase with rdx := { unexp := [(5, { cmsg with data := List.replicate 2097150 0 })] } }

def s179 : State := { rmeBase with rdx := { cmds := [redCmd 1 [stRecv]] } }

def s180 : State := { rmeBase with rdx := { cmds := [redCmd 1 [stRecv2]] } }

def s181 : State := { rmeBase with rdx := { unexp := [(5, cmsg)] } }

def s182 : State := { base with rdx := { cmds := [redCmd 2 [stNop]] } }

def s183 : State := { base.wrs [(F.FCU_FENCE_STACKS, 1)] with rdx := { cmds := [redCmd 2 [stLocal]] }, que := { inflight := [redFly 2], nextId := 5 } }

def s184 : State := { base with rdx := { cmds := [redCmd 2 [{ stLocal with st := 1 }]] }, mss := { mem := [(67, 0x40), (131, 0x3F)] } }

def s185 : State := { base with rdx := { cmds := [redCmd 2 [{ stLocal with st := 1 }]] }, que := { inflight := [redFly 2], nextId := 5 } }

def s186 : State := { base.wrs [(F.PFE_LI0_LINES_PRESENT, 0x1FF), (F.PORT_SHUT_STAT_STATE 2, 1), (F.PORT_SHUT_CTRL_OPEN 2, 1)] with rcu := { everDone := true } }

def s187 : State := psmBase 1 (prun 1 0 100)

def s188 : State := psmBase 2 (prun 0 0 100)

def s189 : State := psmBase 3 (prun 1 0 100)

def s190 : State := psmBase 4 (prun 1 0 100)

def s191 : State := psmBase 4 (prun 0 0 100)

def s192 : State := psmBase 5 (prun 0 0 100)

def s193 : State := psmBase 4 { prun 0 0 4 with trimmed := true }

def s194 : State := psmBase 5 (prun 1 0 100)

def s195 : State := psmBase 5 { prun 1 1 100 with done := 100, ovr := [7] }

def s196 : State := psmBase 6 (prun 0 1 100)

def s197 : State := psmBase 6 { prun 0 1 100 with listed := [7] }

def s198 : State := psmBase 6 { prun 1 1 100 with listed := [7], ovr := [7] }

def s199 : State := psmBase 7 (prun 0 1 100)

def s200 : State := psmBase 9 (prun 0 1 100)

def s201 : State := opBase 2

def s202 : State := { (opBase 2).wrs [(F.CPM_OP_TARGET, 0)] with cpm := { goal := 0, prevMv := 750 } }

def s203 : State := opBase 3

def s204 : State := { opBase 3 with cpm := { goal := 2, prevMv := 750, reads := 15 } }

def s205 : State := opBase 4

def s206 : State := base.wrs [(F.CPM_PWR_MODE_ENGINE_OFF, 1)]

def s207 : State := { base.wrs [(F.CPM_PWR_STAT_PSTATE, 1)] with cpm := { mode := 2 ^ 5 }, que := { inflight := [sleepFly], nextId := 5 } }

def s208 : State := { base.wrs [(F.CPM_PWR_STAT_PSTATE, 1), (F.CPM_OP_OPSTATE, 4)] with que := { inflight := [sleepFly], nextId := 5 } }

def s209 : State := base.wrs [(F.CPM_PWR_STAT_PSTATE, 3), (F.CPM_PWR_MODE_HOST_OFF, 1)]

def s210 : State := base.wrs [(F.CPM_PWR_STAT_PSTATE, 3), (F.CPM_PWR_MODE_HOST_OFF, 1), (F.CPM_PWR_MODE_LANE_OFF, 1)]

def s211 : State := base.wrs [(F.CPM_PWR_STAT_PSTATE, 5)]

def s212 : State := base.wrs [(F.CPM_PWR_STAT_PSTATE, 3)]

def s213 : State := base.wrs [(F.CPM_WAKE_EN_OPT, 0)]

def s214 : State := asleep.wrs [(F.CPM_PWR_STAT_PSTATE, 6)]

def s215 : State := { asleep.wrs [(F.CPM_PWR_STAT_PSTATE, 6)] with fcu := { supplyFail := true, wakeSupply := true } }

def s216 : State := asleep.wrs [(F.CPM_PWR_STAT_PSTATE, 7), (F.CPM_AON_TRIM_K, 1024)]

def s217 : State := base.wrs [(F.CPM_PWR_STAT_PSTATE, 8)]

def s218 : State := base.wrs [(F.FCU_REC_W0_VALID 22, 1), (F.FCU_REC_W0_CLASS 22, 1), (F.FCU_REC_W0_COUNT 22, 6), (F.FCU_REC_W1_SCOPE_KIND 22, 1), (F.FCU_REC_W1_SCOPE 22, 3)]

def s220 : State := State.reset

def s222 : State := State.reset.wrs [(F.CPM_BOOT_STAGE, 2)]

def s223 : State := State.reset.wrs [(F.CPM_BOOT_STAGE, 4)]

def s224 : State := base.wrs [(F.CPM_BOOT_STAGE, 5)]

def s225 : State := base.wrs [(F.CPM_BOOT_STAGE, 6), (F.CPM_PWR_STAT_DOM_ON, 3)]

def s226 : State := base.wrs [(F.CPM_BOOT_STAGE, 7)]

def s227 : State := { base with dbg := { ir := 0, drvPins := true } }

def s229 : State := base.wrs [(F.DBG_STAT_HOLDOFF, 1)]

def s230 : State := { base with sec := { kek := some 99 }, dbg := { chal := some 1234 } }

def s232 : State := { acqBase with rcu := { acqBase.rcu with everDone := false } }

def s233 : State := { csqBase with csq := { csqBase.csq with epochs := [{ num := 3, pin := false, st := 4, effect := 77, moved := [(6, { state := 1, img := { img5 with path := 1 } })] }] } }

def s234 : State := { csqBase with csq := { csqBase.csq with epochs := [{ num := 3, pin := false, st := 4, effect := 77, drained := true, moved := [(6, { state := 1, img := { img5 with path := 1 } })] }] } }

def s235 : State := { litBase.wrs [(F.RCU_SEARCH_STAT_STATE, 3)] with rcu := { injectors := true, full := true, rings := [(7, { loop := 5, htrFault := true, htrSeen := some true })] } }

def s236 : State := { litBase.wrs [(F.RCU_SEARCH_STAT_STATE, 6), (F.PORT_SHUT_CTRL_LOOP 2, 1)] with rcu := { injectors := true, round := 16 } }

def s237 : State := { base with rcu := { everDone := true, rings := [(20, { loop := 3, opt := .on, goal := .on, onCode := 20000, live := 20000 })] } }

def s238 : State := { lnkBase with lnk := { units := [(10, { circ := some 5, credit := 100, fill := [(.skip, .skip)] })] } }

def s239 : State := { lnkBase with lnk := { units := [(10, { circ := some 5, credit := 100, fill := [(.skip, .skip)], replay := [dflit] })] } }

def s240 : State := { lnkBase with lnk := { units := [(10, { circ := some 5, credit := 100, next := 9, alloc := 8, fill := [(.skip, .skip)] })], circs := [(5, { tx := 17, txq := [(1, [1, 2, 3]), (2, [4])] })] } }

def s241 : State := { lnkBase with
    lnk := { units := [(10, { circ := some 5, credit := 100, next := 9, alloc := 8, fill := [(.skip, .skip)] })], circs := [(5, { relay := [{ side := 1, unit := none, flit := dflit }] })] }
    csq := { circuits := [(5, { state := 1, img := { img5 with path := 2, portB := 3, pairsB := 1 } })] } }

def s242 : State := lnkBase.wrs [(F.PORT_TRAIN_STATE 2 4, 0), (F.PORT_TRAIN_FAIL 2 4, 1), (F.PFE_LI0_LINES_PRESENT, 0x1FF)]

def s243 : State := jnlBase.wrs [(F.JNL_STAT_CSTATE, 6)]

def s244 : State := { jnlBase.wrs [(F.JNL_STAT_CSTATE, 1)] with jnl := { jnlBase.jnl with recover := 2, regA := {} } }

def s245 : State := jnlBase.wrs [(F.JNL_CFG_ERASE_AHEAD, 4)]

def s246 : State := { jnlBase.wrs [(F.JNL_STAT_RSTATE, 2)] with jnl := { regA := jrn 3 [], regB := jrn 4 [] } }

def s247 : State := { jnlBase.wrs [(F.JNL_STAT_RSTATE, 3)] with jnl := { regA := { jrn 4 [] with bytes := (jrn 4 []).bytes ++ List.replicate 16 7 } } }

def s248 : State := { twnBase 1 with twn := { resend := [{ n := 20, rcd := rec8 }], sendq := [{ n := 21, rcd := rec8 }] } }

def s249 : State := { twnBase 1 with twn := { sendq := [{ n := 9, rcd := rec8 }] }, jnl := { durable := 4 } }

def s250 : State := { twnBase 1 with twn := { ackEpoch := 3, buf := [{ n := 19, rcd := rec8 }, { n := 20, rcd := recSched }] } }

def s251 : State := { s73.wr F.JNL_CFG_BYPASS 1 with pending := [] }

def s252 : State := { s176 with host := { s176.host with reads := [(0, .hostRead 0 7 4096 32)] } }

def s253 : State := { s177 with host := { s177.host with reads := [(0, .hostRead 0 7 4096 32)] } }

def s254 : State := { rmeBase with rme := { ops := [{ sentOp 0 .read with flr := true }] } }

/-- The room that one held message of n data bytes takes. -/
theorem unexpUsed_full (n : Nat) (s : State) (h : s.rdx.unexp = [(5, { cmsg with data := List.replicate n 0 })]) :
    s.unexpUsed = 16 + n := by
  simp [State.unexpUsed, h, msgBytes]

/-- A unit whose one slot has both halves can take it. -/
theorem ready_one (y : RxSlot) (x : LinkUnit) (hx : x.slots = [y]) (h : (y.h0.isSome && y.h1.isSome && !y.bad0 && !y.bad1) = true) :
    x.ready = some y := by
  unfold LinkUnit.ready
  rw [hx]
  simp only [h, if_true]

/-! ## Witnesses -/

theorem witness_DoorbellsFollowTheRule :
    (∃ (f : Fn) (v : Word) (s : State), s.queWrites f = true ∧ (v.toNat % 2 ^ 12 < depth s (F.CMDQ_SIZE_SIZE (qBase f.val)) ∧
      modSub (depth s (F.CMDQ_SIZE_SIZE (qBase f.val))) (v.toNat % 2 ^ 12) (s.rd (F.CMDQ_TAIL_TAIL (qBase f.val))) ≤ modSub (depth s (F.CMDQ_SIZE_SIZE (qBase f.val))) (s.rd (F.CMDQ_HEAD_HEAD (qBase f.val)) + depth s (F.CMDQ_SIZE_SIZE (qBase f.val)) - 1) (s.rd (F.CMDQ_TAIL_TAIL (qBase f.val))))) ∧
    (∃ (f : Fn) (v : Word) (s : State), s.queWrites f = true ∧ (¬ (v.toNat % 2 ^ 12 < depth s (F.CMDQ_SIZE_SIZE (qBase f.val)) ∧
      modSub (depth s (F.CMDQ_SIZE_SIZE (qBase f.val))) (v.toNat % 2 ^ 12) (s.rd (F.CMDQ_TAIL_TAIL (qBase f.val))) ≤ modSub (depth s (F.CMDQ_SIZE_SIZE (qBase f.val))) (s.rd (F.CMDQ_HEAD_HEAD (qBase f.val)) + depth s (F.CMDQ_SIZE_SIZE (qBase f.val)) - 1) (s.rd (F.CMDQ_TAIL_TAIL (qBase f.val)))))) ∧
    (∃ (f : Fn) (v : Word) (s : State), s.queWrites f = true ∧ (v.toNat % 2 ^ 12 < depth s (F.CPLQ_SIZE_SIZE (qBase f.val)) ∧
      modSub (depth s (F.CPLQ_SIZE_SIZE (qBase f.val))) (v.toNat % 2 ^ 12) (s.rd (F.CPLQ_HEAD_HEAD (qBase f.val))) ≤ modSub (depth s (F.CPLQ_SIZE_SIZE (qBase f.val))) (s.rd (F.CPLQ_TAIL_TAIL (qBase f.val))) (s.rd (F.CPLQ_HEAD_HEAD (qBase f.val))))) ∧
    (∃ (f : Fn) (v : Word) (s : State), s.queWrites f = true ∧ (¬ (v.toNat % 2 ^ 12 < depth s (F.CPLQ_SIZE_SIZE (qBase f.val)) ∧
      modSub (depth s (F.CPLQ_SIZE_SIZE (qBase f.val))) (v.toNat % 2 ^ 12) (s.rd (F.CPLQ_HEAD_HEAD (qBase f.val))) ≤ modSub (depth s (F.CPLQ_SIZE_SIZE (qBase f.val))) (s.rd (F.CPLQ_TAIL_TAIL (qBase f.val))) (s.rd (F.CPLQ_HEAD_HEAD (qBase f.val)))))) :=
  ⟨⟨(0 : Fn), (15 : Word), base, by decide +kernel⟩,
    ⟨(0 : Fn), (16 : Word), base, by decide +kernel⟩,
    ⟨(0 : Fn), (3 : Word), s1, by decide +kernel⟩,
    ⟨(0 : Fn), (4 : Word), s1, by decide +kernel⟩⟩

theorem witness_WindowWordsBeyondTheTable :
    (∃ (r : Req) (win : Fin 5) (word : Fin 512) (s : State), s.pfWrites r (0x40 + win.val) = true ∧
      (winInfo (0x40 + win.val)).1 ≤ (winSlot (s.winOf r.val (0x40 + win.val)) (0x40 + win.val) (0x800 + 4 * word.val)).1) ∧
    (∃ (r : Req) (win : Fin 5) (word : Fin 512) (s : State), s.pfReads r (0x40 + win.val) = true ∧
      (winInfo (0x40 + win.val)).1 ≤ (winSlot (s.winOf r.val (0x40 + win.val)) (0x40 + win.val) (0x800 + 4 * word.val)).1) :=
  ⟨⟨(0 : Req), (0 : Fin 5), (64 : Fin 512), s2, by decide +kernel⟩,
    ⟨(0 : Req), (0 : Fin 5), (64 : Fin 512), s2, by decide +kernel⟩⟩

theorem witness_LockedApertureDenies :
    (∃ (x : BitVec 18) (s : State), s.domOn 1 = true ∧ s.on F.DBG_STAT_UNLOCKED = false ∧
      (4 * x.toNat / 0x1000 = 0x00 ∨ 4 * x.toNat / 0x1000 = 0x22)) ∧
    (∃ (x : BitVec 18) (s : State), s.domOn 1 = true ∧ s.on F.DBG_STAT_UNLOCKED = false ∧
      (¬ (4 * x.toNat / 0x1000 = 0x00 ∨ 4 * x.toNat / 0x1000 = 0x22))) ∧
    (∃ (s : State), s.domOn 1 = true ∧ s.on F.DBG_STAT_UNLOCKED = false) ∧
    (∃ (s : State), s.domOn 1 = true ∧ s.on F.DBG_STAT_UNLOCKED = false) :=
  ⟨⟨0x18, base, by decide +kernel⟩,
    ⟨0x1000, base, by decide +kernel⟩,
    ⟨base, by decide +kernel⟩,
    ⟨base, by decide +kernel⟩⟩

theorem witness_DieSensorFlags :
    (∃ (s : State), s.en 0x21 = true ∧ s.domOn 1 = true) :=
  ⟨base, by decide +kernel⟩

theorem witness_OnlyTheApertureFreezes :
    (∃ (s : State), s.pfWrites 65 0x22 = true) ∧
    (∃ (s : State), s.pfWrites 65 0x22 = true) ∧
    (∃ (s : State), s.on F.DBG_STAT_UNLOCKED = false) ∧
    (∃ (s : State), s.pfWrites 0 0x22 = true) ∧
    (∃ (s : State), s.pfWrites 0 0x22 = true) ∧
    (∃ (pg : PageIx) (s : State), s.reaches 0 (0x1000 * pg.val) = true ∧ freezable.any (fun x => x.1 == pg.val) = true ∧
      s.on (F.PAGE_CTRL_FREEZE (0x1000 * pg.val)) = false) ∧
    (∃ (s : State), 4 ≤ s.stage) ∧
    (∃ (r : Req) (v : Word) (s : State), s.pfWrites r 1 = true ∧ v.toNat % 2 ^ 16 = 0xA5C3) ∧
    (∃ (p : PairTrace) (o : Onset) (s : State), s.traceOnset? p = some o ∧ s.on (F.FCU_REC_W0_VALID o.src.val) = false ∧
      s.riseClass o (s.onsetClass o) = 3 ∧ (o.inj = false ∨ s.on F.FCU_CTRL_DRY = false)) :=
  ⟨⟨s3, by decide +kernel⟩,
    ⟨s3, by decide +kernel⟩,
    ⟨base, by decide +kernel⟩,
    ⟨base, by decide +kernel⟩,
    ⟨base, by decide +kernel⟩,
    ⟨(9 : PageIx), base, by decide +kernel⟩,
    ⟨s4, by decide +kernel⟩,
    ⟨(0 : Req), 0xA5C3, s4, by decide +kernel⟩,
    ⟨(trc 3), ((base.traceOnset? (trc 3)).get (by decide +kernel)), base, by decide +kernel⟩⟩

theorem witness_ReversedInputs :
    (∃ (n : Fin 4) (x : ExtConv) (s : State), s.extRuns n.val = true ∧ (∀ up, s.extRaw n.val x up < -41943)) ∧
    (∃ (n : Fin 4) (x : ExtConv) (s : State), s.extRuns n.val = true ∧ (∀ up, -41943 ≤ s.extRaw n.val x up)) :=
  ⟨⟨(1 : Fin 4), ({ vac := -50000 * 2 ^ 17, vbc := 0, vab := 0 }), s5, by decide +kernel⟩,
    ⟨(1 : Fin 4), ({ vac := 80000 * 2 ^ 17, vbc := 0, vab := 0 }), s5, by decide +kernel⟩⟩

theorem witness_EnvironmentInjection :
    (∃ (r : Req) (v : Word) (s : State), (r.val = 0 ∨ r.val = 65) ∧ s.reaches r 0x21024 = true ∧ v.toNat < 16) :=
  ⟨(0 : Req), (15 : Word), base, by decide +kernel⟩

theorem witness_BadCommands :
    (∃ row ∈ commandRows, ∃ (f : Fn) (e : Block64) (d : Cmd) (u : State) (s : State), opcode e = row.1 ∧ s.start f e = some (d, u) ∧
      d.noEntry = false ∧ u.que.inflight = [d] ∧ d.fn = f ∧ s.completes f = true ∧ reservedSet e = true) ∧
    (∃ row ∈ commandRows, ∃ (f : Fn) (e : Block64) (d : Cmd) (u : State) (s : State), opcode e = row.1 ∧ s.start f e = some (d, u) ∧
      d.noEntry = false ∧ u.que.inflight = [d] ∧ d.fn = f ∧ s.completes f = true ∧ reservedSet e = false ∧
      mayIssue f (opcode e) = false) ∧
    (∃ row ∈ commandRows, ∃ (f : Fn) (e : Block64) (d : Cmd) (u : State) (s : State), opcode e = row.1 ∧ s.start f e = some (d, u) ∧
      d.noEntry = false ∧ u.que.inflight = [d] ∧ d.fn = f ∧ s.completes f = true ∧ reservedSet e = false ∧
      mayIssue f (opcode e) = true ∧ ownerField e ≠ 0 ∧ (f.val ≠ 0 ∨ s.partExists (ownerField e) = false)) ∧
    (∃ (f : Fn) (e : Block64) (x : Fetch) (s : State), s.que.fetches.find? (fun y => y.fn == f) = some x ∧ x.n = 1 ∧
      s.host.reads = [(f, .fetchRead f x.slot x.n)] ∧ s.host.waiting = [] ∧
      s.rme.ops.any (fun o => o.fn == f && o.bell && o.stage != .quarantined) = false ∧ s.que.inflight = [] ∧ s.completes f = true ∧
      commandRows.all (fun row => row.1 != opcode e) = true) :=
  ⟨⟨(0x10, .circuitSet), by simp [commandRows], 0, ent 16 [(1, 1, 1)], ((base.start 0 (ent 16 [(1, 1, 1)])).get (by decide +kernel)).1,
      ((base.start 0 (ent 16 [(1, 1, 1)])).get (by decide +kernel)).2, base, by decide +kernel⟩,
    ⟨(0x10, .circuitSet), by simp [commandRows], 1, ent 16 [], ((base.start 1 (ent 16 [])).get (by decide +kernel)).1,
      ((base.start 1 (ent 16 [])).get (by decide +kernel)).2, base, by decide +kernel⟩,
    ⟨(0x10, .circuitSet), by simp [commandRows], 0, ent 16 [(4, 0, 70)], ((base.start 0 (ent 16 [(4, 0, 70)])).get (by decide +kernel)).1,
      ((base.start 0 (ent 16 [(4, 0, 70)])).get (by decide +kernel)).2, base, by decide +kernel⟩,
    ⟨(0 : Fn), (ent 0x55 []), ((s6.que.fetches.find? (fun y => y.fn == (0 : Fn))).get (by decide +kernel)), s6, by decide +kernel⟩⟩

theorem witness_QueueCommands :
    (∃ (f : Fn) (e : Block64) (d : _) (u : _) (s : State), s.begins? 3 f e = some (d, u) ∧ opcode e = 0 ∧ s.completes f = true) ∧
    (∃ (f : Fn) (e : Block64) (d : _) (u : _) (s : State), s.begins? 3 f e = some (d, u) ∧ opcode e = 1 ∧ u.que.inflight = [d] ∧
      s.completes f = true) ∧
    (∃ (s : State), s.fetchable 0 ≠ 0 ∧ s.fetching 0 = false ∧
      s.canMake 0 (.fetchRead 0 (s.rd (F.CMDQ_HEAD_HEAD (qBase 0))) (s.fetchable 0)) = true) ∧
    (∃ (f : Fn) (s : State), (s.fetchable 0 = 0 ∨ s.fetching 0 = true) ∧ 1 ≤ f.val ∧ s.que.visit = f.val ∧ s.que.inVisit = true ∧
      s.fetchable f ≠ 0 ∧ s.fetching f = false ∧ s.fetchable f ≤ Tbl.get 0 s.que.deficit f.val ∧
      Tbl.get 0 s.que.deficit f.val ≤ 2 * s.rd (F.QUE_WEIGHT_WEIGHT f.val)) ∧
    (∃ (f : Fn) (es : List Block64) (x : _) (s : State), s.que.fetches.find? (fun y => y.fn == f) = some x ∧
      s.host.reads = [(f, .fetchRead f x.slot x.n)] ∧ s.host.waiting = [] ∧ es.length = x.n ∧
      (f.val ≠ 0 ∨ es.all (fun e => opcode e != 2) = true)) ∧
    (∃ (f : Fn) (x : _) (s : State), s.que.fetches.find? (fun y => y.fn == f) = some x ∧ s.host.reads = [(f, .fetchRead f x.slot x.n)] ∧
      s.host.waiting = [] ∧ 0 < x.n) ∧
    (∃ (f : Fn) (s : State), s.rd (F.CPL_COAL_TIME (qBase f.val)) ≠ 0 ∧ Tbl.get 0 s.que.coal f.val ≠ 0 ∧ s.canVector f.val 1 = true) :=
  ⟨⟨(0 : Fn), (ent 0 [(0, 16, 7)]), ((base.begins? 3 (0 : Fn) (ent 0 [(0, 16, 7)])).get (by decide +kernel)).1,
      ((base.begins? 3 (0 : Fn) (ent 0 [(0, 16, 7)])).get (by decide +kernel)).2, base, by decide +kernel⟩,
    ⟨(0 : Fn), (ent 1 [(0, 16, 7)]), ((base.begins? 3 (0 : Fn) (ent 1 [(0, 16, 7)])).get (by decide +kernel)).1,
      ((base.begins? 3 (0 : Fn) (ent 1 [(0, 16, 7)])).get (by decide +kernel)).2, base, by decide +kernel⟩,
    ⟨s7, by decide +kernel⟩,
    ⟨(1 : Fn), s8, by decide +kernel⟩,
    ⟨(0 : Fn), ([ent 0 [(0, 16, 7)], ent 1 []]), ((s9.que.fetches.find? (fun y => y.fn == (0 : Fn))).get (by decide +kernel)), s9,
      by decide +kernel⟩,
    ⟨(0 : Fn), ((s9.que.fetches.find? (fun y => y.fn == (0 : Fn))).get (by decide +kernel)), s9, by decide +kernel⟩,
    ⟨(0 : Fn), s10, by decide +kernel⟩⟩

theorem witness_CsqAdmission :
    (∃ (f : Fn) (e : Block64) (d : _) (u : _) (ep : _) (s : State), s.begins? 7 f e = some (d, u) ∧ opcode e = 0x10 ∧
      u.que.inflight = [d] ∧ s.completes f = true ∧ s.frozen 7 = false ∧ s.csqNext = none ∧ s.openEpoch? = some ep ∧
      s.r199 (byteField e 16 0 10) ep.num (effOwner f e) false (imageOfEntry e) = none ∧ s.queueRoom (effOwner f e) = true ∧
      s.r218 (byteField e 16 0 10) ep.num = (none, none)) ∧
    (∃ (f : Fn) (e : Block64) (d : _) (u : _) (ep : _) (s : State), s.begins? 7 f e = some (d, u) ∧ opcode e = 0x11 ∧
      u.que.inflight = [d] ∧ s.completes f = true ∧ s.frozen 7 = false ∧ s.csqNext = none ∧ s.openEpoch? = some ep ∧
      s.r199 (byteField e 16 0 10) ep.num (effOwner f e) true {} = none ∧ (s.circuit (byteField e 16 0 10)).state ≠ 0 ∧
      s.queueRoom (effOwner f e) = true ∧ s.r218 (byteField e 16 0 10) ep.num = (none, none)) ∧
    (∃ (c : _) (ep : _) (s : State), s.que.inflight.find? (fun x => x.wait == .admission) = some c ∧ s.live 7 = true ∧ s.csqNext = none ∧
      s.openEpoch? = some ep ∧
      s.r199 (byteField c.e 16 0 10) ep.num c.owner (opcode c.e == 0x11) (if opcode c.e = 0x11 then {} else imageOfEntry c.e) = none ∧
      ((s.circuit (byteField c.e 16 0 10)).state ≠ 0 ∨ opcode c.e = 0x10) ∧ s.queueRoom c.owner = true ∧
      s.r218 (byteField c.e 16 0 10) ep.num = (none, none)) ∧
    (∃ (f : Fn) (e : Block64) (d : _) (u : _) (s : State), s.begins? 7 f e = some (d, u) ∧ opcode e = 0x12 ∧
      s.canMake f.val (.hostRead f (cmdId e) (BitVec.ofNat 64 (byteField e 16 0 64)) 256) = true ∧ byteField e 16 0 64 % 64 = 0 ∧
      byteField e 24 0 16 ≠ 0) :=
  ⟨⟨(0 : Fn), setE, ((csqBase.begins? 7 (0 : Fn) setE).get (by decide +kernel)).1,
      ((csqBase.begins? 7 (0 : Fn) setE).get (by decide +kernel)).2, ((csqBase.openEpoch?).get (by decide +kernel)), csqBase,
      by decide +kernel⟩,
    ⟨(0 : Fn), clrE, ((s11.begins? 7 (0 : Fn) clrE).get (by decide +kernel)).1, ((s11.begins? 7 (0 : Fn) clrE).get (by decide +kernel)).2,
      ((s11.openEpoch?).get (by decide +kernel)), s11, by decide +kernel⟩,
    ⟨((s12.que.inflight.find? (fun x => x.wait == .admission)).get (by decide +kernel)), ((s12.openEpoch?).get (by decide +kernel)), s12,
      by decide +kernel⟩,
    ⟨(0 : Fn), (ent 0x12 [(0, 16, 7), (16, 0, 4096), (24, 0, 3)]),
      ((base.begins? 7 (0 : Fn) (ent 0x12 [(0, 16, 7), (16, 0, 4096), (24, 0, 3)])).get (by decide +kernel)).1,
      ((base.begins? 7 (0 : Fn) (ent 0x12 [(0, 16, 7), (16, 0, 4096), (24, 0, 3)])).get (by decide +kernel)).2, base, by decide +kernel⟩⟩

theorem witness_Epochs :
    (∃ (f : Fn) (e : Block64) (d : _) (u : _) (s : State), s.begins? 7 f e = some (d, u) ∧ opcode e = 0x13 ∧ u.que.inflight = [d] ∧
      s.completes f = true ∧ s.canPrepare = true ∧ s.openEpoch? = none ∧ byteField e 16 0 32 ≠ 0 ∧
      (∀ x ∈ s.csq.floor, later (byteField e 16 0 32) x = true)) ∧
    (∃ (f : Fn) (e : Block64) (d : _) (u : _) (ep : _) (s : State), s.begins? 7 f e = some (d, u) ∧ opcode e = 0x14 ∧
      s.openEpoch? = some ep ∧ byteField e 16 0 32 = ep.num ∧ byteField e 20 0 1 = 0 ∧ byteField e 24 0 64 = 0 ∧ s.csq.epochs = [ep] ∧
      s.csq.changes = [] ∧ s.frozen 7 = false) ∧
    (∃ (f : Fn) (e : Block64) (d : _) (u : _) (ep : _) (s : State), s.begins? 7 f e = some (d, u) ∧ opcode e = 0x14 ∧
      s.openEpoch? = some ep ∧ byteField e 16 0 32 = ep.num ∧ (byteField e 20 0 1 = 0 ∨ byteField e 24 0 64 = 0) ∧
      (byteField e 24 0 64 = 0 ∨ s.time.now.toNat ≤ byteField e 24 0 64) ∧ s.csq.epochs = [ep] ∧ s.csqNext = none ∧
      s.csq.changes.any (fun x => x.epoch == ep.num && x.st != 6 && x.st != 7) = true ∧
      s.csq.changes.any (fun x => x.epoch == ep.num && x.st == 7) = false) ∧
    (∃ (e : Word) (x : _) (s : State), s.csq.epochs = [x] ∧ s.csq.changes.all (fun y => y.epoch == x.num) = true ∧ x.num = e.toNat ∧
      x.st = 2 ∧ x.t ≠ 0 ∧ x.bySched = false ∧ x.fired = false ∧ s.live 7 = true) :=
  ⟨⟨(0 : Fn), (ent 0x13 [(0, 16, 7), (16, 0, 3)]),
      ((base.begins? 7 (0 : Fn) (ent 0x13 [(0, 16, 7), (16, 0, 3)])).get (by decide +kernel)).1,
      ((base.begins? 7 (0 : Fn) (ent 0x13 [(0, 16, 7), (16, 0, 3)])).get (by decide +kernel)).2, base, by decide +kernel⟩,
    ⟨(0 : Fn), (ent 0x14 [(0, 16, 7), (16, 0, 3)]),
      ((csqBase.begins? 7 (0 : Fn) (ent 0x14 [(0, 16, 7), (16, 0, 3)])).get (by decide +kernel)).1,
      ((csqBase.begins? 7 (0 : Fn) (ent 0x14 [(0, 16, 7), (16, 0, 3)])).get (by decide +kernel)).2,
      ((csqBase.openEpoch?).get (by decide +kernel)), csqBase, by decide +kernel⟩,
    ⟨(0 : Fn), (ent 0x14 [(0, 16, 7), (16, 0, 3), (24, 0, 5000)]),
      ((s13.begins? 7 (0 : Fn) (ent 0x14 [(0, 16, 7), (16, 0, 3), (24, 0, 5000)])).get (by decide +kernel)).1,
      ((s13.begins? 7 (0 : Fn) (ent 0x14 [(0, 16, 7), (16, 0, 3), (24, 0, 5000)])).get (by decide +kernel)).2,
      ((s13.openEpoch?).get (by decide +kernel)), s13, by decide +kernel⟩,
    ⟨(3 : Word), ((s14.csq.epochs).head (by decide +kernel)), s14, by decide +kernel⟩⟩

theorem witness_CircuitMoves :
    (∃ (c : CircIx) (x : _) (s : State), s.csq.changes.find? (fun y => y.circ == c.val && (y.st == 1 || y.st == 2)) = some x ∧
      s.csq.changes.all (fun y => y == x || !isChange x.id y) = true ∧ s.live 7 = true ∧
      x.img.channels.all (fun ch => (s.holder ch).isNone) = true ∧ s.csqNext = none ∧
      x.img.rings.any (fun r => !x.locked.contains r) = true) ∧
    (∃ (ring : RingIx) (x : Change) (s : State), s.acqOrder.head? = some (x, ring.val) ∧ x.img.lanes.any s.draining = false ∧
      s.rcu.acqs.length < 64 ∧ s.frozen 7 = false ∧ s.runs 5 = true ∧ (144 ≤ ring.val ∨ s.en (0x10 + ring.val / 9) = true) ∧
      s.ringBad ring.val = false ∧ s.rcu.everDone = true ∧ (s.ring ring.val).loop ≠ 0 ∧ s.xcAllows ring.val = true) ∧
    (∃ (ring : RingIx) (x : Change) (s : State), s.acqOrder.head? = some (x, ring.val) ∧ x.img.lanes.any s.draining = false ∧
      s.rcu.acqs.length < 64 ∧ s.frozen 7 = false ∧ s.runs 5 = true ∧ (144 ≤ ring.val ∨ s.en (0x10 + ring.val / 9) = true) ∧
      s.ringBad ring.val = false ∧ s.rcu.everDone = true ∧ (s.ring ring.val).loop ≠ 0 ∧ s.xcAllows ring.val = false) ∧
    (∃ (ring : RingIx) (x : Change) (s : State), s.acqOrder.head? = some (x, ring.val) ∧ x.img.lanes.any s.draining = false ∧
      s.rcu.acqs.length < 64 ∧ s.frozen 7 = false ∧ s.runs 5 = true ∧ (144 ≤ ring.val ∨ s.en (0x10 + ring.val / 9) = true) ∧
      (s.ringBad ring.val = true ∨ s.rcu.everDone = false ∨ (s.ring ring.val).loop = 0) ∧ s.csq.changes.find? (isChange x.id) = some x) ∧
    (∃ (ring : RingIx) (s : State), ring.val ∈ s.rcu.acqs ∧
      s.csq.changes.any (fun x => x.st == 4 && x.rings.contains ring.val && s.csq.changes.find? (isChange x.id) == some x) = true) ∧
    (∃ (e : Word) (x : _) (s : State), s.epoch? e.toNat = some x ∧ x.st = 1 ∧ x.late = true ∧ s.frozen 7 = false ∧ s.csq.epochs = [x]) ∧
    (∃ (e : Word) (x : _) (s : State), s.epoch? e.toNat = some x ∧ x.st = 4 ∧ x.drained = false ∧ s.jnlThrough = false ∧
      (x.released = true ∨ x.moved.any (fun m => m.2.holds && m.2.img.path == 1) = false)) ∧
    (∃ (e : Word) (x : _) (s : State), s.epoch? e.toNat = some x ∧ x.st = 4 ∧ x.drained = false ∧ x.released = false ∧
      x.moved.any (fun m => m.2.holds && m.2.img.path == 1) = true) ∧
    (∃ (e : Word) (x : _) (s : State), s.epoch? e.toNat = some x ∧ x.st = 4 ∧ x.released = false ∧ x.drained = false) ∧
    (∃ (e : Word) (x : _) (s : State), s.epoch? e.toNat = some x ∧ x.st = 4 ∧ x.released = false ∧ x.drained = true ∧
      s.jnlThrough = false) ∧
    (∃ (r : Req) (v : Word) (x : _) (s : State), s.pfWrites r 7 = true ∧ s.epoch? v.toNat = some x ∧ x.st < 3 ∧ s.csq.epochs = [x]) ∧
    (∃ (r : Req) (v : Word) (s : State), s.pfWrites r 7 = true ∧ (∀ x ∈ s.epoch? v.toNat, 3 ≤ x.st)) ∧
    (∃ (slot : Fin 16) (s : State), (s.slot slot.val).st = 1 ∧ s.en 7 = true ∧ s.csq.slots.any (s.firesFirst slot.val) = false ∧
      s.csq.epochs.find? (fun e => e.num == (s.slot slot.val).epoch && e.bySched && (e.st == 1 || e.st == 2)) = none) ∧
    (∃ (slot : Fin 16) (x : _) (s : State), (s.slot slot.val).st = 1 ∧ s.en 7 = true ∧ s.csq.slots.any (s.firesFirst slot.val) = false ∧
      s.csq.epochs.find? (fun e => e.num == (s.slot slot.val).epoch && e.bySched && (e.st == 1 || e.st == 2)) = some x) :=
  ⟨⟨(5 : CircIx), ((s13.csq.changes.find? (fun y => y.circ == (5 : CircIx).val && (y.st == 1 || y.st == 2))).get (by decide +kernel)),
      s13, by decide +kernel⟩,
    ⟨(20 : RingIx), ((acqBase.acqOrder.head?).get (by decide +kernel)).1, acqBase, by decide +kernel⟩,
    ⟨(20 : RingIx), ((s15.acqOrder.head?).get (by decide +kernel)).1, s15, by decide +kernel⟩,
    ⟨(20 : RingIx), ((s232.acqOrder.head?).get (by decide +kernel)).1, s232, by decide +kernel⟩,
    ⟨(20 : RingIx), s16, by decide +kernel⟩,
    ⟨(3 : Word), ((s17.epoch? (3 : Word).toNat).get (by decide +kernel)), s17, by decide +kernel⟩,
    ⟨(3 : Word), ((s18.epoch? (3 : Word).toNat).get (by decide +kernel)), s18, by decide +kernel⟩,
    ⟨(3 : Word), ((s233.epoch? (3 : Word).toNat).get (by decide +kernel)), s233, by decide +kernel⟩,
    ⟨(3 : Word), ((s18.epoch? (3 : Word).toNat).get (by decide +kernel)), s18, by decide +kernel⟩,
    ⟨(3 : Word), ((s234.epoch? (3 : Word).toNat).get (by decide +kernel)), s234, by decide +kernel⟩,
    ⟨(0 : Req), (3 : Word), ((s13.epoch? (3 : Word).toNat).get (by decide +kernel)), s13, by decide +kernel⟩,
    ⟨(0 : Req), (4 : Word), csqBase, by decide +kernel⟩,
    ⟨(2 : Fin 16), slotBase, by decide +kernel⟩,
    ⟨(2 : Fin 16),
      ((s19.csq.epochs.find? (fun e => e.num == (s19.slot (2 : Fin 16).val).epoch && e.bySched && (e.st == 1 || e.st == 2))).get (by decide +kernel)),
      s19, by decide +kernel⟩⟩

theorem witness_LasersAndShutters :
    (∃ (s : State), s.domOn 1 = true) ∧
    (∃ (s : State), s.domOn 1 = false) ∧
    (∃ (s : State), (s.wr F.PFE_LASER_STAT_FAULT 0).laserBase = true ∧ s.liLost = false ∧ s.rcu.pulse = false) ∧
    (∃ (s : State), s.on F.PFE_LASER_STAT_LASER_EN = true ∧ s.rcu.pulse = false) ∧
    (∃ (s : State), (s.rcu.ilkPending ≠ 0 ∨ s.rcu.ilkHeld = true) ∧ s.domOn 2 = true) ∧
    (∃ (s : State), s.rcu.ilkPending ≠ 0 ∧ s.domOn 2 = false) ∧
    (∃ (s : State), s.laserBase = true ∧ s.liLost = true ∧ s.on F.PFE_LASER_CTRL_AUTO_RESTART = true ∧ s.rcu.pulse = false) ∧
    (∃ (s : State), s.rcu.pulse = true) ∧
    (∃ (p : Port) (s : State), s.rd (F.PORT_SHUT_STAT_STATE p.val) = 1 ∧ s.on (F.PORT_SHUT_CTRL_APR_EN p.val) = true) ∧
    (∃ (p : Port) (s : State), s.rd (F.PORT_SHUT_STAT_STATE p.val) = 2) ∧
    (∃ (p : Port) (s : State), s.rd (F.PORT_SHUT_STAT_STATE p.val) = 3) ∧
    (∃ (p : Port) (s : State), (s.rd (F.PORT_SHUT_STAT_STATE p.val) = 2 ∨ s.rd (F.PORT_SHUT_STAT_STATE p.val) = 3)) ∧
    (∃ (r : Req) (p : Port) (v : Word) (s : State), s.pfWrites r (0x10 + p.val) = true ∧ s.en (0x10 + p.val) = true ∧
      s.lockCauses p.val = [] ∧ s.rd (F.PORT_SHUT_STAT_STATE p.val) = 0 ∧ v.getLsbD 0 = true) ∧
    (∃ (r : Req) (p : Port) (v : Word) (s : State), s.pfWrites r (0x10 + p.val) = true ∧ s.en (0x10 + p.val) = true ∧
      s.lockCauses p.val = [] ∧ s.rd (F.PORT_SHUT_STAT_STATE p.val) ∈ [1, 2, 3] ∧ v.getLsbD 0 = false) :=
  ⟨⟨litBase, by decide +kernel⟩,
    ⟨asleep, by decide +kernel⟩,
    ⟨s21, by decide +kernel⟩,
    ⟨litBase, by decide +kernel⟩,
    ⟨s22, by decide +kernel⟩,
    ⟨s23, by decide +kernel⟩,
    ⟨s24, by decide +kernel⟩,
    ⟨s25, by decide +kernel⟩,
    ⟨(2 : Port), s26, by decide +kernel⟩,
    ⟨(2 : Port), s27, by decide +kernel⟩,
    ⟨(2 : Port), s28, by decide +kernel⟩,
    ⟨(2 : Port), s29, by decide +kernel⟩,
    ⟨(0 : Req), (2 : Port), (3 : Word), litBase, by decide +kernel⟩,
    ⟨(0 : Req), (2 : Port), (2 : Word), s30, by decide +kernel⟩⟩

theorem witness_MonitorResults :
    (∃ (s : State), s.domOn 2 = true) ∧
    (∃ (p : Port) (k : LineIx) (s : State), s.domOn 2 = true ∧ Tbl.get 0 s.rcu.skips (tapNum (.liLine p k)) = 0 ∧
      s.probePort (p.val / 8) = some p.val) :=
  ⟨⟨base, by decide +kernel⟩,
    ⟨(8 : Port), (3 : LineIx), base, by decide +kernel⟩⟩

theorem witness_ResonanceSearch :
    (∃ (r : Req) (v : Word) (s : State), s.pfWrites r 5 = true ∧ s.on F.PFE_LI0_LINES_ANCHOR_OK = true ∧ s.domOn 2 = true ∧
      (upTo 16).all (fun p => s.rd (F.PORT_SHUT_STAT_STATE p) == 0 || s.rd (F.PORT_SHUT_STAT_STATE p) == 4) = true ∧ s.searching = false ∧
      v.getLsbD 1 = false) ∧
    (∃ (r : Req) (v : Word) (s : State), s.pfWrites r 5 = true ∧ (s.on F.PFE_LI0_LINES_ANCHOR_OK = false ∨ s.domOn 2 = false) ∧
      v.getLsbD 1 = false) ∧
    (∃ (r : Req) (s : State), s.pfWrites r 5 = true ∧ s.searching = true) ∧
    (∃ (s : State), s.searchIn 1 = true ∧ s.on F.PFE_LI0_LINES_ANCHOR_OK = true) ∧
    (∃ (s : State), s.searchIn 2 = true ∧ (s.rcu.full = true ∨ s.rcu.resweep ≠ []) ∧ s.rcu.group < 3) ∧
    (∃ (s : State), s.searchIn 2 = true ∧ s.rcu.full = false ∧ s.rcu.resweep = []) ∧
    (∃ (s : State), s.searchIn 3 = true ∧ s.rcu.resweep = [] ∧ s.rcu.group < 3) ∧
    (∃ (ring : Fin 2336) (s : State), s.searchIn 3 = true ∧ groupOf ring.val = s.rcu.group ∧ (s.ring ring.val).loop = 5 ∧
      s.rcu.full = true ∧ (s.ring ring.val).htrSeen = some true) ∧
    (∃ (ring : Fin 2336) (on : Nat) (ofs : Nat) (s : State), s.searchIn 4 = true ∧ s.rcu.resweep = [] ∧ (s.ring ring.val).loop ≠ 5 ∧
      (s.ring ring.val).repeats ≤ 64 ∧ identify (lineOfRing ring.val) (s.ring ring.val).events = some (on, ofs)) ∧
    (∃ (ring : Fin 2336) (s : State), s.searchIn 5 = true ∧ (s.ring ring.val).loop ≠ 5 ∧ (s.ring ring.val).loop ≠ 6) ∧
    (∃ (s : State), s.searchIn 6 = true ∧ s.rcu.round < 16) ∧
    (∃ (s : State), s.searchIn 6 = true ∧ s.rcu.round = 16 ∧ ((s.roundRings 16).foldl State.verifyRing s).rcu.failed = []) ∧
    (∃ (g : _) (s : State), s.searchIn 6 = true ∧ s.rcu.round = 16 ∧
      [0, 1, 2].find? (fun n => ((s.roundRings 16).foldl State.verifyRing s).rcu.failed.contains n) = some g) :=
  ⟨⟨(0 : Req), (4 : Word), litBase, by decide +kernel⟩,
    ⟨(0 : Req), (0 : Word), base, by decide +kernel⟩,
    ⟨(0 : Req), s31, by decide +kernel⟩,
    ⟨s32, by decide +kernel⟩,
    ⟨s33, by decide +kernel⟩,
    ⟨s34, by decide +kernel⟩,
    ⟨s35, by decide +kernel⟩,
    ⟨(7 : Fin 2336), s235, by decide +kernel⟩,
    ⟨(9 : Fin 2336), 10500, 50, s37, by decide +kernel⟩,
    ⟨(200 : Fin 2336), s38, by decide +kernel⟩,
    ⟨s39, by decide +kernel⟩,
    ⟨s40, by decide +kernel⟩,
    ⟨(([0, 1, 2].find? (fun n => ((s236.roundRings 16).foldl State.verifyRing s236).rcu.failed.contains n)).get (by decide +kernel)), s236,
      by decide +kernel⟩⟩

theorem witness_RingLoops :
    (∃ (u : RingUpdate) (s : State), s.domOn 2 = true ∧ s.csq.changes = [] ∧ u.htr = .sound ∧ u.overRange = false ∧
      s.swept u.ring.val = false ∧ (s.ring u.ring.val).loop = 2 ∧ (s.ring u.ring.val).hold = 0 ∧ 7 ≤ (s.ring u.ring.val).inWin ∧
      u.detune.natAbs ≤ s.rd F.RCU_LOOP_CFG_LOCK_WIN) ∧
    (∃ (u : RingUpdate) (s : State), s.domOn 2 = true ∧ s.csq.changes = [] ∧ u.htr = .sound ∧ u.overRange = false ∧
      s.swept u.ring.val = false ∧ (s.ring u.ring.val).loop = 3 ∧ (s.ring u.ring.val).hold = 0 ∧ 3 ≤ (s.ring u.ring.val).outWin ∧
      4 * s.rd F.RCU_LOOP_CFG_LOCK_WIN < u.detune.natAbs) ∧
    (∃ (u : RingUpdate) (s : State), s.domOn 2 = true ∧ u.htr = .short ∧ (s.ring u.ring.val).loop ≠ 5) ∧
    (∃ (u : RingUpdate) (s : State), s.domOn 2 = true ∧ u.htr = .openHeater ∧ s.heaterOpen u.ring.val = true ∧
      (s.ring u.ring.val).loop ≠ 5) ∧
    (∃ (u : RingUpdate) (s : State), s.searchIn 3 = true ∧ s.swept u.ring.val = true ∧ (s.ring u.ring.val).loop ≠ 5 ∧
      s.rcu.sweepHold = 0 ∧ s.csq.changes = [] ∧ u.htr = .sound ∧ u.overRange = false) :=
  ⟨⟨upd20, s42, by decide +kernel⟩,
    ⟨({ upd20 with detune := 30000 }), s43, by decide +kernel⟩,
    ⟨({ upd20 with htr := .short }), s44, by decide +kernel⟩,
    ⟨({ upd20 with htr := .openHeater }), s237, by decide +kernel⟩,
    ⟨({ upd20 with ring := 7 }), s36, by decide +kernel⟩⟩

theorem witness_CalibrationRuns :
    (∃ (f : Fn) (e : Block64) (d : _) (u : _) (s : State), s.begins? 5 f e = some (d, u) ∧ opcode e = 0x40 ∧ byteField e 16 0 16 ≠ 0 ∧
      byteField e 18 0 9 ≠ 0 ∧ byteField e 20 0 3 ≠ 0 ∧ s.rcu.everDone = true ∧ s.rcu.calRuns.all (fun x => x.id != d.id) = true ∧
      (upTo 144).any (fun ch => bitOf (byteField e 16 0 16) (ch / 9) && bitOf (byteField e 18 0 9) (ch % 9) && !s.portFenced (ch / 9) && s.chanTrained ch) = true) ∧
    (∃ (ch : Nat) (s : State), s.live 5 = true ∧ s.rcu.calRuns = [] ∧ s.nextChan = some ch ∧
      s.rcu.attempts.length < s.rd F.RCU_CAL_CTRL_CAL_PAR) ∧
    (∃ (ch : ChanIx) (a : _) (s : State), s.attempt? ch.val = some a ∧ a.step = .waitGap ∧ s.live 5 = true) ∧
    (∃ (ch : ChanIx) (a : _) (s : State), s.attempt? ch.val = some a ∧ a.step = .waitGap ∧ s.live 5 = true ∧ 100 ≤ s.drift ch.val) ∧
    (∃ (ch : ChanIx) (a : _) (s : State), s.attempt? ch.val = some a ∧ a.step = .waitGap ∧ s.live 5 = true ∧ s.drift ch.val < 100) ∧
    (∃ (ch : ChanIx) (a : _) (s : State), s.attempt? ch.val = some a ∧ a.step = .measA ∧ s.live 5 = true) ∧
    (∃ (ch : ChanIx) (m : CalItems) (a : _) (b : _) (s : State), s.attempt? ch.val = some a ∧ a.step = .measB ∧ a.a = some b ∧
      s.live 5 = true ∧ disagree (s.rd F.RCU_CAL_DEFER_CAL_TOL_TAP) (s.rd F.RCU_CAL_DEFER_CAL_TOL_HTR) a.again b m = 0) ∧
    (∃ (ch : ChanIx) (m : CalItems) (a : _) (b : _) (s : State), s.attempt? ch.val = some a ∧ a.step = .measB ∧ a.a = some b ∧
      s.live 5 = true ∧ disagree (s.rd F.RCU_CAL_DEFER_CAL_TOL_TAP) (s.rd F.RCU_CAL_DEFER_CAL_TOL_HTR) a.again b m ≠ 0 ∧ 3 ≤ a.retry) ∧
    (∃ (ch : ChanIx) (a : _) (s : State), s.attempt? ch.val = some a ∧ a.step = .switchOut ∧ s.live 5 = true) ∧
    (∃ (ch : ChanIx) (a : _) (v : _) (s : State), s.attempt? ch.val = some a ∧ a.step = .switchBack ∧ s.live 5 = true ∧ a.acc = some v ∧
      (s.chan ch.val).items = itemsTake (s.chan ch.val).items v a.classes) ∧
    (∃ (ch : ChanIx) (a : _) (s : State), s.attempt? ch.val = some a ∧ a.step = .glide ∧ s.live 5 = true ∧
      s.rcu.glides.any (fun g => g.1 == ch.val && g.2 != (s.chan ch.val).items) = false) :=
  ⟨⟨(0 : Fn), (ent 0x40 [(0, 16, 7), (16, 0, 4), (18, 0, 3), (20, 0, 7)]),
      ((calBase.begins? 5 (0 : Fn) (ent 0x40 [(0, 16, 7), (16, 0, 4), (18, 0, 3), (20, 0, 7)])).get (by decide +kernel)).1,
      ((calBase.begins? 5 (0 : Fn) (ent 0x40 [(0, 16, 7), (16, 0, 4), (18, 0, 3), (20, 0, 7)])).get (by decide +kernel)).2, calBase,
      by decide +kernel⟩,
    ⟨18, s45, by decide +kernel⟩,
    ⟨(18 : ChanIx), ((s46.attempt? (18 : ChanIx).val).get (by decide +kernel)), s46, by decide +kernel⟩,
    ⟨(18 : ChanIx), ((s47.attempt? (18 : ChanIx).val).get (by decide +kernel)), s47, by decide +kernel⟩,
    ⟨(18 : ChanIx), ((s46.attempt? (18 : ChanIx).val).get (by decide +kernel)), s46, by decide +kernel⟩,
    ⟨(18 : ChanIx), ((s48.attempt? (18 : ChanIx).val).get (by decide +kernel)), s48, by decide +kernel⟩,
    ⟨(18 : ChanIx), items18, ((s49.attempt? (18 : ChanIx).val).get (by decide +kernel)),
      ((((s49.attempt? (18 : ChanIx).val).get (by decide +kernel)).a).get (by decide +kernel)), s49, by decide +kernel⟩,
    ⟨(18 : ChanIx), ({ items18 with th0 := 200 }), ((s50.attempt? (18 : ChanIx).val).get (by decide +kernel)),
      ((((s50.attempt? (18 : ChanIx).val).get (by decide +kernel)).a).get (by decide +kernel)), s50, by decide +kernel⟩,
    ⟨(18 : ChanIx), ((s51.attempt? (18 : ChanIx).val).get (by decide +kernel)), s51, by decide +kernel⟩,
    ⟨(18 : ChanIx), ((s52.attempt? (18 : ChanIx).val).get (by decide +kernel)),
      ((((s52.attempt? (18 : ChanIx).val).get (by decide +kernel)).acc).get (by decide +kernel)), s52, by decide +kernel⟩,
    ⟨(18 : ChanIx), ((s53.attempt? (18 : ChanIx).val).get (by decide +kernel)), s53, by decide +kernel⟩⟩

theorem witness_LinkReceive :
    (∃ (p : Port) (k : LineIx) (s : State), s.listens p.val k.val = true) ∧
    (∃ (p : Port) (j : PairIx) (y : RxSlot) (l : List Byte) (s : State), s.unitUp (p.val * 5 + j.val) = true ∧
      (s.unit (p.val * 5 + j.val)).ready = some y ∧ ctlSlot y.cw y.ix = false ∧ y.flitBytes = some l ∧ trainSlot l = false ∧
      flitOk l = true ∧ (flitOf l).typ = 1 ∧ s.portFenced p.val = false ∧ (flitOf l).lseq.toNat = (s.unit (p.val * 5 + j.val)).exp) ∧
    (∃ (p : Port) (j : PairIx) (y : RxSlot) (l : List Byte) (s : State), s.unitUp (p.val * 5 + j.val) = true ∧
      (s.unit (p.val * 5 + j.val)).ready = some y ∧ ctlSlot y.cw y.ix = false ∧ y.flitBytes = some l ∧ trainSlot l = false ∧
      flitOk l = false) ∧
    (∃ (p : Port) (j : PairIx) (y : RxSlot) (s : State), s.unitUp (p.val * 5 + j.val) = true ∧
      (s.unit (p.val * 5 + j.val)).ready = some y ∧ ctlSlot y.cw y.ix = false ∧ y.bubble = true) ∧
    (∃ (p : Port) (j : PairIx) (y : RxSlot) (l : List Byte) (s : State), s.unitUp (p.val * 5 + j.val) = true ∧
      (s.unit (p.val * 5 + j.val)).ready = some y ∧ ctlSlot y.cw y.ix = false ∧ y.flitBytes = some l ∧ trainSlot l = false ∧
      flitOk l = true ∧ (flitOf l).typ = 1 ∧ s.portFenced p.val = true) ∧
    (∃ (p : Port) (j : PairIx) (y : RxSlot) (l : List Byte) (c : _) (s : State), s.unitUp (p.val * 5 + j.val) = true ∧
      (s.unit (p.val * 5 + j.val)).ready = some y ∧ ctlSlot y.cw y.ix = true ∧ y.flitBytes = some l ∧ trainSlot l = false ∧
      flitOk l = true ∧ (flitOf l).typ = 2 ∧ c = ctlOf (flitOf l) ∧ c.retrainReq = false) ∧
    (∃ (p : Port) (j : PairIx) (y : RxSlot) (l : List Byte) (s : State), s.unitUp (p.val * 5 + j.val) = true ∧
      (s.unit (p.val * 5 + j.val)).ready = some y ∧ ctlSlot y.cw y.ix = true ∧ y.flitBytes = some l ∧ trainSlot l = false ∧
      flitOk l = true ∧ (flitOf l).typ = 2 ∧ (ctlOf (flitOf l)).retrainReq = true) ∧
    (∃ (p : Port) (j : PairIx) (y : RxSlot) (l : List Byte) (s : State), s.unitUp (p.val * 5 + j.val) = true ∧
      (s.unit (p.val * 5 + j.val)).ready = some y ∧ ctlSlot y.cw y.ix = true ∧ y.flitBytes = some l ∧ trainSlot l = false ∧
      flitOk l = false) ∧
    (∃ (p : Port) (l : List Byte) (w : DWord) (u : State) (s : State), s.unitUp (p.val * 5 + 4) = true ∧
      s.takeBurst p.val 0x11 = some (l, w, u)) ∧
    (∃ (p : Port) (l : List Byte) (w : DWord) (u : State) (d : _) (s : State), s.unitUp (p.val * 5 + 4) = true ∧
      s.takeBurst p.val 0x11 = some (l, w, u) ∧ s.on F.LNK_TIME_CTRL_ROOT = false ∧ s.on F.LNK_TIME_CTRL_PARENT_EN = true ∧
      s.rd F.LNK_TIME_CTRL_PARENT = p.val ∧ s.theta p.val (beaconOf l) = some d) :=
  ⟨⟨(2 : Port), (0 : LineIx), lnkBase, by decide +kernel⟩,
    ⟨(2 : Port), (0 : PairIx), (rxs dflit 1 0), ((RxSlot.flitBytes (rxs dflit 1 0)).get (by decide +kernel)), ((rxBase [(rxs dflit 1 0)])),
      by decide +kernel, ready_one _ _ rfl (by decide +kernel), by decide +kernel, (Option.some_get _).symm, by decide +kernel⟩,
    ⟨(2 : Port), (0 : PairIx), ({ rxs dflit 1 0 with h0 := some (.data (List.replicate 128 0)) }),
      ((RxSlot.flitBytes ({ rxs dflit 1 0 with h0 := some (.data (List.replicate 128 0)) })).get (by decide +kernel)),
      ((rxBase [({ rxs dflit 1 0 with h0 := some (.data (List.replicate 128 0)) })])), by decide +kernel,
      ready_one _ _ rfl (by decide +kernel), by decide +kernel, (Option.some_get _).symm, by decide +kernel⟩,
    ⟨(2 : Port), (0 : PairIx), ({ rxs dflit 1 0 with h1 := some .skip }), ((rxBase [{ rxs dflit 1 0 with h1 := some .skip }])),
      by decide +kernel⟩,
    ⟨(2 : Port), (0 : PairIx), (rxs dflit 1 0), ((RxSlot.flitBytes (rxs dflit 1 0)).get (by decide +kernel)),
      ((rxBase [(rxs dflit 1 0)]).wr F.FCU_FENCE_PORTS 4), by decide +kernel, ready_one _ _ rfl (by decide +kernel), by decide +kernel,
      (Option.some_get _).symm, by decide +kernel⟩,
    ⟨(2 : Port), (0 : PairIx), (rxs cflit.flit 5 0), ((RxSlot.flitBytes (rxs cflit.flit 5 0)).get (by decide +kernel)),
      (ctlOf (flitOf (((RxSlot.flitBytes (rxs cflit.flit 5 0)).get (by decide +kernel))))), ((rxBase [(rxs cflit.flit 5 0)])),
      by decide +kernel, ready_one _ _ rfl (by decide +kernel), by decide +kernel, (Option.some_get _).symm, by decide +kernel⟩,
    ⟨(2 : Port), (0 : PairIx), (rxs ({ cflit with retrainReq := true } : CtlFlit).flit 5 0),
      ((RxSlot.flitBytes (rxs ({ cflit with retrainReq := true } : CtlFlit).flit 5 0)).get (by decide +kernel)),
      ((rxBase [(rxs ({ cflit with retrainReq := true } : CtlFlit).flit 5 0)])), by decide +kernel, ready_one _ _ rfl (by decide +kernel),
      by decide +kernel, (Option.some_get _).symm, by decide +kernel⟩,
    ⟨(2 : Port), (0 : PairIx), ({ rxs dflit 5 0 with h0 := some (.data (List.replicate 128 0)) }),
      ((RxSlot.flitBytes ({ rxs dflit 5 0 with h0 := some (.data (List.replicate 128 0)) })).get (by decide +kernel)),
      ((rxBase [({ rxs dflit 5 0 with h0 := some (.data (List.replicate 128 0)) })])), by decide +kernel,
      ready_one _ _ rfl (by decide +kernel), by decide +kernel, (Option.some_get _).symm, by decide +kernel⟩,
    ⟨(2 : Port), bcn.bytes, (1500 : DWord), ((State.takeBurst (spareBase lnkBase bcn.bytes) 2 0x11).get (by decide +kernel)).2.2,
      (spareBase lnkBase bcn.bytes), by decide +kernel⟩,
    ⟨(2 : Port), bcn.bytes, (1500 : DWord), ((State.takeBurst (spareBase s55 bcn.bytes) 2 0x11).get (by decide +kernel)).2.2,
      ((State.theta (spareBase s55 bcn.bytes) 2 (beaconOf bcn.bytes)).get (by decide +kernel)), (spareBase s55 bcn.bytes),
      by decide +kernel⟩⟩

theorem witness_LinkSend :
    (∃ (p : Port) (j : PairIx) (low : BitVec 2) (v : _) (s : State), s.unitUp (p.val * 5 + j.val) = true ∧
      v = s.openSlot (p.val * 5 + j.val) ∧ v.atControl (p.val * 5 + j.val) = true ∧ (v.unit (p.val * 5 + j.val)).sinceSkip < 79 ∧
      s.lowLanes low ≠ 3) ∧
    (∃ (p : Port) (j : PairIx) (low : BitVec 2) (v : _) (s : State), s.unitUp (p.val * 5 + j.val) = true ∧
      v = s.openSlot (p.val * 5 + j.val) ∧ v.atControl (p.val * 5 + j.val) = true ∧
      (79 ≤ (v.unit (p.val * 5 + j.val)).sinceSkip ∨ s.lowLanes low = 3)) ∧
    (∃ (p : Port) (j : PairIx) (v : _) (s : State), s.unitUp (p.val * 5 + j.val) = true ∧ v = s.openSlot (p.val * 5 + j.val) ∧
      v.atControl (p.val * 5 + j.val) = false) ∧
    (∃ (p : Port) (j : PairIx) (v : _) (s : State), s.unitUp (p.val * 5 + j.val) = true ∧ v = s.openSlot (p.val * 5 + j.val) ∧
      v.atControl (p.val * 5 + j.val) = true) ∧
    (∃ (p : Port) (j : PairIx) (low : BitVec 2) (f : _) (rest : _) (v : _) (s : State), s.unitUp (p.val * 5 + j.val) = true ∧
      v = s.openSlot (p.val * 5 + j.val) ∧ v.atControl (p.val * 5 + j.val) = false ∧ s.lowLanes low ≠ 3 ∧ s.portFenced p.val = false ∧
      (s.unit (p.val * 5 + j.val)).replay = f :: rest ∧ (f.enc = false ∨ s.secGated = false)) ∧
    (∃ (p : Port) (j : PairIx) (low : BitVec 2) (c : Nat) (client : _) (body : _) (rest : _) (v : _) (s : State),
      s.unitUp (p.val * 5 + j.val) = true ∧ v = s.openSlot (p.val * 5 + j.val) ∧ v.atControl (p.val * 5 + j.val) = false ∧
      s.lowLanes low ≠ 3 ∧ s.portFenced p.val = false ∧ (s.unit (p.val * 5 + j.val)).replay = [] ∧
      (s.unit (p.val * 5 + j.val)).circ = some c ∧ s.maySend (p.val * 5 + j.val) = true ∧ s.placesOn c (p.val * 5 + j.val) = true ∧
      (s.circuit c).img.path ≠ 2 ∧ (s.circuit c).img.keyEn = false ∧ (s.circLink c).again = [] ∧
      (s.circLink c).txq = (client, body) :: rest ∧ (s.circLink c).tx < 2 ^ 64 - 1) ∧
    (∃ (p : Port) (j : PairIx) (low : BitVec 2) (c : Nat) (r : _) (v : _) (s : State), s.unitUp (p.val * 5 + j.val) = true ∧
      v = s.openSlot (p.val * 5 + j.val) ∧ v.atControl (p.val * 5 + j.val) = false ∧ s.lowLanes low ≠ 3 ∧ s.portFenced p.val = false ∧
      (s.unit (p.val * 5 + j.val)).replay = [] ∧ (s.unit (p.val * 5 + j.val)).circ = some c ∧ s.maySend (p.val * 5 + j.val) = true ∧
      s.placesOn c (p.val * 5 + j.val) = true ∧ (s.circuit c).img.path = 2 ∧
      (s.circLink c).relay.find? (fun x => x.side != (s.unit (p.val * 5 + j.val)).side) = some r) ∧
    (∃ (p : Port) (j : PairIx) (low : BitVec 2) (v : _) (s : State), s.unitUp (p.val * 5 + j.val) = true ∧
      v = s.openSlot (p.val * 5 + j.val) ∧ v.atControl (p.val * 5 + j.val) = false ∧ s.lowLanes low ≠ 3 ∧
      (v.nextFlit (p.val * 5 + j.val) = none ∨ s.portFenced p.val = true)) ∧
    (∃ (p : Port) (j : PairIx) (s : State), s.unitUp (p.val * 5 + j.val) = true ∧ (s.unit (p.val * 5 + j.val)).nakOut = true) ∧
    (∃ (p : Port) (s : State), s.unitUp (p.val * 5 + 4) = true ∧ s.on (F.PORT_LNK_CFG_BEACON_EN p.val) = true ∧
      s.rd (F.PORT_SHUT_STAT_STATE p.val) = 1 ∧ s.on (F.PORT_LNK_STAT_SUBST p.val) = false) ∧
    (∃ (r : Req) (p : Port) (s : State), s.pfWrites r (0x10 + p.val) = true ∧ s.lp0Used p.val = false) ∧
    (∃ (r : Req) (p : Port) (s : State), s.pfWrites r (0x10 + p.val) = true ∧ s.lp0Used p.val = true) :=
  ⟨⟨(2 : Port), (0 : PairIx), (0 : BitVec 2), (lnkBase.openSlot 10), lnkBase, by decide +kernel⟩,
    ⟨(2 : Port), (0 : PairIx), (0 : BitVec 2), (s57.openSlot 10), s57, by decide +kernel⟩,
    ⟨(2 : Port), (0 : PairIx), (s238.openSlot 10), s238, by decide +kernel⟩,
    ⟨(2 : Port), (0 : PairIx), (lnkBase.openSlot 10), lnkBase, by decide +kernel⟩,
    ⟨(2 : Port), (0 : PairIx), (0 : BitVec 2), dflit, [], (s239.openSlot 10), s239, by decide +kernel⟩,
    ⟨(2 : Port), (0 : PairIx), (0 : BitVec 2), 5, 1, ([1, 2, 3]), ([(2, [4])]), (s240.openSlot 10), s240, by decide +kernel⟩,
    ⟨(2 : Port), (0 : PairIx), (0 : BitVec 2), 5, ({ side := 1, unit := none, flit := dflit }), (s241.openSlot 10), s241, by decide +kernel⟩,
    ⟨(2 : Port), (0 : PairIx), (0 : BitVec 2), (s238.openSlot 10), s238, by decide +kernel⟩,
    ⟨(2 : Port), (0 : PairIx), s60, by decide +kernel⟩,
    ⟨(2 : Port), lnkBase, by decide +kernel⟩,
    ⟨(0 : Req), (3 : Port), lnkBase, by decide +kernel⟩,
    ⟨(0 : Req), (2 : Port), lnkBase, by decide +kernel⟩⟩

theorem witness_LinkTraining :
    (∃ (p : Port) (s : State), s.unitSt (p.val * 5 + 4) = 0 ∧ s.on (F.PORT_TRAIN_FAIL p.val 4) = true ∧
      s.rd (F.PORT_SHUT_STAT_STATE p.val) = 1 ∧ s.linesThere (p.val * 5 + 4) = true) ∧
    (∃ (p : Port) (u : UnitIx) (s : State), s.portOn p.val = true ∧ s.unitSt (p.val * 5 + u.val) = 2) ∧
    (∃ (p : Port) (u : UnitIx) (y : RxSlot) (ys : _) (b : TrainBurst) (bs : List TrainBurst) (s : State), s.portOn p.val = true ∧
      s.unitSt (p.val * 5 + u.val) = 4 ∧ (s.unit (p.val * 5 + u.val)).slots = y :: ys ∧ y.trainBursts (p.val * 5 + u.val) = b :: bs ∧
      (b :: bs).length = (unitLines (p.val * 5 + u.val)).length ∧ (b :: bs).all (fun y => y.echoV) = true ∧
      s.on (F.PORT_PEER_EXP_CHECK p.val) = false) ∧
    (∃ (p : Port) (u : UnitIx) (y : RxSlot) (ys : _) (b : TrainBurst) (bs : List TrainBurst) (s : State), s.portOn p.val = true ∧
      s.unitSt (p.val * 5 + u.val) = 4 ∧ (s.unit (p.val * 5 + u.val)).slots = y :: ys ∧ y.trainBursts (p.val * 5 + u.val) = b :: bs ∧
      (b :: bs).length = (unitLines (p.val * 5 + u.val)).length ∧ (b :: bs).all (fun y => y.echoV) = true ∧
      s.on (F.PORT_PEER_EXP_CHECK p.val) = true) ∧
    (∃ (p : Port) (u : UnitIx) (y : RxSlot) (ys : _) (b : TrainBurst) (bs : List TrainBurst) (s : State), s.portOn p.val = true ∧
      s.unitSt (p.val * 5 + u.val) = 5 ∧ (s.unit (p.val * 5 + u.val)).slots = y :: ys ∧ y.trainBursts (p.val * 5 + u.val) = b :: bs ∧
      (b :: bs).length = (unitLines (p.val * 5 + u.val)).length ∧ s.aligned (p.val * 5 + u.val) = true) ∧
    (∃ (p : Port) (u : UnitIx) (y : RxSlot) (ys : _) (b : TrainBurst) (bs : List TrainBurst) (s : State), s.portOn p.val = true ∧
      s.unitSt (p.val * 5 + u.val) = 6 ∧ (s.unit (p.val * 5 + u.val)).slots = y :: ys ∧ y.trainBursts (p.val * 5 + u.val) = b :: bs ∧
      (b :: bs).length = (unitLines (p.val * 5 + u.val)).length ∧ (b :: bs).all (fun y => decide (6 ≤ y.state.toNat)) = true ∧
      s.csq.changes = []) ∧
    (∃ (p : Port) (u : UnitIx) (s : State), (1 ≤ s.unitSt (p.val * 5 + u.val) ∧ s.unitSt (p.val * 5 + u.val) ≤ 6) ∧
      s.calOut (p.val * 5 + u.val) = false ∧ (u.val = 4 ∨ (s.unit (p.val * 5 + u.val)).byCsq = false)) ∧
    (∃ (p : Port) (u : UnitIx) (s : State), (1 ≤ s.unitSt (p.val * 5 + u.val) ∧ s.unitSt (p.val * 5 + u.val) ≤ 6) ∧
      s.calOut (p.val * 5 + u.val) = false ∧ (u.val ≠ 4 ∧ (s.unit (p.val * 5 + u.val)).byCsq = true) ∧
      (s.unit (p.val * 5 + u.val)).tries < s.rd F.CSQ_CTRL_TRAIN_RETRY ∧ s.mayTrain (p.val * 5 + u.val) = true) ∧
    (∃ (s : State), s.on F.LNK_TIME_CTRL_PARENT_EN = true ∧ s.on F.LNK_TIME_CTRL_ROOT = false) :=
  ⟨⟨(2 : Port), s242, by decide +kernel⟩,
    ⟨(2 : Port), (0 : UnitIx), s63, by decide +kernel⟩,
    ⟨(2 : Port), (0 : UnitIx), (rxb (TrainBurst.bytes tburst) true), [], tburst, [tburst],
      ((trainBase 4 tburst).wr (F.PORT_PEER_EXP_CHECK 2) 0), by decide +kernel⟩,
    ⟨(2 : Port), (0 : UnitIx), (rxb (TrainBurst.bytes tburst) true), [], tburst, [tburst],
      ((trainBase 4 tburst).wrs [(F.PORT_PEER_EXP_CHECK 2, 1), (F.PORT_PEER_EXP_NODE 2, 9), (F.PORT_PEER_EXP_PORT 2, 4)]),
      by decide +kernel⟩,
    ⟨(2 : Port), (0 : UnitIx), (rxb (TrainBurst.bytes tburst) true), [], tburst, [tburst], ((trainBase 5 tburst)), by decide +kernel⟩,
    ⟨(2 : Port), (0 : UnitIx), (rxb (TrainBurst.bytes ({ tburst with state := 6 })) true), [], ({ tburst with state := 6 }),
      [({ tburst with state := 6 })], ((trainBase 6 ({ tburst with state := 6 }))), by decide +kernel⟩,
    ⟨(2 : Port), (0 : UnitIx), s68, by decide +kernel⟩,
    ⟨(2 : Port), (0 : UnitIx), s69, by decide +kernel⟩,
    ⟨s70, by decide +kernel⟩⟩

theorem witness_KeysAndTamper :
    (∃ (f : Fn) (e : Block64) (d : _) (u : _) (s : State), s.begins? 0x0D f e = some (d, u) ∧ opcode e = 0x30 ∧
      s.canMake f.val (.hostRead f (cmdId e) (BitVec.ofNat 64 (byteField e 16 0 64)) 64) = true ∧ byteField e 16 0 64 % 64 = 0) ∧
    (∃ (f : Fn) (e : Block64) (d : _) (u : _) (s : State), s.begins? 0x0D f e = some (d, u) ∧ opcode e = 0x31 ∧
      s.slotOwner (byteField e 24 0 10) = f.val ∧ s.on F.SEC_STAT_FENCE = false ∧ (s.keySlot (byteField e 24 0 10)).loaded = true) ∧
    (∃ (f : Fn) (id : BitVec 16) (c : _) (b : _) (s : State), s.host.waiting = [] ∧
      s.host.reads.any (fun x => x.1 == f && x.2.isReadOf id.toNat) = true ∧
      s.que.inflight.find? (fun x => x.fn == f && cmdId x.e == id.toNat && x.wait == .hostRead) = some c ∧ opcode c.e = 0x30 ∧
      s.keyLoadFails f (byteField c.e 24 0 10) b = none) ∧
    (∃ (f : Fn) (id : BitVec 16) (c : _) (i : Fin 16) (s : State), s.host.waiting = [] ∧
      s.host.reads.any (fun x => x.1 == f && x.2.isReadOf id.toNat) = true ∧
      s.que.inflight.find? (fun x => x.fn == f && cmdId x.e == id.toNat && x.wait == .hostRead) = some c ∧ opcode c.e = 0x12 ∧
      bitOf (byteField c.e 24 0 16) i.val = true ∧ s.csq.epochs = [] ∧ s.que.inflight = [c] ∧ s.jnlThrough = true) ∧
    (∃ (f : Fn) (id : BitVec 16) (c : _) (s : State), s.host.waiting = [] ∧
      s.host.reads.any (fun x => x.1 == f && x.2.isReadOf id.toNat) = true ∧
      s.que.inflight.find? (fun x => x.fn == f && cmdId x.e == id.toNat && x.wait == .hostRead) = some c ∧ opcode c.e = 0x12 ∧
      s.csq.epochs = [] ∧ s.que.inflight = [c] ∧ s.jnlThrough = false ∧ s.jnl.durable ≤ s.jnl.asked) ∧
    (∃ (s : State), s.domOn 1 = true) ∧
    (∃ (s : State), (1 ≤ s.rd F.SEC_STAT_ERASE ∧ s.rd F.SEC_STAT_ERASE ≤ 4) ∧ (s.rd F.SEC_STAT_ERASE ≤ 2 ∨ (s.sec.slots = [] ∧
      s.sec.kek = none ∧ s.rd F.SEC_STAT_ROOT_LOCKED = 1))) ∧
    (∃ (r : Req) (s : State), s.pfWrites r 0x0D = true ∧
      (upTo 5).all (fun i => !bitOf (s.rd F.SEC_TAMPER_STAT_ACTIVE) i || s.tamperPolicy i == 0) = true) ∧
    (∃ (r : Req) (s : State), s.pfWrites r 0x0D = true ∧
      (upTo 5).all (fun i => !bitOf (s.rd F.SEC_TAMPER_STAT_ACTIVE) i || s.tamperPolicy i == 0) = false) ∧
    (∃ (r : Req) (n : Fn) (v : Word) (s : State), s.pfWrites r 0x0D = true ∧ n.val ≠ 0 ∧ v.toNat / 2 ^ 16 % 2 ^ 11 ≤ 1024 ∧
      s.keyrangeOk n.val (v.toNat % 1024) (v.toNat / 2 ^ 16 % 2 ^ 11) = true) ∧
    (∃ (r : Req) (n : Fn) (v : Word) (s : State), s.pfWrites r 0x0D = true ∧ n.val ≠ 0 ∧ v.toNat / 2 ^ 16 % 2 ^ 11 ≤ 1024 ∧
      s.keyrangeOk n.val (v.toNat % 1024) (v.toNat / 2 ^ 16 % 2 ^ 11) = false) :=
  ⟨⟨(0 : Fn), (ent 0x30 [(0, 16, 7), (16, 0, 4096), (24, 0, 6)]),
      ((base.begins? 0x0D (0 : Fn) (ent 0x30 [(0, 16, 7), (16, 0, 4096), (24, 0, 6)])).get (by decide +kernel)).1,
      ((base.begins? 0x0D (0 : Fn) (ent 0x30 [(0, 16, 7), (16, 0, 4096), (24, 0, 6)])).get (by decide +kernel)).2, base, by decide +kernel⟩,
    ⟨(0 : Fn), (ent 0x31 [(0, 16, 7), (24, 0, 6)]),
      ((s71.begins? 0x0D (0 : Fn) (ent 0x31 [(0, 16, 7), (24, 0, 6)])).get (by decide +kernel)).1,
      ((s71.begins? 0x0D (0 : Fn) (ent 0x31 [(0, 16, 7), (24, 0, 6)])).get (by decide +kernel)).2, s71, by decide +kernel⟩,
    ⟨(0 : Fn), (7 : BitVec 16),
      ((s72.que.inflight.find? (fun x => x.fn == (0 : Fn) && cmdId x.e == (7 : BitVec 16).toNat && x.wait == .hostRead)).get (by decide +kernel)),
      goodBlob, s72, by decide +kernel⟩,
    ⟨(0 : Fn), (7 : BitVec 16),
      ((s251.que.inflight.find? (fun x => x.fn == (0 : Fn) && cmdId x.e == (7 : BitVec 16).toNat && x.wait == .hostRead)).get (by decide +kernel)),
      (1 : Fin 16), s251, by decide +kernel⟩,
    ⟨(0 : Fn), (7 : BitVec 16),
      ((s73.que.inflight.find? (fun x => x.fn == (0 : Fn) && cmdId x.e == (7 : BitVec 16).toNat && x.wait == .hostRead)).get (by decide +kernel)),
      s73, by decide +kernel⟩,
    ⟨s74, by decide +kernel⟩,
    ⟨s76, by decide +kernel⟩,
    ⟨(0 : Req), s77, by decide +kernel⟩,
    ⟨(0 : Req), s78, by decide +kernel⟩,
    ⟨(0 : Req), (3 : Fn), (BitVec.ofNat 32 (16 + 8 * 2 ^ 16)), base, by decide +kernel⟩,
    ⟨(0 : Req), (3 : Fn), (BitVec.ofNat 32 (16 + 8 * 2 ^ 16)), s79, by decide +kernel⟩⟩

theorem witness_JournalFlash :
    (∃ (n : Nat) (used : Nat) (l : List Byte) (s : State), s.flashOk = true ∧ s.jnl.prog = [] ∧ s.jnl.ready = true ∧
      s.jnl.firstErases = 0 ∧ s.jnl.queue ≠ [] ∧ s.rd F.JNL_STAT_CSTATE ≠ 5 ∧ n = s.rd F.JNL_STAT_REGION ∧ used = s.rd F.JNL_USED_BYTES ∧
      l = pageBytes s.jnl.queue s.jnl.headDone (min (s.pageSize - used % s.pageSize) ((s.region n).erased - used)) ∧ l ≠ []) ∧
    (∃ (pay : RecPay) (mirror : Bool) (s : State), s.jnlThrough = false ∧ s.jnl.held = [] ∧ s.jnl.ready = true ∧
      s.rd F.JNL_STAT_CSTATE ≠ 5 ∧ s.jnl.queue.length < 64 ∧
      s.regionSize < s.rd F.JNL_USED_BYTES + s.queueBytes + recBytes { seq := 0, mirror := mirror, pay := pay }) ∧
    (∃ (s : State), s.jnl.prog ≠ [] ∧ s.jnl.progComp = false ∧ s.jnl.prog.length = recsBytes s.jnl.queue ∧ s.jnl.headDone = 0 ∧
      s.jnl.held = [] ∧ s.on F.JNL_CFG_AUTO_COMPACT = false ∧ s.rd F.JNL_USED_BYTES + s.jnl.prog.length < 2 ^ 32) ∧
    (∃ (s : State), s.jnl.prog ≠ []) ∧
    (∃ (s : State), s.jnl.prog ≠ [] ∧ s.jnl.progComp = true ∧ s.rd F.JNL_STAT_CSTATE = 5 ∧ s.jnl.comp ≠ [] ∧
      s.jnl.prog.length = recsBytes s.jnl.comp ∧ s.jnl.compDone = 0 ∧ s.jnl.recover = 0 ∧ s.jnl.held = [] ∧ s.que.inflight = []) ∧
    (∃ (f : Fn) (e : Block64) (d : _) (u : _) (s : State), s.begins? 9 f e = some (d, u) ∧ opcode e = 0x41 ∧ (s.jnl.noFlash = false ∧
      s.jnl.stopped = false ∧ s.on F.JNL_CFG_BYPASS = false) ∧ s.jnl.ready = true ∧ s.rd F.JNL_STAT_CSTATE = 0 ∧ s.jnl.recover = 0) ∧
    (∃ (f : Fn) (e : Block64) (d : _) (u : _) (s : State), s.begins? 9 f e = some (d, u) ∧ opcode e = 0x41 ∧ (s.jnl.noFlash = false ∧
      s.jnl.stopped = false ∧ s.on F.JNL_CFG_BYPASS = false) ∧ s.jnl.ready = false ∧ s.rd F.JNL_STAT_CSTATE ≠ 6) ∧
    (∃ (f : Fn) (e : Block64) (d : _) (u : _) (s : State), s.begins? 9 f e = some (d, u) ∧ opcode e = 0x41 ∧ (s.jnl.noFlash = false ∧
      s.jnl.stopped = false ∧ s.on F.JNL_CFG_BYPASS = false) ∧ s.rd F.JNL_STAT_CSTATE = 6 ∧ u.que.inflight = [d] ∧ s.completes f = true) ∧
    (∃ (f : Fn) (e : Block64) (d : _) (u : _) (s : State), s.begins? 9 f e = some (d, u) ∧ opcode e = 0x41 ∧
      (s.jnl.noFlash = true ∨ s.jnl.stopped = true ∨ s.on F.JNL_CFG_BYPASS = true) ∧ u.que.inflight = [d] ∧ s.completes f = true) ∧
    (∃ (n : Nat) (s : State), s.flashOk = true ∧ s.jnl.firstErases ≠ 0 ∧ n = s.rd F.JNL_STAT_REGION) ∧
    (∃ (s : State), s.flashOk = true ∧ s.jnl.firstErases = 0 ∧ s.rd F.JNL_STAT_CSTATE = 1 ∧ s.frozen 9 = false ∧
      (s.jnl.recover ≠ 2 ∨ (s.region (s.rd F.JNL_STAT_REGION)).erased ≠ 0)) ∧
    (∃ (n : Nat) (s : State), s.flashOk = true ∧ s.jnl.firstErases = 0 ∧ s.rd F.JNL_STAT_CSTATE = 1 ∧ s.frozen 9 = false ∧
      s.jnl.recover = 2 ∧ n = s.rd F.JNL_STAT_REGION ∧ (s.region n).erased = 0) ∧
    (∃ (s : State), s.flashOk = true ∧ s.jnl.firstErases = 0 ∧ s.rd F.JNL_STAT_CSTATE = 6 ∧ s.que.inflight = [] ∧
      s.on F.JNL_CFG_AUTO_COMPACT = false) ∧
    (∃ (n : Nat) (s : State), s.flashOk = true ∧ s.jnl.firstErases = 0 ∧ s.rd F.JNL_STAT_CSTATE = 0 ∧ s.jnl.ready = true ∧
      n = s.rd F.JNL_STAT_REGION ∧ (s.region n).erased < min s.regionSize (s.rd F.JNL_USED_BYTES + s.rd F.JNL_CFG_ERASE_AHEAD * 65536)) ∧
    (∃ (s : State), s.flashOk = true) :=
  ⟨⟨0, 192, (pageBytes jnlBase.jnl.queue 0 64), jnlBase, by decide +kernel⟩,
    ⟨(RecPay.commit 3 0 false false false 0), false, s80, by decide +kernel⟩,
    ⟨s81, by decide +kernel⟩,
    ⟨s82, by decide +kernel⟩,
    ⟨s83, by decide +kernel⟩,
    ⟨(0 : Fn), (ent 0x41 [(0, 16, 7)]), ((jnlBase.begins? 9 (0 : Fn) (ent 0x41 [(0, 16, 7)])).get (by decide +kernel)).1,
      ((jnlBase.begins? 9 (0 : Fn) (ent 0x41 [(0, 16, 7)])).get (by decide +kernel)).2, jnlBase, by decide +kernel⟩,
    ⟨(0 : Fn), (ent 0x41 [(0, 16, 7)]), ((base.begins? 9 (0 : Fn) (ent 0x41 [(0, 16, 7)])).get (by decide +kernel)).1,
      ((base.begins? 9 (0 : Fn) (ent 0x41 [(0, 16, 7)])).get (by decide +kernel)).2, base, by decide +kernel⟩,
    ⟨(0 : Fn), (ent 0x41 [(0, 16, 7)]), ((s243.begins? 9 (0 : Fn) (ent 0x41 [(0, 16, 7)])).get (by decide +kernel)).1,
      ((s243.begins? 9 (0 : Fn) (ent 0x41 [(0, 16, 7)])).get (by decide +kernel)).2, s243, by decide +kernel⟩,
    ⟨(0 : Fn), (ent 0x41 [(0, 16, 7)]), ((s84.begins? 9 (0 : Fn) (ent 0x41 [(0, 16, 7)])).get (by decide +kernel)).1,
      ((s84.begins? 9 (0 : Fn) (ent 0x41 [(0, 16, 7)])).get (by decide +kernel)).2, s84, by decide +kernel⟩,
    ⟨0, s85, by decide +kernel⟩,
    ⟨s86, by decide +kernel⟩,
    ⟨0, s244, by decide +kernel⟩,
    ⟨s243, by decide +kernel⟩,
    ⟨0, s245, by decide +kernel⟩,
    ⟨jnlBase, by decide +kernel⟩⟩

theorem witness_JournalReplay :
    (∃ (r : Req) (s : State), s.pfWrites r 9 = true ∧ (s.en 9 = true ∧ s.en 7 = true ∧ s.en 0x0D = true ∧ s.en 5 = true) ∧
      s.csq.circuits.all (fun c => c.2.state == 0 || c.2.state == 4) = true ∧ s.csq.epochs = [] ∧ s.rd F.JNL_STAT_CSTATE = 0 ∧
      s.replayHolds = false) ∧
    (∃ (r : Req) (s : State), s.pfWrites r 9 = true ∧
      (s.en 7 = false ∨ s.en 0x0D = false ∨ s.en 5 = false ∨ s.rd F.JNL_STAT_CSTATE ≠ 0 ∨ s.csq.epochs ≠ [])) ∧
    (∃ (x : _) (s : State), s.en 9 = true ∧ sfdpOk x = true ∧ s.rd F.JNL_STAT_RSTATE = 1) ∧
    (∃ (x : Option Sfdp) (s : State), s.en 9 = true ∧ (∀ y ∈ x, sfdpOk y = false)) ∧
    (∃ (g : _) (s : State), s.rd F.JNL_STAT_RSTATE = 2 ∧ s.flashOk = true ∧ regionGen (s.journal 0).1 = some g ∧
      (∀ h ∈ regionGen (s.journal 1).1, h ≤ g)) ∧
    (∃ (g : _) (s : State), s.rd F.JNL_STAT_RSTATE = 2 ∧ s.flashOk = true ∧ regionGen (s.journal 1).1 = some g ∧
      (∀ h ∈ regionGen (s.journal 0).1, h < g)) ∧
    (∃ (s : State), s.rd F.JNL_STAT_RSTATE = 2 ∧ s.flashOk = true ∧ (regionGen (s.journal 0).1 = none ∧
      regionGen (s.journal 1).1 = none) ∧ s.rd F.JNL_STAT_CSTATE = 0) ∧
    (∃ (recs : List JRec) (used : _) (s : State), s.rd F.JNL_STAT_RSTATE = 3 ∧ s.flashOk = true ∧ s.frozen 9 = false ∧ s.jnl.prog = [] ∧
      s.journal (s.rd F.JNL_STAT_REGION) = (recs, used, true) ∧ s.jnl.queue = [] ∧ s.jnl.held = [] ∧ s.on F.JNL_CFG_AUTO_COMPACT = false ∧
      s.que.inflight = []) ∧
    (∃ (recs : List JRec) (used : _) (s : State), s.rd F.JNL_STAT_RSTATE = 3 ∧ s.flashOk = true ∧ s.frozen 9 = false ∧ s.jnl.prog = [] ∧
      s.journal (s.rd F.JNL_STAT_REGION) = (recs, used, false) ∧ s.rd F.JNL_STAT_CSTATE = 0) ∧
    (∃ (r : Req) (s : State), s.pfWrites r 9 = true ∧ s.replayHolds = true ∧ s.rd F.JNL_STAT_CSTATE = 0) :=
  ⟨⟨(0 : Req), jnlBase, by decide +kernel⟩,
    ⟨(0 : Req), s87, by decide +kernel⟩,
    ⟨sfdp0, s88, by decide +kernel⟩,
    ⟨(some { sfdp0 with eraseSuspend := false }), base, by decide +kernel⟩,
    ⟨4, s90, by decide +kernel⟩,
    ⟨4, s246, by decide +kernel⟩,
    ⟨s91, by decide +kernel⟩,
    ⟨(s92.journal 0).1, (s92.journal 0).2.1, s92, by decide +kernel⟩,
    ⟨(s247.journal 0).1, (s247.journal 0).2.1, s247, by decide +kernel⟩,
    ⟨(0 : Req), s92, by decide +kernel⟩⟩

theorem witness_RegisterAccesses :
    (∃ (r : Req) (a : Access) (s : State), s.reaches r a.addr.toNat = true ∧ accAligned a = false) ∧
    (∃ (r : Req) (a : Access) (s : State), s.reaches r a.addr.toNat = true ∧ (a.size = 4 ∧ a.addr.toNat % 4 = 0 ∧
      a.enables.toNat % 16 ≠ 15 ∧ a.enables.toNat % 16 ≠ 0)) ∧
    (∃ (s : State), s.domOn 1 = true ∧ s.on (F.PAGE_STAT_RST_BUSY 0) = false) ∧
    (∃ (pg : PageIx) (s : State), s.domOn 1 = true ∧ implAt (0x1000 * pg.val) = true) ∧
    (∃ (r : Req) (a : Access) (s : State), s.reaches r a.addr.toNat = true ∧ (r.val = 0 ∨ r.val = 65) ∧ (a.addr.toNat % 4 = 0 ∧
      a.size = 4 ∧ a.enables.toNat % 16 = 15) ∧ implAt a.addr.toNat = false) ∧
    (∃ (r : Req) (p : Port) (s : State), s.pfReads r (0x10 + p.val) = true) ∧
    (∃ (r : Req) (s : State), s.pfReads r 1 = true) ∧
    (∃ (r : Req) (n : Fin 8) (lo : _) (s : State), s.pfWrites r 0x0B = true ∧ s.on (F.ATM_STAT_BUSY 0xB000 n.val) = false ∧
      (s.reqOf r.val).hold.find? (fun h => h.1 == 0xBC08 + 64 * n.val) = some (0xBC08 + 64 * n.val, lo) ∧ lo < 2 ^ 32) :=
  ⟨⟨(0 : Req), ({ addr := 0x62, size := 4, enables := 15, data := 5 }), base, by decide +kernel⟩,
    ⟨(0 : Req), ({ addr := 0x60, size := 4, enables := 3, data := 5 }), base, by decide +kernel⟩,
    ⟨base, by decide +kernel⟩,
    ⟨(7 : PageIx), base, by decide +kernel⟩,
    ⟨(0 : Req), ({ addr := 0x24010, size := 4, enables := 15, data := 0 }), base, by decide +kernel⟩,
    ⟨(0 : Req), (3 : Port), s93, by decide +kernel⟩,
    ⟨(0 : Req), s94, by decide +kernel⟩,
    ⟨(0 : Req), (2 : Fin 8), 55, s95, by decide +kernel⟩⟩

theorem witness_PageControl :
    (∃ (r : Req) (pg : PageIx) (s : State), (r.val = 0 ∨ r.val = 65) ∧ s.reaches r (0x1000 * pg.val) = true ∧ lockable pg.val = true ∧
      s.on (F.PAGE_STAT_LOCKED (0x1000 * pg.val)) = false ∧ s.locks.find? (fun x => x.1 == pg.val) = none) ∧
    (∃ (r : Req) (pg : PageIx) (s : State), (r.val = 0 ∨ r.val = 65) ∧ s.reaches r (0x1000 * pg.val) = true ∧ lockable pg.val = true ∧
      s.on (F.PAGE_STAT_LOCKED (0x1000 * pg.val)) = false ∧ s.locks.find? (fun x => x.1 == pg.val) = some (pg.val, r)) ∧
    (∃ (pg : PageIx) (s : State), s.locks.any (fun x => x.1 == pg.val) = true ∧ s.on F.DBG_FREEZE_STAT_FROZEN = false ∧
      s.frozen pg.val = false ∧ s.domOn 1 = true) ∧
    (∃ (r : Req) (pg : PageIx) (s : State), (r.val = 0 ∨ r.val = 65) ∧ s.reaches r (0x1000 * pg.val) = true ∧
      implAt (0x1000 * pg.val) = true) ∧
    (∃ (r : Req) (s : State), s.pfWrites r 0 = true) ∧
    (∃ (r : Req) (pg : PageIx) (s : State), (r.val = 0 ∨ r.val = 65) ∧ s.reaches r (0x1000 * pg.val) = true ∧
      implAt (0x1000 * pg.val) = true) ∧
    (∃ (r : Req) (pg : PageIx) (s : State), (r.val = 0 ∨ r.val = 65) ∧ s.reaches r (0x1000 * pg.val) = true ∧
      freezable.any (fun x => x.1 == pg.val) = true ∧ s.on (F.PAGE_CTRL_FREEZE (0x1000 * pg.val)) = false ∧ s.frozen pg.val = false) ∧
    (∃ (r : Req) (pg : PageIx) (on : Bool) (s : State), (r.val = 0 ∨ r.val = 65) ∧ s.reaches r (0x1000 * pg.val) = true ∧
      implAt (0x1000 * pg.val) = true ∧ enFixed pg.val = false ∧
      (on = false ∨ s.fcu.stopped.any (fun x => x.1 == pg.val && s.on (F.FCU_REC_W0_VALID x.2)) = false)) :=
  ⟨⟨(0 : Req), (13 : PageIx), base, by decide +kernel⟩,
    ⟨(0 : Req), (13 : PageIx), s96, by decide +kernel⟩,
    ⟨(13 : PageIx), s96, by decide +kernel⟩,
    ⟨(0 : Req), (9 : PageIx), base, by decide +kernel⟩,
    ⟨(0 : Req), s97, by decide +kernel⟩,
    ⟨(0 : Req), (9 : PageIx), base, by decide +kernel⟩,
    ⟨(0 : Req), (9 : PageIx), base, by decide +kernel⟩,
    ⟨(0 : Req), (9 : PageIx), false, base, by decide +kernel⟩⟩

theorem witness_TableWindows :
    (∃ (r : Req) (win : Fin 5) (word : Fin 512) (i : _) (w : _) (s : State), s.pfWrites r (0x40 + win.val) = true ∧
      winSlot (s.winOf r.val (0x40 + win.val)) (0x40 + win.val) (0x800 + 4 * word.val) = (i, w) ∧ i < (winInfo (0x40 + win.val)).1 ∧
      4 * w + 4 ≠ (winInfo (0x40 + win.val)).2 ∧ (s.winOf r.val (0x40 + win.val)).staged = none ∧ win.val ≠ 3) ∧
    (∃ (r : Req) (word : Fin 512) (i : _) (l : _) (s : State), s.pfWrites r 0x40 = true ∧
      winSlot (s.winOf r.val 0x40) 0x40 (0x800 + 4 * word.val) = (i, 15) ∧ i < 1024 ∧ (s.winOf r.val 0x40).staged = some (i, [(4, l)])) ∧
    (∃ (r : Req) (win : Fin 5) (word : Fin 512) (i : _) (w : _) (s : State), s.pfReads r (0x40 + win.val) = true ∧
      winSlot (s.winOf r.val (0x40 + win.val)) (0x40 + win.val) (0x800 + 4 * word.val) = (i, w) ∧ i < (winInfo (0x40 + win.val)).1 ∧
      (s.winOf r.val (0x40 + win.val)).cap = none) :=
  ⟨⟨(0 : Req), (0 : Fin 5), (50 : Fin 512), 3, 2, base, by decide +kernel⟩,
    ⟨(0 : Req), (95 : Fin 512), 5, 66, s99, by decide +kernel⟩,
    ⟨(0 : Req), (0 : Fin 5), (50 : Fin 512), 3, 2, base, by decide +kernel⟩⟩

theorem witness_QueueRegisters :
    (∃ (f : Fn) (v : Word) (s : State), s.queWrites f = true ∧ v.toNat % 2 ^ 12 < depth s (F.CMDQ_SIZE_SIZE (qBase f.val)) ∧
      modSub (depth s (F.CMDQ_SIZE_SIZE (qBase f.val))) (v.toNat % 2 ^ 12) (s.rd (F.CMDQ_TAIL_TAIL (qBase f.val))) ≤ modSub (depth s (F.CMDQ_SIZE_SIZE (qBase f.val))) (s.rd (F.CMDQ_HEAD_HEAD (qBase f.val)) + depth s (F.CMDQ_SIZE_SIZE (qBase f.val)) - 1) (s.rd (F.CMDQ_TAIL_TAIL (qBase f.val)))) ∧
    (∃ (f : Fn) (v : Word) (s : State), s.queWrites f = true ∧ depth s (F.CMDQ_SIZE_SIZE (qBase f.val)) ≤ v.toNat % 2 ^ 12) ∧
    (∃ (f : Fn) (v : Word) (s : State), s.queWrites f = true ∧ v.toNat % 2 ^ 12 < depth s (F.CPLQ_SIZE_SIZE (qBase f.val)) ∧
      modSub (depth s (F.CPLQ_SIZE_SIZE (qBase f.val))) (v.toNat % 2 ^ 12) (s.rd (F.CPLQ_HEAD_HEAD (qBase f.val))) ≤ modSub (depth s (F.CPLQ_SIZE_SIZE (qBase f.val))) (s.rd (F.CPLQ_TAIL_TAIL (qBase f.val))) (s.rd (F.CPLQ_HEAD_HEAD (qBase f.val)))) ∧
    (∃ (f : Fn) (v : DWord) (s : State), s.queWrites f = true ∧ s.cmdqOpen f = true ∧ (4 ≤ v.toNat % 16 ∧ v.toNat % 16 ≤ 12)) ∧
    (∃ (f : Fn) (s : State), s.queWrites f = true ∧ s.cmdqOpen f = true) ∧
    (∃ (f : Fn) (s : State), s.queWrites f = true ∧ s.on (F.Q_CTRL_CPL_EN (qBase f.val)) = false) ∧
    (∃ (f : Fn) (v : DWord) (s : State), s.queWrites f = true ∧ s.on (F.Q_CTRL_CPL_EN (qBase f.val)) = false ∧ (4 ≤ v.toNat % 16 ∧
      v.toNat % 16 ≤ 12)) ∧
    (∃ (f : Fn) (s : State), s.queWrites f = true ∧ s.cmdqOpen f = false) ∧
    (∃ (f : Fn) (s : State), s.queWrites f = true) :=
  ⟨⟨(0 : Fn), (3 : Word), base, by decide +kernel⟩,
    ⟨(0 : Fn), 0xFFF, base, by decide +kernel⟩,
    ⟨(0 : Fn), (4 : Word), s100, by decide +kernel⟩,
    ⟨(0 : Fn), (5 : DWord), s101, by decide +kernel⟩,
    ⟨(0 : Fn), s101, by decide +kernel⟩,
    ⟨(0 : Fn), s102, by decide +kernel⟩,
    ⟨(0 : Fn), (5 : DWord), s102, by decide +kernel⟩,
    ⟨(0 : Fn), base, by decide +kernel⟩,
    ⟨(0 : Fn), s103, by decide +kernel⟩⟩

theorem witness_TwinControl :
    (∃ (r : Req) (v : Word) (s : State), s.pfWrites r 8 = true ∧ (v.toNat % 2 = 1 ∧ v.toNat / 2 % 4 = 1) ∧ s.rd F.TWN_CFG_EN = 0) ∧
    (∃ (r : Req) (v : Word) (s : State), s.pfWrites r 8 = true ∧ (v.toNat % 2 = 1 ∧ v.toNat / 2 % 4 = 2) ∧ s.rd F.TWN_CFG_EN = 0) ∧
    (∃ (r : Req) (v : Word) (s : State), s.pfWrites r 8 = true ∧ (v.toNat % 8 = 7 ∨ v.toNat % 8 = 1 ∨ s.rd F.TWN_CFG_EN = 1 ∧
      v.toNat / 2 ^ 4 % 16 ≠ s.rd F.TWN_CFG_PORT)) ∧
    (∃ (r : Req) (v : Word) (s : State), s.pfWrites r 8 = true ∧ v.toNat % 8 = 6 ∧ s.rd F.TWN_CFG_EN = 0) ∧
    (∃ (r : Req) (s : State), s.pfWrites r 8 = true ∧ s.role = 1 ∧ (s.twnCanSend = true ∧ s.twn.needFull = false ∧ s.twn.sendq = [] ∧
      s.twn.resend = [] ∧ s.twn.buf = [])) ∧
    (∃ (r : Req) (s : State), s.pfWrites r 8 = true ∧ s.role = 1 ∧ (s.twnCanSend = false ∨ s.twn.buf ≠ [])) ∧
    (∃ (r : Req) (s : State), s.pfWrites r 8 = true ∧ s.role = 2 ∧ s.rd F.TWN_STAT_TKO < 4 ∧ s.frozen 8 = false ∧ s.twn.group = []) ∧
    (∃ (r : Req) (s : State), s.pfWrites r 8 = true ∧ s.role = 2 ∧ s.rd F.TWN_STAT_TKO < 4 ∧ s.frozen 8 = true) :=
  ⟨⟨(0 : Req), (BitVec.ofNat 32 (1 + 2 + 3 * 2 ^ 4 + 9 * 2 ^ 16)), base, by decide +kernel⟩,
    ⟨(0 : Req), (BitVec.ofNat 32 (1 + 4 + 3 * 2 ^ 4 + 9 * 2 ^ 16)), base, by decide +kernel⟩,
    ⟨(0 : Req), (7 : Word), base, by decide +kernel⟩,
    ⟨(0 : Req), (6 : Word), base, by decide +kernel⟩,
    ⟨(0 : Req), s104, by decide +kernel⟩,
    ⟨(0 : Req), s105, by decide +kernel⟩,
    ⟨(0 : Req), s106, by decide +kernel⟩,
    ⟨(0 : Req), s107, by decide +kernel⟩⟩

theorem witness_BlockControlWrites :
    (∃ (r : Req) (v : Word) (s : State), s.pfWrites r 9 = true ∧ v.getLsbD 9 = true ∧ s.que.inflight = [] ∧ s.csq.epochs = []) ∧
    (∃ (r : Req) (n : Fin 8) (s : State), s.pfWrites r 0x0B = true ∧ s.on (F.ATM_STAT_BUSY 0xB000 n.val) = false ∧
      s.rd (F.ATM_GA_GA 0xB000 n.val) / 2 ^ 35 % 2 ^ 15 ≠ 0) ∧
    (∃ (r : Req) (n : Fin 8) (s : State), s.pfWrites r 0x0B = true ∧ s.on (F.ATM_STAT_BUSY 0xB000 n.val) = false ∧ s.runs 0x0B = false ∧
      s.rd (F.ATM_GA_GA 0xB000 n.val) / 2 ^ 35 % 2 ^ 15 = 0 ∧ s.rd (F.ATM_GA_GA 0xB000 n.val) % 8 = 0) ∧
    (∃ (r : Req) (n : Fin 8) (s : State), s.pfWrites r 0x0B = true ∧ s.on (F.ATM_STAT_BUSY 0xB000 n.val) = true) ∧
    (∃ (r : Req) (s : State), s.pfWrites r 0x0A = true ∧ (s.live 0x0A = true ∧ s.domOn 4 = true) ∧
      (4 ≤ s.rd (tstate 0) ∨ s.rd (tstate 0) = 0) ∧ (4 ≤ s.rd (tstate 1) ∨ s.rd (tstate 1) = 0)) :=
  ⟨⟨(0 : Req), 0x200, s108, by decide +kernel⟩,
    ⟨(0 : Req), (1 : Fin 8), s109, by decide +kernel⟩,
    ⟨(0 : Req), (1 : Fin 8), s110, by decide +kernel⟩,
    ⟨(0 : Req), (1 : Fin 8), s111, by decide +kernel⟩,
    ⟨(0 : Req), s112, by decide +kernel⟩⟩

theorem witness_FaultControl :
    (∃ (r : Req) (src : SrcIx) (s : State), s.pfWrites r 0x0E = true ∧ s.on (F.FCU_REC_W0_VALID src.val) = true ∧
      s.rd (F.FCU_REC_W0_CLASS src.val) ≠ 4 ∧ s.fcu.pairs.find? (fun x => x.1.src.val == src.val && x.2.rail != .clear) = none) ∧
    (∃ (r : Req) (src : SrcIx) (s : State), s.pfWrites r 0x0E = true ∧ s.on (F.FCU_REC_W0_VALID src.val) = true ∧
      s.rd (F.FCU_REC_W0_CLASS src.val) = 4) ∧
    (∃ (r : Req) (v : Word) (s : State), s.pfWrites r 0x0E = true ∧ v.toNat % 4 = 1 ∧ v.toNat / 2 ^ 8 % 2 ^ 7 < 16 ∧ s.terminal = false) ∧
    (∃ (r : Req) (v : Word) (s : State), s.pfWrites r 0x0E = true ∧ v.toNat % 4 = 2 ∧ (1 ≤ v.toNat / 2 ^ 8 % 2 ^ 7 ∧
      v.toNat / 2 ^ 8 % 2 ^ 7 ≤ 64) ∧ s.terminal = false) ∧
    (∃ (r : Req) (v : Word) (s : State), s.pfWrites r 0x0E = true ∧ v.toNat % 4 = 3 ∧ v.toNat / 2 ^ 8 % 2 ^ 7 < 2 ∧ s.terminal = false) ∧
    (∃ (r : Req) (v : Word) (s : State), s.pfWrites r 0x0E = true ∧ scopeOk (v.toNat % 4) (v.toNat / 2 ^ 8 % 2 ^ 7) = false) ∧
    (∃ (r : Req) (v : Word) (s : State), s.pfWrites r 0x0E = true ∧ v.toNat % 4 = 1 ∧ v.toNat / 2 ^ 8 % 2 ^ 7 < 16 ∧ s.terminal = false ∧
      s.fcu.fences.any (fun x => x.2 == (1, v.toNat / 2 ^ 8 % 2 ^ 7) && s.on (F.FCU_REC_W0_VALID x.1)) = false) ∧
    (∃ (r : Req) (v : Word) (s : State), s.pfWrites r 0x0E = true ∧
      s.fcu.fences.any (fun x => x.2 == (v.toNat % 4, v.toNat / 2 ^ 8 % 2 ^ 7) && s.on (F.FCU_REC_W0_VALID x.1)) = true) ∧
    (∃ (r : Req) (v : Word) (s : State), s.pfWrites r 0x0E = true ∧ (v.toNat / 2 ^ 8 % 4 = 1 ∨ v.toNat / 2 ^ 8 % 4 = 2)) ∧
    (∃ (r : Req) (s : State), s.reaches r 0x9024 = true ∧ (r.val = 0 ∨ r.val = 65)) ∧
    (∃ (r : Req) (s : State), s.pfWrites r 0x0E = true) :=
  ⟨⟨(0 : Req), (16 : SrcIx), s113, by decide +kernel⟩,
    ⟨(0 : Req), (16 : SrcIx), s114, by decide +kernel⟩,
    ⟨(0 : Req), 0x301, base, by decide +kernel⟩,
    ⟨(0 : Req), 0x302, base, by decide +kernel⟩,
    ⟨(0 : Req), 0x103, base, by decide +kernel⟩,
    ⟨(0 : Req), 0x1001, base, by decide +kernel⟩,
    ⟨(0 : Req), 0x301, s115, by decide +kernel⟩,
    ⟨(0 : Req), 0x201, s116, by decide +kernel⟩,
    ⟨(0 : Req), 0x110, base, by decide +kernel⟩,
    ⟨(0 : Req), base, by decide +kernel⟩,
    ⟨(0 : Req), s117, by decide +kernel⟩⟩

theorem witness_EventsAndStatistics :
    (∃ (r : Req) (s : State), s.pfWrites r 0x0F = true ∧ s.en 0x0F = true ∧ s.evr.staging = []) ∧
    (∃ (r : Req) (x : _) (s : State), s.pfReads r 0x0F = true ∧ (s.reqOf r.val).evCap = some (some x)) ∧
    (∃ (r : Req) (s : State), s.pfWrites r 0x0F = true) ∧
    (∃ (r : Req) (v : Word) (s : State), s.pfWrites r 0x20 = true ∧ s.en 0x20 = true ∧ (1 ≤ v.toNat % 2 ^ 26 ∧
      v.toNat % 2 ^ 26 ≤ 60000000)) ∧
    (∃ (r : Req) (s : State), s.pfWrites r 0x21 = true) ∧
    (∃ (r : _) (rest : List EvrRec) (s : State), s.evr.staging = r :: rest ∧ s.live 0x0F = true ∧ s.evr.log = []) ∧
    (∃ (n : _) (r : _) (rest : List EvrRec) (s : State), s.evr.staging = r :: rest ∧ s.live 0x0F = true ∧ s.evr.lostSince = 0 ∧
      s.evr.log.getLast? = some n ∧ n.merges r.page r.code r.part r.sev = true ∧ n.rep + r.rep ≤ 0xFFFF) ∧
    (∃ (s : State), s.en 0x20 = true ∧ s.on F.CPM_CLK_STAT_BYPASS = false) :=
  ⟨⟨(0 : Req), s118, by decide +kernel⟩,
    ⟨(0 : Req), evr1, s119, by decide +kernel⟩,
    ⟨(0 : Req), base, by decide +kernel⟩,
    ⟨(0 : Req), (1000 : Word), s120, by decide +kernel⟩,
    ⟨(0 : Req), s121, by decide +kernel⟩,
    ⟨evr1, [], s122, by decide +kernel⟩,
    ⟨((s123.evr.log.getLast?).get (by decide +kernel)), evr1, [], s123, by decide +kernel⟩,
    ⟨s120, by decide +kernel⟩⟩

theorem witness_PowerControl :
    (∃ (r : Req) (v : Word) (s : State), s.pfWrites r 1 = true ∧ (s.pstate = 0 ∧ s.rd F.CPM_OP_OPSTATE = 0) ∧
      s.on F.CPM_PMB_CFG_PMB_OK = true ∧ v.toNat % 4 ≠ s.rd F.CPM_OP_CUR) ∧
    (∃ (r : Req) (s : State), s.pfWrites r 1 = true ∧ s.pstate ≠ 0) ∧
    (∃ (r : Req) (s : State), s.pfWrites r 1 = true ∧ s.on F.CPM_CLK_STAT_BYPASS = false) ∧
    (∃ (r : Req) (s : State), s.pfWrites r 1 = true ∧ s.on F.CPM_CLK_STAT_BYPASS = true) ∧
    (∃ (r : Req) (s : State), s.pfWrites r 1 = true ∧ (s.domOn 1 = true ∧ s.domOn 2 = true) ∧ s.rd F.CPM_PAD_HOLD_HELD < 16) ∧
    (∃ (r : Req) (s : State), s.pfWrites r 1 = true ∧ s.on F.LNK_TIME_CTRL_ROOT = true ∧ s.rd F.CPM_TIME_STAT_TIME_STATE = 5) ∧
    (∃ (r : Req) (s : State), s.pfWrites r 1 = true ∧ (s.on F.LNK_TIME_CTRL_ROOT = true ∨ s.on F.LNK_TIME_CTRL_PARENT_EN = false)) ∧
    (∃ (r : Req) (s : State), s.pfWrites r 1 = true ∧ (s.on F.LNK_TIME_CTRL_ROOT = false ∧ s.on F.LNK_TIME_CTRL_PARENT_EN = true)) ∧
    (∃ (r : Req) (v : Word) (s : State), s.pfWrites r 1 = true ∧ v.toNat % 2 ^ 16 = 0xA5C3) ∧
    (∃ (r : Req) (v : Word) (s : State), s.pfWrites r 1 = true ∧ v.toNat % 2 ^ 16 ≠ 0xA5C3) :=
  ⟨⟨(0 : Req), (1 : Word), s124, by decide +kernel⟩,
    ⟨(0 : Req), s125, by decide +kernel⟩,
    ⟨(0 : Req), s126, by decide +kernel⟩,
    ⟨(0 : Req), s127, by decide +kernel⟩,
    ⟨(0 : Req), s128, by decide +kernel⟩,
    ⟨(0 : Req), s129, by decide +kernel⟩,
    ⟨(0 : Req), base, by decide +kernel⟩,
    ⟨(0 : Req), s130, by decide +kernel⟩,
    ⟨(0 : Req), 0xA5C3, s131, by decide +kernel⟩,
    ⟨(0 : Req), (1 : Word), base, by decide +kernel⟩⟩

theorem witness_DebugAperture :
    (∃ (r : Req) (s : State), s.pfWrites r 0x22 = true) ∧
    (∃ (s : State), s.pfWrites 65 0x22 = true ∧ (freezable.filter (fun x => s.defers x.1)) = [] ∧ s.rd F.DBG_PEND_PEND = 0 ∧
      s.on F.DBG_FREEZE_STAT_FROZEN = false) ∧
    (∃ (s : State), s.pfWrites 0 0x22 = true) ∧
    (∃ (s : State), s.pfWrites 65 0x22 = true) ∧
    (∃ (s : State), s.domOn 1 = true) ∧
    (∃ (x : BitVec 18) (s : State), s.domOn 1 = true ∧ s.on F.DBG_STAT_UNLOCKED = false ∧ (4 * x.toNat / 0x1000 ≠ 0x00 ∧
      4 * x.toNat / 0x1000 ≠ 0x22)) ∧
    (∃ (s : State), s.domOn 1 = true ∧ s.on (F.PAGE_STAT_RST_BUSY 0) = false) ∧
    (∃ (s : State), s.domOn 1 = true ∧ s.on F.DBG_STAT_UNLOCKED = false) ∧
    (∃ (p : Port) (s : State), s.domOn 1 = true ∧ s.on F.DBG_STAT_UNLOCKED = true ∧
      s.on (F.PAGE_STAT_RST_BUSY (0x1000 * (0x10 + p.val))) = false) ∧
    (∃ (s : State), s.domOn 1 = true ∧ s.on F.DBG_STAT_UNLOCKED = false) ∧
    (∃ (s : State), s.domOn 1 = true ∧ s.on F.DBG_STAT_UNLOCKED = true ∧ s.on (F.PAGE_STAT_RST_BUSY 0) = false) :=
  ⟨⟨(0 : Req), s132, by decide +kernel⟩,
    ⟨s132, by decide +kernel⟩,
    ⟨base, by decide +kernel⟩,
    ⟨s133, by decide +kernel⟩,
    ⟨s134, by decide +kernel⟩,
    ⟨(BitVec.ofNat 18 (0x6000 / 4)), base, by decide +kernel⟩,
    ⟨s135, by decide +kernel⟩,
    ⟨base, by decide +kernel⟩,
    ⟨(3 : Port), s136, by decide +kernel⟩,
    ⟨base, by decide +kernel⟩,
    ⟨s132, by decide +kernel⟩⟩

theorem witness_TwinSending :
    (∃ (s : State), s.twnCanSend = true) ∧
    (∃ (s : State), s.twnCanSend = true ∧ s.role = 3) ∧
    (∃ (x : TwinOut) (rest : List TwinOut) (s : State), s.twnCanSend = true ∧ s.role = 1 ∧ s.twn.needFull = false ∧
      s.twn.resend = x :: rest) ∧
    (∃ (x : TwinOut) (q : List TwinOut) (s : State), s.twnCanSend = true ∧ s.role = 1 ∧ s.twn.needFull = false ∧ s.twn.resend = [] ∧
      s.twn.sendq = x :: q ∧ (recCloses x.rcd = false ∨ x.n ≤ s.jnl.durable) ∧ 128 * (s.twn.buf.length + 1) ≤ 262144) ∧
    (∃ (x : TwinOut) (q : List TwinOut) (s : State), s.twnCanSend = true ∧ s.role = 1 ∧ s.twn.needFull = false ∧ s.twn.resend = [] ∧
      s.twn.sendq = x :: q ∧ recCloses x.rcd = true ∧ s.jnl.durable < x.n) ∧
    (∃ (x : TwinOut) (q : List TwinOut) (s : State), s.twnCanSend = true ∧ s.role = 1 ∧ s.twn.needFull = false ∧ s.twn.resend = [] ∧
      s.twn.sendq = x :: q ∧ (recCloses x.rcd = false ∨ x.n ≤ s.jnl.durable) ∧ 262144 < 128 * (s.twn.buf.length + 1)) ∧
    (∃ (n : Nat) (s : State), s.twnCanSend = true ∧ s.twn.exp = some n ∧ s.twn.gap = true ∧ (s.role = 2 ∨ s.role = 3)) ∧
    (∃ (s : State), s.en 8 = true ∧ s.on F.TWN_CFG_EN = true ∧ s.role = 2 ∧ (s.rd F.TWN_STAT_TKO = 1 ∨ s.rd F.TWN_STAT_TKO = 2)) ∧
    (∃ (s : State), s.en 8 = true ∧ s.on F.TWN_CFG_EN = true ∧ s.role = 2 ∧ s.rd F.TWN_STAT_TKO = 3 ∧ s.frozen 8 = false) ∧
    (∃ (s : State), s.en 8 = true ∧ s.on F.TWN_CFG_EN = true ∧ s.role = 1 ∧ s.rd F.TWN_STAT_MISSES = 2) ∧
    (∃ (s : State), s.twn.handing = true) :=
  ⟨⟨s137, by decide +kernel⟩,
    ⟨s138, by decide +kernel⟩,
    ⟨({ n := 20, rcd := rec8 }), [], s248, by decide +kernel⟩,
    ⟨({ n := 1, rcd := rec8 }), [], s139, by decide +kernel⟩,
    ⟨({ n := 9, rcd := rec8 }), [], s249, by decide +kernel⟩,
    ⟨({ n := 1, rcd := rec8 }), [], s140, by decide +kernel⟩,
    ⟨((s141.twn.exp).get (by decide +kernel)), s141, by decide +kernel⟩,
    ⟨s142, by decide +kernel⟩,
    ⟨s143, by decide +kernel⟩,
    ⟨s144, by decide +kernel⟩,
    ⟨s145, by decide +kernel⟩⟩

theorem witness_TwinReceiving :
    (∃ (b : TwinBurst) (u : State) (s : State), s.twnUp = true ∧ s.twinFor? 1 = some (b, u) ∧ b.node.toNat = s.rd F.TWN_CFG_PEER ∧
      s.role = 2 ∧ s.rd F.TWN_STAT_TKO ≤ 3 ∧ b.pullReq = false) ∧
    (∃ (b : TwinBurst) (u : State) (s : State), s.twnUp = true ∧ s.twinFor? 1 = some (b, u) ∧ b.node.toNat ≠ s.rd F.TWN_CFG_PEER) ∧
    (∃ (b : TwinBurst) (u : State) (s : State), s.twnUp = true ∧ s.twinFor? 1 = some (b, u) ∧ b.node.toNat = s.rd F.TWN_CFG_PEER ∧
      s.role = 1 ∧ b.role = 1 ∧ s.rd F.TWN_GEN_GEN < b.gen.toNat) ∧
    (∃ (b : TwinBurst) (u : State) (s : State), s.twnUp = true ∧ s.twinFor? 1 = some (b, u) ∧ b.node.toNat = s.rd F.TWN_CFG_PEER ∧
      s.role = 1 ∧ b.role = 1 ∧ b.gen.toNat = s.rd F.TWN_GEN_GEN) ∧
    (∃ (b : TwinBurst) (r : _) (u : State) (s : State), s.twnUp = true ∧ s.twinFor? 2 = some (b, u) ∧ b.node.toNat = s.rd F.TWN_CFG_PEER ∧
      s.role = 2 ∧ s.rd F.TWN_STAT_TKO ≤ 3 ∧ b.rcd = some r ∧ s.twn.exp = some b.tseq.toNat ∧ recCloses r = false) ∧
    (∃ (b : TwinBurst) (r : _) (n : Nat) (u : State) (s : State), s.twnCanSend = true ∧ s.twinFor? 2 = some (b, u) ∧
      b.node.toNat = s.rd F.TWN_CFG_PEER ∧ s.role = 2 ∧ s.rd F.TWN_STAT_TKO ≤ 3 ∧ b.rcd = some r ∧ s.twn.exp = some n ∧ b.tseq.toNat ≠ n ∧
      later b.tseq.toNat n = true ∧ s.twn.gap = false) ∧
    (∃ (b : TwinBurst) (u : State) (s : State), s.twnUp = true ∧ s.twinFor? 3 = some (b, u) ∧ b.node.toNat = s.rd F.TWN_CFG_PEER ∧
      s.role = 1 ∧ b.role = 2 ∧ s.twn.handing = false ∧ s.twn.needFull = false) ∧
    (∃ (b : TwinBurst) (u : State) (s : State), s.twnUp = true ∧ s.twinFor? 4 = some (b, u) ∧ b.node.toNat = s.rd F.TWN_CFG_PEER ∧
      s.role = 1 ∧ b.role = 2) ∧
    (∃ (b : TwinBurst) (u : State) (s : State), s.twnUp = true ∧ s.twinFor? 5 = some (b, u) ∧ b.node.toNat = s.rd F.TWN_CFG_PEER ∧
      s.role = 1 ∧ b.role = 3 ∧ (s.twn.sendq ++ s.twn.resend).any (fun x => x.total != 0) = false ∧ s.twn.needFull = true) ∧
    (∃ (b : TwinBurst) (u : State) (s : State), s.twnUp = true ∧ s.twinFor? 5 = some (b, u) ∧ b.node.toNat = s.rd F.TWN_CFG_PEER ∧
      s.role = 1 ∧ b.role = 3 ∧ (s.twn.sendq ++ s.twn.resend).any (fun x => x.total != 0) = false ∧ s.twn.needFull = false ∧
      b.gen.toNat = s.rd F.TWN_GEN_GEN ∧ s.twn.ackEpoch = b.epoch.toNat ∧ afterEpoch b.epoch.toNat s.twn.buf ≠ []) ∧
    (∃ (b : TwinBurst) (u : State) (s : State), s.twnUp = true ∧ s.twinFor? 6 = some (b, u) ∧ b.node.toNat = s.rd F.TWN_CFG_PEER ∧
      s.role = 2 ∧ s.rd F.TWN_STAT_TKO ≤ 3 ∧ s.frozen 8 = false) ∧
    (∃ (s : State), s.rd F.TWN_STAT_TKO = 5 ∧ s.en 8 = true ∧ s.twn.mirror.isEmpty = true ∧ s.que.inflight = []) :=
  ⟨⟨((State.twinFor? (spareBase s146 (TwinBurst.bytes (tb 1 1 4 20 none))) 1).get (by decide +kernel)).1,
      ((State.twinFor? (spareBase s146 (TwinBurst.bytes (tb 1 1 4 20 none))) 1).get (by decide +kernel)).2,
      (spareBase s146 (TwinBurst.bytes (tb 1 1 4 20 none))), by decide +kernel⟩,
    ⟨((State.twinFor? (spareBase (twnBase 2) (TwinBurst.bytes ({ tb 1 1 4 20 none with node := 8 }))) 1).get (by decide +kernel)).1,
      ((State.twinFor? (spareBase (twnBase 2) (TwinBurst.bytes ({ tb 1 1 4 20 none with node := 8 }))) 1).get (by decide +kernel)).2,
      (spareBase (twnBase 2) (TwinBurst.bytes ({ tb 1 1 4 20 none with node := 8 }))), by decide +kernel⟩,
    ⟨((State.twinFor? (spareBase (twnBase 1) (TwinBurst.bytes (tb 1 1 5 20 none))) 1).get (by decide +kernel)).1,
      ((State.twinFor? (spareBase (twnBase 1) (TwinBurst.bytes (tb 1 1 5 20 none))) 1).get (by decide +kernel)).2,
      (spareBase (twnBase 1) (TwinBurst.bytes (tb 1 1 5 20 none))), by decide +kernel⟩,
    ⟨((State.twinFor? (spareBase (twnBase 1) (TwinBurst.bytes (tb 1 1 4 20 none))) 1).get (by decide +kernel)).1,
      ((State.twinFor? (spareBase (twnBase 1) (TwinBurst.bytes (tb 1 1 4 20 none))) 1).get (by decide +kernel)).2,
      (spareBase (twnBase 1) (TwinBurst.bytes (tb 1 1 4 20 none))), by decide +kernel⟩,
    ⟨((State.twinFor? (spareBase s147 (TwinBurst.bytes (tb 2 1 4 21 (some recSched)))) 2).get (by decide +kernel)).1, recSched,
      ((State.twinFor? (spareBase s147 (TwinBurst.bytes (tb 2 1 4 21 (some recSched)))) 2).get (by decide +kernel)).2,
      (spareBase s147 (TwinBurst.bytes (tb 2 1 4 21 (some recSched)))), by decide +kernel⟩,
    ⟨((State.twinFor? (spareBase s147 (TwinBurst.bytes (tb 2 1 4 23 (some recSched)))) 2).get (by decide +kernel)).1, recSched, 21,
      ((State.twinFor? (spareBase s147 (TwinBurst.bytes (tb 2 1 4 23 (some recSched)))) 2).get (by decide +kernel)).2,
      (spareBase s147 (TwinBurst.bytes (tb 2 1 4 23 (some recSched)))), by decide +kernel⟩,
    ⟨((State.twinFor? (spareBase s149 (TwinBurst.bytes (tb 3 2 4 20 none))) 3).get (by decide +kernel)).1,
      ((State.twinFor? (spareBase s149 (TwinBurst.bytes (tb 3 2 4 20 none))) 3).get (by decide +kernel)).2,
      (spareBase s149 (TwinBurst.bytes (tb 3 2 4 20 none))), by decide +kernel⟩,
    ⟨((State.twinFor? (spareBase s149 (TwinBurst.bytes (tb 4 2 4 20 none))) 4).get (by decide +kernel)).1,
      ((State.twinFor? (spareBase s149 (TwinBurst.bytes (tb 4 2 4 20 none))) 4).get (by decide +kernel)).2,
      (spareBase s149 (TwinBurst.bytes (tb 4 2 4 20 none))), by decide +kernel⟩,
    ⟨((State.twinFor? (spareBase s150 (TwinBurst.bytes (tb 5 3 0 0 none))) 5).get (by decide +kernel)).1,
      ((State.twinFor? (spareBase s150 (TwinBurst.bytes (tb 5 3 0 0 none))) 5).get (by decide +kernel)).2,
      (spareBase s150 (TwinBurst.bytes (tb 5 3 0 0 none))), by decide +kernel⟩,
    ⟨((State.twinFor? (spareBase s250 (TwinBurst.bytes (tb 5 3 4 0 none))) 5).get (by decide +kernel)).1,
      ((State.twinFor? (spareBase s250 (TwinBurst.bytes (tb 5 3 4 0 none))) 5).get (by decide +kernel)).2,
      (spareBase s250 (TwinBurst.bytes (tb 5 3 4 0 none))), by decide +kernel⟩,
    ⟨((State.twinFor? (spareBase (twnBase 2) (TwinBurst.bytes (tb 6 1 4 20 none))) 6).get (by decide +kernel)).1,
      ((State.twinFor? (spareBase (twnBase 2) (TwinBurst.bytes (tb 6 1 4 20 none))) 6).get (by decide +kernel)).2,
      (spareBase (twnBase 2) (TwinBurst.bytes (tb 6 1 4 20 none))), by decide +kernel⟩,
    ⟨s151, by decide +kernel⟩⟩

theorem witness_MemoryStacks :
    (∃ (st : StackIx) (s : State), s.live 0x0A = true ∧ s.domOn 4 = true ∧ s.rd (tstate st.val) = 1) ∧
    (∃ (st : StackIx) (s : State), s.live 0x0A = true ∧ s.domOn 4 = true ∧ s.rd (tstate st.val) = 3) ∧
    (∃ (st : StackIx) (s : State), s.live 0x0A = true ∧ s.domOn 4 = true ∧ (1 ≤ s.rd (tstate st.val) ∧ s.rd (tstate st.val) ≤ 3)) ∧
    (∃ (st : StackIx) (s : State), s.scrubRuns st.val = true ∧ s.rd (F.MSS_SCRUB_POS_POS st.val) < 2 ^ 28 - 1) ∧
    (∃ (st : StackIx) (s : State), s.scrubRuns st.val = true ∧ s.rd (F.MSS_SCRUB_POS_POS st.val) = 2 ^ 28 - 1) ∧
    (∃ (st : StackIx) (s : State), s.scrubRuns st.val = true ∧ s.scrubLags st.val = true) ∧
    (∃ (st : StackIx) (s : State), s.scrubLags st.val = false) ∧
    (∃ (off : BitVec 35) (bs : List (Option Byte)) (s : State), s.stackCheck (off.toNat / 64 * 64) 64 = 0 ∧ bs.length = 64) ∧
    (∃ (off : BitVec 35) (s : State), s.stackCheck (off.toNat / 64 * 64) 64 = 0 ∧ s.poisoned (off.toNat / 64) = false) :=
  ⟨⟨(0 : StackIx), s152, by decide +kernel⟩,
    ⟨(0 : StackIx), s153, by decide +kernel⟩,
    ⟨(0 : StackIx), s154, by decide +kernel⟩,
    ⟨(0 : StackIx), s155, by decide +kernel⟩,
    ⟨(0 : StackIx), s156, by decide +kernel⟩,
    ⟨(0 : StackIx), s157, by decide +kernel⟩,
    ⟨(0 : StackIx), base, by decide +kernel⟩,
    ⟨(64 : BitVec 35), (List.replicate 64 (some 9)), s158, by decide +kernel⟩,
    ⟨(128 : BitVec 35), base, by decide +kernel⟩⟩

theorem witness_EnvironmentMonitor :
    (∃ (v : BitVec 16) (s : State), s.en 0x21 = true ∧ toSigned 16 (s.rd F.ENV_CFG_TEMP_LO) ≤ v.toInt ∧
      v.toInt ≤ toSigned 16 (s.rd F.ENV_CFG_TEMP_HI)) ∧
    (∃ (n : Fin 64) (v : BitVec 16) (s : State), s.en 0x21 = true ∧ toSigned 16 (s.rd F.ENV_CFG_TEMP_LO) ≤ v.toInt ∧
      toSigned 16 (s.rd F.ENV_CFG_TEMP_HI) < v.toInt ∧ s.on (F.ENV_DIE_TEMP_HI n.val) = false) ∧
    (∃ (n : Fin 4) (x : ExtConv) (s : State), s.extRuns n.val = true ∧ (∀ up, 2 ^ 23 - 1 ≤ s.extRaw n.val x up) ∧
      s.extNoValue n.val = false) ∧
    (∃ (n : Fin 4) (x : ExtConv) (s : State), s.extRuns n.val = true ∧ (∀ up, -41943 ≤ s.extRaw n.val x up) ∧
      (∀ up, (s.extTemp n.val (s.extRaw n.val x up)).isSome = true) ∧ s.extNoValue n.val = false) ∧
    (∃ (n : Fin 4) (x : ExtConv) (s : State), s.extRuns n.val = true ∧ (∀ up, s.extRaw n.val x up < -41943)) ∧
    (∃ (n : Fin 4) (s : State), s.extRuns n.val = true ∧ s.on (F.ENV_EXT_RAW_OPEN n.val) = false) ∧
    (∃ (k : Fin 7) (mv : BitVec 13) (f : _) (s : State), (k.val ≠ 0 ∨ s.rd F.CPM_OP_OPSTATE = 0) ∧ s.domOn 1 = true ∧
      withinPct (if k = 6 then 2 else 5) (s.supplyNominal k.val) mv.toNat = false ∧
      f = (if s.supplyNominal k.val < mv.toNat then F.ENV_SUP_HIGH k.val else F.ENV_SUP_LOW k.val) ∧ s.on f = false) ∧
    (∃ (k : Fin 7) (mv : BitVec 13) (s : State), withinPct (if k = 6 then 2 else 5) (s.supplyNominal k.val) mv.toNat = true) ∧
    (∃ (k : Fin 7) (mv : BitVec 13) (s : State), s.domOn 1 = true ∧ withinPct 4 (s.supplyNominal k.val) mv.toNat = true) ∧
    (∃ (k : Fin 7) (mv : BitVec 13) (s : State), withinPct 4 (s.supplyNominal k.val) mv.toNat = false) :=
  ⟨⟨(1600 : BitVec 16), base, by decide +kernel⟩,
    ⟨(3 : Fin 64), (7000 : BitVec 16), s159, by decide +kernel⟩,
    ⟨(1 : Fin 4), ({ vac := 2 ^ 40, vbc := 0, vab := 0 }), s5, by decide +kernel⟩,
    ⟨(1 : Fin 4), ({ vac := 80000 * 2 ^ 17, vbc := 0, vab := 0 }), s160, by decide +kernel⟩,
    ⟨(1 : Fin 4), ({ vac := -50000 * 2 ^ 17, vbc := 0, vab := 0 }), s5, by decide +kernel⟩,
    ⟨(1 : Fin 4), s5, by decide +kernel⟩,
    ⟨(2 : Fin 7), (2000 : BitVec 13), (F.ENV_SUP_HIGH 2), base, by decide +kernel⟩,
    ⟨(2 : Fin 7), (1800 : BitVec 13), base, by decide +kernel⟩,
    ⟨(2 : Fin 7), (1800 : BitVec 13), s161, by decide +kernel⟩,
    ⟨(2 : Fin 7), (2000 : BitVec 13), base, by decide +kernel⟩⟩

theorem witness_FunctionsAndHostLink :
    (∃ (f : Fn) (s : State), f.val ≠ 0 ∧ s.partExists f.val = true) ∧
    (∃ (f : Fn) (s : State), s.host.flr.contains f.val = true) ∧
    (∃ (s : State), s.on F.HIF_LINK_STAT_UP = true) ∧
    (∃ (l : LinkParams) (s : State), (s.rd F.CPM_BOOT_STAGE = 8 ∨ s.rd F.CPM_BOOT_STAGE = 10) ∧
      (s.rd F.GLB_FORM_FORM = 1 ∨ s.rd F.GLB_FORM_FORM = 2) ∧ s.domOn 1 = true ∧ s.linkOk l = true) ∧
    (∃ (l : LinkParams) (s : State), (s.rd F.CPM_BOOT_STAGE = 8 ∨ s.rd F.CPM_BOOT_STAGE = 10) ∧ s.rd F.GLB_FORM_FORM = 0 ∧
      s.domOn 1 = true ∧ s.linkOk l = true) ∧
    (∃ (l : LinkParams) (s : State), s.linkOk l = false) ∧
    (∃ (f : Fn) (s : State), bitOf (s.rd (nmaFld f.val).1) (nmaFld f.val).2 = true ∧ s.canHost f.val = true ∧
      (s.hostFn f.val).msix = true) ∧
    (∃ (f : Fn) (s : State), s.fnExists f.val = true) ∧
    (∃ (f : Fn) (v : Fin 64) (s : State), s.fnExists f.val = true ∧ s.canHost f.val = true ∧ ((s.hostFn f.val).msix = true ∧
      (s.hostFn f.val).fmask = false) ∧ v.val < vecCount f.val ∧ (s.hostFn f.val).pba = [v.val] ∧ s.host.waiting = []) ∧
    (∃ (f : Fn) (s : State), s.fnExists f.val = true) ∧
    (∃ (f : Fn) (off : BitVec 13) (s : State), s.fnExists f.val = true ∧ s.inD0 f.val = true ∧ s.domOn 1 = true ∧
      off.toNat / 4 < 4 * vecCount f.val ∧ off.toNat / 4 % 4 ≠ 3) ∧
    (∃ (f : Fn) (s : State), s.fnExists f.val = true ∧ s.inD0 f.val = true ∧ s.domOn 1 = true) :=
  ⟨⟨(1 : Fn), s162, by decide +kernel⟩,
    ⟨(1 : Fn), s163, by decide +kernel⟩,
    ⟨s164, by decide +kernel⟩,
    ⟨lparams, s165, by decide +kernel⟩,
    ⟨({ lparams with modules := 1 }), s166, by decide +kernel⟩,
    ⟨lparams, s166, by decide +kernel⟩,
    ⟨(1 : Fn), s167, by decide +kernel⟩,
    ⟨(1 : Fn), base, by decide +kernel⟩,
    ⟨(0 : Fn), (5 : Fin 64), s168, by decide +kernel⟩,
    ⟨(1 : Fn), base, by decide +kernel⟩,
    ⟨(0 : Fn), (16 : BitVec 13), base, by decide +kernel⟩,
    ⟨(0 : Fn), base, by decide +kernel⟩⟩

theorem witness_LocalAccesses :
    (∃ (f : Fn) (x : BitVec 34) (n : Nat) (off : Nat) (s : State), (1 ≤ n ∧ n ≤ 4096) ∧ s.inBar2 f x.toNat n = true ∧
      s.bar2Addr f x.toNat n false = some (s.nodeId, off) ∧ s.runs 0x0B = true ∧ (s.rme.ops = [] ∧ s.rme.dma.length ≤ 64) ∧
      s.partFenced f.val = false ∧ s.rd (F.RME_TAG_QUOTA_QUOTA f.val) ≠ 0 ∧ s.windowCheck s.nodeId f.val off n false = 0 ∧
      s.stackCheck off n = 0 ∧ s.poisonIn off n = []) ∧
    (∃ (f : Fn) (x : BitVec 34) (n : Nat) (s : State), (1 ≤ n ∧ n ≤ 4096) ∧ s.inBar2 f x.toNat n = true ∧
      s.bar2Addr f x.toNat n false = none) ∧
    (∃ (f : Fn) (x : BitVec 34) (n : Nat) (s : State), (1 ≤ n ∧ n ≤ 4096) ∧ s.inBar2 f x.toNat n = false) ∧
    (∃ (f : Fn) (x : BitVec 34) (bs : List (Option Byte)) (off : Nat) (s : State), (1 ≤ bs.length ∧ bs.length ≤ 4096) ∧
      s.inBar2 f x.toNat bs.length = true ∧ s.bar2Addr f x.toNat bs.length true = some (s.nodeId, off) ∧ s.runs 0x0B = true ∧
      (s.rme.ops = [] ∧ s.rme.dma.length ≤ 64) ∧ s.partFenced f.val = false ∧ s.rd (F.RME_TAG_QUOTA_QUOTA f.val) ≠ 0 ∧
      s.windowCheck s.nodeId f.val off bs.length true = 0 ∧ s.stackCheck off bs.length = 0) ∧
    (∃ (f : Fn) (x : BitVec 34) (bs : List (Option Byte)) (s : State), (1 ≤ bs.length ∧ bs.length ≤ 4096) ∧
      s.inBar2 f x.toNat bs.length = true) ∧
    (∃ (f : Fn) (o : _) (s : State), s.runs 0x0B = true ∧ s.rme.ops = [o] ∧ s.rme.dma = [] ∧ s.que.inflight = [] ∧
      s.fnExists f.val = true ∧ (o.fn = f ∧ o.part = f.val ∧ o.src = .write) ∧ o.kind = 1 ∧ o.stage = .stalled ∧ o.tag = none ∧
      s.rd (F.RME_TAG_QUOTA_QUOTA f.val) ≠ 0 ∧ s.partFenced f.val = false ∧ o.node = s.nodeId ∧ o.offset + o.len ≤ 2 ^ 35 ∧
      s.windowCheck s.nodeId f.val o.offset o.len true = 0 ∧ s.stackCheck o.offset o.len = 0) ∧
    (∃ (f : Fn) (e : Block64) (d : _) (u : _) (x : Nat) (s : State), s.begins? 0x0B f e = some (d, u) ∧ opcode e = 0x20 ∧
      u.copyBad f e = some x ∧ u.que.inflight = [d] ∧ s.completes f = true) ∧
    (∃ (f : Fn) (e : Block64) (d : _) (u : _) (s : State), s.begins? 0x0B f e = some (d, u) ∧ opcode e = 0x20 ∧ u.copyBad f e = none ∧
      u.que.inflight = [d] ∧ s.completes f = true ∧ s.live 0x0B = true ∧ (s.rme.dma = [] ∧ s.rme.ops = []) ∧ (hostSide e 0 = false ∧
      hostSide e 1 = false) ∧ (copyNode e 0 = s.nodeId ∧ copyNode e 1 = s.nodeId) ∧ copyChunk e 0 = copyLen e ∧
      s.partThere d.owner = true ∧ s.rd (F.RME_TAG_QUOTA_QUOTA f.val) ≠ 0 ∧
      s.windowCheck s.nodeId f.val (copyAddr e 0 % 2 ^ 35) (copyLen e) false = 0 ∧
      s.windowCheck s.nodeId f.val (copyAddr e 1 % 2 ^ 35) (copyLen e) true = 0 ∧ s.stackCheck (copyAddr e 0 % 2 ^ 35) (copyLen e) = 0 ∧
      s.stackCheck (copyAddr e 1 % 2 ^ 35) (copyLen e) = 0 ∧ s.poisonIn (copyAddr e 0 % 2 ^ 35) (copyLen e) = []) :=
  ⟨⟨(0 : Fn), (64 : BitVec 34), 8, 64, rmeBase, by decide +kernel⟩,
    ⟨(0 : Fn), (BitVec.ofNat _ (2 ^ 28)), 8, rmeBase, by decide +kernel⟩,
    ⟨(0 : Fn), (BitVec.ofNat _ (2 ^ 34 - 4)), 8, rmeBase, by decide +kernel⟩,
    ⟨(0 : Fn), (100 : BitVec 34), ([some 1, none, some 3]), 100, rmeBase, by decide +kernel⟩,
    ⟨(0 : Fn), (100 : BitVec 34), ([some 1]), rmeBase, by decide +kernel⟩,
    ⟨(0 : Fn), wop, s169, by decide +kernel⟩,
    ⟨(0 : Fn), (ent 0x20 [(0, 16, 7)]), ((rmeBase.begins? 0x0B (0 : Fn) (ent 0x20 [(0, 16, 7)])).get (by decide +kernel)).1,
      ((rmeBase.begins? 0x0B (0 : Fn) (ent 0x20 [(0, 16, 7)])).get (by decide +kernel)).2,
      ((((rmeBase.begins? 0x0B (0 : Fn) (ent 0x20 [(0, 16, 7)])).get (by decide +kernel)).2.copyBad (0 : Fn) (ent 0x20 [(0, 16, 7)])).get (by decide +kernel)),
      rmeBase, by decide +kernel⟩,
    ⟨(0 : Fn), (ent 0x20 [(0, 16, 7), (16, 0, 64), (24, 0, 1024), (32, 0, 16)]),
      ((rmeBase.begins? 0x0B (0 : Fn) (ent 0x20 [(0, 16, 7), (16, 0, 64), (24, 0, 1024), (32, 0, 16)])).get (by decide +kernel)).1,
      ((rmeBase.begins? 0x0B (0 : Fn) (ent 0x20 [(0, 16, 7), (16, 0, 64), (24, 0, 1024), (32, 0, 16)])).get (by decide +kernel)).2,
      rmeBase, by decide +kernel⟩⟩

theorem witness_RemoteRequests :
    (∃ (c : CircIx) (h : _) (s : State), s.nextRequest c.val = some h ∧ s.canAnswer c.val h = false) ∧
    (∃ (c : CircIx) (h : _) (s : State), s.nextRequest c.val = some h ∧ h.mtype = 1 ∧ s.canAnswer c.val h = true ∧
      h.m.offset.toNat + h.m.len.toNat ≤ 2 ^ 35 ∧ h.m.len.toNat ≤ 208 ∧
      s.windowCheck h.m.srcNode.toNat h.m.part.toNat h.m.offset.toNat h.m.len.toNat false = 0 ∧
      s.stackCheck h.m.offset.toNat h.m.len.toNat = 0 ∧ s.poisonIn h.m.offset.toNat h.m.len.toNat = []) ∧
    (∃ (c : CircIx) (h : _) (s : State), s.nextRequest c.val = some h ∧ h.mtype = 2 ∧ s.canAnswer c.val h = true ∧
      h.m.offset.toNat + h.m.len.toNat ≤ 2 ^ 35 ∧ s.windowCheck h.m.srcNode.toNat h.m.part.toNat h.m.offset.toNat h.m.len.toNat true = 0 ∧
      s.stackCheck h.m.offset.toNat h.m.len.toNat = 0) ∧
    (∃ (c : CircIx) (h : _) (s : State), s.nextRequest c.val = some h ∧ h.mtype = 2 ∧ s.canAnswer c.val h = true ∧
      2 ^ 35 < h.m.offset.toNat + h.m.len.toNat) ∧
    (∃ (c : CircIx) (h : _) (s : State), s.nextRequest c.val = some h ∧ h.mtype = 3 ∧ s.canAnswer c.val h = true ∧ h.m.a64 = true ∧
      h.m.aop = 0 ∧ h.m.offset.toNat % 8 = 0 ∧ s.windowCheck h.m.srcNode.toNat h.m.part.toNat h.m.offset.toNat 8 true = 0 ∧
      s.stackCheck h.m.offset.toNat 8 = 0 ∧ s.poisonIn h.m.offset.toNat 8 = []) ∧
    (∃ (c : CircIx) (h : _) (s : State), s.nextRequest c.val = some h ∧ h.mtype = 2 ∧ s.canAnswer c.val h = true ∧
      h.m.offset.toNat + h.m.len.toNat ≤ 2 ^ 35 ∧ s.windowCheck h.m.srcNode.toNat h.m.part.toNat h.m.offset.toNat h.m.len.toNat true = 0 ∧
      s.stackCheck h.m.offset.toNat h.m.len.toNat = 0) :=
  ⟨⟨(5 : CircIx), ((State.nextRequest (State.withMsg s170 1 (reqHeader 1 1 0 true 33 16 64 9)) 5).get (by decide +kernel)),
      (State.withMsg s170 1 (reqHeader 1 1 0 true 33 16 64 9)), by decide +kernel⟩,
    ⟨(5 : CircIx), ((State.nextRequest (State.withMsg rmeBase 1 (reqHeader 1 1 0 true 33 16 64 9)) 5).get (by decide +kernel)),
      (State.withMsg rmeBase 1 (reqHeader 1 1 0 true 33 16 64 9)), by decide +kernel⟩,
    ⟨(5 : CircIx), ((State.nextRequest (State.withMsg rmeBase 1 (reqHeader 2 1 0 true 33 2 64 9 ++ [1, 2])) 5).get (by decide +kernel)),
      (State.withMsg rmeBase 1 (reqHeader 2 1 0 true 33 2 64 9 ++ [1, 2])), by decide +kernel⟩,
    ⟨(5 : CircIx),
      ((State.nextRequest (State.withMsg rmeBase 1 (reqHeader 2 1 0 true 33 2 (2 ^ 35 - 1) 9 ++ [1, 2])) 5).get (by decide +kernel)),
      (State.withMsg rmeBase 1 (reqHeader 2 1 0 true 33 2 (2 ^ 35 - 1) 9 ++ [1, 2])), by decide +kernel⟩,
    ⟨(5 : CircIx),
      ((State.nextRequest (State.withMsg rmeBase 1 (reqHeader 3 1 0 true 33 16 64 9 ++ numBytes 16 1000)) 5).get (by decide +kernel)),
      (State.withMsg rmeBase 1 (reqHeader 3 1 0 true 33 16 64 9 ++ numBytes 16 1000)), by decide +kernel⟩,
    ⟨(5 : CircIx), ((State.nextRequest (State.withMsg rmeBase 1 (reqHeader 2 1 0 true 33 2 64 9 ++ [1, 2])) 5).get (by decide +kernel)),
      (State.withMsg rmeBase 1 (reqHeader 2 1 0 true 33 2 64 9 ++ [1, 2])), by decide +kernel⟩⟩

theorem witness_RemoteResponses :
    (∃ (c : CircIx) (g : _) (o : _) (s : State), s.nextResponse c.val 0 = some g ∧ s.endsHere c.val = true ∧ s.runs 0x0B = true ∧
      s.rme.ops = [o] ∧ (s.rme.dma = [] ∧ s.que.inflight = []) ∧ (o.tag = some (memMsgOf g.bytes).tag.toNat ∧ o.circ = some c.val ∧
      o.cseq = (memMsgOf g.bytes).reqCseq.toNat ∧ o.kind = 0 ∧ o.stage = .sent) ∧ o.src = .read ∧ o.flr = false ∧
      (memMsgOf g.bytes).rcode = 0) ∧
    (∃ (c : CircIx) (g : _) (s : State), s.nextResponse c.val 0 = some g ∧ s.endsHere c.val = true ∧ s.runs 0x0B = true ∧ s.rme.ops = []) ∧
    (∃ (c : CircIx) (g : _) (o : _) (s : State), s.nextResponse c.val 0 = some g ∧ s.endsHere c.val = true ∧ s.runs 0x0B = true ∧
      s.rme.ops = [o] ∧ (o.tag = some (memMsgOf g.bytes).tag.toNat ∧ o.circ = some c.val ∧ o.cseq = (memMsgOf g.bytes).reqCseq.toNat ∧
      o.kind = 0 ∧ o.stage = .sent) ∧ o.flr = true) ∧
    (∃ (c : CircIx) (g : _) (o : _) (s : State), s.nextResponse c.val 1 = some g ∧ s.endsHere c.val = true ∧ s.runs 0x0B = true ∧
      s.rme.ops = [o] ∧ (s.rme.dma = [] ∧ s.que.inflight = []) ∧ (o.tag = some (memMsgOf g.bytes).tag.toNat ∧ o.circ = some c.val ∧
      o.cseq = (memMsgOf g.bytes).reqCseq.toNat ∧ o.kind = 1 ∧ o.stage = .sent) ∧ o.src = .write ∧ o.flr = false ∧
      (memMsgOf g.bytes).rcode = 3) ∧
    (∃ (c : CircIx) (g : _) (o : _) (n : Nat) (s : State), s.nextResponse c.val 2 = some g ∧ s.endsHere c.val = true ∧
      s.runs 0x0B = true ∧ s.rme.ops = [o] ∧ (s.rme.dma = [] ∧ s.que.inflight = []) ∧ (o.tag = some (memMsgOf g.bytes).tag.toNat ∧
      o.circ = some c.val ∧ o.cseq = (memMsgOf g.bytes).reqCseq.toNat ∧ o.kind = 2 ∧ o.stage = .sent) ∧ o.src = .atomic n ∧
      o.flr = false ∧ (memMsgOf g.bytes).rcode = 0 ∧ (memMsgOf g.bytes).len = 8) ∧
    (∃ (tag : Fin 8192) (o : _) (s : State), s.rme.ops = [o] ∧ (s.rme.dma = [] ∧ s.que.inflight = []) ∧ o.tag = some tag.val ∧
      o.stage = .sent ∧ o.flr = false ∧ o.src = .write) ∧
    (∃ (tag : Fin 8192) (o : _) (s : State), s.rme.ops = [o] ∧ o.tag = some tag.val ∧ o.stage = .quarantined) :=
  ⟨⟨(5 : CircIx), ((State.nextResponse (State.withMsg s172 1 (rspHeader 0x81 0 (mm 64 2) 2 12 ++ [1, 2])) 5 0).get (by decide +kernel)),
      (sentOp 0 .read), (State.withMsg s172 1 (rspHeader 0x81 0 (mm 64 2) 2 12 ++ [1, 2])), by decide +kernel⟩,
    ⟨(5 : CircIx),
      ((State.nextResponse (State.withMsg rmeBase 1 (rspHeader 0x81 0 (mm 64 2) 2 12 ++ [1, 2])) 5 0).get (by decide +kernel)),
      (State.withMsg rmeBase 1 (rspHeader 0x81 0 (mm 64 2) 2 12 ++ [1, 2])), by decide +kernel⟩,
    ⟨(5 : CircIx), ((State.nextResponse (State.withMsg s254 1 (rspHeader 0x81 0 (mm 64 2) 2 12 ++ [1, 2])) 5 0).get (by decide +kernel)),
      ({ sentOp 0 .read with flr := true }), (State.withMsg s254 1 (rspHeader 0x81 0 (mm 64 2) 2 12 ++ [1, 2])), by decide +kernel⟩,
    ⟨(5 : CircIx), ((State.nextResponse (State.withMsg s173 1 (rspHeader 0x82 3 (mm 64 2) 0 12)) 5 1).get (by decide +kernel)),
      (sentOp 1 .write), (State.withMsg s173 1 (rspHeader 0x82 3 (mm 64 2) 0 12)), by decide +kernel⟩,
    ⟨(5 : CircIx),
      ((State.nextResponse (State.withMsg s174 1 (rspHeader 0x83 0 (mm 64 8) 8 12 ++ numBytes 8 5)) 5 2).get (by decide +kernel)),
      (sentOp 2 (.atomic 1)), 1, (State.withMsg s174 1 (rspHeader 0x83 0 (mm 64 8) 8 12 ++ numBytes 8 5)), by decide +kernel⟩,
    ⟨(33 : Fin 8192), (sentOp 1 .write), s173, by decide +kernel⟩,
    ⟨(33 : Fin 8192), ({ sentOp 1 .write with stage := .quarantined }), s175, by decide +kernel⟩⟩

theorem witness_ReduceCommands :
    (∃ (f : Fn) (e : Block64) (d : _) (u : _) (s : State), s.begins? 0x0C f e = some (d, u) ∧ opcode e = 0x28 ∧
      (byteField e 16 0 64 % 32 ≠ 0 ∨ byteField e 24 0 32 = 0 ∨ 65536 < byteField e 24 0 32) ∧ u.que.inflight = [d] ∧
      s.completes f = true) ∧
    (∃ (f : Fn) (e : Block64) (d : _) (u : _) (o : _) (s : State), s.begins? 0x0C f e = some (d, u) ∧ opcode e = 0x28 ∧
      (byteField e 16 0 64 % 32 = 0 ∧ 1 ≤ byteField e 24 0 32 ∧ byteField e 24 0 32 ≤ 65536) ∧ (fmtOk (byteField e 32 0 4) = true ∧
      byteField e 32 4 2 ≤ 2) ∧ (s.rdx.cmds = [] ∧ s.rdx.waiting = []) ∧
      o = .hostRead f (cmdId e) (BitVec.ofNat 64 (byteField e 16 0 64)) (32 * min 128 (byteField e 24 0 32)) ∧ s.canMake f.val o = true) ∧
    (∃ (f : Fn) (k : Word) (c : _) (st : _) (u : _) (s : State), (s.rdx.cmds = [c] ∧ s.rdx.waiting = []) ∧ (c.fn = f ∧ c.coll = k.toNat) ∧
      (c.steps = [] ∧ c.asked = 1 ∧ c.fail = none ∧ c.done = 0 ∧ c.nsteps = 1) ∧ s.stepsBack? c = some u ∧ s.stepBad c 0 st = none) ∧
    (∃ (f : Fn) (k : Word) (c : _) (d : _) (u : _) (s : State), (s.rdx.cmds = [c] ∧ s.rdx.waiting = []) ∧ (c.fn = f ∧ c.coll = k.toNat) ∧
      (c.steps = [] ∧ c.asked ≠ 0 ∧ c.fail = none ∧ c.done = 0 ∧ c.poisoned = 0 ∧ c.sat = 0) ∧ s.stepsBack? c = some u ∧
      s.host.waiting = [] ∧ s.que.inflight = [d] ∧ (d.id = c.id ∧ d.fn = f ∧ d.noEntry = false) ∧ s.completes f = true) ∧
    (∃ (c : CircIx) (g : _) (s : State), s.nextColl c.val = some g ∧ s.takesColl c.val = true ∧
      s.matchRecv c.val (collMsgOf g.bytes) = none ∧ s.unexpUsed + msgBytes (collMsgOf g.bytes) ≤ 2097152) ∧
    (∃ (c : CircIx) (g : _) (s : State), s.nextColl c.val = some g ∧ s.takesColl c.val = true ∧
      s.matchRecv c.val (collMsgOf g.bytes) = none ∧ 2097152 < s.unexpUsed + msgBytes (collMsgOf g.bytes)) ∧
    (∃ (c : CircIx) (s : State), s.takesColl c.val = false) ∧
    (∃ (c : CircIx) (g : _) (r : _) (x : _) (s : State), s.nextColl c.val = some g ∧ s.takesColl c.val = true ∧
      s.matchRecv c.val (collMsgOf g.bytes) = some (r, x) ∧ s.recvReady r x = true ∧ (collMsgOf g.bytes).fmt.toNat ≠ r.fmt) ∧
    (∃ (c : CircIx) (g : _) (m : _) (r : _) (x : _) (s : State), s.nextColl c.val = some g ∧ s.takesColl c.val = true ∧
      m = collMsgOf g.bytes ∧ (s.rdx.cmds = [r] ∧ r.steps = [x]) ∧ s.matchRecv c.val m = some (r, x) ∧ s.recvReady r x = true ∧
      m.fmt.toNat = r.fmt ∧ (stepKind x.e = 3 ∧ x.got = 0 ∧ 1 < stepLen x.e) ∧ (m.elemOfs = 0 ∧ m.data.length = elemSize r.fmt m.wide) ∧
      stepOff x.e 1 + stepBytes r.fmt x.e 1 ≤ 2 ^ 35) ∧
    (∃ (c : CircIx) (k : Word) (g : BitVec 16) (y : _) (s : State), s.rdx.unexp = [y] ∧ (y.1 = c.val ∧ y.2.coll = k ∧ y.2.tag = g)) :=
  ⟨⟨(0 : Fn), (ent 0x28 [(0, 16, 7), (16, 0, 4096)]),
      ((base.begins? 0x0C (0 : Fn) (ent 0x28 [(0, 16, 7), (16, 0, 4096)])).get (by decide +kernel)).1,
      ((base.begins? 0x0C (0 : Fn) (ent 0x28 [(0, 16, 7), (16, 0, 4096)])).get (by decide +kernel)).2, base, by decide +kernel⟩,
    ⟨(0 : Fn), (redE 3), ((base.begins? 0x0C (0 : Fn) (redE 3)).get (by decide +kernel)).1,
      ((base.begins? 0x0C (0 : Fn) (redE 3)).get (by decide +kernel)).2, (.hostRead 0 7 4096 96), base, by decide +kernel⟩,
    ⟨(0 : Fn), (6 : Word), (redCmd 1 []), (step32 [(0, 0, 4), (8, 0, 1), (16, 0, 64), (24, 0, 128)]),
      ((s252.stepsBack? (redCmd 1 [])).get (by decide +kernel)), s252, by decide +kernel⟩,
    ⟨(0 : Fn), (6 : Word), (redCmd 1 []), ((s253.que.inflight).head (by decide +kernel)),
      ((s253.stepsBack? (redCmd 1 [])).get (by decide +kernel)), s253, by decide +kernel⟩,
    ⟨(5 : CircIx), ((State.nextColl (State.withMsg rmeBase 3 (collBytes 0 [0, 0, 128, 63])) 5).get (by decide +kernel)),
      (State.withMsg rmeBase 3 (collBytes 0 [0, 0, 128, 63])), by decide +kernel⟩,
    ⟨5, ((State.nextColl (State.withMsg s178 3 (collBytes 0 [0, 0, 128, 63])) 5).get (by decide +kernel)),
      (State.withMsg s178 3 (collBytes 0 [0, 0, 128, 63])), by decide +kernel, by decide +kernel, by decide +kernel,
      by rw [unexpUsed_full 2097150 (State.withMsg s178 3 (collBytes 0 [0, 0, 128, 63])) rfl]; decide +kernel⟩,
    ⟨(5 : CircIx), base, by decide +kernel⟩,
    ⟨(5 : CircIx), ((State.nextColl (State.withMsg s179 3 (collBytes 5 [0, 0, 128, 63])) 5).get (by decide +kernel)), (redCmd 1 [stRecv]),
      stRecv, (State.withMsg s179 3 (collBytes 5 [0, 0, 128, 63])), by decide +kernel⟩,
    ⟨(5 : CircIx), ((State.nextColl (State.withMsg s180 3 (collBytes 0 [0, 0, 128, 63])) 5).get (by decide +kernel)),
      (collMsgOf (InMsg.bytes ((State.nextColl (State.withMsg s180 3 (collBytes 0 [0, 0, 128, 63])) 5).get (by decide +kernel)))),
      (redCmd 1 [stRecv2]), stRecv2, (State.withMsg s180 3 (collBytes 0 [0, 0, 128, 63])), by decide +kernel⟩,
    ⟨(5 : CircIx), (6 : Word), (3 : BitVec 16), ((5, cmsg)), s181, by decide +kernel⟩⟩

theorem witness_ReduceSteps :
    (∃ (f : Fn) (k : Word) (c : _) (x : _) (s : State), (s.rdx.cmds = [c] ∧ s.rdx.waiting = []) ∧ (c.fn = f ∧ c.coll = k.toNat) ∧
      (c.steps = [x] ∧ c.asked = 1 ∧ c.fail = none ∧ c.done = 0 ∧ 1 < c.nsteps) ∧ (x.ix = 0 ∧ x.st = 0) ∧ s.live 0x0C = true ∧
      c.depsDone x = true ∧ stepKind x.e = 0 ∧ s.stepFenced c x.e = false) ∧
    (∃ (f : Fn) (k : Word) (c : _) (x : _) (d : _) (s : State), (s.rdx.cmds = [c] ∧ s.rdx.waiting = []) ∧ (c.fn = f ∧ c.coll = k.toNat) ∧
      (c.steps = [x] ∧ c.fail = none) ∧ (x.ix = 0 ∧ x.st = 0) ∧ s.live 0x0C = true ∧ c.depsDone x = true ∧
      (stepKind x.e ≠ 1 ∨ s.partThere c.owner = true) ∧ s.stepFenced c x.e = true ∧ s.que.inflight = [d] ∧ (d.id = c.id ∧ d.fn = f ∧
      d.noEntry = false) ∧ s.completes f = true) ∧
    (∃ (f : Fn) (k : Word) (c : _) (x : _) (s : State), (s.rdx.cmds = [c] ∧ s.rdx.waiting = []) ∧ (c.fn = f ∧ c.coll = k.toNat) ∧
      (c.steps = [x] ∧ c.asked = 1 ∧ c.fail = none ∧ c.done = 0 ∧ 1 < c.nsteps) ∧ (x.ix = 0 ∧ x.st = 1) ∧ s.runs 0x0C = true ∧
      (stepKind x.e = 4 ∧ stepLen x.e = 1) ∧ s.stackCheck (stepOff x.e 0) (stepBytes c.fmt x.e 0) = 0 ∧
      s.stackCheck (stepOff x.e 1) (stepBytes c.fmt x.e 1) = 0 ∧ stepOff x.e 1 + stepBytes c.fmt x.e 1 ≤ 2 ^ 35) ∧
    (∃ (f : Fn) (k : Word) (c : _) (x : _) (d : _) (s : State), (s.rdx.cmds = [c] ∧ s.rdx.waiting = []) ∧ (c.fn = f ∧ c.coll = k.toNat) ∧
      (c.steps = [x] ∧ c.fail = none) ∧ (x.ix = 0 ∧ x.st = 1) ∧ s.que.inflight = [d] ∧ (d.id = c.id ∧ d.fn = f ∧ d.noEntry = false) ∧
      s.completes f = true) :=
  ⟨⟨(0 : Fn), (6 : Word), (redCmd 2 [stNop]), stNop, s182, by decide +kernel⟩,
    ⟨(0 : Fn), (6 : Word), (redCmd 2 [stLocal]), stLocal, ((s183.que.inflight).head (by decide +kernel)), s183, by decide +kernel⟩,
    ⟨(0 : Fn), (6 : Word), (redCmd 2 [{ stLocal with st := 1 }]), ({ stLocal with st := 1 }), s184, by decide +kernel⟩,
    ⟨(0 : Fn), (6 : Word), (redCmd 2 [{ stLocal with st := 1 }]), ({ stLocal with st := 1 }),
      ((s185.que.inflight).head (by decide +kernel)), s185, by decide +kernel⟩⟩

theorem witness_SummationStart :
    (∃ (f : Fn) (e : Block64) (d : _) (u : _) (st : Nat) (x : Nat) (s : State), s.begins? 0x23 f e = some (d, u) ∧ opcode e = 0x29 ∧
      u.psmBad f d.owner e = some (st, x) ∧ u.que.inflight = [d] ∧ s.completes f = true) ∧
    (∃ (f : Fn) (e : Block64) (d : _) (u : _) (s : State), s.begins? 0x23 f e = some (d, u) ∧ opcode e = 0x29 ∧
      u.psmBad f d.owner e = none) ∧
    (∃ (p : Port) (r : _) (s : State), s.psm.runs = [(p.val, r)] ∧ s.psmState p.val = 1 ∧ s.live 0x23 = true ∧ psmSummer r.e = true) ∧
    (∃ (p : Port) (r : _) (s : State), s.psm.runs = [(p.val, r)] ∧ s.psmState p.val = 2 ∧ s.live 0x23 = true) ∧
    (∃ (p : Port) (r : _) (s : State), s.psm.runs = [(p.val, r)] ∧ s.psmState p.val = 3 ∧ s.frozen 0x23 = false) ∧
    (∃ (p : Port) (r : _) (s : State), s.psm.runs = [(p.val, r)] ∧ (s.psmState p.val = 1 ∨ s.psmState p.val = 2) ∧ s.frozen 0x23 = false ∧
      r.failed = false ∧ r.owner = 0) ∧
    (∃ (p : Port) (r : _) (k : Fin 8) (dbm : Int) (s : State), s.psm.runs = [(p.val, r)] ∧ s.psmState p.val = 4 ∧ psmSummer r.e = true ∧
      psmLineList r.e = [k.val] ∧ bitOf (psmLines r.e) k.val = true ∧ -180 ≤ dbm) ∧
    (∃ (p : Port) (r : _) (s : State), s.psm.runs = [(p.val, r)] ∧ s.psmState p.val = 4 ∧ psmSummer r.e = true ∧ r.failed = false ∧
      r.owner = 0) ∧
    (∃ (p : Port) (r : _) (b : BitVec 128) (x : _) (s : State), s.psm.runs = [(p.val, r)] ∧ s.psmState p.val = 4 ∧ psmSummer r.e = false ∧
      frameFor 2 b = some x) ∧
    (∃ (p : Port) (r : _) (s : State), s.psm.runs = [(p.val, r)] ∧ (4 ≤ s.psmState p.val ∧ s.psmState p.val ≤ 6) ∧ psmSummer r.e = false ∧
      r.failed = false ∧ r.owner = 0) :=
  ⟨⟨(0 : Fn), (psmE 1 0 0), ((base.begins? 0x23 (0 : Fn) (psmE 1 0 0)).get (by decide +kernel)).1,
      ((base.begins? 0x23 (0 : Fn) (psmE 1 0 0)).get (by decide +kernel)).2, 4, 0x10, base, by decide +kernel⟩,
    ⟨(0 : Fn), (psmE 1 0 100), ((s186.begins? 0x23 (0 : Fn) (psmE 1 0 100)).get (by decide +kernel)).1,
      ((s186.begins? 0x23 (0 : Fn) (psmE 1 0 100)).get (by decide +kernel)).2, s186, by decide +kernel⟩,
    ⟨(2 : Port), ((s187.psm.runs).head (by decide +kernel)).2, s187, by decide +kernel⟩,
    ⟨(2 : Port), ((s188.psm.runs).head (by decide +kernel)).2, s188, by decide +kernel⟩,
    ⟨(2 : Port), ((s189.psm.runs).head (by decide +kernel)).2, s189, by decide +kernel⟩,
    ⟨(2 : Port), ((s187.psm.runs).head (by decide +kernel)).2, s187, by decide +kernel⟩,
    ⟨(2 : Port), ((s190.psm.runs).head (by decide +kernel)).2, (0 : Fin 8), -150, s190, by decide +kernel⟩,
    ⟨(2 : Port), ((s190.psm.runs).head (by decide +kernel)).2, s190, by decide +kernel⟩,
    ⟨(2 : Port), (prun 0 0 100), (PsmFrame.bits { typ := 2, line := 0, payload := 5 }),
      ((frameFor 2 (PsmFrame.bits { typ := 2, line := 0, payload := 5 })).get (by decide +kernel)), s191, by decide +kernel⟩,
    ⟨(2 : Port), ((s192.psm.runs).head (by decide +kernel)).2, s192, by decide +kernel⟩⟩

theorem witness_SummationStream :
    (∃ (p : Port) (r : _) (s : State), s.psm.runs = [(p.val, r)] ∧ s.psmState p.val = 4 ∧ psmSummer r.e = false ∧ r.trimmed = true ∧
      r.flr = false) ∧
    (∃ (p : Port) (r : _) (s : State), s.psm.runs = [(p.val, r)] ∧ s.psmState p.val = 4 ∧ psmSummer r.e = false ∧ r.trimmed = false ∧
      r.failed = false ∧ r.owner = 0) ∧
    (∃ (p : Port) (r : _) (i : BitVec 24) (s : State), s.psm.runs = [(p.val, r)] ∧ s.psmState p.val = 5 ∧ psmSummer r.e = true ∧
      i.toNat < psmCount r.e ∧ r.ovr = []) ∧
    (∃ (p : Port) (r : _) (m : Nat) (s : State), s.psm.runs = [(p.val, r)] ∧ s.psmState p.val = 5 ∧ psmSummer r.e = true ∧ (r.done = 0 ∧
      1 < psmCount r.e) ∧ psmAddr r.e + 2 * psmCount r.e ≤ 2 ^ 35 ∧
      m * psmLsb (psmLineList r.e).length = 128 * (psmLineList r.e).length * 1024) ∧
    (∃ (p : Port) (r : _) (m : Nat) (s : State), s.psm.runs = [(p.val, r)] ∧ s.psmState p.val = 5 ∧ psmSummer r.e = true ∧
      r.failed = false ∧ r.owner = 0 ∧
      1280 * (psmLineList r.e).length * 1024 + (3 * (psmLineList r.e).length + 10 * psmLsb (psmLineList r.e).length) * 1024 < 10 * m * psmLsb (psmLineList r.e).length) ∧
    (∃ (p : Port) (r : _) (s : State), s.psm.runs = [(p.val, r)] ∧ s.psmState p.val = 5 ∧ psmSummer r.e = false) ∧
    (∃ (p : Port) (r : _) (s : State), s.psm.runs = [(p.val, r)] ∧ s.psmState p.val = 5 ∧ psmSummer r.e = true ∧ psmRepair r.e = true ∧
      r.done = psmCount r.e ∧ psmLineList r.e = [0] ∧ r.repairList ≠ []) :=
  ⟨⟨(2 : Port), ((s193.psm.runs).head (by decide +kernel)).2, s193, by decide +kernel⟩,
    ⟨(2 : Port), ((s191.psm.runs).head (by decide +kernel)).2, s191, by decide +kernel⟩,
    ⟨(2 : Port), ((s194.psm.runs).head (by decide +kernel)).2, (7 : BitVec 24), s194, by decide +kernel⟩,
    ⟨(2 : Port), ((s194.psm.runs).head (by decide +kernel)).2, 131072, s194, by decide +kernel⟩,
    ⟨(2 : Port), (prun 1 0 100), (10 ^ 9), s194, by decide +kernel⟩,
    ⟨(2 : Port), ((s192.psm.runs).head (by decide +kernel)).2, s192, by decide +kernel⟩,
    ⟨(2 : Port), ((s195.psm.runs).head (by decide +kernel)).2, s195, by decide +kernel⟩⟩

theorem witness_SummationRepair :
    (∃ (p : Port) (r : _) (b : BitVec 128) (x : _) (s : State), s.psm.runs = [(p.val, r)] ∧ s.psmState p.val = 6 ∧ psmSummer r.e = false ∧
      frameFor 3 b = some x) ∧
    (∃ (p : Port) (r : _) (i : Nat) (s : State), s.psm.runs = [(p.val, r)] ∧ s.psmState p.val = 6 ∧ psmSummer r.e = false ∧
      r.listed = [i] ∧ r.flr = false) ∧
    (∃ (p : Port) (r : _) (d : _) (i : Nat) (s : State), s.psm.runs = [(p.val, r)] ∧ s.psmState p.val = 6 ∧ psmSummer r.e = true ∧
      psmLineList r.e = [0] ∧ r.listed = [i] ∧ psmAddr r.e + 2 * i + 2 ≤ 2 ^ 35 ∧ (r.completed = false ∧ r.flr = false) ∧
      s.que.inflight = [d] ∧ (d.id = r.id ∧ d.fn = r.fn ∧ d.noEntry = false) ∧ s.completes r.fn = true) ∧
    (∃ (p : Port) (r : _) (d : _) (b : BitVec 128) (x : _) (s : State), frameFor 4 b = some x ∧ s.psm.runs = [(p.val, r)] ∧
      s.psmState p.val = 6 ∧ psmSummer r.e = false ∧ (r.completed = false ∧ r.flr = false) ∧ s.que.inflight = [d] ∧ (d.id = r.id ∧
      d.fn = r.fn ∧ d.noEntry = false) ∧ s.completes r.fn = true) ∧
    (∃ (p : Port) (r : _) (d : _) (s : State), s.psm.runs = [(p.val, r)] ∧ s.psmState p.val = 6 ∧ psmSummer r.e = false ∧
      (r.completed = false ∧ r.flr = false) ∧ s.que.inflight = [d] ∧ (d.id = r.id ∧ d.fn = r.fn ∧ d.noEntry = false) ∧
      s.completes r.fn = true) ∧
    (∃ (p : Port) (r : _) (s : State), s.psm.runs = [(p.val, r)] ∧ s.psmState p.val = 7 ∧ r.owner = 0) ∧
    (∃ (p : Port) (r : _) (s : State), s.psm.runs = [(p.val, r)] ∧ s.psmState p.val = 9) :=
  ⟨⟨(2 : Port), (prun 0 1 100), (PsmFrame.bits { typ := 3, line := 0, payload := 5 }),
      ((frameFor 3 (PsmFrame.bits { typ := 3, line := 0, payload := 5 })).get (by decide +kernel)), s196, by decide +kernel⟩,
    ⟨(2 : Port), ((s197.psm.runs).head (by decide +kernel)).2,
      ((((s197.psm.runs).head (by decide +kernel)).2.listed).head (by decide +kernel)), s197, by decide +kernel⟩,
    ⟨(2 : Port), ((s198.psm.runs).head (by decide +kernel)).2, (psmFly 1 1 100), 7, s198, by decide +kernel⟩,
    ⟨(2 : Port), (prun 0 1 100), ((s196.que.inflight).head (by decide +kernel)), (PsmFrame.bits { typ := 4, line := 0, payload := 5 }),
      ((frameFor 4 (PsmFrame.bits { typ := 4, line := 0, payload := 5 })).get (by decide +kernel)), s196, by decide +kernel⟩,
    ⟨(2 : Port), ((s196.psm.runs).head (by decide +kernel)).2, (psmFly 0 1 100), s196, by decide +kernel⟩,
    ⟨(2 : Port), ((s199.psm.runs).head (by decide +kernel)).2, s199, by decide +kernel⟩,
    ⟨(2 : Port), ((s200.psm.runs).head (by decide +kernel)).2, s200, by decide +kernel⟩⟩

theorem witness_ClocksAndOperatingPoints :
    (∃ (s : State), s.rd F.CPM_OP_OPSTATE = 2 ∧ s.rd F.CPM_OP_CUR < s.cpm.goal) ∧
    (∃ (s : State), s.rd F.CPM_OP_OPSTATE = 2 ∧ s.cpm.goal ≤ s.rd F.CPM_OP_CUR ∧ s.cpm.target = none ∧ s.pstate = 0) ∧
    (∃ (s : State), s.rd F.CPM_OP_OPSTATE = 2 ∧ s.cpm.target = none ∧ s.pstate = 0) ∧
    (∃ (mv : BitVec 12) (s : State), s.rd F.CPM_OP_OPSTATE = 3 ∧ (opMv s.cpm.goal ≤ mv.toNat + 10 ∧ mv.toNat ≤ opMv s.cpm.goal + 10)) ∧
    (∃ (mv : BitVec 12) (s : State), s.rd F.CPM_OP_OPSTATE = 3 ∧ mv.toNat + 10 < opMv s.cpm.goal ∧ s.cpm.reads < 15) ∧
    (∃ (mv : BitVec 12) (s : State), s.rd F.CPM_OP_OPSTATE = 3 ∧ mv.toNat + 10 < opMv s.cpm.goal ∧ s.cpm.reads = 15 ∧
      s.cpm.target = none ∧ s.pstate = 0) ∧
    (∃ (s : State), s.rd F.CPM_OP_OPSTATE = 4 ∧ s.cpm.goal < 4 ∧ s.cpm.target = none ∧ s.pstate = 0) ∧
    (∃ (w : BitVec 16) (s : State), s.domOn 1 = true ∧ (bitOf w.toNat 5 = true ∨ bitOf w.toNat 11 = true ∨ bitOf w.toNat 15 = true)) ∧
    (∃ (n : Nat) (s : State), s.domOn 1 = true ∧ 1 ≤ n ∧ n * (2 ^ 32 - 1) > 10 ^ 9 * 65536 ∧ 10 ^ 9 * 65536 % n = 0) ∧
    (∃ (s : State), s.domOn 1 = true ∧ s.on F.CPM_CLK_STAT_ROOT_LOCK = true) ∧
    (∃ (g : Fin 4) (s : State), s.domOn 3 = true ∧ bitOf (s.rd F.CPM_CLK_STAT_LANE_LOCK) g.val = true) ∧
    (∃ (s : State), s.domOn 3 = true) :=
  ⟨⟨s201, by decide +kernel⟩,
    ⟨s202, by decide +kernel⟩,
    ⟨s201, by decide +kernel⟩,
    ⟨(805 : BitVec 12), s203, by decide +kernel⟩,
    ⟨(760 : BitVec 12), s203, by decide +kernel⟩,
    ⟨(760 : BitVec 12), s204, by decide +kernel⟩,
    ⟨s205, by decide +kernel⟩,
    ⟨0x20, base, by decide +kernel⟩,
    ⟨32768000, base, by decide +kernel⟩,
    ⟨base, by decide +kernel⟩,
    ⟨(2 : Fin 4), base, by decide +kernel⟩,
    ⟨base, by decide +kernel⟩⟩

theorem witness_SleepEntry :
    (∃ (e : Block64) (d : _) (u : _) (x : Nat) (s : State), s.begins? 1 0 e = some (d, u) ∧ opcode e = 2 ∧ s.que.inflight = [] ∧
      u.sleepBad = some x ∧ s.completes 0 = true) ∧
    (∃ (e : Block64) (d : _) (u : _) (s : State), s.begins? 1 0 e = some (d, u) ∧ opcode e = 2 ∧ s.que.inflight = [] ∧ u.sleepBad = none ∧
      s.on F.CPM_PWR_MODE_DROP_THROUGH = false) ∧
    (∃ (c : _) (s : State), s.sleeper = some c ∧ s.que.inflight = [c] ∧ (c.fn = 0 ∧ c.noEntry = false) ∧ s.drained c = true ∧
      s.erasing = false ∧ s.modeBit 5 = true ∧ s.completes 0 = true) ∧
    (∃ (c : _) (s : State), s.sleeper = some c ∧ s.que.inflight = [c] ∧ (c.fn = 0 ∧ c.noEntry = false) ∧ s.completes 0 = true ∧
      s.rd F.CPM_OP_OPSTATE ≠ 0) ∧
    (∃ (s : State), s.pstate = 3 ∧ s.erasing = false ∧ s.cpm.wake = none) ∧
    (∃ (s : State), s.pstate = 3 ∧ s.erasing = false ∧ s.cpm.wake = none ∧ s.domOn 1 = true) :=
  ⟨⟨(ent 2 [(0, 16, 7)]), ((base.begins? 1 0 (ent 2 [(0, 16, 7)])).get (by decide +kernel)).1,
      ((base.begins? 1 0 (ent 2 [(0, 16, 7)])).get (by decide +kernel)).2, 0x10, base, by decide +kernel⟩,
    ⟨(ent 2 [(0, 16, 7)]), ((s206.begins? 1 0 (ent 2 [(0, 16, 7)])).get (by decide +kernel)).1,
      ((s206.begins? 1 0 (ent 2 [(0, 16, 7)])).get (by decide +kernel)).2, s206, by decide +kernel⟩,
    ⟨((s207.sleeper).get (by decide +kernel)), s207, by decide +kernel⟩,
    ⟨((s208.sleeper).get (by decide +kernel)), s208, by decide +kernel⟩,
    ⟨s209, by decide +kernel⟩,
    ⟨s210, by decide +kernel⟩⟩

theorem witness_WakeUp :
    (∃ (s : State), s.pstate = 5 ∧ s.cpm.hostOff = true) ∧
    (∃ (s : State), s.pstate = 5 ∧ s.cpm.hostOff = false) ∧
    (∃ (s : State), (s.pstate = 3 ∨ s.pstate = 4) ∧ s.cpm.wake = none) ∧
    (∃ (s : State), s.pstate = 5 ∧ s.cpm.hostOff = true ∧ s.on F.CPM_WAKE_EN_HOST = true) ∧
    (∃ (s : State), s.pstate = 5 ∧ s.cpm.hostOff = true ∧ s.on F.CPM_WAKE_EN_LINK_DATA = true ∧ s.domOn 5 = false) ∧
    (∃ (p : Port) (s : State), s.pstate = 5 ∧ s.cpm.hostOff = true ∧ s.domOn 1 = false ∧ s.on F.CPM_WAKE_EN_OPT = true ∧
      bitOf (s.rd F.CPM_WAKE_PORTS_PORTS) p.val = true) ∧
    (∃ (s : State), s.domOn 1 = true ∧ s.on F.CPM_WAKE_EN_OPT = false) ∧
    (∃ (s : State), s.pstate = 5 ∧ s.cpm.hostOff = true ∧ s.on F.CPM_WAKE_EN_TIMER = true ∧ s.rd F.CPM_WAKE_TIMER_MS ≠ 0) ∧
    (∃ (s : State), s.pstate = 6) ∧
    (∃ (s : State), s.pstate = 6) ∧
    (∃ (s : State), s.fcu.supplyFail = true ∧ s.pstate = 6) ∧
    (∃ (k : Nat) (s : State), s.pstate = 7 ∧ s.cpm.hostOff = true ∧
      (1024 * (k : Int) - 10 * (s.rd F.CPM_AON_TRIM_K : Int)).natAbs * 1000 ≤ 10 * s.rd F.CPM_AON_TRIM_K) ∧
    (∃ (k : Nat) (s : State), s.pstate = 7 ∧ s.cpm.hostOff = true ∧
      10 * s.rd F.CPM_AON_TRIM_K < (1024 * (k : Int) - 10 * (s.rd F.CPM_AON_TRIM_K : Int)).natAbs * 1000) ∧
    (∃ (s : State), s.pstate = 8 ∧ (4 ≤ s.rd (tstate 0) ∨ s.rd (tstate 0) = 0) ∧ (4 ≤ s.rd (tstate 1) ∨ s.rd (tstate 1) = 0)) ∧
    (∃ (s : State), s.pstate = 9 ∧ s.rd F.CPM_OP_OPSTATE = 0 ∧ s.rd F.CPM_OP_TARGET = s.rd F.CPM_OP_CUR) :=
  ⟨⟨asleep, by decide +kernel⟩,
    ⟨s211, by decide +kernel⟩,
    ⟨s212, by decide +kernel⟩,
    ⟨asleep, by decide +kernel⟩,
    ⟨asleep, by decide +kernel⟩,
    ⟨(3 : Port), asleep, by decide +kernel⟩,
    ⟨s213, by decide +kernel⟩,
    ⟨asleep, by decide +kernel⟩,
    ⟨s214, by decide +kernel⟩,
    ⟨s214, by decide +kernel⟩,
    ⟨s215, by decide +kernel⟩,
    ⟨10, s216, by decide +kernel⟩,
    ⟨50, s216, by decide +kernel⟩,
    ⟨s217, by decide +kernel⟩,
    ⟨s125, by decide +kernel⟩⟩

theorem witness_FaultOnsets :
    (∃ (p : PairTrace) (o : Onset) (s : State), s.traceOnset? p = some o ∧ s.on (F.FCU_REC_W0_VALID o.src.val) = false ∧
      s.riseClass o (s.onsetClass o) ≤ 1 ∧ s.fcu.fatal = false) ∧
    (∃ (p : PairTrace) (o : Onset) (s : State), s.traceOnset? p = some o ∧ s.on (F.FCU_REC_W0_VALID o.src.val) = true ∧
      s.rd (F.FCU_REC_W0_CLASS o.src.val) = 1 ∧ s.onsetClass o ≤ 1 ∧ (o.kind.val = s.rd (F.FCU_REC_W1_SCOPE_KIND o.src.val) ∧
      o.scope = s.rd (F.FCU_REC_W1_SCOPE o.src.val)) ∧ s.fcu.fatal = false) ∧
    (∃ (p : PairTrace) (o : Onset) (s : State), s.traceOnset? p = some o ∧ s.on (F.FCU_REC_W0_VALID o.src.val) = false ∧
      s.riseClass o (s.onsetClass o) = 3 ∧ (o.inj = false ∨ s.on F.FCU_CTRL_DRY = false)) ∧
    (∃ (p : PairTrace) (o : Onset) (s : State), s.traceOnset? p = some o ∧ s.on (F.FCU_REC_W0_VALID o.src.val) = false ∧
      s.riseClass o (s.onsetClass o) = 4 ∧ (o.inj = false ∨ s.on F.FCU_CTRL_DRY = false) ∧ s.terminal = false ∧ s.fcu.fatal = false) ∧
    (∃ (p : PairTrace) (v : _) (vs : _), p.samples = v :: vs) ∧
    (∃ (p : PairTrace) (s : State), p.samples = [3, 0] ∧ s.sampled (traceOnset p false) = true ∧ (s.pairMem p.src).rail ≠ .wire ∧
      s.on (F.FCU_REC_W0_VALID p.src.val) = false ∧ s.riseClass (traceOnset p true) (s.onsetClass (traceOnset p true)) ≤ 1 ∧
      s.fcu.fatal = false) :=
  ⟨⟨({ trc 22 with kind := 1, scope := 3 }), ((base.traceOnset? ({ trc 22 with kind := 1, scope := 3 })).get (by decide +kernel)), base,
      by decide +kernel⟩,
    ⟨({ trc 22 with kind := 1, scope := 3 }), ((s218.traceOnset? ({ trc 22 with kind := 1, scope := 3 })).get (by decide +kernel)), s218,
      by decide +kernel⟩,
    ⟨(trc 3), ((base.traceOnset? (trc 3)).get (by decide +kernel)), base, by decide +kernel⟩,
    ⟨(trc 1), ((base.traceOnset? (trc 1)).get (by decide +kernel)), base, by decide +kernel⟩,
    ⟨(trc 22), 2, [], by decide +kernel⟩,
    ⟨({ trc 6 with kind := 1, scope := 3, samples := [3, 0] }), base, by decide +kernel⟩⟩

theorem witness_StartUp :
    (∃ (s : State), s.stage < 4) ∧
    (∃ (s : State), 4 ≤ s.stage) ∧
    (∃ (s : State), s.stage = 0 ∧ s.boot.aon = true) ∧
    (∃ (s : State), s.stage = 2) ∧
    (∃ (s : State), s.stage = 2) ∧
    (∃ (s : State), s.stage = 2) ∧
    (∃ (s : State), s.stage = 4 ∧ s.on F.SEC_STAT_ROOT_LOCKED = false) ∧
    (∃ (s : State), s.stage = 5) ∧
    (∃ (s : State), s.stage = 6) ∧
    (∃ (l : LinkParams) (s : State), s.stage = 7 ∧ s.linkOk l = true) ∧
    (∃ (l : LinkParams) (s : State), s.linkOk l = false) :=
  ⟨⟨s220, by decide +kernel⟩,
    ⟨base, by decide +kernel⟩,
    ⟨s220, by decide +kernel⟩,
    ⟨s222, by decide +kernel⟩,
    ⟨s222, by decide +kernel⟩,
    ⟨s222, by decide +kernel⟩,
    ⟨s223, by decide +kernel⟩,
    ⟨s224, by decide +kernel⟩,
    ⟨s225, by decide +kernel⟩,
    ⟨({ lparams with modules := 1 }), s226, by decide +kernel⟩,
    ⟨lparams, s226, by decide +kernel⟩⟩

theorem witness_DebugPort :
    (∃ (s : State), s.domOn 1 = true) ∧
    (∃ (s : State), s.domOn 1 = true) ∧
    (∃ (s : State), s.domOn 1 = true) ∧
    (∃ (s : State), s.domOn 1 = true) ∧
    (∃ (code : BitVec 6) (s : State), s.domOn 1 = true ∧ [0, 1, 2, 0x10, 0x11, 0x12].contains code.toNat = false) ∧
    (∃ (s : State), s.domOn 1 = false) ∧
    (∃ (s : State), s.domOn 1 = true ∧ s.noUnlock = false) ∧
    (∃ (s : State), s.domOn 1 = true ∧ s.noUnlock = true) ∧
    (∃ (k : _) (c : _) (s : State), s.domOn 1 = true ∧ s.noUnlock = false ∧ s.sec.kek = some k ∧ s.dbg.chal = some c) ∧
    (∃ (v : BitVec 128) (s : State), s.domOn 1 = true ∧ s.noUnlock = false ∧ s.answers v = false ∧
      s.rd F.SEC_DBG_FAILS_COUNT + 1 < s.rd F.SEC_TAMPER_POL_DBG_LIMIT) :=
  ⟨⟨s227, by decide +kernel⟩,
    ⟨s227, by decide +kernel⟩,
    ⟨s227, by decide +kernel⟩,
    ⟨s227, by decide +kernel⟩,
    ⟨(5 : BitVec 6), base, by decide +kernel⟩,
    ⟨asleep, by decide +kernel⟩,
    ⟨base, by decide +kernel⟩,
    ⟨s229, by decide +kernel⟩,
    ⟨((s230.sec.kek).get (by decide +kernel)), ((s230.dbg.chal).get (by decide +kernel)), s230, by decide +kernel⟩,
    ⟨(7 : BitVec 128), s230, by decide +kernel⟩⟩

theorem witness_RegisterWriteFrames :
    (∃ (s : State), s.domOn 1 = true ∧ s.on (F.PAGE_STAT_RST_BUSY 0) = false) ∧
    (∃ (pg : PageIx) (s : State), s.domOn 1 = true ∧ implAt (0x1000 * pg.val) = true) ∧
    (∃ (r : Req) (pg : PageIx) (s : State), (r.val = 0 ∨ r.val = 65) ∧ s.reaches r (0x1000 * pg.val) = true ∧ lockable pg.val = true ∧
      s.on (F.PAGE_STAT_LOCKED (0x1000 * pg.val)) = false ∧ s.locks.find? (fun x => x.1 == pg.val) = none) ∧
    (∃ (r : Req) (pg : PageIx) (s : State), (r.val = 0 ∨ r.val = 65) ∧ s.reaches r (0x1000 * pg.val) = true ∧ lockable pg.val = true ∧
      s.on (F.PAGE_STAT_LOCKED (0x1000 * pg.val)) = false ∧ s.locks.find? (fun x => x.1 == pg.val) = some (pg.val, r)) ∧
    (∃ (r : Req) (pg : PageIx) (s : State), (r.val = 0 ∨ r.val = 65) ∧ s.reaches r (0x1000 * pg.val) = true ∧
      implAt (0x1000 * pg.val) = true) ∧
    (∃ (r : Req) (win : Fin 5) (word : Fin 512) (i : _) (w : _) (s : State), s.pfWrites r (0x40 + win.val) = true ∧
      winSlot (s.winOf r.val (0x40 + win.val)) (0x40 + win.val) (0x800 + 4 * word.val) = (i, w) ∧ i < (winInfo (0x40 + win.val)).1 ∧
      4 * w + 4 ≠ (winInfo (0x40 + win.val)).2 ∧ (s.winOf r.val (0x40 + win.val)).staged = none ∧ win.val ≠ 3) ∧
    (∃ (r : Req) (word : Fin 512) (i : _) (l : _) (s : State), s.pfWrites r 0x40 = true ∧
      winSlot (s.winOf r.val 0x40) 0x40 (0x800 + 4 * word.val) = (i, 15) ∧ i < 1024 ∧ (s.winOf r.val 0x40).staged = some (i, [(4, l)])) ∧
    (∃ (r : Req) (n : Fin 8) (lo : _) (s : State), s.pfWrites r 0x0B = true ∧ s.on (F.ATM_STAT_BUSY 0xB000 n.val) = false ∧
      (s.reqOf r.val).hold.find? (fun h => h.1 == 0xBC08 + 64 * n.val) = some (0xBC08 + 64 * n.val, lo) ∧ lo < 2 ^ 32) ∧
    (∃ (f : Fn) (v : Word) (s : State), s.queWrites f = true ∧ v.toNat % 2 ^ 12 < depth s (F.CMDQ_SIZE_SIZE (qBase f.val)) ∧
      modSub (depth s (F.CMDQ_SIZE_SIZE (qBase f.val))) (v.toNat % 2 ^ 12) (s.rd (F.CMDQ_TAIL_TAIL (qBase f.val))) ≤ modSub (depth s (F.CMDQ_SIZE_SIZE (qBase f.val))) (s.rd (F.CMDQ_HEAD_HEAD (qBase f.val)) + depth s (F.CMDQ_SIZE_SIZE (qBase f.val)) - 1) (s.rd (F.CMDQ_TAIL_TAIL (qBase f.val)))) ∧
    (∃ (f : Fn) (v : Word) (s : State), s.queWrites f = true ∧ depth s (F.CMDQ_SIZE_SIZE (qBase f.val)) ≤ v.toNat % 2 ^ 12) ∧
    (∃ (f : Fn) (v : Word) (s : State), s.queWrites f = true ∧ v.toNat % 2 ^ 12 < depth s (F.CPLQ_SIZE_SIZE (qBase f.val)) ∧
      modSub (depth s (F.CPLQ_SIZE_SIZE (qBase f.val))) (v.toNat % 2 ^ 12) (s.rd (F.CPLQ_HEAD_HEAD (qBase f.val))) ≤ modSub (depth s (F.CPLQ_SIZE_SIZE (qBase f.val))) (s.rd (F.CPLQ_TAIL_TAIL (qBase f.val))) (s.rd (F.CPLQ_HEAD_HEAD (qBase f.val)))) ∧
    (∃ (f : Fn) (v : DWord) (s : State), s.queWrites f = true ∧ s.cmdqOpen f = true ∧ (4 ≤ v.toNat % 16 ∧ v.toNat % 16 ≤ 12)) ∧
    (∃ (f : Fn) (s : State), s.queWrites f = true ∧ s.cmdqOpen f = true) ∧
    (∃ (f : Fn) (s : State), s.queWrites f = true ∧ s.on (F.Q_CTRL_CPL_EN (qBase f.val)) = false) ∧
    (∃ (f : Fn) (v : DWord) (s : State), s.queWrites f = true ∧ s.on (F.Q_CTRL_CPL_EN (qBase f.val)) = false ∧ (4 ≤ v.toNat % 16 ∧
      v.toNat % 16 ≤ 12)) ∧
    (∃ (f : Fn) (s : State), s.queWrites f = true ∧ s.cmdqOpen f = false) ∧
    (∃ (r : Req) (v : Word) (s : State), s.pfWrites r 7 = true ∧ (∀ x ∈ s.epoch? v.toNat, 3 ≤ x.st)) ∧
    (∃ (r : Req) (v : Word) (s : State), s.pfWrites r 5 = true ∧ (s.on F.PFE_LI0_LINES_ANCHOR_OK = false ∨ s.domOn 2 = false) ∧
      v.getLsbD 1 = false) ∧
    (∃ (r : Req) (s : State), s.pfWrites r 0x0D = true ∧
      (upTo 5).all (fun i => !bitOf (s.rd F.SEC_TAMPER_STAT_ACTIVE) i || s.tamperPolicy i == 0) = false) ∧
    (∃ (r : Req) (s : State), s.pfWrites r 0x0D = true ∧
      (upTo 5).all (fun i => !bitOf (s.rd F.SEC_TAMPER_STAT_ACTIVE) i || s.tamperPolicy i == 0) = true) ∧
    (∃ (r : Req) (n : Fn) (v : Word) (s : State), s.pfWrites r 0x0D = true ∧ n.val ≠ 0 ∧ v.toNat / 2 ^ 16 % 2 ^ 11 ≤ 1024 ∧
      s.keyrangeOk n.val (v.toNat % 1024) (v.toNat / 2 ^ 16 % 2 ^ 11) = true) ∧
    (∃ (r : Req) (n : Fn) (v : Word) (s : State), s.pfWrites r 0x0D = true ∧ n.val ≠ 0 ∧ v.toNat / 2 ^ 16 % 2 ^ 11 ≤ 1024 ∧
      s.keyrangeOk n.val (v.toNat % 1024) (v.toNat / 2 ^ 16 % 2 ^ 11) = false) ∧
    (∃ (r : Req) (s : State), s.pfWrites r 9 = true ∧
      (s.en 7 = false ∨ s.en 0x0D = false ∨ s.en 5 = false ∨ s.rd F.JNL_STAT_CSTATE ≠ 0 ∨ s.csq.epochs ≠ [])) ∧
    (∃ (r : Req) (v : Word) (s : State), s.pfWrites r 8 = true ∧ (v.toNat % 8 = 7 ∨ v.toNat % 8 = 1 ∨ s.rd F.TWN_CFG_EN = 1 ∧
      v.toNat / 2 ^ 4 % 16 ≠ s.rd F.TWN_CFG_PORT)) ∧
    (∃ (r : Req) (s : State), s.pfWrites r 8 = true ∧ s.role = 2 ∧ s.rd F.TWN_STAT_TKO < 4 ∧ s.frozen 8 = true) ∧
    (∃ (r : Req) (n : Fin 8) (s : State), s.pfWrites r 0x0B = true ∧ s.on (F.ATM_STAT_BUSY 0xB000 n.val) = true) ∧
    (∃ (r : Req) (src : SrcIx) (s : State), s.pfWrites r 0x0E = true ∧ s.on (F.FCU_REC_W0_VALID src.val) = true ∧
      s.rd (F.FCU_REC_W0_CLASS src.val) = 4) ∧
    (∃ (r : Req) (v : Word) (s : State), s.pfWrites r 0x0E = true ∧ scopeOk (v.toNat % 4) (v.toNat / 2 ^ 8 % 2 ^ 7) = false) ∧
    (∃ (r : Req) (v : Word) (s : State), s.pfWrites r 0x0E = true ∧
      s.fcu.fences.any (fun x => x.2 == (v.toNat % 4, v.toNat / 2 ^ 8 % 2 ^ 7) && s.on (F.FCU_REC_W0_VALID x.1)) = true) ∧
    (∃ (r : Req) (s : State), s.pfWrites r 0x0E = true) ∧
    (∃ (r : Req) (s : State), s.pfWrites r 0x0F = true) ∧
    (∃ (r : Req) (s : State), s.pfWrites r 1 = true ∧ s.pstate ≠ 0) ∧
    (∃ (r : Req) (s : State), s.pfWrites r 1 = true ∧ (s.on F.LNK_TIME_CTRL_ROOT = true ∨ s.on F.LNK_TIME_CTRL_PARENT_EN = false)) ∧
    (∃ (r : Req) (s : State), s.pfWrites r 1 = true ∧ (s.on F.LNK_TIME_CTRL_ROOT = false ∧ s.on F.LNK_TIME_CTRL_PARENT_EN = true)) ∧
    (∃ (r : Req) (v : Word) (s : State), s.pfWrites r 1 = true ∧ v.toNat % 2 ^ 16 ≠ 0xA5C3) ∧
    (∃ (s : State), s.pfWrites 0 0x22 = true) :=
  ⟨⟨base, by decide +kernel⟩,
    ⟨(7 : PageIx), base, by decide +kernel⟩,
    ⟨(0 : Req), (13 : PageIx), base, by decide +kernel⟩,
    ⟨(0 : Req), (13 : PageIx), s96, by decide +kernel⟩,
    ⟨(0 : Req), (7 : PageIx), base, by decide +kernel⟩,
    ⟨(0 : Req), (0 : Fin 5), (50 : Fin 512), 3, 2, base, by decide +kernel⟩,
    ⟨(0 : Req), (95 : Fin 512), 5, 66, s99, by decide +kernel⟩,
    ⟨(0 : Req), (2 : Fin 8), 55, s95, by decide +kernel⟩,
    ⟨(0 : Fn), (3 : Word), base, by decide +kernel⟩,
    ⟨(0 : Fn), 0xFFF, base, by decide +kernel⟩,
    ⟨(0 : Fn), (4 : Word), s100, by decide +kernel⟩,
    ⟨(0 : Fn), (5 : DWord), s101, by decide +kernel⟩,
    ⟨(0 : Fn), s101, by decide +kernel⟩,
    ⟨(0 : Fn), s102, by decide +kernel⟩,
    ⟨(0 : Fn), (5 : DWord), s102, by decide +kernel⟩,
    ⟨(0 : Fn), base, by decide +kernel⟩,
    ⟨(0 : Req), (4 : Word), csqBase, by decide +kernel⟩,
    ⟨(0 : Req), (0 : Word), base, by decide +kernel⟩,
    ⟨(0 : Req), s78, by decide +kernel⟩,
    ⟨(0 : Req), s77, by decide +kernel⟩,
    ⟨(0 : Req), (3 : Fn), (BitVec.ofNat 32 (16 + 8 * 2 ^ 16)), base, by decide +kernel⟩,
    ⟨(0 : Req), (3 : Fn), (BitVec.ofNat 32 (16 + 8 * 2 ^ 16)), s79, by decide +kernel⟩,
    ⟨(0 : Req), s87, by decide +kernel⟩,
    ⟨(0 : Req), (7 : Word), base, by decide +kernel⟩,
    ⟨(0 : Req), s107, by decide +kernel⟩,
    ⟨(0 : Req), (1 : Fin 8), s111, by decide +kernel⟩,
    ⟨(0 : Req), (16 : SrcIx), s114, by decide +kernel⟩,
    ⟨(0 : Req), 0x1001, base, by decide +kernel⟩,
    ⟨(0 : Req), 0x201, s116, by decide +kernel⟩,
    ⟨(0 : Req), s117, by decide +kernel⟩,
    ⟨(0 : Req), base, by decide +kernel⟩,
    ⟨(0 : Req), s125, by decide +kernel⟩,
    ⟨(0 : Req), base, by decide +kernel⟩,
    ⟨(0 : Req), s130, by decide +kernel⟩,
    ⟨(0 : Req), (1 : Word), base, by decide +kernel⟩,
    ⟨base, by decide +kernel⟩⟩

theorem witness_StepTakesFrontCommand :
    (∃ (c : Instr) (rest : List Instr) (s : State), s.pending = c :: rest) ∧ (∃ s : State, s.pending = []) :=
  ⟨⟨.perstRelease, [], { State.reset with pending := [.perstRelease] }, rfl⟩, State.reset, rfl⟩

theorem witness_StepKeepsWellFormed : ∃ s t : State, s.wf = true ∧ step s = .next t :=
  ⟨{ base with pending := [.perstRelease] }, _, by decide +kernel, rfl⟩

theorem witness_CommandsKeepTheirParts : ∃ (i : Instr) (s t : State), exec i s = .next t ∧ ∃ p : Part, p ∉ touches i :=
  ⟨.perstRelease, base, _, rfl, .memory, by decide⟩

theorem witness_QueueAndOutputsKept : ∃ (i : Instr) (s t : State), exec i s = .next t :=
  ⟨.perstRelease, base, _, rfl⟩

theorem witness_WellFormedCommandsComplete :
    (∃ i : Instr, i.wf = true) ∧ (∃ n : Nat, n = 0 ∨ 4096 < n) ∧ (∃ bs : List (Option Byte), bs.length = 0 ∨ 4096 < bs.length) :=
  ⟨⟨.perstRelease, by decide⟩, ⟨4097, by decide⟩, [], by decide⟩

theorem witness_RegisterAndMemoryLaws :
    (∃ f g : Fld, g.key ≠ f.key) ∧ (∃ (s : State) (a b : Nat), a < 2 ^ 35 ∧ b < 2 ^ 35 ∧ s.memKey a = s.memKey b) ∧
    (∃ (off k : Nat) (bs : List (Option Byte)), off + bs.length ≤ 2 ^ 35 ∧ k < bs.length) ∧
    (∃ (off a : Nat) (bs : List (Option Byte)), off + bs.length ≤ 2 ^ 35 ∧ a < 2 ^ 35 ∧ (a < off ∨ off + bs.length ≤ a)) ∧
    (∃ s : State, s.wf = true) :=
  ⟨⟨F.GLB_SCRATCH_SCRATCH, F.CPM_BOOT_STAGE, by decide⟩, ⟨State.reset, 4096, 4096, by decide, by decide, rfl⟩,
    ⟨2 ^ 35 - 1, 0, [some 7], by decide⟩, ⟨2 ^ 35 - 1, 2 ^ 35 - 2, [some 7], by decide⟩, State.reset, rfl⟩

end Sys2Proof.Tests
end

section
/-! SUPPORT. Table windows (R43 to R47): what a refused access leaves unchanged, and the accesses of an aperture word whose entry
lies at or beyond WIN_INFO.ENTRIES. -/

namespace Sys2Proof.Machine

/-! ## Register fields through an interrupt -/

@[simp] theorem State.vector_rd (s : State) (f : Fn) (v : Nat) (g : Fld) : (s.vector f v).rd g = s.rd g := by
  unfold State.vector
  split
  · exact State.send_rd s _ g
  · dsimp only
    split <;> rfl

@[simp] theorem State.intEdge_rd (s : State) (f : Fn) (pg : Nat) (h : State → State) (g : Fld) : (s.intEdge f pg h).rd g = (h s).rd g := by
  unfold State.intEdge
  dsimp only
  split
  · exact State.vector_rd (h s) f _ g
  · rfl

/-- Setting an interrupt cause changes no field but the page's INT_CAUSE. -/
theorem State.cause0_rd_ne (s : State) (pg i : Nat) {g : Fld} (h : g.key ≠ (F.INT_CAUSE_CAUSE (0x1000 * pg)).key) :
    (s.cause0 pg i).rd g = s.rd g := by
  unfold State.cause0 State.cause
  rw [State.intEdge_rd]
  exact State.rd_wr_ne s _ h

/-! ## Frames -/

/-- A frame from what the operation keeps (its mask m) and the register fields that it leaves alone. -/
theorem Kept.frame {m : Nat} {s t : State} {fs : List Fld} {ps : List Part} (hk : Kept m s t)
    (hregs : ∀ f : Fld, (∀ g ∈ fs, f.key ≠ g.key) → t.rd f = s.rd f)
    (hparts : ∀ p : Part, p.isRegs = false → p ∉ ps → m.testBit p.ix = false) : Frame s t fs ps :=
  ⟨hregs, fun p hp hps => hk.parts p (hparts p hp hps)⟩

/-- Sending an output changes the outputs alone. -/
theorem State.send_frame (s : State) (o : Output) : Frame s (s.send o) [] [.outputs] := by
  refine Kept.frame (State.send_kept (Sub.refl 0x80000) (Kept.refl _ s)) (fun f _ => State.send_rd s o f) fun p => ?_
  cases p with
  | page n => intro hp; cases hp
  | _ => decide

/-- A register access error changes its error record and the cause of the GLB page, and signals that page's vector. -/
theorem State.accErr_frame (s : State) (flag : Fld) (src page off : Nat) :
    Frame s (s.accErr flag src page off) (accessErrFields flag) [.outputs, .host] := by
  have hmask : Sub 0x4FFFFF 0x4FFFFF := Sub.refl _
  refine Kept.frame (m := 0x4FFFFF) (State.accErr_kept (hmask.of (by decide)) (Sub.any hmask (by decide)) (Kept.refl _ s)) (fun f hf => ?_)
    fun p => ?_
  · simp only [accessErrFields, List.forall_mem_cons, List.not_mem_nil, false_imp_iff, implies_true, and_true] at hf
    obtain ⟨hflag, hpage, hoff, hsrc, hcause⟩ := hf
    unfold State.accErr
    rw [State.cause0_rd_ne _ 0 0 hcause, State.rd_wr_ne _ _ hsrc, State.rd_wr_ne _ _ hoff, State.rd_wr_ne _ _ hpage,
      State.rd_wr_ne _ _ hflag]
  · cases p with
    | page n => intro hp; cases hp
    | _ => decide

theorem State.bad_frame (s : State) (r : Req) (a : Nat) :
    Frame s (s.bad r a) (accessErrFields F.GLB_ACCESS_ERR_BADVAL) [.outputs, .host] :=
  State.accErr_frame s _ _ _ _

@[simp] theorem State.bad_rd_badval (s : State) (r : Req) (a : Nat) : (s.bad r a).rd F.GLB_ACCESS_ERR_BADVAL = 1 := by
  unfold State.bad State.busErr State.accErr
  rw [State.cause0_rd_ne _ 0 0 (by decide), State.rd_wr_ne _ _ (by decide), State.rd_wr_ne _ _ (by decide),
    State.rd_wr_ne _ _ (by decide), State.rd_wr_same]
  rfl

/-! ## Aperture words -/

/-- The offset of an aperture word of window win in PF0's space (R43). -/
def winWordAddr (win : Fin 5) (word : Fin 512) : Nat := 0x40800 + 0x1000 * win.val + 4 * word.val

section
variable (win : Fin 5) (word : Fin 512)

theorem winWordAddr_lt : winWordAddr win word < 0x100000 := by
  unfold winWordAddr; omega

@[simp] theorem vfOf_winWordAddr : vfOf (winWordAddr win word) = 0 := if_pos (winWordAddr_lt win word)

@[simp] theorem pageOf_winWordAddr : pageOf (winWordAddr win word) = 0x40 + win.val := by
  rw [pageOf, if_pos (winWordAddr_lt win word)]
  unfold winWordAddr; omega

@[simp] theorem winWordAddr_mod : winWordAddr win word % 0x1000 = 0x800 + 4 * word.val := by
  unfold winWordAddr; omega

@[simp] theorem isWinPage_window : isWinPage (0x40 + win.val) = true := by
  simp only [isWinPage, decide_eq_true_eq]; omega

@[simp] theorem implAt_winWordAddr : implAt (winWordAddr win word) = true := by
  simp [implAt, implPage]

@[simp] theorem underPage_winWordAddr : underPage (winWordAddr win word) = 0x40 + win.val := by
  simp [underPage]

end

/-! ## Accesses of PF0 and the debug aperture -/

/-- Offsets of PF0's whole space are reached alike by PF0 and by the debug aperture (R24, R440). -/
theorem State.reaches_congr (s : State) {r : Req} {a b : Nat} (hr : r.val = 0 ∨ r.val = 65) (ha : a < 0x100000) (hb : b < 0x100000) :
    s.reaches r a = s.reaches r b := by
  rcases hr with hr | hr <;> simp [State.reaches, hr, ha, hb]

theorem busAddr_pf0 {r : Req} (hr : r.val = 0 ∨ r.val = 65) (a : Nat) : busAddr r a = a := by
  rw [busAddr, if_neg (by omega)]

/-- Who reads a page's registers, that the page is reached, and that no soft reset is under way. -/
theorem State.pfReads_iff (s : State) (r : Req) (pg : Nat) :
    s.pfReads r pg = true ↔ (r.val = 0 ∨ r.val = 65) ∧ s.reaches r (0x1000 * pg) = true ∧ s.on (F.PAGE_STAT_RST_BUSY (0x1000 * pg)) = false := by
  simp [State.pfReads, and_assoc]

theorem State.pfReads_of_pfWrites {s : State} {r : Req} {pg : Nat} (h : s.pfWrites r pg = true) : s.pfReads r pg = true :=
  (Bool.and_eq_true_iff.mp h).1

section
variable {s : State} {r : Req} {win : Fin 5} {word : Fin 512} (h : s.pfReads r (0x40 + win.val) = true)
include h

theorem State.reaches_winWordAddr : s.reaches r (winWordAddr win word) = true := by
  obtain ⟨hr, hreach, -⟩ := (State.pfReads_iff s r _).mp h
  rw [State.reaches_congr s hr (winWordAddr_lt win word) (b := 0x1000 * (0x40 + win.val)) (by omega)]
  exact hreach

/-- A write of an aperture word is a write of the window. -/
theorem State.busWrite_winWordAddr (v : Nat) :
    s.busWrite r (winWordAddr win word) v = s.winWrite r (winWordAddr win word) (v % 2 ^ 32) := by
  obtain ⟨hr, -, hbusy⟩ := (State.pfReads_iff s r _).mp h
  have hhead : ¬ 0x800 + 4 * word.val < 0x40 := by omega
  simp [State.busWrite, State.reaches_winWordAddr h, busAddr_pf0 hr, State.writeWord, hhead, hbusy]

/-- A read of an aperture word is a read of the window, whose value is sent back. -/
theorem State.busRead_winWordAddr :
    s.busRead r (winWordAddr win word) =
      (s.winRead r.val (0x40 + win.val) (0x800 + 4 * word.val)).2.send
        (.regData r (winWordAddr win word) (BitVec.ofNat 32 (s.winRead r.val (0x40 + win.val) (0x800 + 4 * word.val)).1)) := by
  obtain ⟨hr, -, hbusy⟩ := (State.pfReads_iff s r _).mp h
  have hblock : 0x40 ≤ 0x800 + 4 * word.val := by omega
  simp [State.busRead, State.reaches_winWordAddr h, busAddr_pf0 hr, State.readOut, State.readWord, hblock, hbusy]

end

/-! ## Entries at or beyond WIN_INFO.ENTRIES (R47) -/

/-- A window read beyond the table reads 0 and leaves the state, with its captures, as it is. -/
theorem State.winRead_beyond {s : State} {r pg o : Nat} (h : (winInfo pg).1 ≤ (winSlot (s.winOf r pg) pg o).1) :
    s.winRead r pg o = (0, s) := by
  simp only [State.winRead, if_pos h]

/-- A write of an aperture word beyond the table is refused with BADVAL. -/
theorem State.winWrite_beyond {s : State} {r : Req} {a v : Nat} (ho : 0x800 ≤ a % 0x1000)
    (h : (winInfo (pageOf a)).1 ≤ (winSlot (s.winOf r.val (pageOf a)) (pageOf a) (a % 0x1000)).1) : s.winWrite r a v = s.bad r a := by
  simp only [State.winWrite, if_pos ho, if_pos h]

theorem exec_tableWindowWrite (r : Req) (win : Fin 5) (word : Fin 512) (v : Word) (s : State) :
    exec (.tableWindowWrite r win word v) s = .next (s.busWrite r (winWordAddr win word) v.toNat) := rfl

theorem exec_tableWindowRead (r : Req) (win : Fin 5) (word : Fin 512) (s : State) :
    exec (.tableWindowRead r win word) s = .next (s.busRead r (winWordAddr win word)) := rfl

theorem exec_tableWindowWrite_beyond {r : Req} {win : Fin 5} {word : Fin 512} (v : Word) {s : State}
    (hw : s.pfWrites r (0x40 + win.val) = true)
    (h : (winInfo (0x40 + win.val)).1 ≤ (winSlot (s.winOf r.val (0x40 + win.val)) (0x40 + win.val) (0x800 + 4 * word.val)).1) :
    exec (.tableWindowWrite r win word v) s = .next (s.bad r (winWordAddr win word)) := by
  rw [exec_tableWindowWrite, State.busWrite_winWordAddr (State.pfReads_of_pfWrites hw), State.winWrite_beyond]
  · rw [winWordAddr_mod]; omega
  · rwa [pageOf_winWordAddr, winWordAddr_mod]

theorem exec_tableWindowRead_beyond {r : Req} {win : Fin 5} {word : Fin 512} {s : State}
    (hr : s.pfReads r (0x40 + win.val) = true)
    (h : (winInfo (0x40 + win.val)).1 ≤ (winSlot (s.winOf r.val (0x40 + win.val)) (0x40 + win.val) (0x800 + 4 * word.val)).1) :
    exec (.tableWindowRead r win word) s = .next (s.send (.regData r (winWordAddr win word) 0)) := by
  rw [exec_tableWindowRead, State.busRead_winWordAddr hr, State.winRead_beyond h]
  rfl

/-- Settles O9: an access beyond the table is a refused write, or a read that sends back 0. -/
theorem windowWordsBeyondTheTable : Obligations.WindowWordsBeyondTheTable := by
  unfold Obligations.WindowWordsBeyondTheTable
  constructor
  · intro r win word v s hw hentry
    exact ⟨_, exec_tableWindowWrite_beyond v hw hentry, State.bad_rd_badval s r _, State.bad_frame s r _⟩
  · intro r win word s hr hentry
    exact ⟨_, exec_tableWindowRead_beyond hr hentry, State.send_out s _, State.send_frame s _⟩

end Sys2Proof.Machine
end

section
/-! SUPPORT. Doorbells (R73, R74): where a function's queue registers lie, what a write of one of them does, and which values a doorbell
takes. -/

namespace Sys2Proof.Machine

/-! ## The page of a function's queue registers (R94) -/

theorem qBase_eq (f : Nat) : qBase f = if f = 0 then 0x3000 else 0x101000 + 0x10000 * (f - 1) := by
  unfold qBase pageBase
  split <;> omega

/-- Queue registers lie above the page of GLB. -/
theorem qBase_ge (f : Nat) : 0x3000 ≤ qBase f := by
  rw [qBase_eq]
  split <;> omega

section
variable (f : Fn) {o : Nat} (ho : o < 0x1000)

theorem busAddr_qPage : busAddr (f.castLE (by decide)) (qPage f * 0x1000 + o) = qBase f + o := by
  have hf := f.isLt
  unfold busAddr qPage qBase pageBase
  rw [Fin.val_castLE]
  split_ifs <;> omega

include ho

theorem qBase_add_mod : (qBase f + o) % 0x1000 = o := by
  rw [qBase_eq]
  split <;> omega

theorem vfOf_qBase_add : vfOf (qBase f + o) = f := by
  rw [qBase_eq, vfOf]
  split_ifs <;> omega

theorem pageOf_qBase_add : pageOf (qBase f + o) = qPage f := by
  rw [qBase_eq, pageOf, qPage]
  split_ifs <;> omega

theorem fnAt_qBase_add : fnAt (qBase f + o) = f := by
  rw [fnAt, vfOf_qBase_add f ho]
  exact Fin.ofNat_val_eq_self f

theorem implAt_qBase_add : implAt (qBase f + o) = true := by
  rw [implAt, vfOf_qBase_add f ho, pageOf_qBase_add f ho, qPage]
  split <;> decide

theorem underPage_qBase_add : underPage (qBase f + o) = 3 := by
  rw [underPage, vfOf_qBase_add f ho, pageOf_qBase_add f ho, qPage]
  split <;> rfl

/-- The queue registers' page holds no atomic slot. -/
theorem atmSlot_qBase_add : atmSlot (qBase f + o) = none := by
  simp only [atmSlot, vfOf_qBase_add f ho, pageOf_qBase_add f ho, qPage]
  split <;> simp

/-- The queue registers' page holds no event window. -/
theorem evrWord_qBase_add : evrWord (qBase f + o) = none := by
  simp only [evrWord, vfOf_qBase_add f ho, pageOf_qBase_add f ho, qPage]
  split <;> simp_all

/-- The queue registers come first on their page; PF0's weights lie from 0x3104 on. -/
theorem fieldsAt_qBase_add (h40 : 0x40 ≤ o) (h100 : o < 0x100) :
    fieldsAt (pageRows (qBase f + o)) (qBase f + o) = fieldsAt (rowsQ (qBase f)) (qBase f + o) := by
  have hhead : ¬ o < 0x40 := by omega
  simp only [pageRows, implAt_qBase_add f ho, qBase_add_mod f ho, vfOf_qBase_add f ho, pageOf_qBase_add f ho, if_neg hhead, if_true]
  by_cases hf : f.val = 0
  · have hweights : fieldsAt rowsQue (0x3000 + o) = [] := by
      have : 0x3000 + o < 0x3104 := by omega
      simp [fieldsAt, rowsQue, Row.at?, F.QUE_WEIGHT_WEIGHT, this]
    rw [hf]
    calc fieldsAt (rowsQ 0x3000 ++ rowsQue) (0x3000 + o)
        = fieldsAt (rowsQ 0x3000) (0x3000 + o) ++ fieldsAt rowsQue (0x3000 + o) := List.filterMap_append
      _ = fieldsAt (rowsQ 0x3000) (0x3000 + o) := by rw [hweights, List.append_nil]
  · simp [hf, qPage, qBase, vfRows]

end

/-- The one field of CMDQ_TAIL's word, and that of CPLQ_HEAD's. -/
theorem fieldsAt_doorbells (b : Nat) :
    fieldsAt (rowsQ b) (b + 0x4C) = [(⟨fun _ => F.CMDQ_TAIL_TAIL b, .rw, 0, 1, 0, none⟩, F.CMDQ_TAIL_TAIL b, false)] ∧
    fieldsAt (rowsQ b) (b + 0x60) = [(⟨fun _ => F.CPLQ_HEAD_HEAD b, .rw, 0, 1, 0, none⟩, F.CPLQ_HEAD_HEAD b, false)] := by
  simp [fieldsAt, rowsQ, Row.at?, F.CMDQ_BASE_BASE, F.CMDQ_SIZE_SIZE, F.CMDQ_TAIL_TAIL, F.CMDQ_HEAD_HEAD, F.CPLQ_BASE_BASE, F.CPLQ_SIZE_SIZE,
    F.CPLQ_HEAD_HEAD, F.CPLQ_TAIL_TAIL, F.CPLQ_TAIL_PHASE, F.Q_CTRL_CMD_EN, F.Q_CTRL_CPL_EN, F.Q_STAT_IDLE, F.Q_STAT_DB_OVR,
    F.Q_STAT_CPL_DB_OVR, F.Q_STAT_FETCH_ERR, F.Q_STAT_HALTED, F.Q_STAT_CPL_FULL, F.Q_STAT_INFLIGHT, F.CPL_COAL_COUNT, F.CPL_COAL_TIME]

/-! ## A write of a queue register -/

section
variable {s : State} {f : Fn} (h : s.queWrites f = true)
include h

theorem State.queWrites_notBusy : s.on (F.PAGE_STAT_RST_BUSY 0x3000) = false := by
  simp only [State.queWrites, Bool.and_eq_true, Bool.not_eq_true'] at h
  obtain ⟨⟨-, hbusy⟩, -⟩ := h
  exact hbusy

theorem State.reaches_qPage {o : Nat} (ho : o < 0x1000) : s.reaches (f.castLE (by decide)) (qPage f * 0x1000 + o) = true := by
  have hf := f.isLt
  simp only [State.queWrites, Bool.and_eq_true] at h
  obtain ⟨⟨⟨hdom, hfn⟩, -⟩, -⟩ := h
  have hrange : qPage f * 0x1000 + o < if f.val = 0 then 0x100000 else 0x10000 := by
    unfold qPage
    split <;> omega
  have hvf : f.val ≠ 65 := by omega
  unfold State.reaches
  rw [Fin.val_castLE, if_neg hvf, hdom, hfn, decide_eq_true hrange]
  rfl

end

/-- PF0's queue page and a VF's hand a word's write to the queue manager. -/
theorem State.pageWrite_queue (s : State) (r : Req) (f : Fn) {o : Nat} (ho : o < 0x1000) (v : Nat) (fs : List (Row × Fld × Bool)) :
    (if f.val = 0 then s.pfWrite r (qBase f + o) v fs else s.vfWrite r (qBase f + o) v fs) = s.queWrite r (qBase f + o) f v fs := by
  by_cases hf : f.val = 0
  · have hpage : pageOf (qBase f + o) = 3 := by rw [pageOf_qBase_add f ho, hf]; rfl
    have hf0 : f = 0 := Fin.ext hf
    simp only [if_pos hf, State.pfWrite, hpage]
    subst hf0
    rfl
  · have hpage : pageOf (qBase f + o) = 1 := by rw [pageOf_qBase_add f ho, qPage, if_neg hf]
    simp only [if_neg hf, State.vfWrite, hpage, fnAt_qBase_add f ho]

/-- The state with RSVD_WR noted where a write sets a bit outside a word's fields (R32). -/
def State.noteReserved (s : State) (r : Req) (a v : Nat) (fs : List (Row × Fld × Bool)) : State :=
  if v &&& (0xFFFFFFFF - coverMask fs) = 0 then s else s.rsvd r a

/-- A write of a queue register of one writable field, no wider than its word. -/
theorem State.writeWord_queue {s : State} {f : Fn} (hw : s.queWrites f = true) (r : Req) {o : Nat} (h40 : 0x40 ≤ o) (h100 : o < 0x100)
    {x : Row × Fld × Bool} (hx : fieldsAt (rowsQ (qBase f)) (qBase f + o) = [x]) (hrw : x.1.acc = .rw) (hnarrow : x.2.1.lo + x.2.1.width ≤ 32)
    (v : Nat) : s.writeWord r (qBase f + o) v = (s.noteReserved r (qBase f + o) v [x]).queWrite r (qBase f + o) f v [x] := by
  have ho : o < 0x1000 := by omega
  have hhead : ¬ o < 0x40 := by omega
  have hwin : ¬ (f.val = 0 ∧ isWinPage (qPage f) = true) := by
    rintro ⟨hf, hpage⟩
    rw [qPage, if_pos hf] at hpage
    cases hpage
  have hglb : qBase f + o ≠ 0x5C := by have := qBase_ge f; omega
  have hwide : ¬ 32 < x.2.1.lo + x.2.1.width := by omega
  simp only [State.writeWord, implAt_qBase_add f ho, qBase_add_mod f ho, underPage_qBase_add f ho, vfOf_qBase_add f ho, pageOf_qBase_add f ho,
    evrWord_qBase_add f ho, atmSlot_qBase_add f ho, fieldsAt_qBase_add f ho h40 h100, hx, if_neg hhead, if_neg hwin, if_neg hglb,
    State.queWrites_notBusy hw, State.pageWrite_queue _ r f ho]
  simp [State.noteReserved, hrw, hwide]

/-- Noting reserved bits changes no field that lies above GLB_ACCESS_ERR. -/
theorem State.noteReserved_rd (s : State) (r : Req) (a v : Nat) (fs : List (Row × Fld × Bool)) {g : Fld} (hg : 0x60 ≤ g.addr) :
    (s.noteReserved r a v fs).rd g = s.rd g := by
  unfold State.noteReserved
  split
  · rfl
  · refine (State.accErr_frame s _ _ _ _).1 g ?_
    simp only [accessErrFields, List.forall_mem_cons, List.not_mem_nil, false_imp_iff, implies_true, and_true, Fld.key,
      F.GLB_ACCESS_ERR_RSVD_WR, F.GLB_ACCESS_ERR_LAST_PAGE, F.GLB_ACCESS_ERR_LAST_OFFSET, F.GLB_ACCESS_ERR_LAST_SRC, F.INT_CAUSE_CAUSE]
    omega

theorem coverMask_singleton (row : Row) {g : Fld} (hlo : g.lo = 0) (hwidth : g.width = 12) : coverMask [(row, g, false)] = 2 ^ 12 - 1 := by
  simp [coverMask, fieldInWord, hlo, hwidth]

/-- Where the word's fields are its low 12 bits, a value below 2^12 sets no reserved bit. -/
theorem State.noteReserved_of_lt (s : State) (r : Req) (a : Nat) {v : Nat} {fs : List (Row × Fld × Bool)} (hfs : coverMask fs = 2 ^ 12 - 1)
    (hv : v < 2 ^ 12) : s.noteReserved r a v fs = s := by
  refine if_pos ?_
  rw [hfs]
  calc v &&& (0xFFFFFFFF - (2 ^ 12 - 1)) = v &&& (2 ^ 12 - 1) &&& (0xFFFFFFFF - (2 ^ 12 - 1)) := by rw [Nat.and_two_pow_sub_one_of_lt_two_pow hv]
    _ = 0 := by rw [Nat.and_assoc]; exact Nat.and_zero v

/-! ## What a doorbell does -/

/-- The values of R73 for function f: below the depth, from the tail on and before the head. -/
def State.tailFits (s : State) (f : Fn) (t : Nat) : Prop :=
  let n := depth s (F.CMDQ_SIZE_SIZE (qBase f.val))
  let tail := s.rd (F.CMDQ_TAIL_TAIL (qBase f.val))
  t < n ∧ modSub n t tail ≤ modSub n (s.rd (F.CMDQ_HEAD_HEAD (qBase f.val)) + n - 1) tail

/-- The values of R74 for function f: below the depth, from the head on and up to the tail. -/
def State.headFits (s : State) (f : Fn) (h : Nat) : Prop :=
  let n := depth s (F.CPLQ_SIZE_SIZE (qBase f.val))
  let head := s.rd (F.CPLQ_HEAD_HEAD (qBase f.val))
  h < n ∧ modSub n h head ≤ modSub n (s.rd (F.CPLQ_TAIL_TAIL (qBase f.val))) head

/-- Setting an interrupt cause of a function's queue page changes no field of its queue registers. -/
theorem State.queCause_rd (s : State) (f : Fn) (i : Nat) {g : Fld} (hg : qBase f.val + 0x40 ≤ g.addr) :
    (s.cause f (qPage f.val) i).rd g = s.rd g := by
  unfold State.cause
  rw [State.intEdge_rd]
  refine State.rd_wr_ne s _ ?_
  have hb : pageBase f.val (qPage f.val) = qBase f.val := rfl
  simp only [Fld.key, F.INT_CAUSE_CAUSE, hb]
  omega

section
variable {s : State} {f : Fn} {t h : Nat}

theorem State.cmdDoorbell_same (ht : s.tailFits f t) (heq : t = s.rd (F.CMDQ_TAIL_TAIL (qBase f.val))) : s.cmdDoorbell f t = s :=
  (if_pos (c := _ ∧ _) ht).trans (if_pos heq)

/-- A tail that moves also marks the BAR2 writes under way (R271). -/
theorem State.cmdDoorbell_moves (ht : s.tailFits f t) (hne : t ≠ s.rd (F.CMDQ_TAIL_TAIL (qBase f.val))) :
    ∃ l, s.cmdDoorbell f t = (s.wr (F.CMDQ_TAIL_TAIL (qBase f.val)) t).setOps l :=
  ⟨_, (if_pos (c := _ ∧ _) ht).trans (if_neg hne)⟩

theorem State.cmdDoorbell_ignored (ht : ¬ s.tailFits f t) :
    s.cmdDoorbell f t = (s.wr (F.Q_STAT_DB_OVR (qBase f.val)) 1).cause f (qPage f.val) 0 :=
  if_neg (c := _ ∧ _) ht

theorem State.cplDoorbell_moves (hh : s.headFits f h) : s.cplDoorbell f h = s.wr (F.CPLQ_HEAD_HEAD (qBase f.val)) h :=
  if_pos (c := _ ∧ _) hh

theorem State.cplDoorbell_ignored (hh : ¬ s.headFits f h) :
    s.cplDoorbell f h = (s.wr (F.Q_STAT_CPL_DB_OVR (qBase f.val)) 1).cause f (qPage f.val) 1 :=
  if_neg (c := _ ∧ _) hh

theorem State.cmdDoorbell_rd_of_fits (ht : s.tailFits f t) (hlt : t < 2 ^ 12) :
    (s.cmdDoorbell f t).rd (F.CMDQ_TAIL_TAIL (qBase f.val)) = t ∧
    (s.cmdDoorbell f t).rd (F.Q_STAT_DB_OVR (qBase f.val)) = s.rd (F.Q_STAT_DB_OVR (qBase f.val)) := by
  by_cases heq : t = s.rd (F.CMDQ_TAIL_TAIL (qBase f.val))
  · rw [State.cmdDoorbell_same ht heq]
    exact ⟨heq.symm, rfl⟩
  · obtain ⟨l, hmoved⟩ := State.cmdDoorbell_moves ht heq
    rw [hmoved, State.setOps_rd, State.setOps_rd, State.rd_wr_same,
      State.rd_wr_ne s t (by simp only [Fld.key, F.Q_STAT_DB_OVR, F.CMDQ_TAIL_TAIL]; omega)]
    exact ⟨Nat.mod_eq_of_lt hlt, rfl⟩

theorem State.cmdDoorbell_rd_of_ignored (ht : ¬ s.tailFits f t) :
    (s.cmdDoorbell f t).rd (F.CMDQ_TAIL_TAIL (qBase f.val)) = s.rd (F.CMDQ_TAIL_TAIL (qBase f.val)) ∧
    (s.cmdDoorbell f t).rd (F.Q_STAT_DB_OVR (qBase f.val)) = 1 := by
  rw [State.cmdDoorbell_ignored ht, State.queCause_rd _ f 0 (by simp [F.CMDQ_TAIL_TAIL]), State.queCause_rd _ f 0 (by simp [F.Q_STAT_DB_OVR]),
    State.rd_wr_ne s 1 (by simp only [Fld.key, F.Q_STAT_DB_OVR, F.CMDQ_TAIL_TAIL]; omega), State.rd_wr_same]
  exact ⟨rfl, rfl⟩

theorem State.cplDoorbell_rd_of_fits (hh : s.headFits f h) (hlt : h < 2 ^ 12) :
    (s.cplDoorbell f h).rd (F.CPLQ_HEAD_HEAD (qBase f.val)) = h ∧
    (s.cplDoorbell f h).rd (F.Q_STAT_CPL_DB_OVR (qBase f.val)) = s.rd (F.Q_STAT_CPL_DB_OVR (qBase f.val)) := by
  rw [State.cplDoorbell_moves hh, State.rd_wr_same,
    State.rd_wr_ne s h (by simp only [Fld.key, F.Q_STAT_CPL_DB_OVR, F.CPLQ_HEAD_HEAD]; omega)]
  exact ⟨Nat.mod_eq_of_lt hlt, rfl⟩

theorem State.cplDoorbell_rd_of_ignored (hh : ¬ s.headFits f h) :
    (s.cplDoorbell f h).rd (F.CPLQ_HEAD_HEAD (qBase f.val)) = s.rd (F.CPLQ_HEAD_HEAD (qBase f.val)) ∧
    (s.cplDoorbell f h).rd (F.Q_STAT_CPL_DB_OVR (qBase f.val)) = 1 := by
  rw [State.cplDoorbell_ignored hh, State.queCause_rd _ f 1 (by simp [F.CPLQ_HEAD_HEAD]),
    State.queCause_rd _ f 1 (by simp [F.Q_STAT_CPL_DB_OVR]),
    State.rd_wr_ne s 1 (by simp only [Fld.key, F.Q_STAT_CPL_DB_OVR, F.CPLQ_HEAD_HEAD]; omega), State.rd_wr_same]
  exact ⟨rfl, rfl⟩

end

/-! ## Doorbell writes over the bus -/

/-- A doorbell write, before it takes effect, changes at most what noting reserved bits does: the fields of other pages than GLB's stay, and
nothing changes for a value of the register's 12 bits. -/
structure NotesReserved (v : Word) (s u : State) : Prop where
  rd : ∀ g : Fld, 0x60 ≤ g.addr → u.rd g = s.rd g
  eq_of_lt : v.toNat < 2 ^ 12 → u = s

section
variable {s u : State} {v : Word} (hu : NotesReserved v s u) (f : Fn) (t : Nat)
include hu

theorem NotesReserved.tailFits : u.tailFits f t ↔ s.tailFits f t := by
  have hb := qBase_ge f.val
  simp only [State.tailFits, depth]
  rw [hu.rd (F.CMDQ_SIZE_SIZE _) (by simp only [F.CMDQ_SIZE_SIZE]; omega), hu.rd (F.CMDQ_TAIL_TAIL _) (by simp only [F.CMDQ_TAIL_TAIL]; omega),
    hu.rd (F.CMDQ_HEAD_HEAD _) (by simp only [F.CMDQ_HEAD_HEAD]; omega)]

theorem NotesReserved.headFits : u.headFits f t ↔ s.headFits f t := by
  have hb := qBase_ge f.val
  simp only [State.headFits, depth]
  rw [hu.rd (F.CPLQ_SIZE_SIZE _) (by simp only [F.CPLQ_SIZE_SIZE]; omega), hu.rd (F.CPLQ_TAIL_TAIL _) (by simp only [F.CPLQ_TAIL_TAIL]; omega),
    hu.rd (F.CPLQ_HEAD_HEAD _) (by simp only [F.CPLQ_HEAD_HEAD]; omega)]

end

/-- Over the bus, a write of a queue register of 12 bits reaches the queue manager. -/
theorem State.busWrite_queue {s : State} {f : Fn} (hw : s.queWrites f = true) (v : Word) {o : Nat} (h40 : 0x40 ≤ o) (h100 : o < 0x100)
    {x : Row × Fld × Bool} (hx : fieldsAt (rowsQ (qBase f)) (qBase f + o) = [x]) (hrw : x.1.acc = .rw)
    (hnarrow : x.2.1.lo + x.2.1.width ≤ 32) (hmask : coverMask [x] = 2 ^ 12 - 1) :
    ∃ u r, NotesReserved v s u ∧
      s.busWrite (f.castLE (by decide)) (qPage f * 0x1000 + o) v.toNat = u.queWrite r (qBase f + o) f v.toNat [x] := by
  have hv : v.toNat % 2 ^ 32 = v.toNat := Nat.mod_eq_of_lt v.isLt
  have hnotes : NotesReserved v s (s.noteReserved (f.castLE (by decide)) (qBase f + o) v.toNat [x]) :=
    ⟨fun _ hg => State.noteReserved_rd s _ _ _ _ hg, fun hlt => State.noteReserved_of_lt s _ _ hmask hlt⟩
  refine ⟨_, f.castLE (by decide), hnotes, ?_⟩
  rw [State.busWrite, if_pos (State.reaches_qPage hw (by omega)), busAddr_qPage, hv]
  exact State.writeWord_queue hw _ h40 h100 hx hrw hnarrow v.toNat

section
variable {s : State} {f : Fn} (hw : s.queWrites f = true) (v : Word)
include hw

theorem exec_commandDoorbell :
    ∃ u, NotesReserved v s u ∧ exec (.commandDoorbell f v) s = .next (u.cmdDoorbell f (v.toNat % 2 ^ 12)) := by
  obtain ⟨u, r, hu, hbus⟩ := State.busWrite_queue hw v (by decide) (by decide) (fieldsAt_doorbells _).1 rfl (show 12 ≤ 32 by decide)
    (coverMask_singleton _ rfl rfl)
  refine ⟨u, hu, congrArg Host.Outcome.next (hbus.trans ?_)⟩
  simp only [State.queWrite, qBase_add_mod f (o := 0x4C) (by decide)]

theorem exec_completionDoorbell :
    ∃ u, NotesReserved v s u ∧ exec (.completionDoorbell f v) s = .next (u.cplDoorbell f (v.toNat % 2 ^ 12)) := by
  obtain ⟨u, r, hu, hbus⟩ := State.busWrite_queue hw v (by decide) (by decide) (fieldsAt_doorbells _).2 rfl (show 12 ≤ 32 by decide)
    (coverMask_singleton _ rfl rfl)
  refine ⟨u, hu, congrArg Host.Outcome.next (hbus.trans ?_)⟩
  simp only [State.queWrite, qBase_add_mod f (o := 0x60) (by decide)]

end

/-- Settles O8: a doorbell write over the bus reaches the queue manager, which takes exactly the values of R73 and R74. -/
theorem doorbellsFollowTheRule : Obligations.DoorbellsFollowTheRule := by
  unfold Obligations.DoorbellsFollowTheRule
  have hlt (v : Word) : v.toNat % 2 ^ 12 < 2 ^ 12 := Nat.mod_lt _ (by decide)
  have hrd {v : Word} {s u : State} (hu : NotesReserved v s u) (f : Fn) {g : Fld} (hg : qBase f.val ≤ g.addr) : u.rd g = s.rd g :=
    hu.rd g (by have := qBase_ge f.val; omega)
  refine ⟨fun f v s hw ht => ?_, fun f v s hw ht => ?_, fun f v s hw hh => ?_, fun f v s hw hh => ?_⟩
  · obtain ⟨u, hu, hexec⟩ := exec_commandDoorbell hw v
    have hfits := (hu.tailFits f _).2 ht
    obtain ⟨htail, hovr⟩ := State.cmdDoorbell_rd_of_fits hfits (hlt v)
    refine ⟨_, hexec, htail, hovr.trans (hrd hu f (Nat.le_add_right _ _)), fun hv heq => ?_⟩
    obtain rfl := hu.eq_of_lt hv
    exact State.cmdDoorbell_same hfits ((Nat.mod_eq_of_lt hv).trans heq)
  · obtain ⟨u, hu, hexec⟩ := exec_commandDoorbell hw v
    obtain ⟨htail, hovr⟩ := State.cmdDoorbell_rd_of_ignored (mt (hu.tailFits f _).1 ht)
    exact ⟨_, hexec, htail.trans (hrd hu f (Nat.le_add_right _ _)), hovr⟩
  · obtain ⟨u, hu, hexec⟩ := exec_completionDoorbell hw v
    obtain ⟨hhead, hovr⟩ := State.cplDoorbell_rd_of_fits ((hu.headFits f _).2 hh) (hlt v)
    exact ⟨_, hexec, hhead, hovr.trans (hrd hu f (Nat.le_add_right _ _))⟩
  · obtain ⟨u, hu, hexec⟩ := exec_completionDoorbell hw v
    obtain ⟨hhead, hovr⟩ := State.cplDoorbell_rd_of_ignored (mt (hu.headFits f _).1 hh)
    exact ⟨_, hexec, hhead.trans (hrd hu f (Nat.le_add_right _ _)), hovr⟩

end Sys2Proof.Machine
end

section
/-! SUPPORT. Commands that R78 refuses: how a command completes, and what its completion entry and the rest of the state then are. -/

namespace Sys2Proof.Machine

/-! ## Completion entries (R79) -/

theorem State.statPart_rd (s : State) (p j n : Nat) (g : Fld) : (s.statPart p j n).rd g = s.rd g := by
  unfold State.statPart
  split <;> rfl

theorem State.stat_rd_ne (s : State) (i n : Nat) {g : Fld} (hg : g.key ≠ (F.STA_LIVE_COUNT i).key) : (s.stat i n).rd g = s.rd g := by
  unfold State.stat State.inc
  split
  · exact State.rd_wr_ne s _ hg
  · rfl

/-- No queue register is the counter of completed commands. -/
theorem queKey_ne_completed (f : Fn) (o lo : Nat) (ho : o < 0x1000) (hlo : lo < 32) :
    (qBase f.val + o) * 32 + lo ≠ (F.STA_LIVE_COUNT 29).key := by
  simp only [qBase_eq, Fld.key, F.STA_LIVE_COUNT]
  split <;> omega

/-- Whether a function's completions are written depends on the host's functions, the link, HOST's power and CPL_EN. -/
theorem State.completes_congr {s u : State} {f : Fn} (hfns : u.host.fns = s.host.fns)
    (hup : u.rd F.HIF_LINK_STAT_UP = s.rd F.HIF_LINK_STAT_UP) (hdom : u.rd F.CPM_PWR_STAT_DOM_ON = s.rd F.CPM_PWR_STAT_DOM_ON)
    (hcpl : u.rd (F.Q_CTRL_CPL_EN (qBase f.val)) = s.rd (F.Q_CTRL_CPL_EN (qBase f.val))) : u.completes f = s.completes f := by
  simp only [State.completes, State.canHost, State.on, State.domOn, State.inD0, State.hostFn, hfns, hup, hdom, hcpl]

/-- The state with a command of partition p out of flight and counted, the commands l left (R75, R397). -/
def State.counted (s : State) (l : List Cmd) (p : Nat) : State := ((s.setCmds l).stat 29).statPart p 1

section
variable (s : State) (l : List Cmd) (p : Nat) (f : Fn)

theorem State.counted_kept : Kept 0x8002040000 s (s.counted l p) := by
  have hm : Sub 0x8002040000 0x8002040000 := Sub.refl _
  exact State.statPart_kept (hm.of (by decide)) (State.stat_kept (hm.of (by decide)) (State.setCmds_kept (hm.of (by decide)) (Kept.refl _ s)))

theorem State.counted_rd_ne {g : Fld} (hg : g.key ≠ (F.STA_LIVE_COUNT 29).key) : (s.counted l p).rd g = s.rd g := by
  rw [State.counted, State.statPart_rd, State.stat_rd_ne _ _ _ hg, State.setCmds_rd]

theorem State.counted_completes : (s.counted l p).completes f = s.completes f := by
  refine State.completes_congr ?_ ?_ ?_ ?_
  · rw [(State.counted_kept s l p).host (by decide)]
  · exact State.counted_rd_ne s l p (by decide)
  · exact State.counted_rd_ne s l p (by decide)
  · exact State.counted_rd_ne s l p (queKey_ne_completed f 0x68 1 (by decide) (by decide))

theorem State.counted_cplOut (c : Cmd) (x : Cpl) : (s.counted l p).cplOut f c x = s.cplOut f c x := by
  simp only [State.cplOut, (State.counted_kept s l p).time (by decide)]
  rw [State.counted_rd_ne s l p (g := F.CPLQ_TAIL_TAIL _) (queKey_ne_completed f 0x64 0 (by decide) (by decide)),
    State.counted_rd_ne s l p (g := F.CPLQ_TAIL_PHASE _) (queKey_ne_completed f 0x64 12 (by decide) (by decide)),
    State.counted_rd_ne s l p (g := F.CMDQ_HEAD_HEAD _) (queKey_ne_completed f 0x50 0 (by decide) (by decide))]

end

/-- A completion entry goes out at the queue's tail, with PHASE and CMDQ_HEAD (R79); its coalesced vector comes after it (R88). -/
theorem State.mem_writeEntry_out (s : State) (c : Cmd) (nint : Bool) (x : Cpl) :
    s.cplOut c.fn c x ∈ (s.writeEntry c.fn nint (cplEntry c x s.time.now)).out := by
  have hsent (t : State) (ht : t.out = s.out ++ [s.cplOut c.fn c x]) : s.cplOut c.fn c x ∈ t.out := by
    rw [ht]
    exact List.mem_append_right _ List.mem_cons_self
  unfold State.writeEntry
  dsimp only
  split
  · exact hsent _ rfl
  · exact (State.coalesce_kept (Sub.refl _) (Kept.refl _ _)).outputs.subset (hsent _ rfl)

/-- A command in flight whose function's completions are written sends its completion entry as it retires. -/
theorem State.mem_retire_out {s : State} {c : Cmd} (hc : s.cmd? c.id = some c) (hentry : c.noEntry = false) (hs : s.completes c.fn = true)
    (x : Cpl) : s.cplOut c.fn c x ∈ (s.retire c.id x).out := by
  let u := s.counted (dropFirst (fun d => d.id == c.id) s.que.inflight) c.fn.val
  have hu : u.completes c.fn = true := (State.counted_completes s _ _ _).trans hs
  rw [State.completes, Bool.and_eq_true] at hu
  have hwrites : ¬ (c.noEntry || !u.on (F.Q_CTRL_CPL_EN (qBase c.fn.val))) = true := by simp [hentry, hu.2]
  have hretire : s.retire c.id x = u.writeEntry c.fn (noint c.e) (cplEntry c x u.time.now) := by
    unfold State.retire
    rw [hc]
    exact (if_neg hwrites).trans (if_pos hu.1)
  rw [hretire, ← State.counted_cplOut s]
  exact State.mem_writeEntry_out u c _ x

theorem State.mem_settle_out {s : State} {o : Output} (n : Nat) (h : o ∈ s.out) : o ∈ (s.settle n).out :=
  (State.settle_kept (Sub.refl _) (Kept.refl _ s)).outputs.subset h

theorem State.mem_complete_out {s : State} {c : Cmd} (hc : s.cmd? c.id = some c) (hentry : c.noEntry = false) (hs : s.completes c.fn = true)
    (x : Cpl) : s.cplOut c.fn c x ∈ (s.complete c.id x).out :=
  State.mem_settle_out _ (State.mem_retire_out hc hentry hs x)

/-! ## Commands that start (R75, R77) -/

theorem length_updFirst {α : Type} (p : α → Bool) (g : α → α) (l : List α) : (updFirst p g l).length = l.length := by
  induction l with
  | nil => rfl
  | cons x l ih =>
    unfold updFirst
    split
    · rfl
    · simp [ih]

section
variable {s u : State} {f : Fn} {e : Block64} {d : Cmd}

/-- Starting a command changes the commands in flight alone. -/
theorem State.start_eq (h : s.start f e = some (d, u)) : u = { s with que := u.que } := by
  unfold State.start at h
  split at h
  · cases h
  · split at h
    · split at h
      · cases h; rfl
      · cases h
    · cases h; rfl

/-- A command that starts and is then alone in flight found nothing started. -/
theorem State.unstarted_of_start (h : s.start f e = some (d, u)) (hu : u.que.inflight = [d]) : ∀ c ∈ s.que.inflight, c.wait = .unstarted := by
  unfold State.start at h
  split at h
  · cases h
  · split at h
    · next c hfirst =>
      split at h
      · cases h
        have hlen : s.que.inflight.length = 1 := by
          rw [← length_updFirst (fun x => x.id == c.id) (fun x => { x with wait := .running }) s.que.inflight]
          exact congrArg List.length hu
        obtain ⟨x, hx⟩ := List.length_eq_one_iff.1 hlen
        have hc : c ∈ s.que.inflight := List.mem_of_find?_eq_some hfirst
        have hwait := List.find?_some hfirst
        rw [hx, List.mem_singleton] at hc
        subst hc
        rw [hx]
        simp only [Bool.and_eq_true, beq_iff_eq] at hwait
        simpa using hwait.2
      · cases h
    · cases h
      have hnil : s.que.inflight = [] := by simpa using congrArg List.length hu
      simp [hnil]

end

/-! ## The checks of R78 -/

/-- The listed opcodes are those of the 15 commands. -/
theorem listedOp_eq (n : Nat) : listedOp n = (commandRows.map Prod.fst).contains n := rfl

theorem listedOp_of_row {row : Nat × (Fn → Block64 → Instr)} (h : row ∈ commandRows) : listedOp row.1 = true := by
  rw [listedOp_eq]
  exact List.contains_iff_mem.2 (List.mem_map_of_mem h)

theorem listedOp_eq_false {n : Nat} (h : commandRows.all (fun row => row.1 != n) = true) : listedOp n = false := by
  rw [listedOp_eq, ← Bool.not_eq_true, List.contains_iff_mem, List.mem_map]
  rintro ⟨row, hrow, rfl⟩
  simpa using List.all_eq_true.1 h row hrow

section
variable {s : State} {f : Fn} {e : Block64} (hop : listedOp (opcode e) = true)
include hop

theorem State.badCmd_reserved (h : reservedSet e = true) : s.badCmd f e = some 2 := by
  simp [State.badCmd, hop, h]

theorem State.badCmd_forbidden (hr : reservedSet e = false) (h : Machine.mayIssue f (opcode e) = false) : s.badCmd f e = some 3 := by
  simp [State.badCmd, hop, hr, h]

theorem State.badCmd_owner (hr : reservedSet e = false) (hm : Machine.mayIssue f (opcode e) = true) (ho : ownerField e ≠ 0)
    (h : f.val ≠ 0 ∨ s.partExists (ownerField e) = false) : s.badCmd f e = some 4 := by
  have howner : f.val ≠ 0 ∧ ownerField e ≠ 0 ∨ f.val = 0 ∧ ownerField e ≠ 0 ∧ s.partExists (ownerField e) = false := by
    by_cases hf : f.val = 0
    · exact .inr ⟨hf, ho, h.resolve_left (not_not_intro hf)⟩
    · exact .inl ⟨hf, ho⟩
  simp only [State.badCmd, hop, hr, hm, if_pos howner, Bool.not_true, Bool.false_eq_true, if_false]

end

/-! ## A command that is refused as it starts -/

/-- Each of the 15 commands has the life of a command of its opcode; a SLEEP_WAIT of PF0 waits until nothing that has started is in
flight. -/
theorem exec_row {row : Nat × (Fn → Block64 → Instr)} (hrow : row ∈ commandRows) (f : Fn) (e : Block64) {s : State}
    (hidle : ∀ c ∈ s.que.inflight, c.wait = .unstarted) : ∃ pg body, exec (row.2 f e) s = .next (s.command row.1 pg f e body) := by
  have hsleep : ¬ (f.val = 0 ∧ s.que.inflight.any (fun c => c.fn == f && !c.gone && c.wait != .unstarted) = true) := by
    rintro ⟨-, hany⟩
    obtain ⟨c, hc, hstarted⟩ := List.any_eq_true.1 hany
    simp [hidle c hc] at hstarted
  simp only [commandRows, List.mem_cons, List.not_mem_nil, or_false] at hrow
  rcases hrow with rfl | rfl | rfl | rfl | rfl | rfl | rfl | rfl | rfl | rfl | rfl | rfl | rfl | rfl | rfl
  case inr.inr.inl => exact ⟨_, _, congrArg Host.Outcome.next (if_neg hsleep)⟩
  all_goals exact ⟨_, _, rfl⟩

theorem State.command_bad {s u : State} {op pg : Nat} {f : Fn} {e : Block64} {body : Cmd → State → State} {d : Cmd} {k : Nat}
    (hop : opcode e = op) (hstart : s.start f e = some (d, u)) (hbad : u.badCmd f e = some k) :
    s.command op pg f e body = u.complete d.id { status := 4, detail := k } := by
  simp only [State.command, hop, hstart, hbad, ne_eq, not_true_eq_false, if_false]

/-- The parts of the state that no refused command touches. -/
def refusalParts : List Part :=
  [.rings, .links, .circuits, .twin, .journal, .memory, .stackState, .remoteOps, .reductions, .sums, .keys, .faults, .power, .debug]

/-- What completing commands changes lies outside those parts. -/
theorem Kept.same_refusalParts {s t : State} (h : Kept 0x80024C0008 s t) : ∀ p ∈ refusalParts, p.Same s t := by
  have hmask : ∀ p ∈ refusalParts, Nat.testBit 0x80024C0008 p.ix = false := by decide
  exact fun p hp => h.parts p (hmask p hp)

/-- A command that starts alone and fails a check of R78 is completed with that DETAIL. -/
theorem answers_badCmd {row : Nat × (Fn → Block64 → Instr)} (hrow : row ∈ commandRows) {f : Fn} {e : Block64} {d : Cmd} {s u : State} {k : Nat}
    (hop : opcode e = row.1) (hstart : s.start f e = some (d, u)) (hentry : d.noEntry = false) (hsole : u.que.inflight = [d]) (hfn : d.fn = f)
    (hcpl : s.completes f = true) (hbad : s.badCmd f e = some k) :
    Answers (row.2 f e) s (fun t => s.cplOut f d { status := 4, detail := k } ∈ t.out ∧ ∀ p ∈ refusalParts, p.Same s t) := by
  obtain ⟨pg, body, hexec⟩ := exec_row hrow f e (State.unstarted_of_start hstart hsole)
  have hu := State.start_eq hstart
  have hbadU : u.badCmd f e = some k := by rw [hu]; exact hbad
  have hcplU : u.completes d.fn = true := by rw [hu, hfn]; exact hcpl
  have hout : u.cplOut f d { status := 4, detail := k } = s.cplOut f d { status := 4, detail := k } := by rw [hu]; rfl
  have hcmd : u.cmd? d.id = some d := by simp [State.cmd?, hsole]
  refine ⟨_, hexec.trans (congrArg Host.Outcome.next (State.command_bad hop hstart hbadU)), ?_, ?_⟩
  · rw [← hout, ← hfn]
    exact State.mem_complete_out hcmd hentry hcplU _
  · exact Kept.same_refusalParts (State.complete_kept (Sub.refl _) (State.start_kept ((Sub.refl 0x80024C0008).of (by decide)) hstart (Kept.refl _ s)))

/-! ## An unlisted opcode as it is fetched (R75, R78) -/

/-- The one outstanding read of a function returns, nothing waiting. -/
theorem State.readBack_sole {s : State} {f : Fn} {o : Output} {p : Output → Bool} (hreads : s.host.reads = [(f, o)])
    (hwaiting : s.host.waiting = []) (hp : p o = true) :
    s.readBack f p = some { s with host := { s.host with reads := [], waiting := [] } } := by
  simp [State.readBack, State.releaseWaiting, hreads, hwaiting, hp, dropFirst]

/-- A command with an unlisted opcode that is alone in flight, and whose function nothing holds back, completes with DETAIL 1. -/
theorem State.settle_unlisted {s : State} {c : Cmd} (hsole : s.que.inflight = [c]) (hwait : c.wait = .unstarted)
    (hop : listedOp (opcode c.e) = false) (hbell : s.rme.ops.any (fun o => o.fn == c.fn && o.bell && o.stage != .quarantined) = false) :
    s.settle 1 = s.retire c.id { status := 4, detail := 1 } := by
  have hblocked : s.blocked c.fn = false := by simp [State.blocked, hsole, hwait, hbell]
  have hfirst : s.firstUnstarted c.fn = some c := by simp [State.firstUnstarted, hsole, hwait]
  have hripe : s.ripe c = some { status := 4, detail := 1 } := by simp [State.ripe, hwait, hop, hblocked, hfirst]
  have hfind : s.que.inflight.find? (fun d => (s.ripe d).isSome) = some c := by simp [hsole, hripe]
  simp only [State.settle, hfind, hripe, Option.getD_some]

/-- The state in which QUE has taken the entries l of a fetch read x of function f, none of which failed: CMDQ_HEAD has moved past them. -/
def State.fetchTaken (s : State) (f : Fn) (x : Fetch) (l : List Block64) : State :=
  let t := ({ s with que := { s.que with fetches := s.que.fetches.filter (fun y => y.fn != f) } }.takeEntries f l).wr
    (F.CMDQ_HEAD_HEAD (qBase f.val)) ((x.slot + l.length) % depth s (F.CMDQ_SIZE_SIZE (qBase f.val)))
  if t.waitingEntries f.val = 0 then { t with que := { t.que with deficit := Tbl.set 0 t.que.deficit f.val 0 } } else t

/-- A fetch read that returns every entry: they are taken, and what can complete completes. -/
theorem exec_fetchReadDone_whole {s u : State} {f : Fn} {x : Fetch} {es : List (Option Block64)}
    (hx : s.que.fetches.find? (fun y => y.fn == f) = some x) (hback : s.readBack f (fun o => o == .fetchRead f x.slot x.n) = some u)
    (hlen : (es.take x.n).length = x.n) (hsome : (es.take x.n).any (fun e => e.isNone) = false) :
    exec (.fetchReadDone f es) s =
      .next ((u.fetchTaken f x (takenEntries f (es.take x.n))).settle (u.fetchTaken f x (takenEntries f (es.take x.n))).que.inflight.length) := by
  have hfailed : ¬ (decide ((es.take x.n).length < x.n) || (es.take x.n).any (fun e => e.isNone)) = true := by simp [hlen, hsome]
  show execFetchReadDone f es s = _
  rw [execFetchReadDone, hx]
  simp -zeta only
  rw [hback]
  exact congrArg Host.Outcome.next (congrArg (fun t : State => t.settle t.que.inflight.length) (if_neg hfailed))

theorem takenEntries_singleton (f : Fn) (e : Block64) : takenEntries f [some e] = [e] := by
  simp [takenEntries]

/-- The entry e of function f as a command in flight that has not started (R75). -/
def State.fetched (s : State) (f : Fn) (e : Block64) : Cmd := { id := s.que.nextId, fn := f, e := e, owner := effOwner f e, wait := .unstarted }

/-- The state with CMDQ_HEAD past a fetch read of one entry. -/
def State.headPast (s : State) (f : Fn) (x : Fetch) : State :=
  s.wr (F.CMDQ_HEAD_HEAD (qBase f.val)) ((x.slot + 1) % depth s (F.CMDQ_SIZE_SIZE (qBase f.val)))

/-- Of the registers, taking one entry changes CMDQ_HEAD alone. -/
theorem State.fetchTaken_singleton (s : State) (f : Fn) (x : Fetch) (e : Block64) :
    ∃ q : QueState, q.inflight = s.que.inflight ++ [s.fetched f e] ∧ s.fetchTaken f x [e] = { s.headPast f x with que := q } := by
  unfold State.fetchTaken
  extract_lets t
  split
  · exact ⟨_, rfl, rfl⟩
  · exact ⟨_, rfl, rfl⟩

/-- The state in which the one outstanding read, the fetch read x of one entry, has returned; q is the queue manager's state. -/
def State.fetchedOne (s : State) (f : Fn) (x : Fetch) (q : QueState) : State :=
  State.setQue { s.headPast f x with host := { s.host with reads := [], waiting := [] } } q

/-- A fetch read of one entry, alone outstanding, returns it: CMDQ_HEAD moves past it, and it is a command in flight. -/
theorem exec_fetchReadDone_one {s : State} {f : Fn} {x : Fetch} (hx : s.que.fetches.find? (fun y => y.fn == f) = some x) (hn : x.n = 1)
    (hreads : s.host.reads = [(f, .fetchRead f x.slot x.n)]) (hwaiting : s.host.waiting = []) (hidle : s.que.inflight = []) (e : Block64) :
    ∃ q : QueState, q.inflight = [s.fetched f e] ∧ exec (.fetchReadDone f [some e]) s = .next ((s.fetchedOne f x q).settle 1) := by
  have hback := State.readBack_sole (p := fun o => o == .fetchRead f x.slot x.n) hreads hwaiting (beq_self_eq_true _)
  have htake : [some e].take x.n = [some e] := by rw [hn]; rfl
  have hexec := exec_fetchReadDone_whole hx hback (es := [some e]) (by rw [htake, hn]; rfl) (by rw [htake]; rfl)
  obtain ⟨q, hq, htaken⟩ := State.fetchTaken_singleton { s with host := { s.host with reads := [], waiting := [] } } f x e
  have hsole : q.inflight = [s.fetched f e] := by rw [hq, hidle]; rfl
  rw [htake, takenEntries_singleton, htaken] at hexec
  refine ⟨q, hsole, hexec.trans (congrArg Host.Outcome.next ?_)⟩
  rw [hsole]
  rfl

section
variable (s : State) (f : Fn) (x : Fetch) (q : QueState)

theorem State.fetchedOne_kept {m : Nat} (hm : Sub 0x2440008 m) : Kept m s (s.fetchedOne f x q) := by
  have hhead : Kept m s (s.headPast f x) := by
    refine State.wr_kept (Sub.queue 3 hm ?_ (by decide)) (Kept.refl _ s)
    simp only [qBase_eq, Fld.key, F.CMDQ_HEAD_HEAD]
    split <;> omega
  exact State.setQue_kept (hm.of (by decide)) (Kept.updHost hhead (hm.of (by decide)))

theorem State.fetchedOne_completes : (s.fetchedOne f x q).completes f = s.completes f := by
  have hb := qBase_ge f.val
  refine State.completes_congr rfl (State.rd_wr_ne s _ ?_) (State.rd_wr_ne s _ ?_) (State.rd_wr_ne s _ ?_) <;>
    simp only [Fld.key, F.CMDQ_HEAD_HEAD, F.HIF_LINK_STAT_UP, F.CPM_PWR_STAT_DOM_ON, F.Q_CTRL_CPL_EN] <;> omega

end

/-- An unlisted opcode fetched alone, with nothing in flight, is completed with DETAIL 1. -/
theorem answers_unlisted {f : Fn} {e : Block64} {x : Fetch} {s : State} (hx : s.que.fetches.find? (fun y => y.fn == f) = some x)
    (hn : x.n = 1) (hreads : s.host.reads = [(f, .fetchRead f x.slot x.n)]) (hwaiting : s.host.waiting = [])
    (hbell : s.rme.ops.any (fun o => o.fn == f && o.bell && o.stage != .quarantined) = false) (hidle : s.que.inflight = [])
    (hcpl : s.completes f = true) (hop : listedOp (opcode e) = false) :
    Answers (.fetchReadDone f [some e]) s (fun t =>
      (s.headPast f x).cplOut f (s.fetched f e) { status := 4, detail := 1 } ∈ t.out ∧ ∀ p ∈ refusalParts, p.Same s t) := by
  obtain ⟨q, hsole, hexec⟩ := exec_fetchReadDone_one hx hn hreads hwaiting hidle e
  have hm : Sub 0x80024C0008 0x80024C0008 := Sub.refl _
  have hstatus : (s.fetchedOne f x q).settle 1 = (s.fetchedOne f x q).retire (s.fetched f e).id { status := 4, detail := 1 } :=
    State.settle_unlisted hsole rfl hop hbell
  rw [hstatus] at hexec
  refine ⟨_, hexec, State.mem_retire_out (c := s.fetched f e) ?_ rfl ((State.fetchedOne_completes s f x q).trans hcpl) _, ?_⟩
  · simp [State.cmd?, State.fetchedOne, hsole]
  · exact Kept.same_refusalParts (State.retire_kept hm (State.fetchedOne_kept s f x q (hm.of (by decide))))

/-- Settles O15: a listed command that R78 refuses is completed as it starts, one with an unlisted opcode as its fetch read returns. -/
theorem badCommands : Obligations.BadCommands := by
  unfold Obligations.BadCommands
  have hlisted {row : Nat × (Fn → Block64 → Instr)} {e : Block64} (hrow : row ∈ commandRows) (hop : opcode e = row.1) :
      listedOp (opcode e) = true := by rw [hop]; exact listedOp_of_row hrow
  refine ⟨?_, ?_, ?_, ?_⟩
  · intro row hrow f e d u s hop hstart hentry hsole hfn hcpl hreserved
    exact answers_badCmd hrow hop hstart hentry hsole hfn hcpl (State.badCmd_reserved (hlisted hrow hop) hreserved)
  · intro row hrow f e d u s hop hstart hentry hsole hfn hcpl hreserved hissue
    exact answers_badCmd hrow hop hstart hentry hsole hfn hcpl (State.badCmd_forbidden (hlisted hrow hop) hreserved hissue)
  · intro row hrow f e d u s hop hstart hentry hsole hfn hcpl hreserved hissue hset howner
    exact answers_badCmd hrow hop hstart hentry hsole hfn hcpl (State.badCmd_owner (hlisted hrow hop) hreserved hissue hset howner)
  · intro f e x s hx hn hreads hwaiting hbell hidle hcpl hunlisted
    exact answers_unlisted hx hn hreads hwaiting hbell hidle hcpl (listedOp_eq_false hunlisted)

end Sys2Proof.Machine
end

section
/-! SUPPORT. The environment monitor (R404, R411, R419): how one of its flags is set with a fault onset, what a die sensor's and an
external input's conversion do with their flags, and the onsets of ERR_INJECT. -/

namespace Sys2Proof.Machine

/-! ## Onsets of ENV's sources -/

@[simp] theorem State.onset_raised (s : State) (o : Onset) : (s.onset o).fcu.raised = s.fcu.raised ++ [o] := rfl

/-- An onset of source 50 + k changes no register field but ENV's ERR_CAUSE. -/
theorem State.envOnset_rd_ne (s : State) {o : Onset} (k : Fin 4) (ho : o.src.val = 50 + k.val) {g : Fld}
    (hg : g.key ≠ (F.ERR_CAUSE_ERR 0x21000).key) : (s.onset o).rd g = s.rd g := by
  have hbit : srcBit o.src.val o.scope o.code.toNat = some (0x21, k.val) := by
    rw [ho]
    match k with
    | 0 | 1 | 2 | 3 => rfl
  calc (s.onset o).rd g = (s.errCause o.src.val o.scope o.code.toNat).rd g := rfl
    _ = (s.setBit (F.ERR_CAUSE_ERR 0x21000) k.val).rd g := by simp only [State.errCause, hbit]
    _ = s.rd g := State.rd_wr_ne s _ hg

/-! ## A flag that raises an onset as it is set -/

/-- ENV's source number k, of 50 to 53 (R419). -/
def envSource (k : Fin 4) : SrcIx := ⟨50 + k.val, by omega⟩

/-- Flag f set: where it was 0, the interrupt and the onset of source 50 + k come with it (R404, R411). -/
def State.envRaise (s : State) (f : Fld) (k : Fin 4) (code : Nat) : State :=
  if s.on f then s else ((s.wr f 1).cause0 0x21 k.val).fault (envSource k) 0 0 code

section
variable (s : State) (f : Fld) (k : Fin 4) (code : Nat)

/-- The interrupt and the onset change no field of ENV's block registers. -/
theorem State.envFault_rd {g : Fld} (hg : 0x21040 ≤ g.addr) : ((s.cause0 0x21 k.val).fault (envSource k) 0 0 code).rd g = s.rd g := by
  have herr : g.key ≠ (F.ERR_CAUSE_ERR 0x21000).key := by simp only [Fld.key, F.ERR_CAUSE_ERR]; omega
  have hint : g.key ≠ (F.INT_CAUSE_CAUSE (0x1000 * 0x21)).key := by simp only [Fld.key, F.INT_CAUSE_CAUSE]; omega
  exact (State.envOnset_rd_ne _ k rfl herr).trans (State.cause0_rd_ne s 0x21 _ hint)

theorem State.envRaise_on (hf : 0x21040 ≤ f.addr) (hwidth : f.width = 1) : (s.envRaise f k code).on f = true := by
  unfold State.envRaise
  split
  · assumption
  · rw [State.on, State.envFault_rd _ k code hf, State.rd_wr_same, hwidth]
    rfl

theorem State.envRaise_rd_ne {g : Fld} (hg : 0x21040 ≤ g.addr) (hne : g.key ≠ f.key) : (s.envRaise f k code).rd g = s.rd g := by
  unfold State.envRaise
  split
  · rfl
  · rw [State.envFault_rd _ k code hg, State.rd_wr_ne s _ hne]

/-- One onset where the flag was 0, none where it was set. -/
theorem State.envRaise_raised : (s.envRaise f k code).fcu.raised.map (fun o => (o.src.val, o.code)) =
    s.fcu.raised.map (fun o => (o.src.val, o.code)) ++ if s.on f then [] else [(50 + k.val, BitVec.ofNat 16 code)] := by
  unfold State.envRaise
  split
  · simp
  · have hfcu : ((s.wr f 1).cause0 0x21 k.val).fcu = s.fcu :=
      (State.cause0_kept (Sub.refl 0x4D0000) (Kept.refl _ (s.wr f 1))).fcu (by decide)
    rw [State.fault, State.onset_raised, hfcu, List.map_append]
    rfl

end

/-! ## Die sensors (R403, R404) -/

/-- The flag of a die sensor: set beyond its threshold, cleared well inside it, left otherwise (R404). -/
def State.dieFlag (s : State) (f : Fld) (beyond inside : Prop) [Decidable beyond] [Decidable inside] : State :=
  if beyond then s.envRaise f 3 0 else if inside then s.wr f 0 else s

section
variable (s : State) (f : Fld) (beyond inside : Prop) [Decidable beyond] [Decidable inside]

theorem State.dieFlag_on (hf : 0x21040 ≤ f.addr) (hwidth : f.width = 1) :
    (s.dieFlag f beyond inside).on f = if beyond then true else if inside then false else s.on f := by
  unfold State.dieFlag
  split_ifs
  · exact State.envRaise_on s f 3 0 hf hwidth
  · rw [State.on, State.rd_wr_same, Nat.zero_mod]
    rfl
  · rfl

theorem State.dieFlag_on_ne {g : Fld} (hg : 0x21040 ≤ g.addr) (hne : g.key ≠ f.key) : (s.dieFlag f beyond inside).on g = s.on g := by
  unfold State.dieFlag
  split_ifs
  · rw [State.on, State.envRaise_rd_ne s f 3 0 hg hne, State.on]
  · exact State.on_wr_ne s 0 hne
  · rfl

theorem State.dieFlag_raised : (s.dieFlag f beyond inside).fcu.raised.map (fun o => (o.src.val, o.code)) =
    s.fcu.raised.map (fun o => (o.src.val, o.code)) ++ List.replicate (b2n (decide beyond && !s.on f)) (53, 0) := by
  unfold State.dieFlag
  by_cases hbeyond : beyond
  · rw [if_pos hbeyond, State.envRaise_raised]
    cases hflag : s.on f <;> simp [hbeyond, b2n]
  · rw [if_neg hbeyond]
    split_ifs <;> simp [hbeyond, b2n]

end

/-- The state with sensor n's new value. -/
def State.dieRead (s : State) (n : Fin 64) (v : BitVec 16) : State := (s.wr (F.ENV_DIE_TEMP_TEMP n) v.toNat).wr (F.ENV_DIE_TEMP_VALID n) 1

/-- The value and its VALID bit are the low 17 bits of the sensor's word. -/
theorem State.dieRead_rd (s : State) (n : Fin 64) (v : BitVec 16) {g : Fld}
    (hg : g.addr < 0x21100 ∨ 17 ≤ g.lo) (hlo : g.lo < 32) : (s.dieRead n v).rd g = s.rd g := by
  have htemp : g.key ≠ (F.ENV_DIE_TEMP_TEMP n.val).key := by simp only [Fld.key, F.ENV_DIE_TEMP_TEMP]; omega
  have hvalid : g.key ≠ (F.ENV_DIE_TEMP_VALID n.val).key := by simp only [Fld.key, F.ENV_DIE_TEMP_VALID]; omega
  exact (State.rd_wr_ne _ 1 hvalid).trans (State.rd_wr_ne s _ htemp)

theorem exec_dieSensorConversion {n : Fin 64} {v : BitVec 16} {s : State} (hen : s.en 0x21 = true) (hdom : s.domOn 1 = true) :
    exec (.dieSensorConversion n v) s = .next
      (((s.dieRead n v).dieFlag (F.ENV_DIE_TEMP_HI n.val) (toSigned 16 (s.rd F.ENV_CFG_TEMP_HI) < v.toInt)
          (v.toInt ≤ toSigned 16 (s.rd F.ENV_CFG_TEMP_HI) - 128)).dieFlag (F.ENV_DIE_TEMP_LO n.val)
        (v.toInt < toSigned 16 (s.rd F.ENV_CFG_TEMP_LO)) (toSigned 16 (s.rd F.ENV_CFG_TEMP_LO) + 128 ≤ v.toInt)) := by
  have hhi : (s.dieRead n v).rd F.ENV_CFG_TEMP_HI = s.rd F.ENV_CFG_TEMP_HI := State.dieRead_rd s n v (by decide) (by decide)
  have hlo : (s.dieRead n v).rd F.ENV_CFG_TEMP_LO = s.rd F.ENV_CFG_TEMP_LO := State.dieRead_rd s n v (by decide) (by decide)
  rw [← hhi, ← hlo]
  show execDieSensorConversion n v s = _
  simp only [execDieSensorConversion, hdom, hen, Bool.not_true, Bool.false_eq_true, if_false]
  rfl

/-- Settles O11: each flag follows its own threshold, and neither step touches the other's flag. -/
theorem dieSensorFlags : Obligations.DieSensorFlags := by
  unfold Obligations.DieSensorFlags
  intro n v s hen hdom
  have hne : (F.ENV_DIE_TEMP_HI n.val).key ≠ (F.ENV_DIE_TEMP_LO n.val).key := by simp [Fld.key, F.ENV_DIE_TEMP_HI, F.ENV_DIE_TEMP_LO]
  have hmem (o : Nat) : 0x21040 ≤ 0x21100 + o := by omega
  have hhi : (s.dieRead n v).on (F.ENV_DIE_TEMP_HI n.val) = s.on (F.ENV_DIE_TEMP_HI n.val) :=
    congrArg (· != 0) (State.dieRead_rd s n v (.inr (by simp [F.ENV_DIE_TEMP_HI])) (by simp [F.ENV_DIE_TEMP_HI]))
  have hlo : (s.dieRead n v).on (F.ENV_DIE_TEMP_LO n.val) = s.on (F.ENV_DIE_TEMP_LO n.val) :=
    congrArg (· != 0) (State.dieRead_rd s n v (.inr (by simp [F.ENV_DIE_TEMP_LO])) (by simp [F.ENV_DIE_TEMP_LO]))
  refine ⟨_, exec_dieSensorConversion hen hdom, ?_, ?_, ?_⟩
  · rw [State.dieFlag_on_ne _ _ _ _ (hmem _) hne, State.dieFlag_on _ _ _ _ (hmem _) rfl, hhi]
  · rw [State.dieFlag_on _ _ _ _ (hmem _) rfl, State.dieFlag_on_ne _ _ _ _ (hmem _) hne.symm, hlo]
  · rw [State.dieFlag_raised, State.dieFlag_raised, State.dieFlag_on_ne _ _ _ _ (hmem _) hne.symm, hhi, hlo, List.append_assoc,
      List.replicate_add]
    rfl

/-! ## External inputs (R406 to R412) -/

/-- RAW of a conversion within its 24-bit code (R406); up says which way a tie goes. -/
def State.extCode (s : State) (n : Nat) (x : ExtConv) (up : Bool) : Int := max (-(2 ^ 23)) (min (s.extRaw n x up) (2 ^ 23 - 1))

/-- A conversion of input n has completed with this RAW: counted and stored, VALID and the flags but REVERSED at 0. -/
def State.extStored (s : State) (n : Nat) (raw : Int) : State :=
  ((s.free.2.inc (F.ENV_EXT_CONV_COUNT n)).extInvalid n).wrs
    [(F.ENV_EXT_RAW_CODE n, ofSigned 24 raw), (F.ENV_EXT_RAW_OPEN n, 0), (F.ENV_EXT_RAW_WIRE n, 0), (F.ENV_EXT_RAW_RANGE n, 0)]

/-- RAW and TEMP of input n hold a value (R407, R408). -/
def State.extGood (s : State) (n t : Nat) : State :=
  s.wrs [(F.ENV_EXT_RAW_VALID n, 1), (F.ENV_EXT_TEMP_TEMP n, t), (F.ENV_EXT_TEMP_VALID n, 1)]

/-- What a RAW that is not reversed stands for: a temperature or RANGE (R408, R412). -/
def State.extResult (s : State) (n : Nat) (raw : Int) : State :=
  if s.extNoValue n ∧ raw < 2 ^ 23 - 1 then
    if bitOf s.free.1.toNat 16 then s.free.2.wr (F.ENV_EXT_RAW_RANGE n) 1 else s.free.2.extGood n (s.free.1.toNat % 2 ^ 16)
  else match s.extTemp n raw with
    | some t => s.extGood n (ofSigned 16 t)
    | none => s.wr (F.ENV_EXT_RAW_RANGE n) 1

/-- A list of writes leaves every field that it does not name. -/
theorem State.rd_wrs_ne (s : State) (l : List (Fld × Nat)) {g : Fld} (h : ∀ x ∈ l, g.key ≠ x.1.key) : (s.wrs l).rd g = s.rd g := by
  induction l generalizing s with
  | nil => rfl
  | cons x l ih =>
    obtain ⟨hx, hl⟩ := List.forall_mem_cons.1 h
    exact (ih (s.wr x.1 x.2) hl).trans (State.rd_wr_ne s x.2 hx)

section
variable (s : State) (n : Nat) (raw : Int)

theorem State.extStored_fcu : (s.extStored n raw).fcu = s.fcu := rfl

theorem State.extStored_rd_reversed : (s.extStored n raw).rd (F.ENV_EXT_RAW_REVERSED n) = s.rd (F.ENV_EXT_RAW_REVERSED n) := by
  have hvalid : (F.ENV_EXT_RAW_REVERSED n).key ≠ (F.ENV_EXT_RAW_VALID n).key := by
    simp only [Fld.key, F.ENV_EXT_RAW_REVERSED, F.ENV_EXT_RAW_VALID]; omega
  have htemp : (F.ENV_EXT_RAW_REVERSED n).key ≠ (F.ENV_EXT_TEMP_VALID n).key := by
    simp only [Fld.key, F.ENV_EXT_RAW_REVERSED, F.ENV_EXT_TEMP_VALID]; omega
  have hcount : (F.ENV_EXT_RAW_REVERSED n).key ≠ (F.ENV_EXT_CONV_COUNT n).key := by
    simp only [Fld.key, F.ENV_EXT_RAW_REVERSED, F.ENV_EXT_CONV_COUNT]; omega
  unfold State.extStored State.extInvalid State.inc
  rw [State.rd_wrs_ne, State.rd_wr_ne _ 0 htemp, State.rd_wr_ne _ 0 hvalid, State.rd_wr_ne _ _ hcount, State.free_rd]
  simp [Fld.key, F.ENV_EXT_RAW_REVERSED, F.ENV_EXT_RAW_CODE, F.ENV_EXT_RAW_OPEN, F.ENV_EXT_RAW_WIRE, F.ENV_EXT_RAW_RANGE]

theorem State.extStored_rd_valid : (s.extStored n raw).rd (F.ENV_EXT_RAW_VALID n) = 0 := by
  have htemp : (F.ENV_EXT_RAW_VALID n).key ≠ (F.ENV_EXT_TEMP_VALID n).key := by
    simp only [Fld.key, F.ENV_EXT_RAW_VALID, F.ENV_EXT_TEMP_VALID]; omega
  unfold State.extStored State.extInvalid
  rw [State.rd_wrs_ne, State.rd_wr_ne _ 0 htemp, State.rd_wr_same, Nat.zero_mod]
  simp [Fld.key, F.ENV_EXT_RAW_CODE, F.ENV_EXT_RAW_OPEN, F.ENV_EXT_RAW_WIRE, F.ENV_EXT_RAW_RANGE, F.ENV_EXT_RAW_VALID]

theorem ofSigned_lt (w : Nat) (i : Int) : ofSigned w i < 2 ^ w := by
  have hpos : (0 : Int) < (2 ^ w : Nat) := Int.natCast_pos.2 (Nat.two_pow_pos w)
  exact (Int.toNat_lt (Int.emod_nonneg i hpos.ne')).2 (Int.emod_lt_of_pos i hpos)

theorem State.extStored_rd_code : (s.extStored n raw).rd (F.ENV_EXT_RAW_CODE n) = ofSigned 24 raw := by
  unfold State.extStored
  rw [State.wrs_cons, State.rd_wrs_ne, State.rd_wr_same]
  · exact Nat.mod_eq_of_lt (ofSigned_lt 24 raw)
  · simp [Fld.key, F.ENV_EXT_RAW_CODE, F.ENV_EXT_RAW_OPEN, F.ENV_EXT_RAW_WIRE, F.ENV_EXT_RAW_RANGE]

theorem State.extGood_rd_reversed (t : Nat) : (s.extGood n t).rd (F.ENV_EXT_RAW_REVERSED n) = s.rd (F.ENV_EXT_RAW_REVERSED n) :=
  State.rd_wrs_ne s _ (by simp [Fld.key, F.ENV_EXT_RAW_REVERSED, F.ENV_EXT_RAW_VALID, F.ENV_EXT_TEMP_TEMP, F.ENV_EXT_TEMP_VALID]; omega)

theorem State.extRange_rd_reversed : (s.wr (F.ENV_EXT_RAW_RANGE n) 1).rd (F.ENV_EXT_RAW_REVERSED n) = s.rd (F.ENV_EXT_RAW_REVERSED n) :=
  State.rd_wr_ne s 1 (by simp [Fld.key, F.ENV_EXT_RAW_REVERSED, F.ENV_EXT_RAW_RANGE])

/-- Whichever it is, REVERSED and the faults stay. -/
theorem State.extResult_same :
    (s.extResult n raw).rd (F.ENV_EXT_RAW_REVERSED n) = s.rd (F.ENV_EXT_RAW_REVERSED n) ∧ (s.extResult n raw).fcu = s.fcu := by
  unfold State.extResult
  split_ifs
  · exact ⟨(State.extRange_rd_reversed _ n).trans (State.free_rd s _), rfl⟩
  · exact ⟨(State.extGood_rd_reversed _ n _).trans (State.free_rd s _), rfl⟩
  · cases s.extTemp n raw with
    | some t => exact ⟨State.extGood_rd_reversed s n _, rfl⟩
    | none => exact ⟨State.extRange_rd_reversed s n, rfl⟩

end

/-- A completed conversion, by its RAW: below -41,943 REVERSED is raised, else REVERSED clears and the value counts (R411). -/
theorem exec_extConversionDone {n : Fin 4} {s : State} (hruns : s.extRuns n.val = true) (x : ExtConv) :
    ∃ up, exec (.extConversionDone n x) s = .next
      (if s.extCode n x up < -41943 then (s.extStored n (s.extCode n x up)).envRaise (F.ENV_EXT_RAW_REVERSED n.val) 1 n
       else ((s.extStored n (s.extCode n x up)).wr (F.ENV_EXT_RAW_REVERSED n.val) 0).extResult n (s.extCode n x up)) := by
  refine ⟨bitOf s.free.1.toNat 17, ?_⟩
  show execExtConversionDone n x s = _
  simp only [execExtConversionDone, hruns, Bool.not_true, Bool.false_eq_true, if_false]
  rfl

/-- The upper limit of the code does not reach a RAW below -41,943, and the lower limit keeps it there. -/
theorem State.extCode_of_reversed {s : State} {n : Nat} {x : ExtConv} {up : Bool} (h : s.extRaw n x up < -41943) :
    s.extCode n x up = max (-(2 ^ 23)) (s.extRaw n x up) ∧ s.extCode n x up < -41943 := by
  unfold State.extCode
  omega

theorem State.extCode_of_forward {s : State} {n : Nat} {x : ExtConv} {up : Bool} (h : -41943 ≤ s.extRaw n x up) :
    ¬ s.extCode n x up < -41943 := by
  unfold State.extCode
  omega

/-- Settles O13: the limits of the 24-bit code keep RAW on its side of -41,943, whichever way a tie rounds. -/
theorem reversedInputs : Obligations.ReversedInputs := by
  unfold Obligations.ReversedInputs
  refine ⟨fun n x s hruns hraw => ?_, fun n x s hruns hraw => ?_⟩ <;> obtain ⟨up, hexec⟩ := exec_extConversionDone hruns x
  · obtain ⟨hcode, hlow⟩ := State.extCode_of_reversed (hraw up)
    rw [if_pos hlow] at hexec
    have hword (o : Nat) : 0x21040 ≤ 0x2120C + o := by omega
    have hflag : (s.extStored n (s.extCode n x up)).on (F.ENV_EXT_RAW_REVERSED n.val) = s.on (F.ENV_EXT_RAW_REVERSED n.val) :=
      congrArg (· != 0) (State.extStored_rd_reversed s n _)
    refine ⟨_, hexec, bne_iff_ne.1 (State.envRaise_on _ _ 1 n (hword _) rfl), ?_, ⟨up, ?_⟩, ?_⟩
    · rw [State.envRaise_rd_ne _ _ 1 n (hword _) (by simp [Fld.key, F.ENV_EXT_RAW_VALID, F.ENV_EXT_RAW_REVERSED]), State.extStored_rd_valid]
    · rw [State.envRaise_rd_ne _ _ 1 n (hword _) (by simp [Fld.key, F.ENV_EXT_RAW_CODE, F.ENV_EXT_RAW_REVERSED]), State.extStored_rd_code,
        hcode]
    · rw [State.envRaise_raised, State.extStored_fcu, hflag]
      rfl
  · rw [if_neg (State.extCode_of_forward (hraw up))] at hexec
    obtain ⟨hrd, hfcu⟩ := State.extResult_same ((s.extStored n (s.extCode n x up)).wr (F.ENV_EXT_RAW_REVERSED n.val) 0) n (s.extCode n x up)
    exact ⟨_, hexec, hrd.trans ((State.rd_wr_same _ _ 0).trans (Nat.zero_mod _)), hfcu⟩

/-! ## ERR_INJECT (R376, R419) -/

/-- ENV's sources whose bit of a value is 1, in the order of the bits. -/
def envInjected (v : Nat) : List (Fin 4) := (List.finRange 4).filter (fun k => bitOf v k.val)

theorem filter_bits_eq (v : Nat) : (upTo 4).filter (fun k => bitOf v k) = (envInjected v).map Fin.val := by
  have hfour : upTo 4 = (List.finRange 4).map Fin.val := rfl
  rw [hfour, List.filter_map]
  rfl

/-- The onset that ERR_INJECT raises for ENV's source number k: no scope, CODE 0 (R419). -/
def envInjection (k : Fin 4) : Onset := { src := envSource k, wire := false, kind := 0, scope := 0, code := 0, inj := true }

/-- The onsets of several sources, each of which takes a free value (log entry 23). -/
def State.envInject (s : State) (l : List (Fin 4)) : State := l.foldl (fun s k => s.free.2.onset (envInjection k)) s

theorem State.injOnset_env (s : State) (k : Fin 4) : s.injOnset (envSource k) false (some 0x21) = (envInjection k, s.free.2) :=
  match k with
  | 0 | 1 | 2 | 3 => rfl

/-- ENV's four sources are the checkers of its page, each with its own bit (R376, R419). -/
theorem srcBit_env : ∀ n : SrcIx, 50 ≤ n.val ∧ n.val ≤ 53 → srcBit n.val (0x21 - 0x10) 0x100 = some (0x21, n.val - 50) := by
  decide

theorem srcBit_page_ne_env :
    ∀ n : SrcIx, ¬ (50 ≤ n.val ∧ n.val ≤ 53) → ∀ x ∈ srcBit n.val (0x21 - 0x10) 0x100, x.1 ≠ 0x21 := by
  decide

theorem State.envInject_raised (l : List (Fin 4)) (s : State) :
    (s.envInject l).fcu.raised = s.fcu.raised ++ l.map envInjection := by
  induction l generalizing s with
  | nil => simp [State.envInject]
  | cons k l ih =>
    have hstep : s.envInject (k :: l) = (s.free.2.onset (envInjection k)).envInject l := rfl
    rw [hstep, ih, State.onset_raised, State.free_fcu, List.append_assoc]
    rfl

theorem State.envInject_rd_ne (l : List (Fin 4)) (s : State) {g : Fld} (hg : g.key ≠ (F.ERR_CAUSE_ERR 0x21000).key) :
    (s.envInject l).rd g = s.rd g := by
  induction l generalizing s with
  | nil => rfl
  | cons k l ih =>
    have hstep : s.envInject (k :: l) = (s.free.2.onset (envInjection k)).envInject l := rfl
    rw [hstep, ih, State.envOnset_rd_ne _ k rfl hg, State.free_rd]

theorem filter_envSource (v : Nat) :
    (List.finRange 128).filter (fun n => decide (50 ≤ n.val ∧ n.val ≤ 53) && bitOf v (n.val - 50)) = (envInjected v).map envSource := by
  have henv : (List.finRange 128).filter (fun n => decide (50 ≤ n.val ∧ n.val ≤ 53)) = (List.finRange 4).map envSource := by decide
  have hbit : (fun n : SrcIx => bitOf v (n.val - 50)) ∘ envSource = fun k => bitOf v k.val := by
    funext k
    simp [envSource]
  calc (List.finRange 128).filter (fun n => decide (50 ≤ n.val ∧ n.val ≤ 53) && bitOf v (n.val - 50))
      = ((List.finRange 128).filter (fun n => decide (50 ≤ n.val ∧ n.val ≤ 53))).filter (fun n => bitOf v (n.val - 50)) := by
        rw [List.filter_filter]
        simp only [Bool.and_comm]
    _ = (envInjected v).map envSource := by
        rw [henv, List.filter_map, hbit]
        rfl

theorem State.foldl_injOnset_env (u : State) (l : List (Fin 4)) :
    (l.map envSource).foldl (fun s n => (s.injOnset n false (some 0x21)).2.onset (s.injOnset n false (some 0x21)).1) u = u.envInject l := by
  rw [List.foldl_map]
  simp only [State.injOnset_env]
  rfl

/-- A write of ENV's ERR_INJECT stores a value there and raises the onsets of its bits. -/
theorem State.errInject_env (s : State) (v : Nat) :
    ∃ w, s.errInject 0x21 v = (s.wr (F.ERR_INJECT_INJ 0x21000) w).envInject (envInjected v) := by
  refine ⟨_, (congrArg (List.foldl _ _) ((List.filter_congr fun n _ => ?_).trans (filter_envSource v))).trans
    (State.foldl_injOnset_env _ _)⟩
  by_cases henv : 50 ≤ n.val ∧ n.val ≤ 53
  · have hlow : n.val - 50 < 29 := by omega
    rw [srcBit_env n henv]
    simp [henv, hlow]
  · have hpage := srcBit_page_ne_env n henv
    cases hbit : srcBit n.val (0x21 - 0x10) 0x100 with
    | none => simp [henv]
    | some x => simp [henv, hpage x hbit]

theorem exec_errInject_env {r : Req} (hr : r.val = 0 ∨ r.val = 65) {s : State} (hreach : s.reaches r 0x21024 = true) (v : Word) :
    exec (.errInject r 0x21 v) s = .next (s.errInject 0x21 v.toNat) := by
  have hv : v.toNat % 2 ^ 32 = v.toNat := Nat.mod_eq_of_lt v.isLt
  refine congrArg Host.Outcome.next (?_ : s.busWrite r 0x21024 v.toNat = _)
  rw [State.busWrite, if_pos hreach, busAddr_pf0 hr, hv]
  rfl

/-- The write's frame: its mask leaves ERR_INJECT, ERR_CAUSE, the faults raised and the free values. -/
theorem State.errInject_env_frame (s : State) (v : Nat) :
    Frame s (s.errInject 0x21 v) [F.ERR_INJECT_INJ 0x21000, F.ERR_CAUSE_ERR 0x21000] [.faults, .freeValues] := by
  refine Kept.frame (State.errInject_kept (Sub.refl 0x2000150000) (Kept.refl _ s)) (fun f hf => ?_) fun p => ?_
  · simp only [List.forall_mem_cons, List.not_mem_nil, false_imp_iff, implies_true, and_true] at hf
    obtain ⟨hinj, herr⟩ := hf
    obtain ⟨w, hw⟩ := State.errInject_env s v
    rw [hw, State.envInject_rd_ne _ _ herr, State.rd_wr_ne s w hinj]
  · cases p with
    | page n => intro hp; cases hp
    | _ => decide

/-- Settles O14: the four bits name ENV's four sources, and an injected onset of one of them writes ERR_CAUSE alone. -/
theorem environmentInjection : Obligations.EnvironmentInjection := by
  unfold Obligations.EnvironmentInjection
  intro r v s hr hreach _
  refine ⟨_, exec_errInject_env hr hreach v, ?_, State.errInject_env_frame s v.toNat⟩
  obtain ⟨w, hw⟩ := State.errInject_env s v.toNat
  rw [hw, State.envInject_raised, State.wr_fcu, List.map_append, filter_bits_eq, List.map_map, List.map_map]
  rfl

end Sys2Proof.Machine
end

section
/-! SUPPORT. The debug aperture (R442): what it lets through while it is locked. -/

namespace Sys2Proof.Machine

/-! ## The locked debug aperture -/

theorem State.evalLaser_rd_ne (s : State) {g : Fld} (hg : g.key ≠ F.PFE_LASER_STAT_LASER_EN.key) : s.evalLaser.rd g = s.rd g := by
  unfold State.evalLaser
  dsimp only
  split
  · split
    · rfl
    · exact State.rd_wr_ne s 1 hg
  split
  · split <;> exact State.rd_wr_ne s 0 hg
  · rfl

/-- An access that is shifted in leaves the lock as it is. -/
@[simp] theorem State.tapCapture_on_unlocked (s : State) : s.tapCapture.on F.DBG_STAT_UNLOCKED = s.on F.DBG_STAT_UNLOCKED :=
  congrArg (· != 0) (State.evalLaser_rd_ne _ (by decide))

/-- While the aperture is locked it lets nothing through but a READ of the GLB or DBG page (R442). -/
theorem State.denied_locked {s : State} (hlocked : s.on F.DBG_STAT_UNLOCKED = false) (read : Bool) (a : Nat) :
    s.tapCapture.denied read a = true ↔ ¬ (read = true ∧ (a / 0x1000 = 0x00 ∨ a / 0x1000 = 0x22)) := by
  cases read <;> simp [State.denied, hlocked]

theorem State.tapRead_denied {s : State} {x : BitVec 18} {take : Bool} (h : s.tapCapture.denied (!take) (4 * x.toNat) = true) :
    s.tapRead x take = s.tapCapture.tapResult 0 2 := if_pos h

theorem State.tapRead_stat {s : State} {x : BitVec 18} {take : Bool} (h : s.tapCapture.denied (!take) (4 * x.toNat) = false) :
    (s.tapRead x take).dbg.stat = 0 := by
  rw [State.tapRead]
  simp only [h]
  rfl

/-- Settles O10: whether an access is let through depends on the lock, the kind of access and its page alone. -/
theorem lockedApertureDenies : Obligations.LockedApertureDenies := by
  unfold Obligations.LockedApertureDenies
  have hnext {s : State} (hdom : s.domOn 1 = true) (g : State → State) : s.tap g = g s := if_pos hdom
  refine ⟨fun x s hdom hlocked hpage => ?read, fun x s hdom hlocked hpage => ?readElse, fun x s hdom hlocked => ?take,
    fun x v s hdom hlocked => ?write⟩
  case read =>
    have hdenied : s.tapCapture.denied (!false) (4 * x.toNat) = false := by
      rw [Bool.eq_false_iff, ne_eq, State.denied_locked hlocked]
      exact fun h => h ⟨rfl, hpage⟩
    exact ⟨_, congrArg Host.Outcome.next (hnext hdom _), State.tapRead_stat hdenied⟩
  case readElse =>
    exact ⟨_, congrArg Host.Outcome.next (hnext hdom _), State.tapRead_denied ((State.denied_locked hlocked _ _).mpr fun h => hpage h.2)⟩
  case take =>
    exact ⟨_, congrArg Host.Outcome.next (hnext hdom _), State.tapRead_denied ((State.denied_locked hlocked _ _).mpr (by simp))⟩
  case write =>
    exact ⟨_, congrArg Host.Outcome.next (hnext hdom _), if_pos ((State.denied_locked hlocked _ _).mpr (by simp))⟩

end Sys2Proof.Machine
end

section
/-! SUPPORT. DBG_FREEZE.ALL (R448): no operation that a freeze or its end sets going writes it, so it reads what was last
written to it; and a page that freezes reads FROZEN. -/

namespace Sys2Proof.Machine

theorem State.inc_rd_ne (s : State) {f g : Fld} (n : Nat) (h : g.key ≠ f.key) : (s.inc f n).rd g = s.rd g := State.rd_wr_ne s _ h

theorem State.setBit_rd_ne (s : State) {f g : Fld} (i : Nat) (on : Bool) (h : g.key ≠ f.key) : (s.setBit f i on).rd g = s.rd g :=
  State.rd_wr_ne s _ h

theorem State.foldl_rd {β : Type} {f : State → β → State} {g : Fld} (hf : ∀ s x, (f s x).rd g = s.rd g) (l : List β) (s : State) :
    (l.foldl f s).rd g = s.rd g := by
  induction l generalizing s with
  | nil => rfl
  | cons x l ih => exact (ih (f s x)).trans (hf s x)

theorem State.ite_rd {c : Prop} [Decidable c] {a b : State} {g : Fld} {v : Nat} (ha : a.rd g = v) (hb : b.rd g = v) :
    (if c then a else b).rd g = v := by
  split <;> assumption

section
variable (s : State)

@[simp] theorem State.stat_rd_all (i n : Nat) : (s.stat i n).rd F.DBG_FREEZE_ALL = s.rd F.DBG_FREEZE_ALL := by
  refine State.stat_rd_ne s i n ?_
  simp only [Fld.key, F.STA_LIVE_COUNT, F.DBG_FREEZE_ALL]; omega

@[simp] theorem State.setWait_rd_all (id : Nat) (w : Wait) : (s.setWait id w).rd F.DBG_FREEZE_ALL = s.rd F.DBG_FREEZE_ALL := rfl

@[simp] theorem State.coalesce_rd_all (f : Fn) : (s.coalesce f).rd F.DBG_FREEZE_ALL = s.rd F.DBG_FREEZE_ALL :=
  (State.coalesce_kept (Sub.refl _) (Kept.refl _ s)).rd _ (by decide)

/-- No function's queue registers lie in the DBG page. -/
theorem qBase_add_ne (f o : Nat) (ho : o < 0x1000) : qBase f + o ≠ 0x22048 := by
  rw [qBase_eq]; split <;> omega

@[simp] theorem State.writeEntry_rd_all (f : Fn) (nint : Bool) (e : Block64) :
    (s.writeEntry f nint e).rd F.DBG_FREEZE_ALL = s.rd F.DBG_FREEZE_ALL := by
  have hslot : F.DBG_FREEZE_ALL.key ≠ (F.CPLQ_TAIL_TAIL (qBase f.val)).key := by
    have := qBase_add_ne f.val 0x64 (by decide)
    simp only [Fld.key, F.CPLQ_TAIL_TAIL, F.DBG_FREEZE_ALL]; omega
  have hphase : F.DBG_FREEZE_ALL.key ≠ (F.CPLQ_TAIL_PHASE (qBase f.val)).key := by
    have := qBase_add_ne f.val 0x64 (by decide)
    simp only [Fld.key, F.CPLQ_TAIL_PHASE, F.DBG_FREEZE_ALL]; omega
  unfold State.writeEntry
  dsimp only
  split <;> simp [State.rd_wr_ne _ _ hslot, State.rd_wr_ne _ _ hphase]

@[simp] theorem State.retire_rd_all (id : Nat) (x : Cpl) : (s.retire id x).rd F.DBG_FREEZE_ALL = s.rd F.DBG_FREEZE_ALL := by
  unfold State.retire
  split
  · rfl
  · dsimp only
    have hcounted (p : Nat) (l : List Cmd) : (((s.setCmds l).stat 29).statPart p 1).rd F.DBG_FREEZE_ALL = s.rd F.DBG_FREEZE_ALL :=
      State.counted_rd_ne s l p (by decide)
    split_ifs
    · exact hcounted _ _
    · rw [State.writeEntry_rd_all, hcounted]
    · exact hcounted _ _
end

theorem Fld.key_ne_of_header {f g : Fld} (hf : f.key / 32 % 0x1000 < 0x40) (hg : 0x40 ≤ g.key / 32 % 0x1000) : g.key ≠ f.key := by
  intro h; rw [h] at hg; omega

section
variable (s : State)

@[simp] theorem State.settle_rd_all (n : Nat) : (s.settle n).rd F.DBG_FREEZE_ALL = s.rd F.DBG_FREEZE_ALL := by
  induction n generalizing s with
  | zero => rfl
  | succ n ih =>
    unfold State.settle
    split
    · rfl
    · rw [ih, State.retire_rd_all]

@[simp] theorem State.finish_rd_all (id : Nat) (x : Cpl) : (s.finish id x).rd F.DBG_FREEZE_ALL = s.rd F.DBG_FREEZE_ALL := by
  simp [State.finish]

@[simp] theorem State.complete_rd_all (id : Nat) (x : Cpl) : (s.complete id x).rd F.DBG_FREEZE_ALL = s.rd F.DBG_FREEZE_ALL := by
  simp [State.complete]

@[simp] theorem State.completeReleased_rd_all : s.completeReleased.rd F.DBG_FREEZE_ALL = s.rd F.DBG_FREEZE_ALL := by
  refine State.foldl_rd (fun s c => ?_) _ s
  split
  · split <;> simp
  · rfl

/-- An interrupt cause lies in a page header. -/
theorem State.cause_rd_ne {g : Fld} (hg : 0x40 ≤ g.key / 32 % 0x1000) (f : Fn) (pg i : Nat) : (s.cause f pg i).rd g = s.rd g := by
  unfold State.cause
  rw [State.intEdge_rd]
  refine State.setBit_rd_ne s i true (Fld.key_ne_of_header ?_ hg)
  simp only [Fld.key, F.INT_CAUSE_CAUSE, pageBase]
  split <;> omega

@[simp] theorem State.cause_rd_all (f : Fn) (pg i : Nat) : (s.cause f pg i).rd F.DBG_FREEZE_ALL = s.rd F.DBG_FREEZE_ALL :=
  State.cause_rd_ne s (by decide) f pg i

@[simp] theorem State.cause0_rd_all (pg i : Nat) : (s.cause0 pg i).rd F.DBG_FREEZE_ALL = s.rd F.DBG_FREEZE_ALL :=
  State.cause_rd_all s 0 pg i

/-- A source's check bit lies in a page header. -/
theorem State.errCause_rd_ne {g : Fld} (hg : 0x40 ≤ g.key / 32 % 0x1000) (src scope code : Nat) : (s.errCause src scope code).rd g = s.rd g := by
  unfold State.errCause
  split
  · exact State.setBit_rd_ne s _ true (Fld.key_ne_of_header (by simp only [Fld.key, F.ERR_CAUSE_ERR]; omega) hg)
  · rfl

@[simp] theorem State.fault_rd_all (src : SrcIx) (kind : Fin 4) (scope code : Nat) :
    (s.fault src kind scope code).rd F.DBG_FREEZE_ALL = s.rd F.DBG_FREEZE_ALL :=
  State.errCause_rd_ne s (by decide) _ _ _

end

section
variable (s : State)

/-! ## Circuits and epochs -/

@[simp] theorem State.freeQuarantine_rd_all (c : Nat) : (s.freeQuarantine c).rd F.DBG_FREEZE_ALL = s.rd F.DBG_FREEZE_ALL :=
  (State.freeQuarantine_kept (Sub.refl _) (Kept.refl _ s)).rd _ (by decide)

@[simp] theorem State.takeBack_rd_all (c side : Nat) (l : List Flit) : (s.takeBack c side l).rd F.DBG_FREEZE_ALL = s.rd F.DBG_FREEZE_ALL :=
  (State.takeBack_kept (Sub.refl _) (Kept.refl _ s)).rd _ (by decide)

@[simp] theorem State.setUnitSt_rd_all (u st fail : Nat) : (s.setUnitSt u st fail).rd F.DBG_FREEZE_ALL = s.rd F.DBG_FREEZE_ALL :=
  (State.setUnitSt_kept (Sub.refl _) (Kept.refl _ s)).rd _ (by decide)

@[simp] theorem State.startTraining_rd_all (u : Nat) : (s.startTraining u).rd F.DBG_FREEZE_ALL = s.rd F.DBG_FREEZE_ALL :=
  (State.startTraining_kept (Sub.refl _) (Kept.refl _ s)).rd _ (by decide)

@[simp] theorem State.updEpoch_rd (n : Nat) (f : Epoch → Epoch) (g : Fld) : (s.updEpoch n f).rd g = s.rd g := rfl

@[simp] theorem State.updChange_rd (n : Nat) (f : Change → Change) (g : Fld) : (s.updChange n f).rd g = s.rd g := rfl

@[simp] theorem State.unbuild_rd_all (x : Change) : (s.unbuild x).rd F.DBG_FREEZE_ALL = s.rd F.DBG_FREEZE_ALL :=
  (State.unbuild_kept (Sub.refl _) (Kept.refl _ s)).rd _ (by decide)

@[simp] theorem State.noteFail_rd_all (c reason : Nat) : (s.noteFail c reason).rd F.DBG_FREEZE_ALL = s.rd F.DBG_FREEZE_ALL :=
  (State.noteFail_kept (Sub.refl _) (Kept.refl _ s)).rd _ (by decide)

@[simp] theorem State.changeReady_rd_all (x : Change) : (s.changeReady x).rd F.DBG_FREEZE_ALL = s.rd F.DBG_FREEZE_ALL :=
  (State.changeReady_kept (Sub.refl _) (Kept.refl _ s)).rd _ (by decide)

@[simp] theorem State.trainChange_rd_all (x : Change) : (s.trainChange x).rd F.DBG_FREEZE_ALL = s.rd F.DBG_FREEZE_ALL :=
  (State.trainChange_kept (Sub.refl _) (Kept.refl _ s)).rd _ (by decide)

@[simp] theorem State.takeEffect_rd_all (e : Epoch) : (s.takeEffect e).rd F.DBG_FREEZE_ALL = s.rd F.DBG_FREEZE_ALL :=
  (State.takeEffect_kept (Sub.refl _) (Kept.refl _ s)).rd _ (by decide)

@[simp] theorem State.circuitDown_rd_all (c reason : Nat) : (s.circuitDown c reason).rd F.DBG_FREEZE_ALL = s.rd F.DBG_FREEZE_ALL := by
  unfold State.circuitDown
  dsimp only
  split <;> simp

@[simp] theorem State.pairLost_rd_all (u : Nat) : (s.pairLost u).rd F.DBG_FREEZE_ALL = s.rd F.DBG_FREEZE_ALL := by
  unfold State.pairLost
  split
  · rfl
  · dsimp only
    split_ifs <;> simp

@[simp] theorem State.degrade_rd_all (u : Nat) : (s.degrade u).rd F.DBG_FREEZE_ALL = s.rd F.DBG_FREEZE_ALL := by
  have hport : F.DBG_FREEZE_ALL.key ≠ (F.PORT_LNK_STAT_PAIR_FAILED (u / 5)).key := by
    simp only [Fld.key, F.PORT_LNK_STAT_PAIR_FAILED, F.DBG_FREEZE_ALL]; omega
  unfold State.degrade
  dsimp only
  split_ifs <;> simp [State.setBit_rd_ne _ _ _ hport]

@[simp] theorem State.withdraw_rd_all (x : Change) : (s.withdraw x).rd F.DBG_FREEZE_ALL = s.rd F.DBG_FREEZE_ALL := by
  simp [State.withdraw]

@[simp] theorem State.leavePrev_rd_all (x : Change) : (s.leavePrev x).rd F.DBG_FREEZE_ALL = s.rd F.DBG_FREEZE_ALL := by
  unfold State.leavePrev
  split
  · simp
  · split <;> simp

@[simp] theorem State.prepareEpoch_rd_all (id : Nat) (e : Block64) : (s.prepareEpoch id e).rd F.DBG_FREEZE_ALL = s.rd F.DBG_FREEZE_ALL := by
  unfold State.prepareEpoch
  dsimp only
  split_ifs <;> simp (disch := decide) [State.rd_wr_ne]

@[simp] theorem State.resumePrepare_rd_all : s.resumePrepare.rd F.DBG_FREEZE_ALL = s.rd F.DBG_FREEZE_ALL := by
  unfold State.resumePrepare
  split
  · split <;> simp
  · rfl

@[simp] theorem State.finishCommit_rd_all (e : Epoch) (x : Cpl) : (s.finishCommit e x).rd F.DBG_FREEZE_ALL = s.rd F.DBG_FREEZE_ALL := by
  unfold State.finishCommit
  split <;> simp

@[simp] theorem State.abortEpoch_rd_all (e : Epoch) (status : Nat) : (s.abortEpoch e status).rd F.DBG_FREEZE_ALL = s.rd F.DBG_FREEZE_ALL := by
  have hunbuild (l : List Change) (u : State) : (l.foldl State.unbuild u).rd F.DBG_FREEZE_ALL = u.rd F.DBG_FREEZE_ALL :=
    State.foldl_rd State.unbuild_rd_all l u
  have hnote (l : List Change) (u : State) :
      (l.foldl (fun s x => s.noteFail x.circ 7) u).rd F.DBG_FREEZE_ALL = u.rd F.DBG_FREEZE_ALL :=
    State.foldl_rd (fun s x => State.noteFail_rd_all s x.circ 7) l u
  unfold State.abortEpoch
  dsimp only
  split_ifs <;> simp (disch := decide) [State.rd_wr_ne, State.inc_rd_ne, hunbuild, hnote]

theorem State.csqNext_rd_all {t : State} (h : s.csqNext = some t) : t.rd F.DBG_FREEZE_ALL = s.rd F.DBG_FREEZE_ALL := by
  unfold State.csqNext at h
  split at h
  · cases h
    split_ifs <;> simp
  · dsimp only at h
    split at h
    · cases h
    · cases h
      split_ifs <;> simp

@[simp] theorem State.csqRun_rd_all (n : Nat) : (s.csqRun n).rd F.DBG_FREEZE_ALL = s.rd F.DBG_FREEZE_ALL := by
  induction n generalizing s with
  | zero => rfl
  | succ n ih =>
    unfold State.csqRun
    split
    · rfl
    · next h => rw [ih, State.csqNext_rd_all s h]

@[simp] theorem State.csqSettle_rd_all : s.csqSettle.rd F.DBG_FREEZE_ALL = s.rd F.DBG_FREEZE_ALL := State.csqRun_rd_all s _

@[simp] theorem State.failChange_rd_all (id reason : Nat) : (s.failChange id reason).rd F.DBG_FREEZE_ALL = s.rd F.DBG_FREEZE_ALL := by
  unfold State.failChange
  split
  · rfl
  · split
    · rfl
    · simp

@[simp] theorem State.failChanges_rd_all (p : Change → Bool) (reason : Nat) :
    (s.failChanges p reason).rd F.DBG_FREEZE_ALL = s.rd F.DBG_FREEZE_ALL :=
  State.foldl_rd (fun s (x : Change) => State.failChange_rd_all s x.id reason) _ s

@[simp] theorem State.trainFailed_rd_all (u reason : Nat) : (s.trainFailed u reason).rd F.DBG_FREEZE_ALL = s.rd F.DBG_FREEZE_ALL := by
  unfold State.trainFailed
  dsimp only
  split_ifs <;> simp

@[simp] theorem State.train_rd_all (u : Nat) : (s.train u).rd F.DBG_FREEZE_ALL = s.rd F.DBG_FREEZE_ALL := by
  unfold State.train
  split <;> simp

@[simp] theorem State.resumeTraining_rd_all : s.resumeTraining.rd F.DBG_FREEZE_ALL = s.rd F.DBG_FREEZE_ALL :=
  State.foldl_rd (fun s (x : Nat × LinkUnit) => State.ite_rd (State.train_rd_all s x.1) rfl) _ s

@[simp] theorem State.epochLate_rd_all (e : Epoch) : (s.epochLate e).rd F.DBG_FREEZE_ALL = s.rd F.DBG_FREEZE_ALL := by
  unfold State.epochLate
  split <;> simp

@[simp] theorem State.csqThaw_rd_all : s.csqThaw.rd F.DBG_FREEZE_ALL = s.rd F.DBG_FREEZE_ALL := by
  have hlate (l : List Epoch) : (l.foldl (fun s e => s.epochLate e) s).rd F.DBG_FREEZE_ALL = s.rd F.DBG_FREEZE_ALL :=
    State.foldl_rd State.epochLate_rd_all l s
  simp [State.csqThaw, hlate]

end

section
variable (s : State)

/-! ## Twin -/

@[simp] theorem State.twnInt_rd_all (i : Nat) : (s.twnInt i).rd F.DBG_FREEZE_ALL = s.rd F.DBG_FREEZE_ALL := by
  simp [State.twnInt]

@[simp] theorem State.startTakeover_rd_all : s.startTakeover.rd F.DBG_FREEZE_ALL = s.rd F.DBG_FREEZE_ALL := by
  unfold State.startTakeover
  dsimp only
  split_ifs <;> simp (disch := decide) [State.rd_wr_ne, State.setBit_rd_ne]

@[simp] theorem State.twnThaw_rd_all : s.twnThaw.rd F.DBG_FREEZE_ALL = s.rd F.DBG_FREEZE_ALL :=
  State.ite_rd (State.startTakeover_rd_all s) rfl

/-! ## Remote operations and copies -/

@[simp] theorem State.target_rd_all (node part kind off len : Nat) (data : List (Option Byte)) (aop opa opb : Nat) :
    (s.target node part kind off len data aop opa opb).1.rd F.DBG_FREEZE_ALL = s.rd F.DBG_FREEZE_ALL :=
  (State.target_kept (Sub.refl _) (Kept.refl _ s)).rd _ (by decide)

@[simp] theorem State.copyOut_rd_all (f : Fn) (e : Block64) (pos o : Nat) (data : List Byte) (pois : List Nat) (srcOff : Nat) :
    (s.copyOut f e pos o data pois srcOff).1.rd F.DBG_FREEZE_ALL = s.rd F.DBG_FREEZE_ALL :=
  (State.copyOut_kept (Sub.refl _) (Kept.refl _ s)).rd _ (by decide)

@[simp] theorem State.bar2Done_rd_all (f : Fn) (o : Nat) (data : List Byte) :
    (s.bar2Done f o data).rd F.DBG_FREEZE_ALL = s.rd F.DBG_FREEZE_ALL :=
  (State.bar2Done_kept (Sub.refl _) (Kept.refl _ s)).rd _ (by decide)

@[simp] theorem State.logErr_rd_all (f : Fn) (o ga : Nat) : (s.logErr f o ga).rd F.DBG_FREEZE_ALL = s.rd F.DBG_FREEZE_ALL :=
  (State.logErr_kept (Sub.refl _) (Kept.refl _ s)).rd _ (by decide)

@[simp] theorem State.dmaOp_rd_all (ch pos len o npois : Nat) : (s.dmaOp ch pos len o npois).rd F.DBG_FREEZE_ALL = s.rd F.DBG_FREEZE_ALL :=
  (State.dmaOp_kept (Sub.refl _) (Kept.refl _ s)).rd _ (by decide)

@[simp] theorem State.updDma_rd (ch : Nat) (f : Dma → Dma) (g : Fld) : (s.updDma ch f).rd g = s.rd g := rfl

@[simp] theorem State.hostAcc_rd_all (f : Fn) (o : Output) : (s.hostAcc f o).rd F.DBG_FREEZE_ALL = s.rd F.DBG_FREEZE_ALL :=
  (State.hostAcc_kept (Sub.refl _) (Kept.refl _ s)).rd _ (by decide)

@[simp] theorem State.queueMessage_rd_all (c cl n : Nat) (bs : List Byte) :
    (s.queueMessage c cl n bs).rd F.DBG_FREEZE_ALL = s.rd F.DBG_FREEZE_ALL :=
  (State.queueMessage_kept (Sub.refl _) (Kept.refl _ s)).rd _ (by decide)

theorem State.enterTurn_rd_all {c part n : Nat} {t : State} (h : s.enterTurn c part n = some t) :
    t.rd F.DBG_FREEZE_ALL = s.rd F.DBG_FREEZE_ALL :=
  ((State.enterTurn_kept (Sub.refl _) (Kept.refl _ s)).kept t h).rd _ (by decide)

@[simp] theorem State.countOutcome_rd_all (f : Fn) (o : Nat) : (s.countOutcome f o).rd F.DBG_FREEZE_ALL = s.rd F.DBG_FREEZE_ALL := by
  have hcause (u : State) (i : Nat) : (if f.val = 0 then u else u.cause f 2 i).rd F.DBG_FREEZE_ALL = u.rd F.DBG_FREEZE_ALL :=
    State.ite_rd rfl (State.cause_rd_all u f 2 i)
  have hcount (u : State) :
      (if f.val = 0 then u else u.inc (F.VF_RME_CONGESTED_COUNT (pageBase f 2))).rd F.DBG_FREEZE_ALL = u.rd F.DBG_FREEZE_ALL := by
    refine State.ite_rd rfl (State.inc_rd_ne u 1 ?_)
    simp only [Fld.key, F.VF_RME_CONGESTED_COUNT, F.DBG_FREEZE_ALL, pageBase]
    split <;> omega
  unfold State.countOutcome
  dsimp only
  split
  · simp (disch := decide) [State.inc_rd_ne]
  · rw [hcause]
    simp (disch := decide) [State.inc_rd_ne]
  · exact State.inc_rd_ne s 1 (by decide)
  · rw [hcause]
    simp (disch := decide) [State.inc_rd_ne]
  · rw [hcause, hcount]
    simp (disch := decide) [State.inc_rd_ne]
  · rfl

@[simp] theorem State.countOp_rd_all (op : RmeOp) (o : Nat) : (s.countOp op o).rd F.DBG_FREEZE_ALL = s.rd F.DBG_FREEZE_ALL := by
  unfold State.countOp
  dsimp only
  split_ifs <;> simp [State.statPart_rd]

/-- The registers of a function's atomic slots lie at 0xC00 and above of their page. -/
theorem State.wr_atm_rd_all {f : Fld} (hf : 0xC00 ≤ f.key / 32 % 0x1000) (v : Nat) :
    (s.wr f v).rd F.DBG_FREEZE_ALL = s.rd F.DBG_FREEZE_ALL := by
  refine State.rd_wr_ne s v fun h => ?_
  rw [← h] at hf
  exact absurd hf (by decide)

theorem atmBase_mod (f : Nat) : atmBase f % 0x1000 = 0 := by
  simp only [atmBase, pageBase]
  split <;> omega

@[simp] theorem State.atomicDone_rd_all (f : Fn) (n o : Nat) (data : List Byte) :
    (s.atomicDone f n o data).rd F.DBG_FREEZE_ALL = s.rd F.DBG_FREEZE_ALL := by
  have hb := atmBase_mod f
  have hbusy : 0xC00 ≤ (F.ATM_STAT_BUSY (atmBase f) n).key / 32 % 0x1000 := by simp only [Fld.key, F.ATM_STAT_BUSY]; omega
  have hstatus : 0xC00 ≤ (F.ATM_STAT_STATUS (atmBase f) n).key / 32 % 0x1000 := by simp only [Fld.key, F.ATM_STAT_STATUS]; omega
  have hpoison : 0xC00 ≤ (F.ATM_STAT_POISON (atmBase f) n).key / 32 % 0x1000 := by simp only [Fld.key, F.ATM_STAT_POISON]; omega
  have hresult : 0xC00 ≤ (F.ATM_RESULT_RESULT (atmBase f) n).key / 32 % 0x1000 := by simp only [Fld.key, F.ATM_RESULT_RESULT]; omega
  unfold State.atomicDone
  dsimp only
  split_ifs <;> simp [State.wr_atm_rd_all, hbusy, hstatus, hpoison, hresult]

@[simp] theorem State.opDone_rd_all (op : RmeOp) (o : Nat) (data : List Byte) (pois : List Nat) :
    (s.opDone op o data pois).rd F.DBG_FREEZE_ALL = s.rd F.DBG_FREEZE_ALL := by
  unfold State.opDone
  dsimp only
  split
  · simp
  · split <;> simp
  · simp
  · split
    · simp
    · split <;> simp

@[simp] theorem State.issue_rd_all (op : RmeOp) : (s.issue op).rd F.DBG_FREEZE_ALL = s.rd F.DBG_FREEZE_ALL := by
  have hfree (u : State) : (if op.data.any (·.isNone) then u.free else (0, u)).2.rd F.DBG_FREEZE_ALL = u.rd F.DBG_FREEZE_ALL := by
    split <;> rfl
  unfold State.issue
  dsimp only
  split
  · rfl
  split
  · simp
  split
  · simp
  split
  · simp
  split
  · simp
  split
  · next hturn _ =>
    rw [State.queueMessage_rd_all, State.setOps_rd, hfree, State.enterTurn_rd_all s hturn]
  · rfl

theorem State.dmaStep_rd_all {d : Dma} {t : State} (h : s.dmaStep d = some t) : t.rd F.DBG_FREEZE_ALL = s.rd F.DBG_FREEZE_ALL := by
  unfold State.dmaStep at h
  split at h
  · cases h
  · dsimp only at h
    split_ifs at h <;> cases h <;> simp

@[simp] theorem State.dmaRun_rd_all (ch n : Nat) : (s.dmaRun ch n).rd F.DBG_FREEZE_ALL = s.rd F.DBG_FREEZE_ALL := by
  induction n generalizing s with
  | zero => rfl
  | succ n ih =>
    unfold State.dmaRun
    split
    · rfl
    · split
      · next h =>
        obtain ⟨d, -, hd⟩ := Option.bind_eq_some_iff.mp h
        rw [ih, State.dmaStep_rd_all s hd]
      · rfl

@[simp] theorem State.startCopy_rd_all (c : Cmd) : (s.startCopy c).rd F.DBG_FREEZE_ALL = s.rd F.DBG_FREEZE_ALL := by
  unfold State.startCopy
  split <;> simp

@[simp] theorem State.rmeSettle_rd_all (n : Nat) : (s.rmeSettle n).rd F.DBG_FREEZE_ALL = s.rd F.DBG_FREEZE_ALL := by
  induction n generalizing s with
  | zero => rfl
  | succ n ih =>
    unfold State.rmeSettle
    split
    · simp [ih]
    · split
      · split <;> simp [ih]
      · rfl

@[simp] theorem State.rmeGo_rd_all : s.rmeGo.rd F.DBG_FREEZE_ALL = s.rd F.DBG_FREEZE_ALL := State.rmeSettle_rd_all s _

/-! ## Reductions -/

@[simp] theorem State.startReduce_rd_all (c : Cmd) : (s.startReduce c).rd F.DBG_FREEZE_ALL = s.rd F.DBG_FREEZE_ALL :=
  (State.startReduce_kept (Sub.refl _) (Kept.refl _ s)).rd _ (by decide)

@[simp] theorem State.rdxSettle_rd_all (n : Nat) : (s.rdxSettle n).rd F.DBG_FREEZE_ALL = s.rd F.DBG_FREEZE_ALL := by
  induction n generalizing s with
  | zero => rfl
  | succ n ih =>
    unfold State.rdxSettle
    split
    · simp [ih]
    · split
      · rfl
      · split
        · split <;> simp [ih]
        · rfl

@[simp] theorem State.rdxGo_rd_all : s.rdxGo.rd F.DBG_FREEZE_ALL = s.rd F.DBG_FREEZE_ALL := State.rdxSettle_rd_all s _

/-! ## Sums -/

@[simp] theorem State.updRun_rd (p : Nat) (f : PRun → PRun) (g : Fld) : (s.updRun p f).rd g = s.rd g := rfl

@[simp] theorem State.psmComplete_rd_all (p st : Nat) (samples : Bool) :
    (s.psmComplete p st samples).rd F.DBG_FREEZE_ALL = s.rd F.DBG_FREEZE_ALL := by
  unfold State.psmComplete
  split
  · rfl
  · dsimp only
    split_ifs <;> simp

/-- A page's freeze changes no field but PAGE_STAT's two bits and what DBG shows of it. -/
theorem State.freezeNow_rd_ne {pg : Nat} (bit : Nat) {g : Fld} (hfrozen : g.key ≠ (F.PAGE_STAT_FROZEN (0x1000 * pg)).key)
    (hpend : g.key ≠ (F.PAGE_STAT_FREEZE_PEND (0x1000 * pg)).key) (hdbg : g.key ≠ F.DBG_PEND_PEND.key)
    (hstat : g.key ≠ F.DBG_FREEZE_STAT_FROZEN.key) (hint : g.key ≠ (F.INT_CAUSE_CAUSE (0x1000 * 0x22)).key) :
    (s.freezeNow pg bit).rd g = s.rd g := by
  unfold State.freezeNow
  dsimp only
  split <;> simp only [State.cause0_rd_ne _ _ _ hint, State.rd_wr_ne _ _ hstat, State.setBit_rd_ne _ _ _ hdbg, State.rd_wr_ne _ _ hpend,
    State.rd_wr_ne _ _ hfrozen]

@[simp] theorem State.freezeNow_rd_all (pg bit : Nat) : (s.freezeNow pg bit).rd F.DBG_FREEZE_ALL = s.rd F.DBG_FREEZE_ALL := by
  refine State.freezeNow_rd_ne s bit (Fld.key_ne_of_header ?_ (by decide)) (Fld.key_ne_of_header ?_ (by decide)) (by decide) (by decide)
    (by decide)
  · simp only [Fld.key, F.PAGE_STAT_FROZEN]; omega
  · simp only [Fld.key, F.PAGE_STAT_FREEZE_PEND]; omega

@[simp] theorem State.psmUnfreeze_rd_all : s.psmUnfreeze.rd F.DBG_FREEZE_ALL = s.rd F.DBG_FREEZE_ALL :=
  State.ite_rd (State.freezeNow_rd_all s _ _) rfl

@[simp] theorem State.psmFail_rd_all (p reason : Nat) : (s.psmFail p reason).rd F.DBG_FREEZE_ALL = s.rd F.DBG_FREEZE_ALL := by
  have hstate : F.DBG_FREEZE_ALL.key ≠ (F.PSM_STAT_STATE p).key := by simp only [Fld.key, F.PSM_STAT_STATE, F.DBG_FREEZE_ALL]; omega
  have hreason : F.DBG_FREEZE_ALL.key ≠ (F.PSM_STAT_REASON p).key := by simp only [Fld.key, F.PSM_STAT_REASON, F.DBG_FREEZE_ALL]; omega
  have hrest (l : List Nat) (u : State) : (l.foldl (fun s k => s.restRing (modRing p k)) u).rd F.DBG_FREEZE_ALL = u.rd F.DBG_FREEZE_ALL :=
    State.foldl_rd (fun s k => (State.restRing_kept (Sub.refl _) (Kept.refl _ s)).rd _ (by decide)) l u
  unfold State.psmFail
  split
  · rfl
  · dsimp only
    split_ifs <;> simp [State.rd_wr_ne _ _ hstate, State.rd_wr_ne _ _ hreason, hrest]

@[simp] theorem State.failRuns_rd_all (reason : Nat) (p : Nat × PRun → Bool) : (s.failRuns reason p).rd F.DBG_FREEZE_ALL = s.rd F.DBG_FREEZE_ALL :=
  State.foldl_rd (fun s (r : Nat × PRun) => State.psmFail_rd_all s r.1 reason) _ s

@[simp] theorem State.psmThaw_rd_all : s.psmThaw.rd F.DBG_FREEZE_ALL = s.rd F.DBG_FREEZE_ALL := State.failRuns_rd_all s _ _

end

section
variable (s : State)

/-! ## DBG_FREEZE.ALL through a freeze and its end -/

@[simp] theorem State.rcuFreeze_rd_all : s.rcuFreeze.rd F.DBG_FREEZE_ALL = s.rd F.DBG_FREEZE_ALL :=
  (State.rcuFreeze_kept (Sub.refl _) (Kept.refl _ s)).rd _ (by decide)

@[simp] theorem State.wr_header_rd_all {f : Fld} (hf : f.key / 32 % 0x1000 < 0x40) (v : Nat) :
    (s.wr f v).rd F.DBG_FREEZE_ALL = s.rd F.DBG_FREEZE_ALL :=
  State.rd_wr_ne s v (Fld.key_ne_of_header hf (by decide))

theorem frozenFld_header (pg : Nat) : (F.PAGE_STAT_FROZEN (0x1000 * pg)).key / 32 % 0x1000 < 0x40 := by
  simp only [Fld.key, F.PAGE_STAT_FROZEN]; omega

theorem freezePendFld_header (pg : Nat) : (F.PAGE_STAT_FREEZE_PEND (0x1000 * pg)).key / 32 % 0x1000 < 0x40 := by
  simp only [Fld.key, F.PAGE_STAT_FREEZE_PEND]; omega

@[simp] theorem State.freezePage_rd_all (x : Nat × Nat) : (s.freezePage x).rd F.DBG_FREEZE_ALL = s.rd F.DBG_FREEZE_ALL := by
  unfold State.freezePage
  split
  · rfl
  split
  · rw [State.setBit_rd_ne _ _ _ (by decide), State.wr_header_rd_all _ (freezePendFld_header x.1)]
  · rw [State.freezeNow_rd_all]
    exact State.ite_rd (State.rcuFreeze_rd_all s) rfl

@[simp] theorem State.frozenAll_rd_all : s.frozenAll.rd F.DBG_FREEZE_ALL = s.rd F.DBG_FREEZE_ALL := by
  unfold State.frozenAll
  split
  · rw [State.cause0_rd_all, State.rd_wr_ne _ _ (by decide)]
  · rfl

/-- ALL reads 1 once it has been written 1. -/
theorem State.freezeAll_rd_all : s.freezeAll.rd F.DBG_FREEZE_ALL = 1 := by
  have hpages (l : List (Nat × Nat)) (u : State) : (l.foldl State.freezePage u).rd F.DBG_FREEZE_ALL = u.rd F.DBG_FREEZE_ALL :=
    State.foldl_rd State.freezePage_rd_all l u
  simp only [State.freezeAll, State.frozenAll_rd_all, hpages, State.rd_wr_same]
  rfl

@[simp] theorem State.thawed_rd_all (pg : Nat) : (s.thawed pg).rd F.DBG_FREEZE_ALL = s.rd F.DBG_FREEZE_ALL := by
  unfold State.thawed
  split
  · exact (State.rcuThaw_kept (Sub.refl _) (Kept.refl _ s)).rd _ (by decide)
  · exact State.resumeTraining_rd_all s
  · exact State.csqThaw_rd_all s
  · exact State.twnThaw_rd_all s
  · exact (State.compactWaiting_kept (Sub.refl _) (Kept.refl _ s)).rd _ (by decide)
  · exact State.rmeGo_rd_all s
  · exact State.rdxGo_rd_all s
  · exact State.psmThaw_rd_all s
  · exact (State.stageMissed_kept (Sub.refl _) (Kept.refl _ s)).rd _ (by decide)
  · rfl

@[simp] theorem State.thawPage_rd_all (x : Nat × Nat) : (s.thawPage x).rd F.DBG_FREEZE_ALL = s.rd F.DBG_FREEZE_ALL := by
  have hstat : (((s.wr (F.PAGE_STAT_FROZEN (0x1000 * x.1)) 0).wr (F.PAGE_STAT_FREEZE_PEND (0x1000 * x.1)) 0).setBit F.DBG_PEND_PEND x.2
      false).rd F.DBG_FREEZE_ALL = s.rd F.DBG_FREEZE_ALL := by
    rw [State.setBit_rd_ne _ _ _ (by decide), State.wr_header_rd_all _ (freezePendFld_header x.1),
      State.wr_header_rd_all _ (frozenFld_header x.1)]
  exact State.ite_rd rfl (State.ite_rd ((State.thawed_rd_all _ _).trans hstat) hstat)

/-- ALL reads 0 once it has been written 0: nothing that goes on writes it. -/
theorem State.thawAll_rd_all : s.thawAll.rd F.DBG_FREEZE_ALL = 0 := by
  have hpages (l : List (Nat × Nat)) (u : State) : (l.foldl State.thawPage u).rd F.DBG_FREEZE_ALL = u.rd F.DBG_FREEZE_ALL :=
    State.foldl_rd State.thawPage_rd_all l u
  simp only [State.thawAll, State.completeReleased_rd_all, hpages]
  rw [State.rd_wr_ne _ _ (by decide), State.rd_wr_same]
  rfl

/-! ## Frozen pages -/

theorem State.freezeNow_frozen_same (pg bit : Nat) : (s.freezeNow pg bit).frozen pg = true := by
  have hpend : (F.PAGE_STAT_FROZEN (0x1000 * pg)).key ≠ (F.PAGE_STAT_FREEZE_PEND (0x1000 * pg)).key := by
    simp only [Fld.key, F.PAGE_STAT_FROZEN, F.PAGE_STAT_FREEZE_PEND]; omega
  have hint : (F.PAGE_STAT_FROZEN (0x1000 * pg)).key ≠ (F.INT_CAUSE_CAUSE (0x1000 * 0x22)).key := by
    simp only [Fld.key, F.PAGE_STAT_FROZEN, F.INT_CAUSE_CAUSE]; omega
  have hdbg : (F.PAGE_STAT_FROZEN (0x1000 * pg)).key ≠ F.DBG_PEND_PEND.key :=
    (Fld.key_ne_of_header (frozenFld_header pg) (by decide)).symm
  have hstat : (F.PAGE_STAT_FROZEN (0x1000 * pg)).key ≠ F.DBG_FREEZE_STAT_FROZEN.key :=
    (Fld.key_ne_of_header (frozenFld_header pg) (by decide)).symm
  unfold State.freezeNow State.frozen State.on
  dsimp only
  split <;> simp only [State.cause0_rd_ne _ _ _ hint, State.rd_wr_ne _ _ hstat, State.setBit_rd_ne _ _ _ hdbg, State.rd_wr_ne _ _ hpend,
    State.rd_wr_same] <;> rfl

end

end Sys2Proof.Machine
end

section
/-! SUPPORT. What keeps a page frozen, and FORCE_FREEZE (R447). -/

namespace Sys2Proof.Machine

section
variable (s : State)

/-- A write of a block's register leaves every page's FROZEN. -/
theorem State.wr_frozen {f : Fld} (hf : 0x40 ≤ f.key / 32 % 0x1000) (v q : Nat) : (s.wr f v).frozen q = s.frozen q :=
  congrArg (· != 0) (State.rd_wr_ne s v (Fld.key_ne_of_header (frozenFld_header q) hf).symm)

@[simp] theorem State.cause0_frozen (pg i q : Nat) : (s.cause0 pg i).frozen q = s.frozen q := by
  refine congrArg (· != 0) (State.cause0_rd_ne s pg i ?_)
  simp only [Fld.key, F.PAGE_STAT_FROZEN, F.INT_CAUSE_CAUSE]; omega

@[simp] theorem State.fault_frozen (src : SrcIx) (kind : Fin 4) (scope code q : Nat) : (s.fault src kind scope code).frozen q = s.frozen q := by
  have herr (src scope code : Nat) : (s.errCause src scope code).frozen q = s.frozen q := by
    unfold State.errCause
    split
    · refine congrArg (· != 0) (State.setBit_rd_ne s _ true ?_)
      simp only [Fld.key, F.PAGE_STAT_FROZEN, F.ERR_CAUSE_ERR]; omega
    · rfl
  exact herr _ _ _

theorem State.freezeNow_frozen_of_frozen {q : Nat} (h : s.frozen q = true) (pg bit : Nat) : (s.freezeNow pg bit).frozen q = true := by
  by_cases hq : q = pg
  · rw [hq]
    exact State.freezeNow_frozen_same s pg bit
  · rw [← h]
    refine congrArg (· != 0) (State.freezeNow_rd_ne s bit ?_ ?_ ?_ ?_ ?_)
    · simp only [Fld.key, F.PAGE_STAT_FROZEN]; omega
    · simp only [Fld.key, F.PAGE_STAT_FROZEN, F.PAGE_STAT_FREEZE_PEND]; omega
    · exact (Fld.key_ne_of_header (frozenFld_header q) (by decide)).symm
    · exact (Fld.key_ne_of_header (frozenFld_header q) (by decide)).symm
    · simp only [Fld.key, F.PAGE_STAT_FROZEN, F.INT_CAUSE_CAUSE]; omega

/-- What FORCE_FREEZE does of a page at its end (R447). -/
def State.freezeRest (s : State) (x : Nat × Nat) : State := if s.frozen x.1 then s else s.freezeNow x.1 x.2

theorem State.freezeRest_frozen_of_frozen {q : Nat} (h : s.frozen q = true) (x : Nat × Nat) : (s.freezeRest x).frozen q = true := by
  unfold State.freezeRest
  split
  · exact h
  · exact State.freezeNow_frozen_of_frozen s h x.1 x.2

theorem State.freezeRest_frozen (x : Nat × Nat) : (s.freezeRest x).frozen x.1 = true := by
  unfold State.freezeRest
  split
  · assumption
  · exact State.freezeNow_frozen_same s x.1 x.2

theorem State.foldl_freezeRest_frozen_of_frozen {q : Nat} (h : s.frozen q = true) (l : List (Nat × Nat)) :
    (l.foldl State.freezeRest s).frozen q = true := by
  induction l generalizing s with
  | nil => exact h
  | cons x l ih => exact ih _ (State.freezeRest_frozen_of_frozen s h x)

theorem State.foldl_freezeRest_frozen {l : List (Nat × Nat)} {x : Nat × Nat} (hx : x ∈ l) : (l.foldl State.freezeRest s).frozen x.1 = true := by
  induction l generalizing s with
  | nil => cases hx
  | cons y l ih =>
    rcases List.mem_cons.mp hx with rfl | hmem
    · exact State.foldl_freezeRest_frozen_of_frozen _ (State.freezeRest_frozen s x) l
    · exact ih _ hmem

@[simp] theorem State.frozenAll_frozen (q : Nat) : s.frozenAll.frozen q = s.frozen q := by
  unfold State.frozenAll
  split
  · rw [State.cause0_frozen, State.wr_frozen _ (by decide)]
  · rfl

/-- FORCE_FREEZE leaves every freezable page frozen (R447). -/
theorem State.forceFreeze_frozen {x : Nat × Nat} (hx : x ∈ freezable) : s.forceFreeze.frozen x.1 = true := by
  obtain ⟨u, hu⟩ : ∃ u : State, s.forceFreeze = (freezable.foldl State.freezeRest u).frozenAll := ⟨_, rfl⟩
  rw [hu, State.frozenAll_frozen, State.foldl_freezeRest_frozen u hx]

/-! ## A device that stays awake keeps its freezes -/

@[simp] theorem State.event_frozen (e : Event) (q : Nat) : (s.event e).frozen q = s.frozen q := by
  have hmiss (irq : Bool) : (s.missEvent irq).frozen q = s.frozen q := by
    have hcount : ((s.setEvr { s.evr with lostSince := s.evr.lostSince + 1 }).inc F.EVR_MISSED_COUNT).frozen q = s.frozen q :=
      State.wr_frozen _ (by decide) _ q
    unfold State.missEvent
    dsimp only
    split
    · rw [State.cause0_frozen, hcount]
    · exact hcount
  unfold State.event
  split
  · exact hmiss false
  split
  · next t ht =>
    have hregs : t.regs = s.regs := by
      unfold State.enstage at ht
      split at ht
      · split_ifs at ht <;> cases ht <;> rfl
      · cases ht; rfl
    unfold State.frozen State.on State.rd
    rw [hregs]
  · exact hmiss true

theorem State.opBegin_frozen (v q : Nat) : (s.opBegin v).frozen q = s.frozen q := by
  have hstep (u : State) (mv : Nat) : ((u.wr F.CPM_OP_OPSTATE 2).commandMv mv).frozen q = u.frozen q :=
    (State.wr_frozen _ (f := F.CPM_VOUT_CMD_MV) (by decide) mv q).trans (State.wr_frozen u (by decide) 2 q)
  unfold State.opBegin
  dsimp only
  split
  · rfl
  split
  · rw [State.opFailed, State.fault_frozen, State.cause0_frozen, State.wr_frozen _ (by decide)]
  · rw [hstep]
    split
    · exact State.wr_frozen _ (by decide) v q
    · rfl

theorem State.opIdle_frozen (q : Nat) : s.opIdle.frozen q = s.frozen q := by
  have hidle : (s.wr F.CPM_OP_OPSTATE 0).frozen q = s.frozen q := State.wr_frozen s (by decide) 0 q
  have hrun (u : State) : u.enterRun.frozen q = u.frozen q := by
    rw [State.enterRun, State.event_frozen, State.cause0_frozen, State.wr_frozen _ (by decide)]
  have hbegin (u : State) (c : CpmState) (v : Nat) : ({ u with cpm := c }.opBegin v).frozen q = u.frozen q :=
    State.opBegin_frozen _ v q
  cases htarget : s.cpm.target with
  | none =>
    simp only [State.opIdle, State.wr_cpm, htarget]
    split
    · rw [hrun, hidle]
    · exact hidle
  | some v =>
    simp only [State.opIdle, State.wr_cpm, htarget]
    split_ifs <;> simp only [hrun, hbegin, hidle]

theorem State.stayAwake_frozen (q : Nat) : s.stayAwake.frozen q = s.frozen q := by
  have hrun : (s.wr F.CPM_PWR_STAT_PSTATE 0).frozen q = s.frozen q := State.wr_frozen s (by decide) 0 q
  unfold State.stayAwake
  dsimp only
  split
  · rw [State.opIdle_frozen, hrun]
  · exact hrun

end

end Sys2Proof.Machine
end

section
/-! SUPPORT. Chip resets clear every freeze (R448), and a DEVICE-FATAL onset ends in one (R369, R372). -/

namespace Sys2Proof.Machine

/-! ## Resets clear every freeze (R448) -/

/-- DBG_FREEZE.ALL, and FROZEN and FREEZE of every freezable page. -/
def freezeFlds : List Fld :=
  F.DBG_FREEZE_ALL :: freezable.flatMap (fun x => [F.PAGE_STAT_FROZEN (0x1000 * x.1), F.PAGE_CTRL_FREEZE (0x1000 * x.1)])

theorem State.unfrozen_of_freezeFlds {t : State} (h : ∀ g ∈ freezeFlds, t.rd g = 0) :
    t.rd F.DBG_FREEZE_ALL = 0 ∧ freezable.all (fun x => !t.frozen x.1 && !t.on (F.PAGE_CTRL_FREEZE (0x1000 * x.1))) = true := by
  refine ⟨h _ List.mem_cons_self, List.all_eq_true.mpr fun x hx => ?_⟩
  have hmem (g : Fld) (hg : g ∈ [F.PAGE_STAT_FROZEN (0x1000 * x.1), F.PAGE_CTRL_FREEZE (0x1000 * x.1)]) : t.rd g = 0 :=
    h g (List.mem_cons_of_mem _ (List.mem_flatMap.mpr ⟨x, hx, hg⟩))
  simp [State.frozen, State.on, hmem]

/-- The fields that a chip reset with its cause bit writes after everything has returned to reset. -/
def chipWrites (cause : Fld) : List Fld :=
  chipKeeps ++ [F.SEC_STAT_ERASE, F.SEC_STAT_ROOT_LOCKED, cause, F.CPM_BOOT_CHIP_RESETS, F.INT_CAUSE_CAUSE 0xE000, F.CPM_PWR_STAT_DOM_ON,
    F.CPM_BOOT_STAGE]

theorem State.foldl_wr_rd_ne {g : Fld} {l : List Fld} (h : ∀ f ∈ l, g.key ≠ f.key) (v : Fld → Nat) (t : State) :
    (l.foldl (fun t f => t.wr f (v f)) t).rd g = t.rd g := by
  induction l generalizing t with
  | nil => rfl
  | cons f l ih =>
    rw [List.foldl_cons, ih fun f hf => h f (List.mem_cons_of_mem _ hf), State.rd_wr_ne _ _ (h f List.mem_cons_self)]

/-- A field that a chip reset does not write reads its reset value after it. -/
theorem State.chipReset_rd (s : State) {cause g : Fld} (h : ∀ f ∈ chipWrites cause, g.key ≠ f.key) :
    (s.chipReset cause).rd g = g.reset % 2 ^ g.width := by
  obtain ⟨hkeep, htail⟩ := List.forall_mem_append.mp h
  simp only [List.forall_mem_cons, List.not_mem_nil, false_imp_iff, implies_true, and_true] at htail
  obtain ⟨herase, hroot, hcause, hresets, hint, hdom, hstage⟩ := htail
  unfold State.chipReset
  dsimp only
  rw [State.wrs_cons, State.wrs_cons, State.wrs_nil, State.rd_wr_ne _ _ hstage, State.rd_wr_ne _ _ hdom]
  split_ifs <;>
    simp only [State.wrs_cons, State.wrs_nil, State.setBit_rd_ne _ _ _ hint, State.inc_rd_ne _ _ hresets, State.rd_wr_ne _ _ hcause,
      State.rd_wr_ne _ _ hroot, State.rd_wr_ne _ _ herase, State.foldl_wr_rd_ne hkeep] <;>
    rfl

/-- No chip reset writes a freeze, and every one of them is 0 at reset. -/
theorem freezeFlds_chipReset : ∀ cause ∈ [F.CPM_RST_CAUSE_PERST, F.CPM_RST_CAUSE_SOFTWARE, F.CPM_RST_CAUSE_FATAL], ∀ g ∈ freezeFlds,
    (∀ f ∈ chipWrites cause, g.key ≠ f.key) ∧ g.reset % 2 ^ g.width = 0 := by
  decide

theorem State.chipReset_unfrozen (s : State) {cause : Fld}
    (hcause : cause ∈ [F.CPM_RST_CAUSE_PERST, F.CPM_RST_CAUSE_SOFTWARE, F.CPM_RST_CAUSE_FATAL]) :
    (s.chipReset cause).rd F.DBG_FREEZE_ALL = 0 ∧
      freezable.all (fun x => !(s.chipReset cause).frozen x.1 && !(s.chipReset cause).on (F.PAGE_CTRL_FREEZE (0x1000 * x.1))) = true := by
  refine State.unfrozen_of_freezeFlds fun g hg => ?_
  obtain ⟨hwrites, hreset⟩ := freezeFlds_chipReset cause hcause g hg
  rw [State.chipReset_rd s hwrites, hreset]

theorem State.powerOn_unfrozen (s : State) (b : Bool) :
    (s.powerOn b).rd F.DBG_FREEZE_ALL = 0 ∧
      freezable.all (fun x => !(s.powerOn b).frozen x.1 && !(s.powerOn b).on (F.PAGE_CTRL_FREEZE (0x1000 * x.1))) = true := by
  refine State.unfrozen_of_freezeFlds fun g hg => ?_
  have hne : ∀ g ∈ freezeFlds, g.key ≠ F.CPM_PWR_STAT_DOM_ON.key ∧ g.key ≠ F.PFE_LASER_STAT_FAULT.key := by decide
  obtain ⟨hdom, hfault⟩ := hne g hg
  obtain ⟨-, hreset⟩ := freezeFlds_chipReset _ List.mem_cons_self g hg
  unfold State.powerOn
  dsimp only
  rw [State.wrs_cons, State.wrs_cons, State.wrs_nil, State.rd_wr_ne _ _ hfault, State.rd_wr_ne _ _ hdom]
  exact hreset

/-! ## A DEVICE-FATAL onset (R369, R372) -/

section
variable (s : State)

theorem State.srcClass_congr {t : State} (h : t.rd F.SEC_TAMPER_POL_POL = s.rd F.SEC_TAMPER_POL_POL) (src : Nat) :
    t.srcClass src = s.srcClass src := by
  unfold State.srcClass State.tamperPolicy
  rw [h]

theorem State.riseClass_onsetClass_congr {t : State} (h : t.rd F.SEC_TAMPER_POL_POL = s.rd F.SEC_TAMPER_POL_POL) (o : Onset) :
    t.riseClass o (t.onsetClass o) = s.riseClass o (s.onsetClass o) := by
  unfold State.riseClass State.onsetClass
  rw [State.srcClass_congr s h]

/-- A new DEVICE-FATAL record that DRY does not hold back asks for a chip reset. -/
theorem State.newRecord_fatal {o : Onset} (hclass : s.riseClass o (s.onsetClass o) = 3) (hdry : o.inj = false ∨ s.on F.FCU_CTRL_DRY = false) :
    (s.newRecord o).fcu.fatal = true := by
  unfold State.newRecord
  dsimp only
  rw [hclass, State.reactDry, if_neg]
  · rfl
  · rintro ⟨hinj, -, hon⟩
    rcases hdry with h | h
    · rw [h] at hinj; cases hinj
    · rw [State.on, State.rd_wrs_ne, ← State.on, h] at hon
      · cases hon
      · simp only [List.forall_mem_cons, List.not_mem_nil, false_imp_iff, implies_true, and_true, Fld.key, F.FCU_CTRL_DRY,
          F.FCU_REC_W0_VALID, F.FCU_REC_W0_CLASS, F.FCU_REC_W0_RAIL, F.FCU_REC_W0_INJ, F.FCU_REC_W0_MULTI, F.FCU_REC_W0_ESC_HIT,
          F.FCU_REC_W0_COUNT, F.FCU_REC_W1_SCOPE_KIND, F.FCU_REC_W1_SCOPE, F.FCU_REC_W1_CODE, F.FCU_REC_FIRST_TIME]
        omega

/-- What FCU reads of the state to handle an onset: registers of blocks below STA's counters. -/
theorem State.handleOnset_fatal {t : State} {o : Onset} (hrd : ∀ g : Fld, 0x40 ≤ g.key / 32 % 0x1000 → g.key / 32 < 0x20100 → t.rd g = s.rd g)
    (hsampled : s.sampled o = true) (hvalid : s.on (F.FCU_REC_W0_VALID o.src.val) = false) (hclass : s.riseClass o (s.onsetClass o) = 3)
    (hdry : o.inj = false ∨ s.on F.FCU_CTRL_DRY = false) : (t.handleOnset o).fcu.fatal = true := by
  have hsample : t.sampled o = true := by
    rw [← hsampled]
    simp only [State.sampled, State.domOn, hrd F.CPM_PWR_STAT_DOM_ON (by decide) (by decide)]
  have hcount {g : Fld} (hlow : g.key / 32 < 0x20100) : g.key ≠ (F.STA_LIVE_COUNT 30).key := by
    intro h
    rw [h] at hlow
    exact absurd hlow (by decide)
  have hon (g : Fld) (hblock : 0x40 ≤ g.key / 32 % 0x1000) (hlow : g.key / 32 < 0x20100) : (t.stat 30).on g = s.on g :=
    congrArg (· != 0) ((State.stat_rd_ne t 30 1 (hcount hlow)).trans (hrd g hblock hlow))
  have hnew : (t.stat 30).on (F.FCU_REC_W0_VALID o.src.val) = false := by
    rw [← hvalid]
    apply hon <;> simp only [Fld.key, F.FCU_REC_W0_VALID] <;> omega
  have hpolicy : (t.stat 30).rd F.SEC_TAMPER_POL_POL = s.rd F.SEC_TAMPER_POL_POL :=
    (State.stat_rd_ne t 30 1 (by decide)).trans (hrd _ (by decide) (by decide))
  unfold State.handleOnset
  dsimp only
  rw [hsample, hnew]
  refine State.newRecord_fatal _ ((State.riseClass_onsetClass_congr s hpolicy o).trans hclass) (hdry.imp_right fun h => ?_)
  rw [hon _ (by decide) (by decide), h]

/-- An onset of class DEVICE-FATAL ends in a chip reset. -/
theorem exec_faultOnset_fatal {p : PairTrace} {o : Onset} (htrace : s.traceOnset? p = some o)
    (hvalid : s.on (F.FCU_REC_W0_VALID o.src.val) = false) (hclass : s.riseClass o (s.onsetClass o) = 3)
    (hdry : o.inj = false ∨ s.on F.FCU_CTRL_DRY = false) :
    ∃ u : State, exec (.faultOnset p) s = .next (u.chipReset F.CPM_RST_CAUSE_FATAL) := by
  unfold State.traceOnset? at htrace
  split at htrace
  · next v hv =>
    split at htrace
    · next hsampled =>
      obtain ⟨w, hw, rfl⟩ := Option.map_eq_some_iff.mp htrace
      refine ⟨((s.setPair (traceOnset p w) ((s.pairMem p.src).sample (railOf v)).1).errCause p.src p.scope p.code.toNat).handleOnset
        (traceOnset p w), congrArg Host.Outcome.next ?_⟩
      have hfatal := State.handleOnset_fatal s (o := traceOnset p w)
        (t := (s.setPair (traceOnset p w) ((s.pairMem p.src).sample (railOf v)).1).errCause p.src p.scope p.code.toNat)
        (fun g hg _ => State.errCause_rd_ne _ hg _ _ _) hsampled hvalid hclass hdry
      rw [hv, List.foldl_cons, List.foldl_nil, State.pairSample]
      dsimp only
      rw [hsampled, hw]
      exact if_pos hfatal
    · cases htrace
  · cases htrace

end

end Sys2Proof.Machine
end

section
/-! SUPPORT. Register writes that freeze (R448): DBG_FREEZE from the aperture and from PF0, PAGE_CTRL.FREEZE from PF0, and who is
refused. -/

namespace Sys2Proof.Machine

/-! ## Writes of block registers by PF0 and the aperture -/

/-- The word at a is of PF0's block registers, outside the windows, the atomic slots and GLB_ACCESS_ERR; its fields are no wider than it, and
no page lock covers them. -/
def plainWord (a : Nat) : Bool :=
  implAt a && decide (0x40 ≤ a % 0x1000) && decide (a < 0x100000) && !isWinPage (pageOf a) && (evrWord a).isNone && (atmSlot a).isNone &&
    decide (a ≠ 0x5C) && !(fieldsAt (pageRows a) a).isEmpty &&
    (fieldsAt (pageRows a) a).all (fun x => x.1.acc != .rwl && decide (x.2.1.lo + x.2.1.width ≤ 32))

/-- A write of such a word by PF0 or the aperture takes its effect on the page. -/
theorem State.busWrite_plain {s : State} {r : Req} {a : Nat} (ha : plainWord a = true) (hr : s.pfReads r (pageOf a) = true) (v : Nat) :
    s.busWrite r a v = (s.noteReserved r a (v % 2 ^ 32) (fieldsAt (pageRows a) a)).pfWrite r a (v % 2 ^ 32) (fieldsAt (pageRows a) a) := by
  simp only [plainWord, Bool.and_eq_true, decide_eq_true_eq, Bool.not_eq_true', Option.isNone_iff_eq_none, List.all_eq_true,
    bne_iff_ne, ne_eq, List.isEmpty_eq_false_iff] at ha
  obtain ⟨⟨⟨⟨⟨⟨⟨⟨himpl, hblock⟩, hlow⟩, hwin⟩, hevr⟩, hslot⟩, hglb⟩, hsome⟩, hfields⟩ := ha
  obtain ⟨hreq, hreach, hbusy⟩ := (State.pfReads_iff s r _).mp hr
  have hvf : vfOf a = 0 := if_pos hlow
  have hpage : underPage a = pageOf a := if_pos hvf
  have hpos : 0x1000 * pageOf a < 0x100000 := by rw [pageOf, if_pos hlow]; omega
  have hhead : ¬ a % 0x1000 < 0x40 := by omega
  have hlock : (fieldsAt (pageRows a) a).any (fun y => y.1.acc == .rwl) = false := by
    rw [List.any_eq_false]
    exact fun y hy => by simp [(hfields y hy).1]
  have hwide : (fieldsAt (pageRows a) a).any (fun y => decide (32 < y.2.1.lo + y.2.1.width)) = false := by
    rw [List.any_eq_false]
    exact fun y hy => by simpa using (hfields y hy).2
  rw [State.busWrite, State.reaches_congr s hreq hlow hpos, if_pos hreach, busAddr_pf0 hreq]
  simp only [State.writeWord, himpl, if_neg hhead, hpage, hbusy, hvf, hwin, hevr, hslot, hlock, hwide, if_neg hglb]
  generalize fieldsAt (pageRows a) a = fs at hsome ⊢
  cases fs with
  | nil => exact absurd rfl hsome
  | cons x fs => simp [State.noteReserved]

theorem plainWord_dbgFreeze : plainWord 0x22048 = true := by decide

theorem plainWord_rstCtrl : plainWord 0x108C = true := by decide

/-- DBG_FREEZE holds ALL and FORCE. -/
theorem State.busWrite_dbgFreeze {s : State} {r : Req} (hw : s.pfWrites r 0x22 = true) {v : Nat} (hv : v < 4) :
    s.busWrite r 0x22048 v = s.dbgFreezeWrite r 0x22048 v := by
  rw [State.busWrite_plain plainWord_dbgFreeze (State.pfReads_of_pfWrites hw), Nat.mod_eq_of_lt (by omega)]
  have hreserved : ∀ v < 4, v &&& (0xFFFFFFFF - coverMask (fieldsAt (pageRows 0x22048) 0x22048)) = 0 := by decide
  rw [State.noteReserved, if_pos (hreserved v hv)]
  rfl

theorem exec_dbgFreezeAll {s : State} {r : Req} (hw : s.pfWrites r 0x22 = true) (on : Bool) :
    exec (.dbgFreezeAll r on) s = .next (s.dbgFreezeWrite r 0x22048 (b2n on)) :=
  congrArg Host.Outcome.next (State.busWrite_dbgFreeze hw (by cases on <;> decide))

theorem exec_forceFreeze {s : State} {r : Req} (hw : s.pfWrites r 0x22 = true) :
    exec (.forceFreeze r) s = .next (s.dbgFreezeWrite r 0x22048 3) :=
  congrArg Host.Outcome.next (State.busWrite_dbgFreeze hw (by decide))

/-- Only the aperture writes DBG_FREEZE (R448). -/
theorem State.dbgFreezeWrite_pf0 (s : State) (a v : Nat) : s.dbgFreezeWrite 0 a v = s.bad 0 a := if_pos (by decide)

/-- What is written to ALL is what it reads. -/
theorem State.dbgFreezeWrite_rd_all (s : State) (a : Nat) (on : Bool) : (s.dbgFreezeWrite 65 a (b2n on)).rd F.DBG_FREEZE_ALL = b2n on := by
  cases on with
  | true => exact State.freezeAll_rd_all s
  | false =>
    show (if s.on F.DBG_FREEZE_ALL then s.thawAll else s).rd F.DBG_FREEZE_ALL = 0
    split
    · exact State.thawAll_rd_all s
    · next h => simpa [State.on] using h

theorem State.dbgFreezeWrite_force_frozen (s : State) (a : Nat) {x : Nat × Nat} (hx : x ∈ freezable) :
    (s.dbgFreezeWrite 65 a 3).frozen x.1 = true := by
  show (if s.pstate = 1 then s.forceFreeze.stayAwake else s.forceFreeze).frozen x.1 = true
  split
  · rw [State.stayAwake_frozen, State.forceFreeze_frozen s hx]
  · exact State.forceFreeze_frozen s hx

/-- The locked aperture's writes find no register (R442). -/
theorem State.busWrite_locked {s : State} (hlocked : s.on F.DBG_STAT_UNLOCKED = false) (a v : Nat) : s.busWrite 65 a v = s := by
  have hreach : s.reaches 65 a = false := by simp [State.reaches, hlocked]
  rw [State.busWrite, hreach]
  rfl

theorem exec_softwareReset_key {s : State} {r : Req} {v : Word} (hw : s.pfWrites r 1 = true) (hkey : v.toNat % 2 ^ 16 = 0xA5C3) :
    ∃ u : State, exec (.softwareReset r v) s = .next (u.chipReset F.CPM_RST_CAUSE_SOFTWARE) := by
  refine ⟨s.noteReserved r 0x108C v.toNat (fieldsAt (pageRows 0x108C) 0x108C), congrArg Host.Outcome.next ?_⟩
  rw [State.busWrite_plain plainWord_rstCtrl (State.pfReads_of_pfWrites hw), Nat.mod_eq_of_lt v.isLt]
  exact if_pos hkey

/-! ## PF0's PAGE_CTRL.FREEZE -/

/-- What is so of each of the freezable pages. -/
theorem freezable_page {x : Nat × Nat} (hx : x ∈ freezable) :
    x.1 ≤ 0x23 ∧ implPage x.1 = true ∧ enFixed x.1 = false ∧ freezable.find? (fun y => y.1 == x.1) = some x := by
  revert x; decide

theorem State.b2n_on (s : State) {f : Fld} (hf : f.width = 1) : b2n (s.on f) = s.rd f := by
  have hlt : s.rd f < 2 := by simpa [hf] using State.rd_lt s f
  rw [State.on, b2n]
  split <;> simp_all; omega

/-- PAGE_CTRL reads EN in bit 0. -/
theorem State.pageCtrl_mod_two {x : Nat × Nat} (hx : x ∈ freezable) (s : State) :
    s.pageCtrl 0 x.1 % 2 = b2n (s.on (F.PAGE_CTRL_EN (0x1000 * x.1))) := by
  have hword : s.pageCtrl 0 x.1 = (BitVec.ofNat 32 (0 + s.rd (F.PAGE_CTRL_EN (0x1000 * x.1)) * 2 ^ 0 % 2 ^ 32 +
      s.rd (F.PAGE_CTRL_SOFT_RST (0x1000 * x.1)) * 2 ^ 1 % 2 ^ 32 + s.rd (F.PAGE_CTRL_FREEZE (0x1000 * x.1)) * 2 ^ 2 % 2 ^ 32)).toNat := by
    simp only [freezable, List.mem_cons, List.not_mem_nil, or_false] at hx
    rcases hx with rfl | rfl | rfl | rfl | rfl | rfl | rfl | rfl | rfl | rfl | rfl <;> rfl
  rw [State.b2n_on s rfl, hword, BitVec.toNat_ofNat]
  have hbit := State.rd_lt s (F.PAGE_CTRL_EN (0x1000 * x.1))
  simp only [F.PAGE_CTRL_EN] at *
  omega

/-- A write of the three bits of PAGE_CTRL is not a reserved write. -/
theorem State.busWrite_pageCtrl {x : Nat × Nat} (hx : x ∈ freezable) {s : State} (hr : s.reaches 0 (0x1000 * x.1) = true) {v : Nat}
    (hv : v < 8) : s.busWrite 0 (0x1000 * x.1 + 0xC) v = s.ctrlWrite 0 (0x1000 * x.1 + 0xC) x.1 v := by
  obtain ⟨hlow, himpl, -, -⟩ := freezable_page hx
  have hoff : (0x1000 * x.1 + 0xC) % 0x1000 = 0xC := by omega
  have hpf : vfOf (0x1000 * x.1 + 0xC) = 0 := if_pos (by omega)
  have hpage : pageOf (0x1000 * x.1 + 0xC) = x.1 := by rw [pageOf, if_pos (by omega)]; omega
  have hreserved : ∀ v < 8, (v &&& (0xFFFFFFFF - 7)) = 0 := by decide
  rw [State.busWrite, State.reaches_congr s (Or.inl rfl) (by omega) (b := 0x1000 * x.1) (by omega), if_pos hr, busAddr_pf0 (Or.inl rfl),
    Nat.mod_eq_of_lt (by omega)]
  simp [State.writeWord, State.headWrite, implAt, hpf, hpage, himpl, hoff, hreserved v hv]

/-- To write EN as it is changes no register but the error record's. -/
theorem State.enableWrite_frame {s : State} {pg : Nat} (hfix : enFixed pg = false) (hdom : s.domOn 1 = true) (r : Req) (a : Nat) :
    Frame s (s.orBad r a (s.enableWrite pg (s.on (F.PAGE_CTRL_EN (0x1000 * pg))))) (accessErrFields F.GLB_ACCESS_ERR_BADVAL)
      [.outputs, .host, .faults] := by
  have hset (x : FcuState) : Frame s (({ s with fcu := x } : State).setEn pg (s.on (F.PAGE_CTRL_EN (0x1000 * pg))))
      (accessErrFields F.GLB_ACCESS_ERR_BADVAL) [.outputs, .host, .faults] := by
    have hsame : ({ s with fcu := x } : State).en pg = s.on (F.PAGE_CTRL_EN (0x1000 * pg)) :=
      (congrArg (s.on (F.PAGE_CTRL_EN (0x1000 * pg)) && ·) hdom).trans (Bool.and_true _)
    rw [State.setEn, if_pos hsame]
    refine Kept.frame (Kept.updFcu (Kept.refl _ s) (Sub.refl _)) (fun _ _ => rfl) fun p => ?_
    cases p with
    | page n => intro hp; cases hp
    | _ => decide
  rw [State.enableWrite, if_neg (by simp [hfix])]
  split
  · exact ⟨(State.bad_frame s r a).1, fun p hp hps => (State.bad_frame s r a).2 p hp (by simp_all)⟩
  split
  · exact hset _
  · exact hset s.fcu

theorem Kept.rd_header {m : Nat} {s t : State} (h : Kept m s t) {g : Fld} (hg : g.key / 32 % 0x1000 < 0x40) (hlow : m.testBit 16 = false)
    (hhigh : m.testBit 18 = false) : t.rd g = s.rd g := by
  refine h.rd g ?_
  unfold Fld.part partAt
  split
  · exact hhigh
  · exact hlow

theorem State.freezePage_frozen (s : State) {x : Nat × Nat} (hdefer : s.defers x.1 = false) : (s.freezePage x).frozen x.1 = true := by
  unfold State.freezePage
  split
  · assumption
  · rw [if_neg (by simp [hdefer])]
    exact State.freezeNow_frozen_same _ _ _

/-- A freeze writes no PAGE_CTRL. -/
theorem State.freezePage_rd_freeze (s : State) (x : Nat × Nat) (pg : Nat) :
    (s.freezePage x).rd (F.PAGE_CTRL_FREEZE (0x1000 * pg)) = s.rd (F.PAGE_CTRL_FREEZE (0x1000 * pg)) := by
  have hfrozen : (F.PAGE_CTRL_FREEZE (0x1000 * pg)).key ≠ (F.PAGE_STAT_FROZEN (0x1000 * x.1)).key := by
    simp only [Fld.key, F.PAGE_CTRL_FREEZE, F.PAGE_STAT_FROZEN]; omega
  have hpend : (F.PAGE_CTRL_FREEZE (0x1000 * pg)).key ≠ (F.PAGE_STAT_FREEZE_PEND (0x1000 * x.1)).key := by
    simp only [Fld.key, F.PAGE_CTRL_FREEZE, F.PAGE_STAT_FREEZE_PEND]; omega
  have hint : (F.PAGE_CTRL_FREEZE (0x1000 * pg)).key ≠ (F.INT_CAUSE_CAUSE (0x1000 * 0x22)).key := by
    simp only [Fld.key, F.PAGE_CTRL_FREEZE, F.INT_CAUSE_CAUSE]; omega
  have hheader : (F.PAGE_CTRL_FREEZE (0x1000 * pg)).key / 32 % 0x1000 < 0x40 := by simp only [Fld.key, F.PAGE_CTRL_FREEZE]; omega
  have hpendAll := (Fld.key_ne_of_header hheader (g := F.DBG_PEND_PEND) (by decide)).symm
  have hstat := (Fld.key_ne_of_header hheader (g := F.DBG_FREEZE_STAT_FROZEN) (by decide)).symm
  unfold State.freezePage
  split
  · rfl
  split
  · rw [State.setBit_rd_ne _ _ _ hpendAll, State.rd_wr_ne _ _ hpend]
  · rw [State.freezeNow_rd_ne _ _ hfrozen hpend hpendAll hstat hint]
    exact State.ite_rd ((State.rcuFreeze_kept (Sub.refl _) (Kept.refl _ s)).rd_header hheader (by decide) (by decide)) rfl

theorem State.defers_congr {s t : State} (pg : Nat) (hcsq : t.csq = s.csq) (hpsm : t.psm = s.psm)
    (htko : t.rd F.TWN_STAT_TKO = s.rd F.TWN_STAT_TKO) (hstate : ∀ p, t.psmState p = s.psmState p) : t.defers pg = s.defers pg := by
  unfold State.defers State.psmBusy
  rw [hcsq, hpsm, htko, funext hstate]

/-- What an access error and a write of FREEZE change, no page's deferral depends on. -/
theorem Frame.defers_wr_freeze {s u : State} {ps : List Part} (hframe : Frame s u (accessErrFields F.GLB_ACCESS_ERR_BADVAL) ps)
    (hcsq : Part.circuits ∉ ps) (hpsm : Part.sums ∉ ps) (pg v q : Nat) :
    (u.wr (F.PAGE_CTRL_FREEZE (0x1000 * pg)) v).defers q = s.defers q := by
  obtain ⟨hregs, hparts⟩ := hframe
  have hheader : (F.PAGE_CTRL_FREEZE (0x1000 * pg)).key / 32 % 0x1000 < 0x40 := by simp only [Fld.key, F.PAGE_CTRL_FREEZE]; omega
  refine State.defers_congr q (hparts .circuits rfl hcsq) (hparts .sums rfl hpsm) ?_ fun p => ?_
  · rw [State.rd_wr_ne _ _ (Fld.key_ne_of_header hheader (by decide)), hregs _ (by decide)]
  · have hkey : 0x40 ≤ (F.PSM_STAT_STATE p).key / 32 % 0x1000 := by simp only [Fld.key, F.PSM_STAT_STATE]; omega
    rw [State.psmState, State.rd_wr_ne _ _ (Fld.key_ne_of_header hheader hkey), hregs, State.psmState]
    simp only [accessErrFields, List.forall_mem_cons, Fld.key, F.PSM_STAT_STATE, F.GLB_ACCESS_ERR_BADVAL, F.GLB_ACCESS_ERR_LAST_PAGE,
      F.GLB_ACCESS_ERR_LAST_OFFSET, F.GLB_ACCESS_ERR_LAST_SRC, F.INT_CAUSE_CAUSE]
    refine ⟨by omega, by omega, by omega, by omega, by omega, by simp⟩

/-- A write of a freezable page's PAGE_CTRL with EN as it is and FREEZE 1, where it was 0, freezes the page or defers that. -/
theorem State.ctrlWrite_freeze {x : Nat × Nat} (hx : x ∈ freezable) {s : State} (hdom : s.domOn 1 = true)
    (hfreeze : s.on (F.PAGE_CTRL_FREEZE (0x1000 * x.1)) = false) (r : Req) (a : Nat) :
    ∃ u : State, Frame s u (accessErrFields F.GLB_ACCESS_ERR_BADVAL) [.outputs, .host, .faults] ∧
      s.ctrlWrite r a x.1 (b2n (s.on (F.PAGE_CTRL_EN (0x1000 * x.1))) + 4) =
        (u.wr (F.PAGE_CTRL_FREEZE (0x1000 * x.1)) 1).freezePage x := by
  obtain ⟨-, -, hfix, hfind⟩ := freezable_page hx
  have hframe := State.enableWrite_frame hfix hdom r a
  generalize hen : s.on (F.PAGE_CTRL_EN (0x1000 * x.1)) = en at hframe ⊢
  have hen0 : bitOf (b2n en + 4) 0 = en := by cases en <;> rfl
  have hen1 : bitOf (b2n en + 4) 1 = false := by cases en <;> rfl
  have hen2 : bitOf (b2n en + 4) 2 = true := by cases en <;> rfl
  have hwas : (s.orBad r a (s.enableWrite x.1 en)).on (F.PAGE_CTRL_FREEZE (0x1000 * x.1)) = false := by
    rw [State.on, hframe.1 _ ?_]
    · exact hfreeze
    · simp only [accessErrFields, List.forall_mem_cons, Fld.key, F.PAGE_CTRL_FREEZE, F.GLB_ACCESS_ERR_BADVAL, F.GLB_ACCESS_ERR_LAST_PAGE,
        F.GLB_ACCESS_ERR_LAST_OFFSET, F.GLB_ACCESS_ERR_LAST_SRC, F.INT_CAUSE_CAUSE]
      refine ⟨by omega, by omega, by omega, by omega, by omega, by simp⟩
  refine ⟨_, hframe, ?_⟩
  simp [State.ctrlWrite, State.setFreeze, hen0, hen1, hen2, hwas, hfind]
  rfl

theorem exec_pageFreeze {x : Nat × Nat} (hx : x ∈ freezable) {pg : PageIx} (hpg : x.1 = pg.val) {s : State}
    (hr : s.reaches 0 (0x1000 * pg.val) = true) (hfreeze : s.on (F.PAGE_CTRL_FREEZE (0x1000 * pg.val)) = false) :
    ∃ u : State, Frame s u (accessErrFields F.GLB_ACCESS_ERR_BADVAL) [.outputs, .host, .faults] ∧
      exec (.pageFreeze 0 pg true) s = .next ((u.wr (F.PAGE_CTRL_FREEZE (0x1000 * x.1)) 1).freezePage x) := by
  rw [← hpg] at hr hfreeze
  have hdom : s.domOn 1 = true := by simp only [State.reaches, Bool.and_eq_true] at hr; exact hr.1
  obtain ⟨u, hframe, hu⟩ := State.ctrlWrite_freeze hx hdom hfreeze 0 (0x1000 * x.1 + 0xC)
  refine ⟨u, hframe, congrArg Host.Outcome.next ?_⟩
  have hbit : b2n (s.on (F.PAGE_CTRL_EN (0x1000 * x.1))) + 4 < 8 := by cases s.on (F.PAGE_CTRL_EN (0x1000 * x.1)) <;> decide
  rw [← hpg, State.pageCtrl_mod_two hx, ← hu]
  exact State.busWrite_pageCtrl hx hr hbit

/-- Settles O12: DBG_FREEZE.ALL is written by the aperture's own write and by a chip reset alone, whatever freezing or thawing the blocks then
goes on to do; PF0's write of PAGE_CTRL.FREEZE freezes its block through the same rule as ALL. -/
theorem onlyTheApertureFreezes : Obligations.OnlyTheApertureFreezes := by
  unfold Obligations.OnlyTheApertureFreezes
  have hbad (s : State) (v : Nat) : (s.dbgFreezeWrite 0 0x22048 v).rd F.GLB_ACCESS_ERR_BADVAL = 1 ∧
      Frame s (s.dbgFreezeWrite 0 0x22048 v) (accessErrFields F.GLB_ACCESS_ERR_BADVAL) [.outputs, .host] := by
    rw [State.dbgFreezeWrite_pf0]
    exact ⟨State.bad_rd_badval s 0 _, State.bad_frame s 0 _⟩
  refine ⟨fun on s hw => ?all, fun s hw => ?force, fun on s h => ?locked, fun on s hw => ?pf0All, fun s hw => ?pf0Force,
    fun pg s hr hpg hfreeze => ?page, fun b s => ?powerOn, fun s hstage => ?perst, fun r v s hw hkey => ?software,
    fun p o s htrace hvalid hclass hdry => ?fatal⟩
  case all => exact ⟨_, exec_dbgFreezeAll hw on, State.dbgFreezeWrite_rd_all s _ on⟩
  case force => exact ⟨_, exec_forceFreeze hw, List.all_eq_true.mpr fun x hx => State.dbgFreezeWrite_force_frozen s _ hx⟩
  case locked => exact ⟨⟨_, rfl, State.busWrite_locked h _ _⟩, ⟨_, rfl, State.busWrite_locked h _ _⟩⟩
  case pf0All => exact ⟨_, exec_dbgFreezeAll hw on, hbad s _⟩
  case pf0Force => exact ⟨_, exec_forceFreeze hw, hbad s _⟩
  case page =>
    obtain ⟨x, hx, hpage⟩ := List.any_eq_true.mp hpg
    have hpage : x.1 = pg.val := by simpa using hpage
    obtain ⟨u, hframe, hexec⟩ := exec_pageFreeze hx hpage hr hfreeze
    refine ⟨_, hexec, ?_, fun hdefer => ?_⟩
    · rw [← hpage, State.freezePage_rd_freeze, State.rd_wr_same]
      rfl
    · rw [← hpage] at hdefer ⊢
      exact State.freezePage_frozen _ ((hframe.defers_wr_freeze (by decide) (by decide) _ _ _).trans hdefer)
  case powerOn => exact ⟨_, rfl, State.powerOn_unfrozen s b⟩
  case perst =>
    exact ⟨_, congrArg Host.Outcome.next (if_neg (Nat.not_lt.mpr hstage)), State.chipReset_unfrozen _ (by decide)⟩
  case software =>
    obtain ⟨u, hexec⟩ := exec_softwareReset_key hw hkey
    exact ⟨_, hexec, State.chipReset_unfrozen u (by decide)⟩
  case fatal =>
    obtain ⟨u, hexec⟩ := exec_faultOnset_fatal s htrace hvalid hclass hdry
    exact ⟨_, hexec, State.chipReset_unfrozen u (by decide)⟩

end Sys2Proof.Machine
end
